-- ==== Sys2Proof/Word.lean ====
section
/-! DEFINITION. The word types of the KG9: bytes and 64-bit words. -/

namespace Sys2Proof

/-- One byte. -/
abbrev Byte := BitVec 8

/-- A 64-bit word: a G register, a control register, an address while it is computed. -/
abbrev Word := BitVec 64

end Sys2Proof
end

