-- ==== Sys2Proof/Syntax.lean ====
section
/-! DEFINITION. The commands of the block: one constructor of `Instr` per row of spec/opcode_table.json, with the
row's operands, and the plain data those operands are made of. -/

namespace Sys2Proof

/-- F-A register-register fields (R107). -/
structure FA where
  r1 : BitVec 5
  r2 : BitVec 5
  r3 : BitVec 5
  fn : BitVec 9
  deriving DecidableEq, Repr

/-- F-B register-memory fields (R107). -/
structure FB where
  r1 : BitVec 5
  am : BitVec 2
  b : BitVec 5
  d12 : BitVec 12
  deriving DecidableEq, Repr

/-- F-C register-immediate fields (R107). -/
structure FC where
  r1 : BitVec 5
  r2 : BitVec 5
  imm14 : BitVec 14
  deriving DecidableEq, Repr

/-- F-D extended fields, a 64-bit instruction (R107); `z` is the field that must be zero. -/
structure FD where
  r1 : BitVec 5
  am : BitVec 3
  b : BitVec 5
  x : BitVec 5
  s : BitVec 3
  z : BitVec 3
  l : BitVec 4
  imm8 : BitVec 8
  d20 : BitVec 20
  deriving DecidableEq, Repr

/-- F-E string/block fields (R107). -/
structure FE where
  rd : BitVec 5
  rs : BitVec 5
  rc : BitVec 5
  rp : BitVec 5
  opt : BitVec 4
  deriving DecidableEq, Repr

/-- F-J branch fields (R107). -/
structure FJ where
  cond : BitVec 4
  off20 : BitVec 20
  deriving DecidableEq, Repr

/-- Which read of host memory failed (R62): a request entry of ring `k`, the source of request `seq`, or an engine's
load from a host window. -/
inductive HostRead where
  | entry (fn k : Nat)
  | source (fn : Nat) (seq : BitVec 32)
  | window (p : Nat) (va : BitVec 64) (len ilen : Nat) (poisoned : Bool)
  deriving DecidableEq, Repr

/-- What went wrong in a job or a transfer, seen from outside the model: a line whose tag failed after `at_` good bytes
(R238, R298), a host read that failed three times, host data that arrived poisoned (R62), or another failure. -/
inductive JobFault where
  | lineTag (at_ : Nat)
  | hostReadFailed
  | hostPoisoned
  | other
  deriving DecidableEq, Repr

/-- The micro state a micro-trap captures (R187): the routines' ROM is not in the spec, so the words come with the
command. `regs` are the registers whose values the routine has read; `edit` gives the fields of an interrupted EDITP, whose
pattern was read before the trap. -/
structure MicroTrap where
  op : Byte
  mpc : BitVec 13
  uflags : BitVec 16
  count : BitVec 16
  stack : List (BitVec 16)
  mt : Vector (BitVec 64) 8
  regs : List (BitVec 5)
  edit : Option FE
  deriving DecidableEq, Repr

/-- What a scrub or check finds in a line (R216, R234, R326). -/
inductive LineError where
  | clean
  | correctable
  | uncorrectable
  | tagOne
  | tagTwo
  deriving DecidableEq, Repr

/-- A cache error (R216): which array of which unit, and the line it concerns. -/
inductive CacheFault where
  | l1iLine (p line : Nat)
  | l1iTag (p set : Nat)
  | l1dLine (p line : Nat)
  | l1dTag (p set : Nat)
  | domeCode (t line : Nat) (correctable : Bool)
  | domeTag (t line : Nat) (twoBits : Bool)
  | lineTag (line : Nat) (secondReadGood : Bool)
  deriving DecidableEq, Repr

/-- Causes of an engine event, in the order of their DETAIL codes 1 to 7 (R339). -/
inductive EngineCause where
  | residue
  | registerParity
  | l1dParity
  | microcode
  | duplicated
  | watchdog
  | quickCheck
  deriving DecidableEq, Repr

/-- What of a tower stops (R32). -/
inductive TowerBlock where
  | dome
  | dispatcher
  | computeDie
  deriving DecidableEq, Repr

/-- The hub blocks that are not replicated (R32, R339). -/
inductive HubBlock where
  | fabric
  | instanceUnit
  | datamover
  | lineIntegrity
  | channelSubsystem
  | hostPort
  deriving DecidableEq, Repr

/-- A unit by its SOURCE and UNIT codes (R339), with a dome way or zero. -/
structure UnitId where
  source : Nat
  unit : Nat
  way : Nat
  deriving DecidableEq, Repr

/-- The end of a runtime test (R437). -/
inductive TestResult where
  | pass
  | fail
  | incomplete (cause done expected : Nat)
  deriving DecidableEq, Repr

/-- What a start-up finds that the model cannot compute: the milliseconds to tower release and to the boot-record entry, the power-on test results (R434), the units
the tests fence and those repaired by rows, lanes or the spare segment, with the kind of R447 (R439), a hub failure (R440), whether the boot-record entry was written (R403), and damage to the NOR: the seal of the
owner key package (R403), the calibration page (R450). -/
structure StartResult where
  ms : BitVec 32
  entryMs : BitVec 32
  bistPass : BitVec 64
  bistFail : BitVec 64
  bistIncomplete : BitVec 64
  softRepairs : BitVec 16
  fenced : List UnitId
  hubFailure : Option (Nat × UnitId)
  entryWritten : Bool
  sealLost : Bool
  calLost : Bool
  retrained : List (Nat × List Byte)
  repaired : List (UnitId × Nat)
  deriving DecidableEq, Repr

/-- A device's answer to one outstanding command of an operation (R254, R274). -/
inductive DevOutcome where
  | good (data : List Byte)
  | pathRelated
  | guardOnWrite
  | guardOnRead
  | referenceOnRead
  | error (status : BitVec 15)
  deriving DecidableEq, Repr

structure DevCompletion where
  lba : Nat
  outcome : DevOutcome
  deriving DecidableEq, Repr

/-- IDENT (R352) as received, with the partner's timebase plus half the measured round trip. -/
structure IdentMsg where
  modid : BitVec 22
  structHash : List Byte
  ucodeHash : List Byte
  boot : BitVec 64
  tb : BitVec 64
  deriving DecidableEq, Repr

/-- PROTECT (R363): what the partner's instance unit needs to create the secondary copy with equal holdings; `shares` gives pool code × 16 +
tower, guarantee and shared cap. -/
structure ProtectMsg where
  i : Nat
  vectors : Nat
  label : BitVec 64
  main : List Nat
  bulk : List Nat
  shares : List (Nat × Nat × Nat)
  empty : Bool
  deriving DecidableEq, Repr

/-- The registers of PCI Express configuration space that a configuration request names (R36). The spec gives no
offsets, so a register is named by its kind. -/
inductive CfgReg where
  | id
  | command
  | bar (n : Nat)
  | vfBar (n : Nat)
  | sriovControl
  | msixControl
  | deviceCap
  | deviceControl
  | deviceCap2
  | deviceCap3
  | powerCap
  | powerControl
  | sriovVfs
  | sriovLayout
  | sriovPageSizes
  | ari
  | aerUncorrectable
  | aerCorrectable
  | doeControl
  | other (dword : Nat)
  deriving DecidableEq, Repr

/-- An access of the host to a register of a BAR (R42, R43): a write of some bytes, or a read of a number of bytes. -/
inductive RegAccess where
  | write (data : List Byte)
  | read (len : Nat)
  deriving DecidableEq, Repr

/-- The instructions of the boundary-scan TAP (R469). -/
inductive TapInsn where
  | bypass
  | idcode
  | samplePreload
  | extest
  | extestPulse
  | extestTrain
  | clamp
  | highz
  deriving DecidableEq, Repr

/-- The commands. Virtual functions are numbered 1 to 512 with 0 for PF 0, instances 0 to 511, physical engines 0 to 127 with
128 + t for the fuse reserve of tower t. -/
inductive Instr where
  /-- REQ_RING_DOORBELL (R53) -/
  | reqRingDoorbell (fn k off : Nat) (data : List Byte)
  /-- CPL_RING_DOORBELL (R53) -/
  | cplRingDoorbell (fn k off : Nat) (data : List Byte)
  /-- RING_BASE_WRITE (R52) -/
  | ringBaseWrite (fn k : Nat) (cpl : Bool) (off : Nat) (data : List Byte)
  /-- REQ_RING_CTL_WRITE (R52) -/
  | reqRingCtlWrite (fn k off : Nat) (data : List Byte)
  /-- CPL_RING_CTL_WRITE (R52) -/
  | cplRingCtlWrite (fn k off : Nat) (data : List Byte)
  /-- KEY_STAGING_WRITE (R285) -/
  | keyStagingWrite (fn off : Nat) (data : List Byte)
  /-- MSIX_VECTOR_UNMASK (R61) -/
  | msixVectorUnmask (fn vec : Nat)
  /-- REGISTER_WRITE (R12) -/
  | registerWrite (fn bar off : Nat) (acc : RegAccess)
  /-- PCIE_CONFIG_REQUEST (R38) -/
  | pcieConfigRequest (fn : Nat) (reg : CfgReg) (write : Bool) (data : BitVec 32)
  /-- REQUEST_FETCH_START (R54) -/
  | requestFetchStart (fn k : Nat)
  /-- REQUEST_ENTRY_ARRIVE (R56) -/
  | requestEntryArrive (fn k : Nat) (entry : List Byte) (poisoned : Bool)
  /-- HOST_READ_FAILED (R62) -/
  | hostReadFailed (r : HostRead)
  /-- COAL_TIMER_EXPIRE (R61) -/
  | coalTimerExpire (fn k : Nat)
  /-- VF_FLR (R63) -/
  | vfFlr (fn : Nat)
  /-- PF_FLR (R63) -/
  | pfFlr 
  /-- FLR_COMPLETE (R63) -/
  | flrComplete (fn : Nat)
  /-- BUS_MASTER_ENABLE_SET (R91) -/
  | busMasterEnableSet (fn : Nat)
  /-- VF_ENABLE_CLEAR (R91) -/
  | vfEnableClear 
  /-- HOST_PORT_RESET (R427) -/
  | hostPortReset 
  /-- PF0_D3HOT_ENTER (R422) -/
  | pf0D3hotEnter 
  /-- PF0_D0_RETURN (R422) -/
  | pf0D0Return 
  /-- DOE_DISCOVERY (R64) -/
  | doeDiscovery (vendor ty : Nat) (body : List Byte)
  /-- BOOT_HEAD (R408) -/
  | bootHead (body : List Byte)
  /-- BOOT_ENTRIES (R408) -/
  | bootEntries (body : List Byte)
  /-- ATTEST (R410) -/
  | attest (body : List Byte)
  /-- ATTEST_SIGNED (R409) -/
  | attestSigned (smbus : Bool)
  /-- IDENTITY_CERT (R408) -/
  | identityCert (body : List Byte)
  /-- MEASURE (R408) -/
  | measure (body : List Byte)
  /-- DOE_ABORT (R64) -/
  | doeAbort 
  /-- CREATE (R72) -/
  | create (seq : BitVec 32)
  /-- START (R69) -/
  | start (seq : BitVec 32)
  /-- QUIESCE (R87) -/
  | quiesce (seq : BitVec 32)
  /-- QUIESCE_COMPLETE (R87) -/
  | quiesceComplete (inst : Nat)
  /-- RESUME (R88) -/
  | resume (seq : BitVec 32)
  /-- RESET (R89) -/
  | reset (seq : BitVec 32)
  /-- DESTROY (R90) -/
  | destroy (seq : BitVec 32)
  /-- QUERY (R72) -/
  | query (seq : BitVec 32)
  /-- SET_ENGINES (R79) -/
  | setEngines (seq : BitVec 32)
  /-- RESIZE (R85) -/
  | resize (seq : BitVec 32)
  /-- SHRINK_COMPLETE (R85) -/
  | shrinkComplete (inst : Nat)
  /-- SET_WINDOW (R72) -/
  | setWindow (seq : BitVec 32)
  /-- POOL_QUERY (R72) -/
  | poolQuery (seq : BitVec 32)
  /-- EXPORT (R93) -/
  | exportInst (seq : BitVec 32)
  /-- IMPORT (R95) -/
  | importInst (seq : BitVec 32)
  /-- LOG_ENABLE (R92) -/
  | logEnable (seq : BitVec 32)
  /-- LOG_HARVEST (R66) -/
  | logHarvest (seq : BitVec 32)
  /-- LOG_DISABLE (R92) -/
  | logDisable (seq : BitVec 32)
  /-- LOG_READ (R343) -/
  | logRead (seq : BitVec 32)
  /-- LOG_NOTIFY (R343) -/
  | logNotify (seq : BitVec 32)
  /-- TWIN_QUERY (R354) -/
  | twinQuery (seq : BitVec 32)
  /-- TWIN_PAIR (R358) -/
  | twinPair (seq : BitVec 32)
  /-- TWIN_PROTECT (R363) -/
  | twinProtect (seq : BitVec 32)
  /-- TWIN_HANDOVER (R368) -/
  | twinHandover (seq : BitVec 32)
  /-- TWIN_FORCE (R366) -/
  | twinForce (seq : BitVec 32)
  /-- SELFTEST_RUN (R447) -/
  | selftestRun (seq : BitVec 32)
  /-- SELFTEST_QUERY (R447) -/
  | selftestQuery (seq : BitVec 32)
  /-- SELFTEST_CTL (R447) -/
  | selftestCtl (seq : BitVec 32)
  /-- CAL_READ (R447) -/
  | calRead (seq : BitVec 32)
  /-- CAL_WRITE (R451) -/
  | calWrite (seq : BitVec 32) (data : List Byte)
  /-- RECAL (R452) -/
  | recal (seq : BitVec 32)
  /-- REPAIR_CTL (R447) -/
  | repairCtl (seq : BitVec 32)
  /-- IMAGE_QUERY (R391) -/
  | imageQuery (seq : BitVec 32)
  /-- IMAGE_WRITE (R392) -/
  | imageWrite (seq : BitVec 32) (data : List Byte)
  /-- IMAGE_PUSH (R393) -/
  | imagePush (seq : BitVec 32) (data : List Byte)
  /-- IMAGE_SELECT (R391) -/
  | imageSelect (seq : BitVec 32)
  /-- IMAGE_NOR_WRITE_DONE (R392) -/
  | imageNorWriteDone (seq : BitVec 32)
  /-- MSG (R140) -/
  | msg (fn : Nat) (seq : BitVec 32)
  /-- STORE_WRITE (R140) -/
  | storeWrite (fn : Nat) (seq : BitVec 32)
  /-- STORE_READ (R140) -/
  | storeRead (fn : Nat) (seq : BitVec 32)
  /-- RESTART (R140) -/
  | restart (fn : Nat) (seq : BitVec 32)
  /-- GCM_ENCRYPT (R296) -/
  | gcmEncrypt (fn : Nat) (seq : BitVec 32)
  /-- GCM_DECRYPT (R296) -/
  | gcmDecrypt (fn : Nat) (seq : BitVec 32)
  /-- GMAC_GENERATE (R296) -/
  | gmacGenerate (fn : Nat) (seq : BitVec 32)
  /-- GMAC_VERIFY (R296) -/
  | gmacVerify (fn : Nat) (seq : BitVec 32)
  /-- XTS_ENCRYPT (R296) -/
  | xtsEncrypt (fn : Nat) (seq : BitVec 32)
  /-- XTS_DECRYPT (R296) -/
  | xtsDecrypt (fn : Nat) (seq : BitVec 32)
  /-- CMAC_GENERATE (R296) -/
  | cmacGenerate (fn : Nat) (seq : BitVec 32)
  /-- CMAC_VERIFY (R296) -/
  | cmacVerify (fn : Nat) (seq : BitVec 32)
  /-- HMAC_GENERATE (R296) -/
  | hmacGenerate (fn : Nat) (seq : BitVec 32)
  /-- HMAC_VERIFY (R296) -/
  | hmacVerify (fn : Nat) (seq : BitVec 32)
  /-- HASH (R296) -/
  | hash (fn : Nat) (seq : BitVec 32)
  /-- KEY_LOAD (R289) -/
  | keyLoad (fn : Nat) (seq : BitVec 32) (data : List Byte)
  /-- KEY_WRAP (R290) -/
  | keyWrap (fn : Nat) (seq : BitVec 32)
  /-- KEY_RETIRE (R290) -/
  | keyRetire (fn : Nat) (seq : BitVec 32)
  /-- KEY_LIMIT (R290) -/
  | keyLimit (fn : Nat) (seq : BitVec 32)
  /-- COMPRESS (R305) -/
  | compress (fn : Nat) (seq : BitVec 32)
  /-- DECOMPRESS (R305) -/
  | decompress (fn : Nat) (seq : BitVec 32)
  /-- STAGING_SPACE_FREE (R241) -/
  | stagingSpaceFree (fn : Nat) (seq : BitVec 32)
  /-- CIPHER_JOB_START (R300) -/
  | cipherJobStart (e : Nat)
  /-- CIPHER_JOB_DONE (R292) -/
  | cipherJobDone (e : Nat) (src aad : List Byte) (fault : Option JobFault)
  /-- COMPRESSION_JOB_START (R317) -/
  | compressionJobStart (e : Nat)
  /-- COMPRESSION_JOB_DONE (R313) -/
  | compressionJobDone (e : Nat) (src : List Byte) (fault : Option JobFault)
  /-- NOP (R115) -/
  | nop (p : Nat) (f : FA)
  /-- COMMIT (R133) -/
  | commit (p : Nat) (f : FA)
  /-- SIGNAL_COMPLETE (R136) -/
  | signalComplete (p : Nat) (f : FA)
  /-- SIGNAL_VE (R136) -/
  | signalVe (p : Nat) (f : FA)
  /-- RESTART_VE (R136) -/
  | restartVe (p : Nat) (f : FA)
  /-- SSTART (R249) -/
  | sstart (p : Nat) (f : FA)
  /-- FEAT (R103) -/
  | feat (p : Nat) (f : FA)
  /-- TBR (R115) -/
  | tbr (p : Nat) (f : FA)
  /-- BARRIER (R139) -/
  | barrier (p : Nat) (f : FA)
  /-- GETF (R115) -/
  | getf (p : Nat) (f : FA)
  /-- SETF (R115) -/
  | setf (p : Nat) (f : FA)
  /-- XCALL (R116) -/
  | xcall (p : Nat) (f : FA)
  /-- ZCALL (R116) -/
  | zcall (p : Nat) (f : FA)
  /-- PFETCH (R212) -/
  | pfetch (p : Nat) (f : FB)
  /-- CLNL (R212) -/
  | clnl (p : Nat) (f : FB)
  /-- INVL (R212) -/
  | invl (p : Nat) (f : FB)
  /-- FLSL (R212) -/
  | flsl (p : Nat) (f : FB)
  /-- IINVL (R212) -/
  | iinvl (p : Nat) (f : FB)
  /-- ADD (R153) -/
  | add (p : Nat) (f : FA)
  /-- ADDC (R153) -/
  | addc (p : Nat) (f : FA)
  /-- SUB (R153) -/
  | sub (p : Nat) (f : FA)
  /-- SUBB (R153) -/
  | subb (p : Nat) (f : FA)
  /-- MUL (R152) -/
  | mul (p : Nat) (f : FA)
  /-- MULWU (R152) -/
  | mulwu (p : Nat) (f : FA)
  /-- MULWS (R152) -/
  | mulws (p : Nat) (f : FA)
  /-- DIVU (R156) -/
  | divu (p : Nat) (f : FA)
  /-- DIVS (R156) -/
  | divs (p : Nat) (f : FA)
  /-- REMU (R156) -/
  | remu (p : Nat) (f : FA)
  /-- REMS (R156) -/
  | rems (p : Nat) (f : FA)
  /-- CMP (R153) -/
  | cmp (p : Nat) (f : FA)
  /-- NEG (R153) -/
  | neg (p : Nat) (f : FA)
  /-- AND (R115) -/
  | and (p : Nat) (f : FA)
  /-- OR (R115) -/
  | or (p : Nat) (f : FA)
  /-- XOR (R115) -/
  | xor (p : Nat) (f : FA)
  /-- ANDN (R115) -/
  | andn (p : Nat) (f : FA)
  /-- SHL (R115) -/
  | shl (p : Nat) (f : FA)
  /-- SHR (R115) -/
  | shr (p : Nat) (f : FA)
  /-- SAR (R115) -/
  | sar (p : Nat) (f : FA)
  /-- ROL (R115) -/
  | rol (p : Nat) (f : FA)
  /-- CLZ (R115) -/
  | clz (p : Nat) (f : FA)
  /-- POPC (R115) -/
  | popc (p : Nat) (f : FA)
  /-- BSWAP (R115) -/
  | bswap (p : Nat) (f : FA)
  /-- SEXT (R115) -/
  | sext (p : Nat) (f : FA)
  /-- MOV (R115) -/
  | mov (p : Nat) (f : FA)
  /-- CSEL (R115) -/
  | csel (p : Nat) (f : FA)
  /-- ADDI (R153) -/
  | addi (p : Nat) (f : FC)
  /-- CMPI (R153) -/
  | cmpi (p : Nat) (f : FC)
  /-- ANDI (R115) -/
  | andi (p : Nat) (f : FC)
  /-- ORI (R115) -/
  | ori (p : Nat) (f : FC)
  /-- XORI (R115) -/
  | xori (p : Nat) (f : FC)
  /-- SHLI (R115) -/
  | shli (p : Nat) (f : FC)
  /-- SHRI (R115) -/
  | shri (p : Nat) (f : FC)
  /-- SARI (R115) -/
  | sari (p : Nat) (f : FC)
  /-- ROLI (R115) -/
  | roli (p : Nat) (f : FC)
  /-- MULI (R152) -/
  | muli (p : Nat) (f : FC)
  /-- LDB (R115) -/
  | ldb (p : Nat) (f : FB)
  /-- LDBS (R115) -/
  | ldbs (p : Nat) (f : FB)
  /-- LDH (R115) -/
  | ldh (p : Nat) (f : FB)
  /-- LDHS (R115) -/
  | ldhs (p : Nat) (f : FB)
  /-- LDW (R115) -/
  | ldw (p : Nat) (f : FB)
  /-- LDWS (R115) -/
  | ldws (p : Nat) (f : FB)
  /-- LDD (R115) -/
  | ldd (p : Nat) (f : FB)
  /-- LA (R110) -/
  | la (p : Nat) (f : FB)
  /-- STB (R115) -/
  | stb (p : Nat) (f : FB)
  /-- STH (R115) -/
  | sth (p : Nat) (f : FB)
  /-- STW (R115) -/
  | stw (p : Nat) (f : FB)
  /-- STD (R115) -/
  | std (p : Nat) (f : FB)
  /-- LDQ (R115) -/
  | ldq (p : Nat) (f : FB)
  /-- STQ (R115) -/
  | stq (p : Nat) (f : FB)
  /-- CAS (R115) -/
  | cas (p : Nat) (f : FB)
  /-- LDX (R115) -/
  | ldx (p : Nat) (f : FD)
  /-- STX (R115) -/
  | stx (p : Nat) (f : FD)
  /-- LAX (R110) -/
  | lax (p : Nat) (f : FD)
  /-- FLDX (R115) -/
  | fldx (p : Nat) (f : FD)
  /-- FSTX (R115) -/
  | fstx (p : Nat) (f : FD)
  /-- LDP (R162) -/
  | ldp (p : Nat) (f : FD)
  /-- STP (R162) -/
  | stp (p : Nat) (f : FD)
  /-- CASX (R115) -/
  | casx (p : Nat) (f : FD)
  /-- FADD (R168) -/
  | fadd (p : Nat) (f : FA)
  /-- FSUB (R168) -/
  | fsub (p : Nat) (f : FA)
  /-- FMUL (R168) -/
  | fmul (p : Nat) (f : FA)
  /-- FDIV (R175) -/
  | fdiv (p : Nat) (f : FA)
  /-- FSQRT (R175) -/
  | fsqrt (p : Nat) (f : FA)
  /-- FMA (R168) -/
  | fma (p : Nat) (f : FA)
  /-- FMS (R168) -/
  | fms (p : Nat) (f : FA)
  /-- FNMA (R168) -/
  | fnma (p : Nat) (f : FA)
  /-- FCMP (R173) -/
  | fcmp (p : Nat) (f : FA)
  /-- FMIN (R173) -/
  | fmin (p : Nat) (f : FA)
  /-- FMAX (R173) -/
  | fmax (p : Nat) (f : FA)
  /-- FNEG (R170) -/
  | fneg (p : Nat) (f : FA)
  /-- FABS (R170) -/
  | fabs (p : Nat) (f : FA)
  /-- FCVT (R174) -/
  | fcvt (p : Nat) (f : FA)
  /-- FMOVG (R115) -/
  | fmovg (p : Nat) (f : FA)
  /-- GMOVF (R115) -/
  | gmovf (p : Nat) (f : FA)
  /-- FLDD (R115) -/
  | fldd (p : Nat) (f : FB)
  /-- FLDS (R115) -/
  | flds (p : Nat) (f : FB)
  /-- FSTD (R115) -/
  | fstd (p : Nat) (f : FB)
  /-- FSTS (R115) -/
  | fsts (p : Nat) (f : FB)
  /-- LFPC (R113) -/
  | lfpc (p : Nat) (f : FA)
  /-- SFPC (R115) -/
  | sfpc (p : Nat) (f : FA)
  /-- ADDP (R162) -/
  | addp (p : Nat) (f : FA)
  /-- SUBP (R162) -/
  | subp (p : Nat) (f : FA)
  /-- MULP (R162) -/
  | mulp (p : Nat) (f : FA)
  /-- DIVP (R163) -/
  | divp (p : Nat) (f : FA)
  /-- CMPP (R161) -/
  | cmpp (p : Nat) (f : FA)
  /-- SHRP (R164) -/
  | shrp (p : Nat) (f : FC)
  /-- CVBP (R162) -/
  | cvbp (p : Nat) (f : FA)
  /-- CVPB (R162) -/
  | cvpb (p : Nat) (f : FA)
  /-- EDITP (R165) -/
  | editp (p : Nat) (f : FE)
  /-- MOVP (R162) -/
  | movp (p : Nat) (f : FA)
  /-- BC (R115) -/
  | bc (p : Nat) (f : FJ)
  /-- BAL (R115) -/
  | bal (p : Nat) (f : FJ)
  /-- BR (R115) -/
  | br (p : Nat) (f : FA)
  /-- BALR (R115) -/
  | balr (p : Nat) (f : FA)
  /-- BCT (R115) -/
  | bct (p : Nat) (f : FC)
  /-- MOVB (R129) -/
  | movb (p : Nat) (f : FE) (n : Nat)
  /-- FILLB (R127) -/
  | fillb (p : Nat) (f : FE) (n : Nat)
  /-- CMPB (R127) -/
  | cmpb (p : Nat) (f : FE) (n : Nat)
  /-- SCANB (R127) -/
  | scanb (p : Nat) (f : FE) (n : Nat)
  /-- TRANSLATE (R127) -/
  | translate (p : Nat) (f : FE) (n : Nat)
  /-- TRTB (R127) -/
  | trtb (p : Nat) (f : FE) (n : Nat)
  /-- CRCB (R127) -/
  | crcb (p : Nat) (f : FE) (n : Nat)
  /-- MULMB (R127) -/
  | mulmb (p : Nat) (f : FE) (n : Nat)
  /-- MFK (R102) -/
  | mfk (p : Nat) (f : FA)
  /-- MTK (R113) -/
  | mtk (p : Nat) (f : FA)
  /-- WAIT (R138) -/
  | wait (p : Nat) (f : FA)
  /-- RFI (R147) -/
  | rfi (p : Nat) (f : FA)
  /-- LRA (R115) -/
  | lra (p : Nat) (f : FB)
  /-- TLBI (R122) -/
  | tlbi (p : Nat) (f : FA)
  /-- TLBIA (R122) -/
  | tlbia (p : Nat) (f : FA)
  /-- INVR (R213) -/
  | invr (p : Nat) (f : FA)
  /-- LOCKW (R208) -/
  | lockw (p : Nat) (f : FA)
  /-- UNLKW (R209) -/
  | unlkw (p : Nat) (f : FA)
  /-- UNDEFINED_OPCODE (R111) -/
  | undefinedOpcode (p : Nat) (op : Byte)
  /-- INTERRUPTION_TAKE (R145) -/
  | interruptionTake (p : Nat) (mt : Option MicroTrap)
  /-- CLOCK_COMPARATOR (R137) -/
  | clockComparator (i v : Nat)
  /-- ENGINE_TIMER (R137) -/
  | engineTimer (i v : Nat)
  /-- TIME_SLICE_END (R80) -/
  | timeSliceEnd (p : Nat) (mt : Option MicroTrap)
  /-- VE_DISPATCH (R80) -/
  | veDispatch (p i v : Nat)
  /-- AUTO_COMMIT (R320) -/
  | autoCommit (p : Nat) (mt : Option MicroTrap)
  /-- COMMIT_POINT_COMPLETE (R321) -/
  | commitPointComplete (p : Nat)
  /-- COMMIT_ON_STEAL (R202) -/
  | commitOnSteal (p : Nat) (mt : Option MicroTrap)
  /-- LINE_FILL_COMPLETE (R214) -/
  | lineFillComplete (p line : Nat)
  /-- DOME_SCRUB (R216) -/
  | domeScrub (t line : Nat) (err : LineError)
  /-- CHECKPOINT_SCRUB (R326) -/
  | checkpointScrub (t slot : Nat) (err : LineError)
  /-- STORE_SCRUB (R244) -/
  | storeScrub (line : Nat) (err : LineError)
  /-- CACHE_ERROR (R216) -/
  | cacheError (c : CacheFault)
  /-- STORE_READ_ERROR (R237) -/
  | storeReadError (line : Nat)
  /-- ADDRESS_PARITY_ERROR (R224) -/
  | addressParityError (port : Nat) (line : Nat)
  /-- CHECK_LINE_WRITEBACK (R227) -/
  | checkLineWriteback (stack block : Nat)
  /-- GRANULE_ZERO_DONE (R243) -/
  | granuleZeroDone (bulk : Bool) (gran : Nat)
  /-- ENGINE_FAULT_DETECTED (R329) -/
  | engineFaultDetected (p : Nat) (cause : EngineCause) (attempts : Nat)
  /-- ENGINE_CHECKSTOP (R330) -/
  | engineCheckstop (p : Nat) (cause : EngineCause)
  /-- QUICK_CHECK_END (R330) -/
  | quickCheckEnd (p : Nat) (pass : Bool)
  /-- FUSE_RESERVE_UP (R331) -/
  | fuseReserveUp (t : Nat)
  /-- D2D_MODULE_FAIL (R21) -/
  | d2dModuleFail (cd m : Nat)
  /-- DOME_FAIL (R32) -/
  | domeFail (t : Nat) (w : TowerBlock)
  /-- MAIN_STORE_CHANNEL_FAIL (R32) -/
  | mainStoreChannelFail (c : Nat)
  /-- HBM_STACK_FAIL (R32) -/
  | hbmStackFail (st : Nat)
  /-- HUB_BLOCK_FAIL (R32) -/
  | hubBlockFail (b : HubBlock)
  /-- CHE_STOP (R279) -/
  | cheStop (c : Nat)
  /-- CIPHER_ENGINE_STOP (R302) -/
  | cipherEngineStop (e : Nat)
  /-- COMPRESSION_ENGINE_STOP (R317) -/
  | compressionEngineStop (e : Nat)
  /-- SPIRE_STOP (R412) -/
  | spireStop 
  /-- BELFRY_STOP (R32) -/
  | belfryStop 
  /-- SELFTEST_CONTROLLER_STOP (R32) -/
  | selftestControllerStop 
  /-- TIMEBASE_COUNTER_FAIL (R32) -/
  | timebaseCounterFail (n : Nat)
  /-- HEARTBEAT_LAPSE (R33) -/
  | heartbeatLapse 
  /-- REFCLK_LOSS (R416) -/
  | refclkLoss 
  /-- THERMTRIP (R463) -/
  | thermtrip (sensor : Nat)
  /-- THERMAL_SAMPLE (R432) -/
  | thermalSample (sensor : Nat) (temp : BitVec 16)
  /-- THROTTLE_RELEASE (R432) -/
  | throttleRelease 
  /-- SLEEP_ENTRY (R421) -/
  | sleepEntry 
  /-- DEEP_SLEEP_ENTRY (R421) -/
  | deepSleepEntry 
  /-- POWER_WAKE (R421) -/
  | powerWake 
  /-- PERST_ASSERT (R424) -/
  | perstAssert (rails : Bool)
  /-- PERST_DEASSERT (R430) -/
  | perstDeassert (strap : BitVec 2)
  /-- START_UP_COMPLETE (R430) -/
  | startUpComplete (r : StartResult)
  /-- HEAD_SIGNED (R405) -/
  | headSigned 
  /-- VAUX_LOSS (R341) -/
  | vauxLoss 
  /-- WARM_RESET (R426) -/
  | warmReset (v : Byte)
  /-- WARM_RESET_END (R426) -/
  | warmResetEnd (r : StartResult)
  /-- CLK_STATUS (R428) -/
  | clkStatus 
  /-- GATE_READ (R428) -/
  | gateRead 
  /-- HEALTH (R346) -/
  | health 
  /-- SELECT (R346) -/
  | select (data : List Byte)
  /-- EVENT_READ (R346) -/
  | eventRead 
  /-- ALERT_ACK (R345) -/
  | alertAck (v : Byte)
  /-- OBJ_SELECT (R411) -/
  | objSelect (data : List Byte)
  /-- OBJ_STATUS (R411) -/
  | objStatus 
  /-- OBJ_READ (R411) -/
  | objRead 
  /-- ATTEST_START (R411) -/
  | attestStart (nonce : List Byte)
  /-- PKG_WRITE (R411) -/
  | pkgWrite (data : List Byte)
  /-- PKG_COMMIT (R407) -/
  | pkgCommit (v : Byte)
  /-- PKG_STATUS (R411) -/
  | pkgStatus 
  /-- BIST_STATUS (R448) -/
  | bistStatus 
  /-- CAL_STATUS (R448) -/
  | calStatus 
  /-- EVENT_MERGE_FLUSH (R340) -/
  | eventMergeFlush (event source unit : Nat)
  /-- ROLLING_TEST_START (R442) -/
  | rollingTestStart (u : UnitId)
  /-- ROLLING_TEST_END (R437) -/
  | rollingTestEnd (u : UnitId) (r : TestResult)
  /-- CHE_START_OPERATION (R256) -/
  | cheStartOperation (che i sub : Nat)
  /-- DEVICE_COMPLETION (R254) -/
  | deviceCompletion (i sub : Nat) (c : DevCompletion)
  /-- COMMAND_TIMEOUT (R267) -/
  | commandTimeout (i sub : Nat)
  /-- PATH_LOST (R268) -/
  | pathLost (path : Nat) (dev : Option Nat)
  /-- PATH_REISSUE (R269) -/
  | pathReissue (i sub path : Nat)
  /-- PATH_WAIT_EXPIRE (R268) -/
  | pathWaitExpire (i sub : Nat)
  /-- PATH_RETURN (R271) -/
  | pathReturn (path : Nat) (dev : Option Nat) (identityOk : Bool)
  /-- END_ENTRY_COMMIT (R256) -/
  | endEntryCommit (i sub : Nat)
  /-- ADAPTER_MSIX (R275) -/
  | adapterMsix (dev vec : Nat)
  /-- WAITINT_TIMEOUT (R274) -/
  | waitintTimeout (i sub : Nat)
  /-- ADAPTER_DMA (R275) -/
  | adapterDma (dev : Nat) (write : Bool) (addr : Nat) (len : Nat) (data : List Byte)
  /-- JALARN_LINK_UP (R348) -/
  | jalarnLinkUp (x4 : Bool) (lane : Nat)
  /-- IDENT (R352) -/
  | ident (m : IdentMsg)
  /-- JALARN_FLIT_RECEIVE (R351) -/
  | jalarnFlitReceive (flit : List Byte)
  /-- PAIR (R353) -/
  | pair (modid : BitVec 22) (dkey0 : Bool)
  /-- PROTECT (R363) -/
  | protect (m : ProtectMsg)
  /-- COPY_DONE (R363) -/
  | copyDone (inst : Nat) (ack : Bool)
  /-- SURRENDER (R368) -/
  | surrender (inst : Nat) (jsn : BitVec 48)
  /-- HANDOVER (R368) -/
  | handover (inst : Nat) (jsn : BitVec 48)
  /-- MIRROR_ACK (R360) -/
  | mirrorAck (jsn : BitVec 48)
  /-- STAGING_APPLY (R359) -/
  | stagingApply 
  /-- MIRROR_REFILL (R361) -/
  | mirrorRefill 
  /-- PARTNER_LOST_TIMEOUT (R364) -/
  | partnerLostTimeout 
  /-- FENCE_ASK (R365) -/
  | fenceAsk (ackLow : Bool)
  /-- FENCE_LATCH_SET (R365) -/
  | fenceLatchSet 
  /-- FENCE_UNANSWERED (R366) -/
  | fenceUnanswered 
  /-- TAKEOVER (R369) -/
  | takeover (inst : Nat)
  /-- RECEIVER_LOCK_LOST (R351) -/
  | receiverLockLost 
  /-- HOST_TRANSFER_DONE (R140) -/
  | hostTransferDone (fn : Nat) (seq : BitVec 32) (data : List Byte) (fault : Option JobFault)
  /-- CAL_NOR_WRITE_DONE (R451) -/
  | calNorWriteDone 
  /-- PKG_CHECK_DONE (R407) -/
  | pkgCheckDone 
  /-- TAP_INSTRUCTION (R469) -/
  | tapInstruction (t : TapInsn)
  deriving DecidableEq, Repr

end Sys2Proof
end

