-- ==== Sys2Proof/Decode.lean ====
section
/-! DEFINITION. Reading a command from a word of the opcode table: no row of the table gives bits (assumption log 13), so no word of it spells
a command. Beside it, the instruction formats of R107 and the major opcodes of R111: what the words of an Olisy instruction say, and the
words of an instruction. -/

namespace Sys2Proof

/-- The command that the low `nbits` bits of `w` spell by the table's bits: none, since no row of the table has bits. -/
def decodeTableWord (_nbits _w : Nat) : Option Instr := none

/-! ## The formats (R107) -/

/-- The major opcode of an instruction's first word. -/
def wordOp (w : BitVec 32) : BitVec 8 := w.extractLsb' 24 8

def faOf (w : BitVec 32) : FA := ⟨w.extractLsb' 19 5, w.extractLsb' 14 5, w.extractLsb' 9 5, w.extractLsb' 0 9⟩
def fbOf (w : BitVec 32) : FB := ⟨w.extractLsb' 19 5, w.extractLsb' 17 2, w.extractLsb' 12 5, w.extractLsb' 0 12⟩
def fcOf (w : BitVec 32) : FC := ⟨w.extractLsb' 19 5, w.extractLsb' 14 5, w.extractLsb' 0 14⟩
def feOf (w : BitVec 32) : FE := ⟨w.extractLsb' 19 5, w.extractLsb' 14 5, w.extractLsb' 9 5, w.extractLsb' 4 5, w.extractLsb' 0 4⟩
def fjOf (w : BitVec 32) : FJ := ⟨w.extractLsb' 20 4, w.extractLsb' 0 20⟩

/-- The fields of a 64-bit instruction, whose first word is the high half. -/
def fdOf (w : BitVec 64) : FD :=
  ⟨w.extractLsb' 51 5, w.extractLsb' 48 3, w.extractLsb' 43 5, w.extractLsb' 38 5, w.extractLsb' 35 3, w.extractLsb' 32 3, w.extractLsb' 28 4,
    w.extractLsb' 20 8, w.extractLsb' 0 20⟩

def faWord (op : BitVec 8) (f : FA) : BitVec 32 := op ++ f.r1 ++ f.r2 ++ f.r3 ++ f.fn
def fbWord (op : BitVec 8) (f : FB) : BitVec 32 := op ++ f.r1 ++ f.am ++ f.b ++ f.d12
def fcWord (op : BitVec 8) (f : FC) : BitVec 32 := op ++ f.r1 ++ f.r2 ++ f.imm14
def feWord (op : BitVec 8) (f : FE) : BitVec 32 := op ++ f.rd ++ f.rs ++ f.rc ++ f.rp ++ f.opt
def fjWord (op : BitVec 8) (f : FJ) : BitVec 32 := op ++ f.cond ++ f.off20
def fdWord (op : BitVec 8) (f : FD) : BitVec 64 := op ++ f.r1 ++ f.am ++ f.b ++ f.x ++ f.s ++ f.z ++ f.l ++ f.imm8 ++ f.d20

/-! ## The major opcodes (R111) -/

/-- A format, with the command that an instruction of it is; a block-repeat instruction's command says how many elements it runs. -/
inductive OpForm where
  | fa (c : Nat → FA → Instr)
  | fb (c : Nat → FB → Instr)
  | fc (c : Nat → FC → Instr)
  | fd (c : Nat → FD → Instr)
  | fe (c : Nat → FE → Instr)
  | rep (c : Nat → FE → Nat → Instr)
  | fj (c : Nat → FJ → Instr)

/-- Row 0x0_ of the map. -/
def opRow0 : List (Nat × OpForm) :=
  [(0x1, .fa .nop), (0x2, .fa .commit), (0x3, .fa .signalComplete), (0x4, .fa .sstart), (0x5, .fa .feat), (0x7, .fa .tbr),
   (0x8, .fa .barrier), (0x9, .fa .getf), (0xa, .fa .setf), (0xb, .fa .xcall), (0xc, .fa .zcall)]

/-- Row 0x1_ of the map. -/
def opRow1 : List (Nat × OpForm) :=
  [(0x10, .fb .pfetch), (0x11, .fb .clnl), (0x12, .fb .invl), (0x13, .fb .flsl), (0x14, .fb .iinvl)]

/-- Row 0x2_ of the map. -/
def opRow2 : List (Nat × OpForm) :=
  [(0x20, .fa .add), (0x21, .fa .addc), (0x22, .fa .sub), (0x23, .fa .subb), (0x24, .fa .mul), (0x25, .fa .mulwu), (0x26, .fa .mulws),
   (0x27, .fa .divu), (0x28, .fa .divs), (0x29, .fa .remu), (0x2a, .fa .rems), (0x2b, .fa .cmp), (0x2c, .fa .neg)]

/-- Row 0x3_ of the map. -/
def opRow3 : List (Nat × OpForm) :=
  [(0x30, .fa .and), (0x31, .fa .or), (0x32, .fa .xor), (0x33, .fa .andn), (0x34, .fa .shl), (0x35, .fa .shr), (0x36, .fa .sar),
   (0x37, .fa .rol), (0x38, .fa .clz), (0x39, .fa .popc), (0x3a, .fa .bswap), (0x3b, .fa .sext), (0x3c, .fa .mov), (0x3d, .fa .csel)]

/-- Row 0x4_ of the map. -/
def opRow4 : List (Nat × OpForm) :=
  [(0x40, .fc .addi), (0x41, .fc .cmpi), (0x42, .fc .andi), (0x43, .fc .ori), (0x44, .fc .xori), (0x45, .fc .shli), (0x46, .fc .shri),
   (0x47, .fc .sari), (0x48, .fc .roli), (0x49, .fc .muli)]

/-- Row 0x5_ of the map. -/
def opRow5 : List (Nat × OpForm) :=
  [(0x50, .fb .ldb), (0x51, .fb .ldbs), (0x52, .fb .ldh), (0x53, .fb .ldhs), (0x54, .fb .ldw), (0x55, .fb .ldws), (0x56, .fb .ldd),
   (0x57, .fb .la), (0x58, .fb .stb), (0x59, .fb .sth), (0x5a, .fb .stw), (0x5b, .fb .std), (0x5c, .fb .ldq), (0x5d, .fb .stq),
   (0x5e, .fb .cas)]

/-- Row 0x6_ of the map. -/
def opRow6 : List (Nat × OpForm) :=
  [(0x60, .fd .ldx), (0x61, .fd .stx), (0x62, .fd .lax), (0x63, .fd .fldx), (0x64, .fd .fstx), (0x65, .fd .ldp), (0x66, .fd .stp),
   (0x67, .fd .casx)]

/-- Row 0x7_ of the map. -/
def opRow7 : List (Nat × OpForm) :=
  [(0x70, .fa .fadd), (0x71, .fa .fsub), (0x72, .fa .fmul), (0x73, .fa .fdiv), (0x74, .fa .fsqrt), (0x75, .fa .fma), (0x76, .fa .fms),
   (0x77, .fa .fnma), (0x78, .fa .fcmp), (0x79, .fa .fmin), (0x7a, .fa .fmax), (0x7b, .fa .fneg), (0x7c, .fa .fabs),
   (0x7d, .fa .fcvt), (0x7e, .fa .fmovg), (0x7f, .fa .gmovf)]

/-- Row 0x8_ of the map. -/
def opRow8 : List (Nat × OpForm) :=
  [(0x80, .fb .fldd), (0x81, .fb .flds), (0x82, .fb .fstd), (0x83, .fb .fsts), (0x84, .fa .lfpc), (0x85, .fa .sfpc)]

/-- Row 0x9_ of the map. -/
def opRow9 : List (Nat × OpForm) :=
  [(0x90, .fa .addp), (0x91, .fa .subp), (0x92, .fa .mulp), (0x93, .fa .divp), (0x94, .fa .cmpp), (0x95, .fc .shrp),
   (0x96, .fa .cvbp), (0x97, .fa .cvpb), (0x98, .fe .editp), (0x99, .fa .movp)]

/-- Row 0xA_ of the map. -/
def opRowA : List (Nat × OpForm) :=
  [(0xa0, .fj .bc), (0xa1, .fj .bal), (0xa2, .fa .br), (0xa3, .fa .balr), (0xa4, .fc .bct)]

/-- Row 0xC_ of the map. -/
def opRowC : List (Nat × OpForm) :=
  [(0xc0, .rep .movb), (0xc1, .rep .fillb), (0xc2, .rep .cmpb), (0xc3, .rep .scanb), (0xc4, .rep .translate), (0xc5, .rep .trtb),
   (0xc6, .rep .crcb), (0xc7, .rep .mulmb)]

/-- Row 0xE_ of the map. -/
def opRowE : List (Nat × OpForm) :=
  [(0xe0, .fa .mfk), (0xe1, .fa .mtk), (0xe2, .fa .wait), (0xe3, .fa .rfi), (0xe4, .fb .lra), (0xe5, .fa .tlbi), (0xe6, .fa .tlbia),
   (0xe7, .fa .invr), (0xe8, .fa .lockw), (0xe9, .fa .unlkw)]

/-- The 131 defined major opcodes. The function of SIGNAL stands in g2, not in the word (R136): its word is read as SIGNAL COMPLETE, whose
command has the meaning of all three. -/
def opMap : List (Nat × OpForm) :=
  opRow0 ++ opRow1 ++ opRow2 ++ opRow3 ++ opRow4 ++ opRow5 ++ opRow6 ++ opRow7 ++ opRow8 ++ opRow9 ++ opRowA ++ opRowC ++ opRowE

/-- The command of the instruction in words `w` and, for a 64-bit one, `lo`, on engine `p`: an undefined major opcode spells the command that
raises the operation exception. -/
def decodeOlisy (p n : Nat) (w lo : BitVec 32) : Instr :=
  match (opMap.find? fun e => e.1 == (wordOp w).toNat).map Prod.snd with
  | some (.fa c) => c p (faOf w)
  | some (.fb c) => c p (fbOf w)
  | some (.fc c) => c p (fcOf w)
  | some (.fd c) => c p (fdOf (w ++ lo))
  | some (.fe c) => c p (feOf w)
  | some (.rep c) => c p (feOf w) n
  | some (.fj c) => c p (fjOf w)
  | none => .undefinedOpcode p (wordOp w)

/-- Is an instruction of this first word 64 bits long: row 0x6_ (R106, R111)? -/
def wordLong (w : BitVec 32) : Bool := wordOp w ≥ 0x60#8 && wordOp w ≤ 0x67#8

/-- The first and second words of a 64-bit instruction. -/
def halves (d : BitVec 64) : BitVec 32 × BitVec 32 := (d.extractLsb' 32 32, d.extractLsb' 0 32)

/-- The words of an Olisy instruction; the second is zero for a 32-bit one. Other commands have none. -/
def encodeOlisy (c : Instr) : Option (BitVec 32 × BitVec 32) :=
  match c with
  | .nop _ f => some (faWord 0x1 f, 0)
  | .commit _ f => some (faWord 0x2 f, 0)
  | .signalComplete _ f => some (faWord 0x3 f, 0)
  | .signalVe _ f => some (faWord 0x3 f, 0)
  | .restartVe _ f => some (faWord 0x3 f, 0)
  | .sstart _ f => some (faWord 0x4 f, 0)
  | .feat _ f => some (faWord 0x5 f, 0)
  | .tbr _ f => some (faWord 0x7 f, 0)
  | .barrier _ f => some (faWord 0x8 f, 0)
  | .getf _ f => some (faWord 0x9 f, 0)
  | .setf _ f => some (faWord 0xa f, 0)
  | .xcall _ f => some (faWord 0xb f, 0)
  | .zcall _ f => some (faWord 0xc f, 0)
  | .pfetch _ f => some (fbWord 0x10 f, 0)
  | .clnl _ f => some (fbWord 0x11 f, 0)
  | .invl _ f => some (fbWord 0x12 f, 0)
  | .flsl _ f => some (fbWord 0x13 f, 0)
  | .iinvl _ f => some (fbWord 0x14 f, 0)
  | .add _ f => some (faWord 0x20 f, 0)
  | .addc _ f => some (faWord 0x21 f, 0)
  | .sub _ f => some (faWord 0x22 f, 0)
  | .subb _ f => some (faWord 0x23 f, 0)
  | .mul _ f => some (faWord 0x24 f, 0)
  | .mulwu _ f => some (faWord 0x25 f, 0)
  | .mulws _ f => some (faWord 0x26 f, 0)
  | .divu _ f => some (faWord 0x27 f, 0)
  | .divs _ f => some (faWord 0x28 f, 0)
  | .remu _ f => some (faWord 0x29 f, 0)
  | .rems _ f => some (faWord 0x2a f, 0)
  | .cmp _ f => some (faWord 0x2b f, 0)
  | .neg _ f => some (faWord 0x2c f, 0)
  | .and _ f => some (faWord 0x30 f, 0)
  | .or _ f => some (faWord 0x31 f, 0)
  | .xor _ f => some (faWord 0x32 f, 0)
  | .andn _ f => some (faWord 0x33 f, 0)
  | .shl _ f => some (faWord 0x34 f, 0)
  | .shr _ f => some (faWord 0x35 f, 0)
  | .sar _ f => some (faWord 0x36 f, 0)
  | .rol _ f => some (faWord 0x37 f, 0)
  | .clz _ f => some (faWord 0x38 f, 0)
  | .popc _ f => some (faWord 0x39 f, 0)
  | .bswap _ f => some (faWord 0x3a f, 0)
  | .sext _ f => some (faWord 0x3b f, 0)
  | .mov _ f => some (faWord 0x3c f, 0)
  | .csel _ f => some (faWord 0x3d f, 0)
  | .addi _ f => some (fcWord 0x40 f, 0)
  | .cmpi _ f => some (fcWord 0x41 f, 0)
  | .andi _ f => some (fcWord 0x42 f, 0)
  | .ori _ f => some (fcWord 0x43 f, 0)
  | .xori _ f => some (fcWord 0x44 f, 0)
  | .shli _ f => some (fcWord 0x45 f, 0)
  | .shri _ f => some (fcWord 0x46 f, 0)
  | .sari _ f => some (fcWord 0x47 f, 0)
  | .roli _ f => some (fcWord 0x48 f, 0)
  | .muli _ f => some (fcWord 0x49 f, 0)
  | .ldb _ f => some (fbWord 0x50 f, 0)
  | .ldbs _ f => some (fbWord 0x51 f, 0)
  | .ldh _ f => some (fbWord 0x52 f, 0)
  | .ldhs _ f => some (fbWord 0x53 f, 0)
  | .ldw _ f => some (fbWord 0x54 f, 0)
  | .ldws _ f => some (fbWord 0x55 f, 0)
  | .ldd _ f => some (fbWord 0x56 f, 0)
  | .la _ f => some (fbWord 0x57 f, 0)
  | .stb _ f => some (fbWord 0x58 f, 0)
  | .sth _ f => some (fbWord 0x59 f, 0)
  | .stw _ f => some (fbWord 0x5a f, 0)
  | .std _ f => some (fbWord 0x5b f, 0)
  | .ldq _ f => some (fbWord 0x5c f, 0)
  | .stq _ f => some (fbWord 0x5d f, 0)
  | .cas _ f => some (fbWord 0x5e f, 0)
  | .ldx _ f => some (halves (fdWord 0x60 f))
  | .stx _ f => some (halves (fdWord 0x61 f))
  | .lax _ f => some (halves (fdWord 0x62 f))
  | .fldx _ f => some (halves (fdWord 0x63 f))
  | .fstx _ f => some (halves (fdWord 0x64 f))
  | .ldp _ f => some (halves (fdWord 0x65 f))
  | .stp _ f => some (halves (fdWord 0x66 f))
  | .casx _ f => some (halves (fdWord 0x67 f))
  | .fadd _ f => some (faWord 0x70 f, 0)
  | .fsub _ f => some (faWord 0x71 f, 0)
  | .fmul _ f => some (faWord 0x72 f, 0)
  | .fdiv _ f => some (faWord 0x73 f, 0)
  | .fsqrt _ f => some (faWord 0x74 f, 0)
  | .fma _ f => some (faWord 0x75 f, 0)
  | .fms _ f => some (faWord 0x76 f, 0)
  | .fnma _ f => some (faWord 0x77 f, 0)
  | .fcmp _ f => some (faWord 0x78 f, 0)
  | .fmin _ f => some (faWord 0x79 f, 0)
  | .fmax _ f => some (faWord 0x7a f, 0)
  | .fneg _ f => some (faWord 0x7b f, 0)
  | .fabs _ f => some (faWord 0x7c f, 0)
  | .fcvt _ f => some (faWord 0x7d f, 0)
  | .fmovg _ f => some (faWord 0x7e f, 0)
  | .gmovf _ f => some (faWord 0x7f f, 0)
  | .fldd _ f => some (fbWord 0x80 f, 0)
  | .flds _ f => some (fbWord 0x81 f, 0)
  | .fstd _ f => some (fbWord 0x82 f, 0)
  | .fsts _ f => some (fbWord 0x83 f, 0)
  | .lfpc _ f => some (faWord 0x84 f, 0)
  | .sfpc _ f => some (faWord 0x85 f, 0)
  | .addp _ f => some (faWord 0x90 f, 0)
  | .subp _ f => some (faWord 0x91 f, 0)
  | .mulp _ f => some (faWord 0x92 f, 0)
  | .divp _ f => some (faWord 0x93 f, 0)
  | .cmpp _ f => some (faWord 0x94 f, 0)
  | .shrp _ f => some (fcWord 0x95 f, 0)
  | .cvbp _ f => some (faWord 0x96 f, 0)
  | .cvpb _ f => some (faWord 0x97 f, 0)
  | .editp _ f => some (feWord 0x98 f, 0)
  | .movp _ f => some (faWord 0x99 f, 0)
  | .bc _ f => some (fjWord 0xa0 f, 0)
  | .bal _ f => some (fjWord 0xa1 f, 0)
  | .br _ f => some (faWord 0xa2 f, 0)
  | .balr _ f => some (faWord 0xa3 f, 0)
  | .bct _ f => some (fcWord 0xa4 f, 0)
  | .movb _ f _ => some (feWord 0xc0 f, 0)
  | .fillb _ f _ => some (feWord 0xc1 f, 0)
  | .cmpb _ f _ => some (feWord 0xc2 f, 0)
  | .scanb _ f _ => some (feWord 0xc3 f, 0)
  | .translate _ f _ => some (feWord 0xc4 f, 0)
  | .trtb _ f _ => some (feWord 0xc5 f, 0)
  | .crcb _ f _ => some (feWord 0xc6 f, 0)
  | .mulmb _ f _ => some (feWord 0xc7 f, 0)
  | .mfk _ f => some (faWord 0xe0 f, 0)
  | .mtk _ f => some (faWord 0xe1 f, 0)
  | .wait _ f => some (faWord 0xe2 f, 0)
  | .rfi _ f => some (faWord 0xe3 f, 0)
  | .lra _ f => some (fbWord 0xe4 f, 0)
  | .tlbi _ f => some (faWord 0xe5 f, 0)
  | .tlbia _ f => some (faWord 0xe6 f, 0)
  | .invr _ f => some (faWord 0xe7 f, 0)
  | .lockw _ f => some (faWord 0xe8 f, 0)
  | .unlkw _ f => some (faWord 0xe9 f, 0)
  | .undefinedOpcode _ op => some (op ++ 0#24, 0)
  | _ => none

end Sys2Proof
end

