-- ==== Sys2Proof/Machine/Bytes.lean ====
section
/-! DEFINITION. Byte-order helpers (R8, R9), bit fields, and the CRCs the spec names: CRC-32C (R127, R233), CRC-32,
Adler-32 (R307) and the byte-list operations the other files share. -/

namespace Sys2Proof

/-- The value of a byte list read most significant byte first (R8). -/
def beNat (l : List Byte) : Nat := l.foldl (fun a b => a * 256 + b.toNat) 0

/-- The value of a byte list read least significant byte first. -/
def leNat (l : List Byte) : Nat := l.foldr (fun b a => b.toNat + 256 * a) 0

/-- The low `n` bytes of `v`, least significant first. -/
def toLE : Nat → Nat → List Byte
  | 0, _ => []
  | n + 1, v => BitVec.ofNat 8 v :: toLE n (v / 256)

/-- The low `n` bytes of `v`, most significant first (R8). -/
def toBE (n v : Nat) : List Byte := (toLE n v).reverse

/-- `n` zero bytes. -/
def zeros (n : Nat) : List Byte := List.replicate n 0

/-- The `len` bytes at offset `off`. -/
def slice (l : List Byte) (off len : Nat) : List Byte := (l.drop off).take len

/-- The big-endian field of `len` bytes at offset `off`. -/
def fieldBE (l : List Byte) (off len : Nat) : Nat := beNat (slice l off len)

/-- `l` with the bytes `d` written at offset `off`, inside its length. -/
def patch (l : List Byte) (off : Nat) (d : List Byte) : List Byte :=
  l.take off ++ (d ++ l.drop (off + d.length)).take (l.length - off)

/-- `l` filled with zeros, or cut, to `n` bytes. -/
def padTo (n : Nat) (l : List Byte) : List Byte := (l ++ zeros (n - l.length)).take n

/-- The first offset in `[lo, hi)` whose byte is not zero. -/
def firstNonzero (l : List Byte) (lo hi : Nat) : Option Nat :=
  ((List.range (hi - lo)).map (· + lo)).find? (fun i => (l.getD i 0) != 0)

/-- Field `[hi:lo]` of a natural number (R9). -/
def bits (v hi lo : Nat) : Nat := (v / 2 ^ lo) % 2 ^ (hi + 1 - lo)

/-- Bit `i` of a natural number. -/
def bit (v i : Nat) : Bool := v.testBit i

/-- 1 for true, 0 for false. -/
def b2n (b : Bool) : Nat := if b then 1 else 0

/-- `v` rounded up to a multiple of `m`. -/
def roundUp (v m : Nat) : Nat := (v + m - 1) / m * m

/-- The value in serial-number arithmetic modulo `2^w` (R29): `a` comes before `b`; of two numbers exactly half the
modulus apart the numerically lower comes first. -/
def serialBefore (w a b : Nat) : Bool :=
  let d := (b + 2 ^ w - a % 2 ^ w) % 2 ^ w
  if d == 2 ^ (w - 1) then decide (a < b) else d != 0 && decide (d < 2 ^ (w - 1))

/-- One bit of a reflected CRC with polynomial `poly`. -/
def crcBit (poly c : BitVec 32) : BitVec 32 :=
  if c.getLsbD 0 then (c >>> 1) ^^^ poly else c >>> 1

/-- One byte folded into a reflected 32-bit CRC, least significant bit first. -/
def crcByte (poly c : BitVec 32) (b : Byte) : BitVec 32 :=
  let c := c ^^^ b.setWidth 32
  crcBit poly (crcBit poly (crcBit poly (crcBit poly (crcBit poly (crcBit poly (crcBit poly (crcBit poly c)))))))

/-- The reflected CRC-32C polynomial (R127). -/
def polyC : BitVec 32 := 0x82F63B78#32

/-- The reflected CRC-32 polynomial of gzip (R307). -/
def polyZ : BitVec 32 := 0xEDB88320#32

/-- CRC-32C of a byte list (R127 with INIT and FINAL, R233, R240). -/
def crc32c (l : List Byte) : BitVec 32 := ~~~ (l.foldl (crcByte polyC) 0xFFFFFFFF#32)

/-- CRC-32 of a byte list, as gzip uses it. -/
def crc32z (l : List Byte) : BitVec 32 := ~~~ (l.foldl (crcByte polyZ) 0xFFFFFFFF#32)

/-- Adler-32 of a byte list, as zlib uses it. -/
def adler32 (l : List Byte) : BitVec 32 :=
  let ab := l.foldl (fun (ab : Nat × Nat) b =>
    let a := (ab.1 + b.toNat) % 65521
    (a, (ab.2 + a) % 65521)) (1, 0)
  BitVec.ofNat 32 (ab.2 * 65536 + ab.1)

/-- Sign extension of the low `w` bits of `v` to 64 bits. -/
def sext (w v : Nat) : Word := ((BitVec.ofNat w v).signExtend 64)

/-! ## Decimal digits (R99) -/

/-- The magnitude of `n` digit nibbles, most significant first; `none` if one is not a digit. -/
def digitsVal : List Nat → Nat → Option Nat
  | [], a => some a
  | d :: r, a => if d < 10 then digitsVal r (a * 10 + d) else none

/-- The nibbles of a byte list. -/
def nibbles (l : List Byte) : List Nat := l.flatMap fun b => [b.toNat / 16, b.toNat % 16]

/-- `n` digits of a magnitude, least significant first. -/
def toDigits : Nat → Nat → List Nat
  | 0, _ => []
  | n + 1, v => v % 10 :: toDigits n (v / 10)

/-- A magnitude as nibbles packed into a number, `n` digits. -/
def packDigits (n v : Nat) : Nat := (toDigits n v).reverse.foldl (fun a d => a * 16 + d) 0

def tenTo31 : Nat := 10 ^ 31

end Sys2Proof
end

