-- ==== Sys2Proof/Machine/Crypto.lean ====
section
/-! DEFINITION. The algorithms of R280, from their standards: AES, GCM and GMAC, XTS with ciphertext stealing, CMAC, SHA-2, HMAC, AES key
wrap; and the key derivation function of R397. -/

namespace Sys2Proof

/-! ## AES (FIPS 197) -/

/-- Multiplication by x in GF(2^8). -/
def xtime (b : Byte) : Byte := (b <<< 1) ^^^ (if b.getLsbD 7 then 0x1B else 0)

/-- Multiplication in GF(2^8). -/
def gfMul (a b : Byte) : Byte :=
  ((List.range 8).foldl (fun (x : Byte × Byte) i => (if b.getLsbD i then x.1 ^^^ x.2 else x.1, xtime x.2)) (0, a)).1

/-- The inverse in GF(2^8), zero for zero: b^254. -/
def gfInv (b : Byte) : Byte :=
  ((List.range 7).foldl (fun (x : Byte × Byte) _ =>
    let q := gfMul x.2 x.2
    (gfMul x.1 q, q)) (1, b)).1

def rotl8 (b : Byte) (n : Nat) : Byte := b.rotateLeft n

def subByte (b : Byte) : Byte :=
  let x := gfInv b
  x ^^^ rotl8 x 1 ^^^ rotl8 x 2 ^^^ rotl8 x 3 ^^^ rotl8 x 4 ^^^ 0x63

def invSubByte (b : Byte) : Byte := gfInv (rotl8 b 1 ^^^ rotl8 b 3 ^^^ rotl8 b 6 ^^^ 0x05)

def xorBytes (a b : List Byte) : List Byte := List.zipWith (· ^^^ ·) a b

/-- The expanded key as four-byte words. -/
def keyWords (key : List Byte) : List (List Byte) :=
  let nk := key.length / 4
  let start := (List.range nk).map fun i => slice key (i * 4) 4
  let step (st : List (List Byte) × Byte) (i : Nat) : List (List Byte) × Byte :=
    let t := st.1.getD (i - 1) []
    let (t, rcon) :=
      if i % nk = 0 then
        let r := (t.drop 1 ++ t.take 1).map subByte
        (xorBytes r [st.2, 0, 0, 0], xtime st.2)
      else if nk = 8 ∧ i % nk = 4 then (t.map subByte, st.2)
      else (t, st.2)
    (st.1 ++ [xorBytes (st.1.getD (i - nk) []) t], rcon)
  (((List.range (4 * (nk + 7) - nk)).map (· + nk)).foldl step (start, 1)).1

/-- Round keys of 16 bytes. -/
def roundKeys (key : List Byte) : List (List Byte) :=
  let w := keyWords key
  (List.range (w.length / 4)).map fun r => (slice' w (r * 4)).flatten
where slice' (w : List (List Byte)) (o : Nat) : List (List Byte) := (w.drop o).take 4

def shiftRows (s : List Byte) : List Byte := (List.range 16).map fun i => s.getD ((i + 4 * (i % 4)) % 16) 0
def invShiftRows (s : List Byte) : List Byte := (List.range 16).map fun i => s.getD ((i + 12 * (i % 4)) % 16) 0

/-- A column transformed by the circulant of `m`. -/
def mixWith (m : List Byte) (s : List Byte) : List Byte :=
  (List.range 16).map fun i =>
    ((List.range 4).map fun j => gfMul (m.getD ((j + 4 - i % 4) % 4) 0) (s.getD (i / 4 * 4 + j) 0)).foldl (· ^^^ ·) 0

def mixColumns : List Byte → List Byte := mixWith [2, 3, 1, 1]
def invMixColumns : List Byte → List Byte := mixWith [14, 11, 13, 9]

/-- One block enciphered under round keys. -/
def aesEnc (rk : List (List Byte)) (b : List Byte) : List Byte :=
  let n := rk.length - 1
  let s := (List.range (n - 1)).foldl (fun s r => xorBytes (mixColumns (shiftRows (s.map subByte))) (rk.getD (r + 1) []))
    (xorBytes b (rk.getD 0 []))
  xorBytes (shiftRows (s.map subByte)) (rk.getD n [])

/-- One block deciphered. -/
def aesDec (rk : List (List Byte)) (b : List Byte) : List Byte :=
  let n := rk.length - 1
  let s := (List.range (n - 1)).foldl (fun s r =>
    invMixColumns (xorBytes ((invShiftRows s).map invSubByte) (rk.getD (n - 1 - r) []))) (xorBytes b (rk.getD n []))
  xorBytes ((invShiftRows s).map invSubByte) (rk.getD 0 [])

/-- A byte list cut into blocks of `n` bytes, the last one as it is; `fuel` bounds their number. -/
def blocksOf (n : Nat) : Nat → List Byte → List (List Byte)
  | 0, _ => []
  | fuel + 1, l => if l.isEmpty then [] else l.take n :: blocksOf n fuel (l.drop n)

/-- Blocks of `n` bytes. -/
def blocks (n : Nat) (l : List Byte) : List (List Byte) := blocksOf n (l.length / n + 1) l

/-! ## GCM (NIST SP 800-38D) -/

/-- The product in the GHASH field, bit 127 first. -/
def ghashMul (x y : BitVec 128) : BitVec 128 :=
  ((List.range 128).foldl (fun (z : BitVec 128 × BitVec 128) i =>
    (if x.getLsbD (127 - i) then z.1 ^^^ z.2 else z.1,
     (z.2 >>> 1) ^^^ (if z.2.getLsbD 0 then 0xE1000000000000000000000000000000#128 else 0))) (0, y)).1

def ghash (h : BitVec 128) (data : List Byte) : BitVec 128 :=
  (blocks 16 data).foldl (fun y b => ghashMul (y ^^^ BitVec.ofNat 128 (beNat (padTo 16 b))) h) 0

/-- Counter blocks from `nonce` with counter `c`, over data. -/
def ctr32 (rk : List (List Byte)) (nonce : List Byte) (c : Nat) (data : List Byte) : List Byte :=
  let bs := blocks 16 data
  (bs.zipIdx.map fun b => xorBytes b.1 (aesEnc rk (nonce ++ toBE 4 ((c + b.2) % 2 ^ 32)))).flatten

def pad16 (l : List Byte) : List Byte := l ++ zeros ((16 - l.length % 16) % 16)

/-- The full 16-byte GCM tag over ciphertext `c` and `aad`. -/
def gcmTag (key nonce aad c : List Byte) : List Byte :=
  let rk := roundKeys key
  let h := BitVec.ofNat 128 (beNat (aesEnc rk (zeros 16)))
  let y := ghash h (pad16 aad ++ pad16 c ++ toBE 8 (aad.length * 8) ++ toBE 8 (c.length * 8))
  xorBytes (toBE 16 y.toNat) (aesEnc rk (nonce ++ toBE 4 1))

/-- GCM keystream over data: encryption and decryption alike. -/
def gcmCrypt (key nonce data : List Byte) : List Byte := ctr32 (roundKeys key) nonce 2 data

/-! ## XTS (IEEE 1619) -/

/-- The tweak multiplied by the primitive element, bytes least significant first. -/
def xtsNext (t : List Byte) : List Byte :=
  let n := leNat t
  toLE 16 ((n * 2 % 2 ^ 128) ^^^ (if n ≥ 2 ^ 127 then 0x87 else 0))

/-- The tweaks of `n` blocks. -/
def xtsTweaks : Nat → List Byte → List (List Byte)
  | 0, _ => []
  | n + 1, t => t :: xtsTweaks n (xtsNext t)

/-- One data unit under the key pair, with ciphertext stealing; `unit` is the big-endian data-unit number (R296). -/
def xts (dec : Bool) (key unit data : List Byte) : List Byte :=
  let half := key.length / 2
  let rk := roundKeys (key.take half)
  let f := if dec then aesDec rk else aesEnc rk
  let m := data.length / 16
  let r := data.length % 16
  let ts := xtsTweaks (m + 1) (aesEnc (roundKeys (key.drop half)) unit.reverse)
  let one (t b : List Byte) : List Byte := xorBytes (f (xorBytes b t)) t
  let bs := blocks 16 data
  let whole (n : Nat) : List Byte := ((List.range n).map fun i => one (ts.getD i []) (bs.getD i [])).flatten
  if r = 0 then whole m
  else
    let tA := ts.getD (if dec then m else m - 1) []
    let tB := ts.getD (if dec then m - 1 else m) []
    let x := one tA (bs.getD (m - 1) [])
    let last := bs.getD m []
    whole (m - 1) ++ one tB (last ++ x.drop r) ++ x.take r

/-! ## CMAC (NIST SP 800-38B) -/

def cmacDouble (b : List Byte) : List Byte :=
  let n := beNat b
  toBE 16 ((n * 2 % 2 ^ 128) ^^^ (if n ≥ 2 ^ 127 then 0x87 else 0))

def cmac (key msg : List Byte) : List Byte :=
  let rk := roundKeys key
  let k1 := cmacDouble (aesEnc rk (zeros 16))
  let bs := blocks 16 msg
  let last := bs.getLast?.getD []
  let fin := if last.length = 16 then xorBytes last k1 else xorBytes (padTo 16 (last ++ [0x80])) (cmacDouble k1)
  aesEnc rk (xorBytes ((bs.dropLast).foldl (fun x b => aesEnc rk (xorBytes x b)) (zeros 16)) fin)

/-! ## SHA-2 (FIPS 180-4) -/

/-- The SHA-512 round constants (FIPS 180-4); their high halves are those of SHA-256. -/
def shaK : List Nat :=
  [0x428a2f98d728ae22, 0x7137449123ef65cd, 0xb5c0fbcfec4d3b2f, 0xe9b5dba58189dbbc, 0x3956c25bf348b538,
   0x59f111f1b605d019, 0x923f82a4af194f9b, 0xab1c5ed5da6d8118, 0xd807aa98a3030242, 0x12835b0145706fbe] ++
  [0x243185be4ee4b28c, 0x550c7dc3d5ffb4e2, 0x72be5d74f27b896f, 0x80deb1fe3b1696b1, 0x9bdc06a725c71235,
   0xc19bf174cf692694, 0xe49b69c19ef14ad2, 0xefbe4786384f25e3, 0x0fc19dc68b8cd5b5, 0x240ca1cc77ac9c65] ++
  [0x2de92c6f592b0275, 0x4a7484aa6ea6e483, 0x5cb0a9dcbd41fbd4, 0x76f988da831153b5, 0x983e5152ee66dfab,
   0xa831c66d2db43210, 0xb00327c898fb213f, 0xbf597fc7beef0ee4, 0xc6e00bf33da88fc2, 0xd5a79147930aa725] ++
  [0x06ca6351e003826f, 0x142929670a0e6e70, 0x27b70a8546d22ffc, 0x2e1b21385c26c926, 0x4d2c6dfc5ac42aed,
   0x53380d139d95b3df, 0x650a73548baf63de, 0x766a0abb3c77b2a8, 0x81c2c92e47edaee6, 0x92722c851482353b] ++
  [0xa2bfe8a14cf10364, 0xa81a664bbc423001, 0xc24b8b70d0f89791, 0xc76c51a30654be30, 0xd192e819d6ef5218,
   0xd69906245565a910, 0xf40e35855771202a, 0x106aa07032bbd1b8, 0x19a4c116b8d2d0c8, 0x1e376c085141ab53] ++
  [0x2748774cdf8eeb99, 0x34b0bcb5e19b48a8, 0x391c0cb3c5c95a63, 0x4ed8aa4ae3418acb, 0x5b9cca4f7763e373,
   0x682e6ff3d6b2b8a3, 0x748f82ee5defb2fc, 0x78a5636f43172f60, 0x84c87814a1f0ab72, 0x8cc702081a6439ec] ++
  [0x90befffa23631e28, 0xa4506cebde82bde9, 0xbef9a3f7b2c67915, 0xc67178f2e372532b, 0xca273eceea26619c,
   0xd186b8c721c0c207, 0xeada7dd6cde0eb1e, 0xf57d4f7fee6ed178, 0x06f067aa72176fba, 0x0a637dc5a2c898a6] ++
  [0x113f9804bef90dae, 0x1b710b35131c471b, 0x28db77f523047d84, 0x32caab7b40c72493, 0x3c9ebe0a15c9bebc,
   0x431d67c49c100d4c, 0x4cc5d4becb3e42b6, 0x597f299cfc657e2a, 0x5fcb6fab3ad6faec, 0x6c44198c4a475817]

def sha512Iv : List Nat := [0x6a09e667f3bcc908, 0xbb67ae8584caa73b, 0x3c6ef372fe94f82b, 0xa54ff53a5f1d36f1,
  0x510e527fade682d1, 0x9b05688c2b3e6c1f, 0x1f83d9abfb41bd6b, 0x5be0cd19137e2179]

def sha384Iv : List Nat := [0xcbbb9d5dc1059ed8, 0x629a292a367cd507, 0x9159015a3070dd17, 0x152fecd8f70e5939,
  0x67332667ffc00b31, 0x8eb44a8768581511, 0xdb0c2e0d64f98fa7, 0x47b5481dbefa4fa4]

/-- The parameters of a SHA-2 word size: rotations of the big and small sigmas. -/
structure ShaWord where
  w : Nat
  rounds : Nat
  bigA : Nat × Nat × Nat
  bigE : Nat × Nat × Nat
  small0 : Nat × Nat × Nat
  small1 : Nat × Nat × Nat

def sha32 : ShaWord := ⟨32, 64, (2, 13, 22), (6, 11, 25), (7, 18, 3), (17, 19, 10)⟩
def sha64 : ShaWord := ⟨64, 80, (28, 34, 39), (14, 18, 41), (1, 8, 7), (19, 61, 6)⟩

def rotr (w : Nat) (x n : Nat) : Nat := (x >>> n ||| x <<< (w - n)) % 2 ^ w

def bigSigma (w : Nat) (r : Nat × Nat × Nat) (x : Nat) : Nat := rotr w x r.1 ^^^ rotr w x r.2.1 ^^^ rotr w x r.2.2
def smallSigma (w : Nat) (r : Nat × Nat × Nat) (x : Nat) : Nat := rotr w x r.1 ^^^ rotr w x r.2.1 ^^^ x >>> r.2.2

/-- The message schedule. -/
def schedule (p : ShaWord) (block : List Byte) : List Nat :=
  let start := (blocks (p.w / 8) block).map beNat
  (List.range (p.rounds - 16)).foldl (fun ws k =>
    let g (j : Nat) : Nat := ws.getD (k + 16 - j) 0
    ws ++ [(smallSigma p.w p.small1 (g 2) + g 7 + smallSigma p.w p.small0 (g 15) + g 16) % 2 ^ p.w]) start

/-- One block compressed into the hash. -/
def shaBlock (p : ShaWord) (h : List Nat) (block : List Byte) : List Nat :=
  let ws := schedule p block
  let m := 2 ^ p.w
  let v := (List.range p.rounds).foldl (fun v t =>
    let x (i : Nat) : Nat := v.getD i 0
    let k := shaK.getD t 0
    let k := if p.w = 32 then k / 2 ^ 32 else k
    let ch := (x 4 &&& x 5) ^^^ ((m - 1 - x 4) &&& x 6)
    let t1 := x 7 + bigSigma p.w p.bigE (x 4) + ch + k + ws.getD t 0
    let maj := (x 0 &&& x 1) ^^^ (x 0 &&& x 2) ^^^ (x 1 &&& x 2)
    let t2 := bigSigma p.w p.bigA (x 0) + maj
    [(t1 + t2) % m, x 0, x 1, x 2, (x 3 + t1) % m, x 4, x 5, x 6]) h
  List.zipWith (fun a b => (a + b) % m) h v

def shaRun (p : ShaWord) (iv : List Nat) (msg : List Byte) : List Byte :=
  let bl := p.w * 2
  let fill := (2 * bl - (msg.length + 1 + p.w / 4) % bl) % bl
  let padded := msg ++ [0x80] ++ zeros fill ++ toBE (p.w / 4) (msg.length * 8)
  ((blocks bl padded).foldl (shaBlock p) iv).flatMap (toBE (p.w / 8))

def sha256 (m : List Byte) : List Byte := shaRun sha32 (sha512Iv.map (· / 2 ^ 32)) m
def sha384 (m : List Byte) : List Byte := (shaRun sha64 sha384Iv m).take 48
def sha512 (m : List Byte) : List Byte := shaRun sha64 sha512Iv m

/-! ## HMAC (FIPS 198-1) -/

def hmac (hash : List Byte → List Byte) (block : Nat) (key msg : List Byte) : List Byte :=
  let k := padTo block (if key.length > block then hash key else key)
  hash (k.map (· ^^^ 0x5C) ++ hash (k.map (· ^^^ 0x36) ++ msg))

def hmac256 (key msg : List Byte) : List Byte := hmac sha256 64 key msg
def hmac384 (key msg : List Byte) : List Byte := hmac sha384 128 key msg

/-! ## AES key wrap (RFC 3394) -/

/-- Keys of whole eight-byte words wrapped under a key-encryption key. -/
def keyWrap (kek key : List Byte) : List Byte :=
  let rk := roundKeys kek
  let n := key.length / 8
  let r := (List.range (6 * n)).foldl (fun (x : List Byte × List (List Byte)) t =>
    let i := t % n
    let b := aesEnc rk (x.1 ++ x.2.getD i [])
    (xorBytes (b.take 8) (toBE 8 (t + 1)), x.2.set i (b.drop 8))) (List.replicate 8 0xA6, blocks 8 key)
  r.1 ++ r.2.flatten

/-- A wrapped key unwrapped; none where its integrity check fails. -/
def keyUnwrap (kek w : List Byte) : Option (List Byte) :=
  let rk := roundKeys kek
  let n := w.length / 8 - 1
  let r := (List.range (6 * n)).foldl (fun (x : List Byte × List (List Byte)) j =>
    let t := 6 * n - j
    let i := (t - 1) % n
    let b := aesDec rk (xorBytes x.1 (toBE 8 t) ++ x.2.getD i [])
    (b.take 8, x.2.set i (b.drop 8))) (w.take 8, blocks 8 (w.drop 8))
  if r.1 = List.replicate 8 0xA6 then some r.2.flatten else none

/-! ## Key derivation (R397) -/

/-- The ASCII bytes of a label. -/
def ascii (s : String) : List Byte := s.toList.map fun c => BitVec.ofNat 8 c.toNat

def kdf (key : List Byte) (label : String) (context : List Byte) (len : Nat) : List Byte :=
  ((List.range ((len + 31) / 32)).flatMap fun i =>
    hmac256 key (toBE 4 (i + 1) ++ ascii label ++ zeros 1 ++ context ++ toBE 4 (8 * len))).take len

end Sys2Proof
end

