-- ==== Sys2Proof/Config.lean ====
section
/-! DEFINITION. What an implementation fixes and the spec leaves open: the free values. None has a body, so nothing can prove
what they are; a use applies them to the state's counter `free`, or to the operands they depend on (assumption log 1). -/

namespace Sys2Proof

/-- A choice the spec leaves open, made afresh at each use: which way or line to replace (R200), which of two allowed
translations to use (R122). -/
opaque Config.pick : Nat → Nat

/-- The choices made together at one use of the counter, by number. -/
opaque Config.pickAt : Nat → Nat → Nat

/-- The 20 check bits of the line code's BCH code over GF(2^10), on data, line tag and ALINK: the spec names no generator polynomial
(R233). -/
opaque Config.bch : List Byte → BitVec 32 → BitVec 11 → BitVec 20

/-- The words of the control-store ROM of a stepping, by kind (1 of CPEs, 2 of channel engines) and micro-address, and the reciprocal
estimate of a zero divisor (R177, R155). -/
opaque Config.rom : Nat → Nat → Nat → BitVec 144
opaque Config.reciprocalOfZero : BitVec 64

/-- Bytes the spec calls undefined: a destination after OUTPUT_FULL or TAG_MISMATCH (R60), an export buffer after a fault
(R93). First argument the fresh counter, second the number of bytes. -/
opaque Config.bytes : Nat → Nat → List Byte

/-- The mean hold time of a pool that has released nothing (R83). -/
opaque Config.holdUnknown : Nat → Nat

/-- What the forming of a DEFLATE stream leaves open (R308, R311): the hash-table entry of three bytes at a level, the code lengths of a
Huffman code for symbol counts with a longest length, and the bits by which a dynamic block gives its two codes. -/
opaque Config.hashEntry : Nat → Nat → Nat
opaque Config.codeLengths : List Nat → Nat → List Nat
opaque Config.codeHeader : List Nat → List Nat → List Bool

/-- What the CSS reads from an attached device (R271, R272): blocks of 4,096 bytes or of 512, capacity in blocks, bytes of a BAR of an
adapter function (0: not implemented), and the blocks that one command moves at most on a path. -/
opaque Config.lba4k : Nat → Bool
opaque Config.capacity : Nat → Nat
opaque Config.barSize : Nat → Nat → Nat
opaque Config.maxBlocks : Nat → Nat → Nat

/-- Jalarn CONTROL messages and the mirrored lines of instance control blocks: the spec names them and gives their bytes no layout
(R350, R357). A message is byte 0 of its kind and 63 bytes of its fields. -/
opaque Config.message : Nat → List Nat → List Byte
/-- The FEC bytes of a Jalarn flit, as in PCI Express 6.0 flit mode (R349), which the spec does not give. -/
opaque Config.flitFec : List Byte → List Byte
opaque Config.controlLines : Nat → Nat → List (List Byte)

/-- What received control-block lines say of an instance (R357): the granules it holds in the main or (true) the bulk store; its state code; its content beside contexts, operations and store, in the
layout of an export stream's content with the keys under the twin key (sections 2, 3, 4 and 7); and the completion entries between its
mirrored consumed head and tail, each with its ring and slot. -/
opaque Config.mirroredGranules : List (Nat × List Byte) → Nat → Bool → List Nat
opaque Config.mirroredState : List (Nat × List Byte) → Nat → Nat
opaque Config.mirroredContent : List (Nat × List Byte) → Nat → List Byte
opaque Config.mirroredCompletions : List (Nat × List Byte) → Nat → List (Nat × Nat × List Byte)

/-- What manufacture puts into a module and the spec gives no bytes of: the ROM hashes of a stepping (control stores of CPEs and of channel
engines, the Spire's own), the factory image of a variant and the key that signed it as owner (R395), the calibration page and the
device certificate of a module number with the key it certifies (R398, R449). -/
opaque Config.romHash : Nat → Nat → List Byte
opaque Config.spireRom : Nat → List Byte
opaque Config.factoryImage : Nat → List Byte
opaque Config.factoryKey : List Byte
opaque Config.calPage : Nat → List Byte
opaque Config.certificate : Nat → List Byte
opaque Config.certifiedKey : Nat → List Byte

/-- Zalmaor's PCI-SIG vendor identifier (R64), and the identifier it gives the module. -/
opaque Config.vendorId : BitVec 16
opaque Config.deviceId : BitVec 16

/-- SLH-DSA of FIPS 205, which the spec names and does not describe: verification of a 128s signature from public key, context, message
and signature; the 128f public key and signature of the three identity seeds (R378, R398, R405). -/
opaque Config.slhVerify : List Byte → List Byte → List Byte → List Byte → Bool
opaque Config.slhPublic : List Byte → List Byte
opaque Config.slhSign : List Byte → List Byte → List Byte → List Byte

end Sys2Proof
end

