-- ==== Sys2Proof/Machine/Table.lean ====
section
/-! DEFINITION. Keyed tables: the plain-data form of every numbered set of units (instances, virtual engines, engines,
subchannels, rings). A key that is not listed has the default value of its table. -/

namespace Sys2Proof

/-- A keyed table, its keys rising. -/
abbrev KV (α : Type) := List (Nat × α)

variable {α : Type}

/-- The entry of key `k`, if listed. -/
def kvFind (t : KV α) (k : Nat) : Option α :=
  match t with
  | [] => none
  | (k', v) :: r => if k' = k then some v else kvFind r k

/-- The entry of key `k`, or the default `d`. -/
def kvGet (d : α) (t : KV α) (k : Nat) : α := (kvFind t k).getD d

/-- The table with `v` at key `k`. -/
def kvSet (t : KV α) (k : Nat) (v : α) : KV α :=
  match t with
  | [] => [(k, v)]
  | (k', v') :: r =>
    if k' < k then (k', v') :: kvSet r k v
    else if k' = k then (k, v) :: r
    else (k, v) :: (k', v') :: r

/-- The table without key `k`. -/
def kvDel (t : KV α) (k : Nat) : KV α := t.filter (fun e => e.1 != k)

/-- The table with `f` applied to the entry of `k` (or to the default). -/
def kvUpd (d : α) (t : KV α) (k : Nat) (f : α → α) : KV α := kvSet t k (f (kvGet d t k))

/-- `f` applied to every listed entry. -/
def kvMap (f : Nat → α → α) (t : KV α) : KV α := t.map (fun e => (e.1, f e.1 e.2))

/-- The keys of the listed entries. -/
def kvKeys (t : KV α) : List Nat := t.map Prod.fst

end Sys2Proof
end

