-- ==== Sys2Proof/Machine/LineCode.lean ====
section
/-! DEFINITION. How a line lies in its store and what is stored beside it: line tag and line code (R233, R234, R237), the placement on the
main-store devices (R219, R220) and in the blocks of a bulk-store stack (R226), the check-line buffer (R227), the entries of the zone
array (R229) and the blocks of the system area (R218). A line number is an absolute address divided by 64. -/

namespace Sys2Proof.Machine

open Sys2Proof

/-! ## Line tag and line code (R233) -/

/-- The line tag. -/
def lineTag (d : List Byte) : BitVec 32 := crc32c d

/-- ALINK: bits [16:6] of the line's address. -/
def alink (l : Nat) : BitVec 11 := BitVec.ofNat 11 l

/-- The parity of the low `n` bits of `v`. -/
def parityOf (n v : Nat) : Bool := (List.range n).foldl (fun a i => a != bit v i) false

/-- The line code: PAR, the check bits of the BCH code over data, tag and ALINK, ALINK. -/
def lineCode (l : Nat) (d : List Byte) (tag : BitVec 32) : BitVec 32 :=
  let low : BitVec 31 := Config.bch d tag (alink l) ++ alink l
  let odd := (parityOf 512 (beNat d) != parityOf 32 tag.toNat) != parityOf 31 low.toNat
  BitVec.ofBool odd ++ low

/-- The check field of line `l` with content `d`: line tag and line code, the code complemented where the line is poisoned (R237). -/
def checkField (l : Nat) (d : List Byte) (poison : Bool) : BitVec 64 :=
  let c := lineCode l d (lineTag d)
  lineTag d ++ (if poison then ~~~c else c)

/-! ## Main store (R219, R220) -/

/-- The port of a main-store line: address bits [10:6]. -/
def portOf (l : Nat) : Nat := l % 32

/-- The channel of a main-store line: address bits [10:7]. -/
def channelOf (l : Nat) : Nat := portOf l / 2

/-- One 72-bit transaction: device address, 64 data bits and 8 check bits. -/
structure Transaction where
  addr : BitVec 21
  data : BitVec 64
  check : Byte
  deriving DecidableEq, Repr

/-- The device address of transaction `t` of line `l`. -/
def deviceAddr (l t : Nat) : BitVec 21 :=
  let a := l * 64
  BitVec.ofNat 21 (t * 2 ^ 18 + bits a 27 13 * 8 + bits a 6 6 * 4 + bits a 12 11)

/-- The eight transactions that carry line `l` on port `portOf l`. -/
def lineWindow (l : Nat) (d : List Byte) (check : BitVec 64) : List Transaction :=
  (List.range 8).map fun t =>
    { addr := deviceAddr l t, data := BitVec.ofNat 64 (fieldBE d (8 * t) 8), check := BitVec.ofNat 8 (bits check.toNat (63 - 8 * t) (56 - 8 * t)) }

/-! ## Bulk store (R226, R227) -/

/-- The first line of the bulk store, and the lines of a stack (R217). -/
def bulkLine : Nat := 0x1000000000 / 64
def stackLines : Nat := 10752 * 2097152 / 64

/-- The stack of a bulk-store line, and within it the block, the slot, and the pseudo-channel. -/
def stackOf (l : Nat) : Nat := (l - bulkLine) / stackLines
def blockOf (l : Nat) : Nat := (l - bulkLine) % stackLines / 7
def lineSlotOf (l : Nat) : Nat := (l - bulkLine) % stackLines % 7
def pseudoChannel (l : Nat) : Nat := blockOf l % 32

/-- The line at slot `n` of block `b` of stack `st`. -/
def lineAt (st b n : Nat) : Nat := bulkLine + st * stackLines + b * 7 + n

/-- A buffered check line: its stack and block, the seven check fields, and when it was first changed since it was last written to the
stack. -/
structure CheckLine where
  stack : Nat
  block : Nat
  fields : List (BitVec 64)
  changed : Option Nat := none
  deriving DecidableEq, Repr

/-- The check fields of the bulk store: the check lines in the buffers, and those of the stacks' arrays by line; a line that is not listed
there has the field of a line of zeros (R76). -/
structure Checks where
  buffer : List CheckLine := []
  array : KV (BitVec 64) := []
  deriving DecidableEq, Repr

def Checks.find (c : Checks) (st b : Nat) : Option CheckLine := c.buffer.find? fun x => x.stack == st && x.block == b

/-- The check field in a stack's array. -/
def Checks.stored (c : Checks) (l : Nat) : BitVec 64 := (kvFind c.array l).getD (checkField l (zeros 64) false)

/-- The check field of a bulk-store line as a read gets it: from the buffer whenever its check line is there. -/
def Checks.field (c : Checks) (l : Nat) : BitVec 64 :=
  match c.find (stackOf l) (blockOf l) with
  | some x => x.fields.getD (lineSlotOf l) 0
  | none => c.stored l

/-- The check line of a block as a read of the stack gives it. -/
def Checks.fetch (c : Checks) (st b : Nat) : CheckLine :=
  { stack := st, block := b, fields := (List.range 7).map fun n => c.stored (lineAt st b n) }

/-- A buffered check line written to its stack; it stays in the buffer. -/
def Checks.flush (c : Checks) (st b : Nat) : Checks :=
  match c.find st b with
  | none => c
  | some x =>
    { array := (List.range 7).foldl (fun t n => kvSet t (lineAt st b n) (x.fields.getD n 0)) c.array
      buffer := c.buffer.map fun y => if y.stack == st && y.block == b then { y with changed := none } else y }

/-- A check line leaves the buffer, written to the stack first if it has changed. -/
def Checks.leave (c : Checks) (st b : Nat) : Checks :=
  let c := c.flush st b
  { c with buffer := c.buffer.filter fun y => !(y.stack == st && y.block == b) }

/-- Check lines a stack's buffer holds. -/
def checkRoom : Nat := 1024

/-- The check line of a block in the buffer, with room made for it: which check line leaves is open. -/
def Checks.bring (c : Checks) (st b choice : Nat) : Checks :=
  if (c.find st b).isSome then c
  else
    let mine := c.buffer.filter (·.stack == st)
    let c := if mine.length < checkRoom then c
      else match mine[choice % mine.length]? with
        | some x => c.leave st x.block
        | none => c
    { c with buffer := c.buffer ++ [c.fetch st b] }

/-- A line write at timebase `tb` updates the line's field in the buffer. -/
def Checks.write (c : Checks) (tb l : Nat) (f : BitVec 64) : Checks :=
  let st := stackOf l
  let b := blockOf l
  let c := c.bring st b (Config.pickAt tb l)
  { c with buffer := c.buffer.map fun x =>
      if x.stack == st && x.block == b then
        { x with fields := x.fields.set (lineSlotOf l) f, changed := some (x.changed.getD tb) }
      else x }

/-- The fields of the lines that `q` selects are those of lines of zeros again (R76). -/
def Checks.zero (c : Checks) (q : Nat → Bool) : Checks :=
  let field (x : CheckLine) (n : Nat) : BitVec 64 :=
    let l := lineAt x.stack x.block n
    if q l then checkField l (zeros 64) false else x.fields.getD n 0
  { array := c.array.filter fun e => !q e.1
    buffer := c.buffer.map fun x => { x with fields := (List.range 7).map (field x) } }

/-- The 512 bytes of block `b` of stack `st` (R226): seven lines, the check line, eight zero bytes. -/
def blockBytes (line : Nat → List Byte) (c : Checks) (st b : Nat) : List Byte :=
  (List.range 7).flatMap (fun n => line (lineAt st b n))
    ++ (List.range 7).flatMap (fun n => toBE 8 (c.stored (lineAt st b n)).toNat) ++ zeros 8

/-! ## The zone array (R229) and the system area (R218) -/

/-- A valid zone entry: V, MIR, the granule number. -/
def zoneEntry (num : Nat) (mir : Bool) : BitVec 32 := BitVec.ofNat 32 (2 ^ 31 + b2n mir * 2 ^ 30 + num % 65536)

/-- The blocks of the system area and their first bytes. -/
inductive SystemBlock where
  | zoneArray
  | control (inst : Nat)
  | eventLog
  | reserved
  | dispatch (tower slot : Nat)
  | staging
  deriving DecidableEq, Repr

/-- The block of the system area that holds absolute address `a`. -/
def systemBlock (a : Nat) : Option SystemBlock :=
  if a < 0x40000 then some .zoneArray
  else if a < 0x240000 then some (.control ((a - 0x40000) / 4096))
  else if a < 0x340000 then some .eventLog
  else if a < 0x400000 then some .reserved
  else if a < 0x800000 then some (.dispatch ((a - 0x400000) / 0x80000) ((a - 0x400000) % 0x80000 / 64))
  else if a < 0x1000000 then some .staging
  else none

end Sys2Proof.Machine
end

