-- ==== Sys2Proof/Machine/Microcode.lean ====
section
/-! DEFINITION. Control stores and microwords (R177 to R184, R191, R192): the address map, the fields of a word and the encodings that
the loader rejects, the patch traps, the sequencer, and what a word does to the working registers of its engine. The words of the ROM are
not in the spec, so instructions have their meaning elsewhere. A microword is given as the number of its 144 bits. -/

namespace Sys2Proof.Machine

open Sys2Proof

/-! ## State -/

/-- A control store (R177, R184): the patch RAM, words not listed being zero, PTM0 to PTM7, and the loader's lock. The ROM is the
stepping's and the same in every store of a kind. -/
structure ControlStore where
  ram : KV (BitVec 144) := []
  ptm : List (BitVec 32) := List.replicate 8 0
  locked : Bool := false
  deriving DecidableEq, Repr

/-- The working registers of an engine (R179). `flags` are the micro-flags in the order of R188: UF0 to UF7, DCO, DZR, ES, AZ, AN, AC, AV,
DOV; `stack` has its bottom entry first. The decimal latches hold digits as a decimal accumulator does, DXR with a zero sign nibble. -/
structure MicroRegs where
  mpc : BitVec 13 := 0
  mt : Vector Word 8 := Vector.replicate 8 0
  mar : Word := 0
  mdr : Word := 0
  count : BitVec 16 := 0
  flags : BitVec 16 := 0
  stack : List (BitVec 13) := []
  dxa : BitVec 128 := 0
  dxb : BitVec 128 := 0
  dxr : BitVec 128 := 0
  product : BitVec 128 := 0
  fpu : Word := 0
  /-- the decimal working sign, true for minus -/
  sign : Bool := false
  deriving DecidableEq, Repr

/-! ## Fields (R179) -/

namespace Micro

def cyc (w : Nat) : Nat := bits w 143 142 + 1
def trap (w : Nat) : Bool := bit w 141
def seq (w : Nat) : Nat := bits w 140 138
def condition (w : Nat) : Nat := bits w 137 132
def addr (w : Nat) : Nat := bits w 131 119
def alt (w : Nat) : Nat := bits w 118 106
def aop (w : Nat) : Nat := bits w 105 101
def asa (w : Nat) : Nat := bits w 100 96
def asb (w : Nat) : Nat := bits w 95 91
def adst (w : Nat) : Nat := bits w 90 86
def rsa (w : Nat) : Nat := bits w 85 83
def rsb (w : Nat) : Nat := bits w 82 80
def rsd (w : Nat) : Nat := bits w 79 77
def mop (w : Nat) : Nat := bits w 76 74
def dop (w : Nat) : Nat := bits w 73 70
def fop (w : Nat) : Nat := bits w 69 66
def mem (w : Nat) : Nat := bits w 65 62
def mas (w : Nat) : Nat := bits w 61 59
def flg (w : Nat) : Nat := bits w 58 56
def ufl (w : Nat) : Nat := bits w 55 53
def cnt (w : Nat) : Nat := bits w 52 51
def spc (w : Nat) : Nat := bits w 50 47
def const (w : Nat) : Nat := bits w 40 9

/-- Is CHK right: CHK[k] the XOR of every ninth bit from 9 + k on? -/
def chkOk (w : Nat) : Bool :=
  (List.range 9).all fun k => bit w k == ((List.range 15).foldl (fun a j => a != bit w (9 + 9 * j + k)) false)

end Micro

open Micro

/-! ## Reserved encodings and unused fields (R180, R181, R191) -/

/-- Does a bus source or destination name a register by an instruction field? -/
def named (che : Bool) (x : Nat) : Bool := x == 0x0B || x == 0x0C || (!che && (x == 0x0D || x == 0x0E || x == 0x18))

/-- A reserved encoding, on either kind of engine. -/
def reservedCode (w : Nat) : Bool :=
  let condBad := if seq w == 4 then condition w > 0x1C else if seq w == 5 then condition w < 0x20 || condition w > 0x26 else condition w != 0
  let d := adst w
  seq w == 7 || condBad || aop w > 0x19 || (aop w == 0 && d != 0) || (aop w == 0x11 && const w % 4 == 3)
    || asa w > 0x1C || asb w > 0x1C || d == 1 || d == 2 || (0x10 ≤ d && d ≤ 0x13) || d == 0x16 || d == 0x17 || d ≥ 0x1B
    || mop w > 4 || dop w == 15 || fop w > 0xC || mem w > 0xB || mas w > 5 || ufl w == 7 || spc w > 0xD

/-- What a channel engine reserves beyond that. -/
def reservedChe (w : Nat) : Bool :=
  let src (x : Nat) : Bool := x == 0x0D || (0x10 ≤ x && x ≤ 0x13) || (0x16 ≤ x && x ≤ 0x19) || x == 0x1C
  mop w != 0 || dop w != 0 || fop w != 0 || flg w != 0 || src (asa w) || src (asb w) || src (adst w) || spc w > 6
    || (asa w == 0x0C && rsa w > 1) || (asb w == 0x0C && rsb w > 1) || (adst w == 0x0C && rsd w > 1)

/-- ALU operations of one operand. -/
def unaryOp (a : Nat) : Bool := a == 1 || a == 0x0E || a == 0x0F || a == 0x10 || a == 0x11 || (0x13 ≤ a && a ≤ 0x15)

/-- Does the word use the A bus, and the B bus? -/
def usesA (w : Nat) : Bool :=
  aop w != 0 || mop w != 0 || dop w == 2 || dop w == 8 || dop w == 10 || fop w != 0 || mem w == 9 || mas w == 2 || flg w == 6 || ufl w == 4
    || cnt w == 1 || spc w == 10
def usesB (w : Nat) : Bool :=
  (aop w != 0 && !unaryOp (aop w)) || (1 ≤ mop w && mop w ≤ 3) || dop w == 2 || dop w == 8 || (fop w != 0 && fop w < 10) || spc w == 10

/-- Does the word use its constant? -/
def usesConst (che : Bool) (w : Nat) : Bool :=
  asa w == 1 || asa w == 2 || asb w == 1 || asb w == 2 || aop w == 0x11 || cnt w == 3 || (1 ≤ ufl w && ufl w ≤ 3)
    || dop w == 6 || dop w == 7 || dop w == 11 || (!che && (spc w == 2 || spc w == 7 || spc w == 8 || spc w == 13))

/-- A field that the word does not use and that is not zero (R179; which words use a field, assumption log 114). -/
def unusedSet (che : Bool) (w : Nat) : Bool :=
  let jumps := seq w == 1 || seq w == 2 || seq w == 4 || seq w == 5
  let usesRsa := named che (asa w) || dop w == 1 || mas w == 5 || (!che && spc w == 11)
  let usesRsb := named che (asb w) || dop w == 1
  let usesRsd := named che (adst w) || dop w == 12 || dop w == 13 || (4 ≤ fop w && fop w ≤ 6) || (che && spc w == 4)
  (!jumps && addr w != 0) || (seq w != 4 && alt w != 0) || (!usesA w && asa w != 0) || (!usesB w && asb w != 0)
    || (!usesRsa && rsa w != 0) || (!usesRsb && rsb w != 0) || (!usesRsd && rsd w != 0) || (!usesConst che w && const w != 0)

/-- Does the loader reject the word: a bad CHK, a nonzero reserved field or a reserved encoding (R180, R192)? -/
def wordBad (che : Bool) (w : Nat) : Bool :=
  !chkOk w || reservedCode w || (che && reservedChe w) || bits w 46 41 != 0 || unusedSet che w

/-! ## The loader (R184, R192) -/

/-- A control store written from a patch set, its lock not yet set. -/
def ControlStore.load (words : List (Nat × BitVec 144)) (ptm : List (BitVec 32)) : ControlStore :=
  { ram := words, ptm := ptm }

/-- A match register written through the control store's register addresses 0x0 to 0x7: locked, it keeps its value (R184). -/
def ControlStore.setPtm (c : ControlStore) (k : Nat) (v : BitVec 32) : ControlStore :=
  if c.locked then c else { c with ptm := c.ptm.set k (v &&& 0x8FFF1FFF) }

/-- EN, FROM and TO of a match register. -/
def ptmEn (v : Nat) : Bool := bit v 31
def ptmFrom (v : Nat) : Nat := bits v 27 16
def ptmTo (v : Nat) : Nat := bits v 12 0

/-- A register of the loaded set that the loader rejects, `words` being the addresses loaded and `before` the registers below it: a
nonzero reserved field; a reserved TO or a TO without a word, unless the register is wholly zero (assumption log 115); a FROM that an
enabled register below has too. -/
def ptmBad (words before : List Nat) (v : Nat) : Bool :=
  bits v 30 28 != 0 || bits v 15 13 != 0 || (v != 0 && !words.contains (ptmTo v))
    || (ptmEn v && before.any fun x => ptmEn x && ptmFrom x == ptmFrom v)

/-! ## The sequencer (R182, R184) -/

/-- The address fetched for `a`: a ROM address that an enabled match register holds is redirected to the patch RAM (R184). -/
def ControlStore.redirect (c : ControlStore) (a : Nat) : Nat :=
  if a < 0x1000 then
    match c.ptm.find? fun v => ptmEn v.toNat && ptmFrom v.toNat == a with
    | some v => ptmTo v.toNat
    | none => a
  else a

/-- The word at an address of a control store, `kind` 1 of a CPE and 2 of a channel engine. -/
def ControlStore.word (c : ControlStore) (stepping kind a : Nat) : BitVec 144 :=
  if a < 0x1000 then Config.rom stepping kind a else (kvFind c.ram a).getD 0

/-- What follows a word: the next micro-address with the return stack, the end of the instruction, or a microcode check. -/
inductive Follow where
  | goto (a : Nat) (stack : List (BitVec 13))
  | ended
  | check
  deriving DecidableEq, Repr

/-- A target, redirected; one in 0x1800 to 0x1FFF is a microcode check. -/
def ControlStore.target (c : ControlStore) (a : Nat) (stack : List (BitVec 13)) : Follow :=
  let a := c.redirect (a % 0x2000)
  if a ≥ 0x1800 then .check else .goto a stack

/-- Does a NEXT at address `a` run off its region? -/
def nextRunsOff (a : Nat) : Bool := a == 0x0FFF || a == 0x17FF

/-- The sequencing of word `w` at address `a`: `holds` its condition, `sel` the value that DISP selects. -/
def ControlStore.follow (c : ControlStore) (a w : Nat) (stack : List (BitVec 13)) (holds : Bool) (sel : Nat) : Follow :=
  match seq w with
  | 0 => if nextRunsOff a then .check else c.target (a + 1) stack
  | 1 => c.target (addr w) stack
  | 2 => if stack.length ≥ 4 || nextRunsOff a then .check else c.target (addr w) (stack ++ [BitVec.ofNat 13 (a + 1)])
  | 3 => match stack.getLast? with
    | some r => c.target r.toNat stack.dropLast
    | none => .check
  | 4 => c.target (if holds then addr w else alt w) stack
  | 5 => c.target (addr w + sel) stack
  | 6 => .ended
  | _ => .check

/-- The condition of BR on the working registers (R181); `pending` an interruption, switch or commit request. -/
def MicroRegs.holds (r : MicroRegs) (n : Nat) (pending : Bool) : Bool :=
  let f (i : Nat) : Bool := r.flags.getLsbD i
  if n == 0 then true
  else if n ≤ 8 then f (n - 1)
  else if n ≤ 0x10 then !f (n - 9)
  else match n with
    | 0x11 => f 11 | 0x12 => f 12 | 0x13 => f 13 | 0x14 => f 14
    | 0x15 => f 8 | 0x16 => f 9 | 0x17 => f 10
    | 0x18 => f 10 && !f 8
    | 0x19 => !f 10 && f 8
    | 0x1A => r.count == 0
    | 0x1B => r.count != 0
    | 0x1C => pending
    | _ => false

/-- The 4-bit value that DISP selects (R181): OPT and FN of the instruction, or working registers. -/
def MicroRegs.select (r : MicroRegs) (n opt fn : Nat) : Nat :=
  match n with
  | 0x20 => opt % 16
  | 0x21 => bits fn 8 5
  | 0x22 => bits fn 7 4
  | 0x23 => r.count.toNat % 16
  | 0x24 => r.mdr.toNat % 16
  | 0x25 => bits r.dxr.toNat 127 124
  | 0x26 =>
    let b := r.mdr.toNat % 256
    if b == 0x10 then 1 else if b == 0x11 then 2 else if b == 0x12 then 3 else if b < 0x20 then 4 else 0
  | _ => 0

/-! ## The ALU and the counters (R181) -/

/-- The result of an ALU operation with AC and AV, `ac` being AC before it and `k` CONST. -/
def aluOp (op : Nat) (a b : Word) (ac : Bool) (k : Nat) : Word × Bool × Bool :=
  let add (x y : Word) (c : Bool) : Word × Bool × Bool :=
    let v := x + y + (if c then 1 else 0)
    (v, decide (x.toNat + y.toNat + b2n c ≥ 2 ^ 64), decide (x.toInt + y.toInt + b2n c ≠ v.toInt))
  let sub (x y : Word) (c : Bool) : Word × Bool × Bool :=
    let v := x - y - (if c then 1 else 0)
    (v, decide (x.toNat < y.toNat + b2n c), decide (x.toInt - y.toInt - b2n c ≠ v.toInt))
  let plain (v : Word) : Word × Bool × Bool := (v, false, false)
  let n := b.toNat % 64
  match op with
  | 1 => plain a
  | 2 => add a b false
  | 3 => add a b ac
  | 4 => sub a b false
  | 5 => sub a b ac
  | 6 => plain (a &&& b)
  | 7 => plain (a ||| b)
  | 8 => plain (a ^^^ b)
  | 9 => plain (a &&& ~~~b)
  | 0x0A => plain (a <<< n)
  | 0x0B => plain (a >>> n)
  | 0x0C => plain (a.sshiftRight n)
  | 0x0D => plain (a.rotateLeft n)
  | 0x0E => plain (BitVec.ofNat 64 (((List.range 64).find? fun i => a.getLsbD (63 - i)).getD 64))
  | 0x0F => plain (BitVec.ofNat 64 ((List.range 64).filter fun i => a.getLsbD i).length)
  | 0x10 => plain (BitVec.ofNat 64 (leNat (toBE 8 a.toNat)))
  | 0x11 => plain (match k % 4 with
    | 0 => (a.setWidth 8).signExtend 64
    | 1 => (a.setWidth 16).signExtend 64
    | _ => (a.setWidth 32).signExtend 64)
  | 0x12 => sub a b false
  | 0x13 => sub 0 a false
  | 0x14 => add a 1 false
  | 0x15 => sub a 1 false
  | 0x16 => plain (if a.toNat ≤ b.toNat then a else b)
  | 0x17 => plain (if a.toNat ≤ b.toNat then b else a)
  | 0x18 => plain ((crcByte polyC (a.setWidth 32) (b.setWidth 8)).setWidth 64)
  | 0x19 => plain (a + (b &&& 0xFF))
  | _ => plain 0

/-- The micro-flags with AZ, AN, AC and AV of a result. -/
def aluFlags (f : BitVec 16) (x : Word × Bool × Bool) : BitVec 16 :=
  (f &&& 0x87FF) ||| (if x.1 == 0 then 0x0800 else 0) ||| (if x.1.getLsbD 63 then 0x1000 else 0) ||| (if x.2.1 then 0x2000 else 0)
    ||| (if x.2.2 then 0x4000 else 0)

/-- UF after a micro-flag operation, `a` being the A bus. -/
def uflOp (w : Nat) (f : BitVec 16) (a : Word) : BitVec 16 :=
  let uf := f.setWidth 8
  let c : BitVec 8 := BitVec.ofNat 8 (const w)
  let put (v : BitVec 8) : BitVec 16 := (f &&& 0xFF00) ||| v.setWidth 16
  match ufl w with
  | 1 => put (uf ||| c)
  | 2 => put (uf &&& ~~~c)
  | 3 => put c
  | 4 => put (a.setWidth 8)
  | 5 => put ((uf &&& 0xFE) ||| (if f.getLsbD 11 then 1 else 0))
  | 6 => put ((uf &&& 0xFE) ||| (if f.getLsbD 12 then 1 else 0))
  | _ => f

/-- The micro-counter after a word. -/
def cntOp (w : Nat) (n : BitVec 16) (a : Word) : BitVec 16 :=
  match cnt w with
  | 1 => a.setWidth 16
  | 2 => n - 1
  | 3 => BitVec.ofNat 16 (const w)
  | _ => n

/-- Entry `i` of the reciprocal table, in units of 2^-10 (R155). -/
def recipEntry (i : Nat) : Nat := (2 ^ 22 + 1025 + 2 * i) / (2 * (1025 + 2 * i))

/-- The estimate for a divisor: the entry that the 9 bits after its leading 1 select. A zero divisor has none. -/
def recipEstimate (d : Word) : Word :=
  if d == 0 then Config.reciprocalOfZero
  else BitVec.ofNat 64 (recipEntry (d.toNat * 2 ^ 9 / 2 ^ d.toNat.log2 % 512))

/-- The product register after a word; the reciprocal estimate is the multiplier's own (R155). -/
def mopOp (w : Nat) (p : BitVec 128) (a b : Word) : BitVec 128 :=
  match mop w with
  | 1 => BitVec.ofNat 128 (a.toNat * b.toNat)
  | 2 => BitVec.ofInt 128 (a.toInt * b.toInt)
  | 3 => BitVec.ofNat 128 (a.toNat * b.toNat + p.toNat / 2 ^ 64)
  | 4 => (p &&& (BitVec.allOnes 64 ++ (0 : BitVec 64))) ||| (recipEstimate a).setWidth 128
  | _ => p

/-! ## The decimal unit (R181, R194) -/

def decMag (v : BitVec 128) : Nat := (nibbles (toBE 16 v.toNat)).dropLast.foldl (fun a d => a * 10 + d) 0
def decMinus (v : BitVec 128) : Bool := v.toNat % 16 == 13

/-- Is a decimal operand well formed, its digits and its sign (R159)? -/
def decOk (v : BitVec 128) : Bool :=
  let n := nibbles (toBE 16 v.toNat)
  n.dropLast.all (fun d => d < 10) && (n.getLastD 0 == 12 || n.getLastD 0 == 13 || n.getLastD 0 == 15)

def dxrOf (m : Nat) : BitVec 128 := BitVec.ofNat 128 (packDigits 31 (m % tenTo31) * 16)

/-- A micro-flag set to a value. -/
def putFlag (f : BitVec 16) (i : Nat) (b : Bool) : BitVec 16 := (f &&& ~~~((1 : BitVec 16) <<< i)) ||| (if b then (1 : BitVec 16) <<< i else 0)

def MicroRegs.flagged (r : MicroRegs) (l : List (Nat × Bool)) : MicroRegs := { r with flags := l.foldl (fun f x => putFlag f x.1 x.2) r.flags }

/-- DADDP, or DSUBP (R194). -/
def MicroRegs.addDec (r : MicroRegs) (inv : Bool) : MicroRegs :=
  let a := decMag r.dxa
  let b := decMag r.dxb
  let es := decMinus r.dxa != (decMinus r.dxb != inv)
  let sum := if es then a + (tenTo31 - b) else a + b
  let dco := decide (sum ≥ tenTo31)
  { r with dxr := dxrOf sum, sign := decMinus r.dxa }.flagged [(8, dco), (9, sum % tenTo31 == 0), (10, es), (15, !es && dco)]

/-- DLAB of two operands; none where the decimal check fails. -/
def MicroRegs.loadDec (r : MicroRegs) (a b : BitVec 128) : Option MicroRegs :=
  if decOk a && decOk b then some ({ r with dxa := a, dxb := b, sign := decMinus a != decMinus b }.flagged [(15, false)]) else none

/-- DRCP. -/
def MicroRegs.recomplement (r : MicroRegs) : MicroRegs := { r with dxr := dxrOf (tenTo31 - decMag r.dxr), sign := !r.sign }

/-- What DWR writes, under a sign. -/
def MicroRegs.decOut (r : MicroRegs) (minus : Bool) : BitVec 128 :=
  let plus := decMag r.dxr == 0 && !(r.flags.getLsbD 8 && !r.flags.getLsbD 10)
  r.dxr ||| (if minus && !plus then 0xD else 0xC)

/-- A decimal unit operation on the working registers: `a` and `b` the buses, `x` and `y` the accumulators named by RSA and RSB. -/
def MicroRegs.dopOp (r : MicroRegs) (w : Nat) (a b : Word) (x y : BitVec 128) : Option MicroRegs :=
  let k := const w
  match dop w with
  | 1 => r.loadDec x y
  | 2 => if decOk (a ++ b) then some ({ r with dxa := a ++ b }.flagged [(15, false)]) else none
  | 3 => some (r.addDec false)
  | 4 => some (r.addDec true)
  | 5 => some r.recomplement
  | 6 =>
    let v := decMag r.dxr * 10 ^ (k % 32)
    let lost := decide (v ≥ tenTo31)
    some ({ r with dxr := dxrOf v }.flagged [(8, lost), (15, lost)])
  | 7 =>
    let n := k % 32
    let m := decMag r.dxr
    let up := n != 0 && decide (m / 10 ^ (n - 1) % 10 + bits k 11 8 ≥ 10)
    some { r with dxr := dxrOf (m / 10 ^ n + b2n up) }
  | 8 => some { r with dxb := a ++ b }
  | 9 =>
    let v := decMag r.dxr + decMag r.dxb
    let dco := decide (v ≥ tenTo31)
    some ({ r with dxr := dxrOf v }.flagged [(8, dco), (15, dco)])
  | 10 => some { r with dxr := dxrOf a.toNat }
  | 11 =>
    let m := decMag r.dxa
    some { r with product := (r.product &&& (BitVec.allOnes 64 ++ (0 : BitVec 64))) |||
      BitVec.ofNat 128 (if k % 2 == 0 then m % 10 ^ 16 else m / 10 ^ 16) }
  | _ => some r

/-- The decimal unit after the routine of ADDP or (`inv`) SUBP (R194): both operands loaded, added, and recomplemented where an effective
subtraction does not carry out; none where the decimal check fails. -/
def MicroRegs.addRoutine (r : MicroRegs) (inv : Bool) (a b : BitVec 128) : Option MicroRegs :=
  (r.loadDec a b).map fun r =>
    let r := r.addDec inv
    if r.flags.getLsbD 10 && !r.flags.getLsbD 8 then r.recomplement else r

/-- A destination among the working registers written with the ALU result. -/
def MicroRegs.put (r : MicroRegs) (d : Nat) (v : Word) : MicroRegs :=
  if 3 ≤ d && d ≤ 10 then { r with mt := r.mt.setIfInBounds (d - 3) v }
  else match d with
    | 0x0F => { r with mdr := v }
    | 0x15 => { r with count := v.setWidth 16 }
    | 0x1A => { r with mar := v }
    | _ => r

/-- A working register as a bus source; `arch` gives the sources outside it. -/
def MicroRegs.source (r : MicroRegs) (w x : Nat) (arch : Nat → Word) : Word :=
  if 3 ≤ x && x ≤ 10 then r.mt.getD (x - 3) 0
  else match x with
    | 0 => 0
    | 1 => BitVec.ofNat 64 (const w)
    | 2 => (BitVec.ofNat 32 (const w)).signExtend 64
    | 0x0F => r.mdr
    | 0x10 => r.product.setWidth 64
    | 0x11 => r.product.extractLsb' 64 64
    | 0x12 => r.dxr.extractLsb' 64 64
    | 0x13 => r.dxr.setWidth 64
    | 0x15 => r.count.setWidth 64
    | 0x1A => r.mar
    | 0x1C => r.fpu
    | x => arch x

/-- What a word does to the working registers through the ALU, the multiplier, the decimal unit, the micro-flags and the micro-counter;
none where a decimal check fails. `x` and `y` are the accumulators that RSA and RSB name. -/
def MicroRegs.run (r : MicroRegs) (w : Nat) (arch : Nat → Word) (x y : BitVec 128) : Option MicroRegs :=
  let a := r.source w (asa w) arch
  let b := r.source w (asb w) arch
  let v := aluOp (aop w) a b (r.flags.getLsbD 13) (const w)
  let f := if aop w == 0 then r.flags else aluFlags r.flags v
  let r := { r with flags := uflOp w f a, count := cntOp w r.count a, product := mopOp w r.product a b }
  (r.dopOp w a b x y).map fun r => if aop w == 0 || aop w == 0x12 then r else r.put (adst w) v.1

end Sys2Proof.Machine
end

