-- ==== Sys2Proof/Machine/EngineState.lean ====
section
/-! DEFINITION. The state of the towers: virtual engines with their registers, checkpoints and held interruptions, physical
engines with their caches, domes, and the two stores. -/

namespace Sys2Proof.Machine

open Sys2Proof

/-- The micro-save area (R151, R188). `src` and `pattern` are the operand values the routine read before the trap, by register number,
and an EDITP's pattern: a resumed routine computes from them (R151). -/
structure MicroSave where
  ia : Word := 0
  op : Byte := 0
  valid : Bool := false
  depth : Nat := 0
  mpc : BitVec 13 := 0
  uflags : BitVec 16 := 0
  count : BitVec 16 := 0
  stack : List (BitVec 16) := []
  /-- the microcode set that saved it (MSID) -/
  msid : Nat := 0
  mt : Vector Word 8 := Vector.replicate 8 0
  src : List (Nat × BitVec 128) := []
  pattern : List Byte := []
  deriving DecidableEq, Repr

/-- The registers of a virtual engine (R96). `ia` is ESW[127:64], `psw` ESW[63:0] (R100); `k` holds K0 to K11 (R102),
K12 to K15 read zero. The defaults are the start state's (R104). -/
structure Ctx where
  g : Vector Word 32 := Vector.replicate 32 0
  f : Vector Word 32 := Vector.replicate 32 0
  da : Vector (BitVec 128) 8 := Vector.replicate 8 0xC
  ia : Word := 0
  psw : Word := 0
  k : Vector Word 12 := #v[0, 0, 0, 0xFFFFFFFFFFFFFFFF, 0x7FFFFFFFFFFFFFFF, 0, 0, 0, 0, 0, 0, 0]
  fpcr : BitVec 32 := 0
  micro : MicroSave := {}
  deriving DecidableEq, Repr

/-- A program exception recognised and not yet presented (R112, R142): its code, the instruction length, the saved
instruction address, the floating-point flags of code 0x0206, and the failing virtual address where there is one. -/
structure ProgExc where
  code : Nat
  ilen : Nat
  ia : Word
  fpFlags : Nat := 0
  tea : Option Word := none
  deriving DecidableEq, Repr

/-- The report of a machine check (R335, R336). -/
structure McInfo where
  code : Nat
  nullified : Bool := true
  access : Nat := 0xFF
  ilen : Nat := 0
  va : Option Word := none
  line : Nat := 0
  eseq : Nat := 0
  tb : Nat := 0
  source : Nat := 0
  unit : Nat := 0
  left : Nat := 0
  multiple : Bool := false
  deriving DecidableEq, Repr

/-- An interruption that has been taken and is not yet consumed (R323). -/
inductive Taken where
  | restart
  | io (sub : Nat)
  | signal (sender : Nat)
  | message (seq : Nat)
  | accel (area : Word)
  | deferred (m : McInfo)
  deriving DecidableEq, Repr

/-- Where an accelerator job is (R300, R301, R317). -/
inductive JobState where
  | staging
  | queued
  | running (e : Nat)
  | suspended
  /-- ended with a status, its completion waiting for its mirror group (R294, R360) -/
  | ended (status : Nat)
  deriving DecidableEq, Repr

/-- An admitted accelerator job: a host request (`area = none`) or one submitted by XCALL or ZCALL, with the real address of
its completion area and the virtual engine to notify (R116). -/
structure Job where
  inst : Nat
  seq : Nat
  entry : List Byte
  area : Option Nat := none
  ve : Nat := 0
  /-- real addresses of the pieces of SRC, AAD and DST of an instruction's job: address and length -/
  src : List (Nat × Nat) := []
  aad : List (Nat × Nat) := []
  dst : List (Nat × Nat) := []
  order : Nat := 0
  st : JobState := .queued
  page : Nat := 0
  slot : Nat := 0
  charge : Nat := 0
  suspends : Nat := 0
  /-- admission time, and whether the slot came from the shared remainder (R82, R83) -/
  tb : Nat := 0
  shared : Bool := false
  startOrder : Nat := 0
  deriving DecidableEq, Repr

/-- What a closing commit point hands over in the step that completes it (R322). -/
inductive Effect where
  | completion (i seq status detail count : Nat) (result : List Byte)
  | startOp (i sub v : Nat) (block : List Byte)
  | signal (i target sender : Nat) (param : Word)
  | restart (i target : Nat)
  | job (j : Job) (cz : Bool)
  | areaWrite (i v area : Nat) (bytes : List Byte) (noint : Bool)
  | hostStore (i w off : Nat) (data : List Byte)
  deriving DecidableEq, Repr

/-- A commit point taken and not yet completed (R321): the copied state, the interruptions it consumes (R323), the effect
it hands over (R322), and whether the engine waits for its completion (R133). `closing` once its mirror group has closed (R360). -/
structure CommitBuf where
  ctx : Ctx
  /-- the program exception and the machine check that pend at it, which its interruption presents (R323) -/
  prog : Option ProgExc := none
  mc : Option McInfo := none
  consumes : List Taken := []
  effects : List Effect := []
  /-- it opens an instruction of R322 -/
  opening : Bool := false
  /-- the virtual engine leaves the engine when it completes (R80) -/
  leave : Bool := false
  wait : Bool := false
  tb : Nat := 0
  /-- the cipher-window stores it covers -/
  keyWrites : List (Nat × List Byte) := []
  closing : Bool := false
  deriving DecidableEq, Repr

/-- A virtual engine (R79, R96, R325). -/
structure VE where
  /-- it has a context (placed at least once since CREATE) -/
  hasCtx : Bool := false
  /-- the tower whose dome keeps its checkpoint slot -/
  tower : Nat := 0
  placed : Bool := false
  stopped : Bool := true
  /-- the mask of a BARRIER that waits (R139) -/
  barrier : Option Word := none
  /-- descheduled until the function's Bus Master Enable returns (R91) -/
  waitBme : Bool := false
  cur : Ctx := {}
  ckpt : Ctx := {}
  /-- the program exception and the machine check that pended at the checkpoint (R323) -/
  ckProg : Option ProgExc := none
  ckMc : Option McInfo := none
  csn : Nat := 1
  /-- instructions completed since the last commit point was taken (R320) -/
  icount : Nat := 0
  tbCommit : Nat := 0
  slot : Nat := 0
  on : Option Nat := none
  /-- timebase of its latest dispatch -/
  since : Nat := 0
  prog : Option ProgExc := none
  mc : Option McInfo := none
  /-- stopped with an immediate machine check held (R335) -/
  mcHeld : Bool := false
  restart : Bool := false
  deferred : Option McInfo := none
  /-- held signals by sender, with their parameters -/
  signals : KV Word := []
  accel : List Word := []
  taken : List Taken := []
  /-- the opening commit point of R322 has completed for the instruction at IA -/
  opened : Bool := false
  /-- direction of a MOVB in progress, descending or not (R129); none when an instruction is to decide afresh -/
  desc : Option Bool := none
  /-- an ESW has been loaded, or the virtual engine dispatched, and no instruction has completed since: an enabled interruption comes
  first (R143, R146) -/
  check : Bool := false
  /-- stores to the cipher-page window not yet committed (R285): window offset and eight bytes -/
  keyWrites : List (Nat × List Byte) := []
  deriving DecidableEq, Repr

/-- L1D line states (R198); only a D line differs from the dome, so only it carries data. -/
inductive L1State where
  | S | E | D
  deriving DecidableEq, Repr

structure L1Line where
  line : Nat
  st : L1State
  data : List Byte := []
  deriving DecidableEq, Repr

/-- A stream buffer (R205): its line, and the bytes written since the last commit point, from offset `off` of the line on (R206). -/
structure StreamBuf where
  line : Nat
  off : Nat := 0
  data : List Byte := []
  deriving DecidableEq, Repr

/-- The streaming detector (R205): the span `[start, next)` of contiguous stores, no-allocate mode, and its at most two buffers,
oldest first. -/
structure Stream where
  start : Nat := 0
  next : Nat := 0
  active : Bool := false
  bufs : List StreamBuf := []
  deriving DecidableEq, Repr

inductive FillKind where
  | load | fetch | prefetch
  deriving DecidableEq, Repr

/-- A fill in flight (R214); `drop` when a racing invalidation marked it not-install. -/
structure Fill where
  line : Nat
  kind : FillKind
  drop : Bool := false
  deriving DecidableEq, Repr

/-- A TLB entry (R122). -/
structure TlbEntry where
  inst : Nat
  asid : BitVec 16
  vbase : Nat
  size : Nat
  frame : Nat
  x : Bool
  u : Bool
  w : Bool
  deriving DecidableEq, Repr

/-- A zone-cache entry (R229, R231): the instance, the list, the index in it, and the zone entry read there. -/
structure ZoneTag where
  inst : Nat
  bulk : Bool
  index : Nat
  entry : BitVec 32
  deriving DecidableEq, Repr

/-- How the structure image and sparing use an engine (R331): dispatchable, structural spare, fuse reserve, or not used. -/
inductive Role where
  | dispatch | spare | reserve | disabled
  deriving DecidableEq, Repr

/-- What an engine is doing beside running a virtual engine. -/
inductive EPhase where
  | run
  /-- checkstopped, the quick check running (R330) -/
  | quickCheck
  /-- the fuse reserve being brought up for engine `failed` (R331) -/
  | bringUp (failed : Nat)
  /-- under a runtime test (R442) -/
  | test
  deriving DecidableEq, Repr

/-- What a recovery in progress will report (R338, R339): the cause, detection time, and the virtual engine moved. -/
structure Recovery where
  cause : Nat := 0
  tb : Nat := 0
  /-- when the step under way began -/
  since : Nat := 0
  ve : Option Nat := none
  deriving DecidableEq, Repr

/-- A physical engine. -/
structure Engine where
  ve : Option Nat := none
  role : Role := .dispatch
  fenced : Bool := false
  phase : EPhase := .run
  /-- the engine this spare stands in for during a runtime test (R443) -/
  standFor : Option Nat := none
  l1d : List L1Line := []
  l1i : List Nat := []
  stream : Stream := {}
  fills : List Fill := []
  tlb : List TlbEntry := []
  commit : Option CommitBuf := none
  /-- an agent waits for a line this engine holds uncommitted (R202) -/
  steal : Bool := false
  /-- timebase of the last checkstop (R328) -/
  lastStop : Option Nat := none
  recovery : Recovery := {}
  /-- failed attempts of the host read of a window load (R62) -/
  winFails : Nat := 0
  /-- the engine's zone cache of 64 entries (R231) -/
  zones : List ZoneTag := []
  /-- its control store and working registers (R177, R179) -/
  cs : ControlStore := {}
  work : MicroRegs := {}
  deriving DecidableEq, Repr

/-- Dome line states (R198). -/
inductive DomeState where
  | S | E | M | P
  deriving DecidableEq, Repr

/-- A dome line. M and P lines carry data; a P line names its engine, and whether the commit point that is to complete
covers it (`taken`). -/
structure DomeLine where
  line : Nat
  st : DomeState
  way : Nat
  data : List Byte := []
  poison : Bool := false
  owner : Nat := 0
  taken : Bool := false
  /-- counted in HELD of its locked way (R208) -/
  locked : Bool := false
  deriving DecidableEq, Repr

/-- LKST of one handle (R210), kept by physical way: its instance, handle number and counts. -/
structure WayLock where
  inst : Nat
  handle : Nat
  locked : Bool := false
  held : Nat := 0
  removed : Nat := 0
  deriving DecidableEq, Repr

/-- The dome and dispatcher of a tower. -/
structure Dome where
  stopped : Bool := false
  lines : List DomeLine := []
  /-- the granted ways, by physical way number -/
  locks : KV WayLock := []
  /-- ways that take no allocation: under test, or retired (R439, R444) -/
  waysOut : List Nat := []
  /-- checkpoint slots with an uncorrectable error (R326) -/
  badSlots : List Nat := []
  /-- the dispatcher's window of 64 time slices (R80): its first timebase, and the engine time that each instance has taken in it -/
  winTb : Nat := 0
  used : KV Nat := []
  deriving DecidableEq, Repr

/-- Address parity errors of a port without a good access between them (R224): the line, the timebase, and their number. -/
structure Parity where
  line : Nat := 0
  tb : Nat := 0
  count : Nat := 0
  deriving DecidableEq, Repr

/-- The stores (R217): their bytes by absolute address, unlisted bytes zero (R76), and the poisoned lines (R237). -/
structure Mem where
  store : List Host.Cell := []
  poison : List Nat := []
  /-- consecutive address parity errors, by main-store port -/
  parity : KV Parity := []
  /-- check lines of the bulk store: the controller's buffers and the stacks' arrays (R227) -/
  checks : Checks := {}
  deriving DecidableEq, Repr

end Sys2Proof.Machine
end

