-- ==== Sys2Proof/Machine/HostState.lean ====
section
/-! DEFINITION. The state of the host port and of the instance unit: functions and their rings, requests, instances with their
pools, windows, dirty logs and sessions. -/

namespace Sys2Proof.Machine

open Sys2Proof

/-- An MSI-X table entry and its PBA bit (R39, R61). -/
structure Msix where
  addr : Word := 0
  data : BitVec 32 := 0
  masked : Bool := true
  pba : Bool := false
  deriving DecidableEq, Repr

/-- A completion produced and not yet written (R91): status, detail, request ring and tag, and the rest of R58. -/
structure Completion where
  status : Nat
  detail : Nat := 0
  k : Nat := 0
  seq : Nat := 0
  tag : Nat := 0
  count : Nat := 0
  result : List Byte := []
  noint : Bool := false
  deriving DecidableEq, Repr

/-- A ring pair (R49 to R54). -/
structure Ring where
  rqBase : Nat := 0
  rqEn : Bool := false
  rqSize : Nat := 6
  rqHead : Nat := 0
  rqTail : Nat := 0
  cqBase : Nat := 0
  cqEn : Bool := false
  intEn : Bool := false
  cqVec : Nat := 0
  cqSize : Nat := 6
  coalCnt : Nat := 0
  coalTime : Nat := 0
  cqTail : Nat := 0
  cqHead : Nat := 0
  phase : Bool := true
  /-- slots reserved for requests fetched and not completed (R54) -/
  reserved : Nat := 0
  /-- the read of an entry is in progress, after this many failed attempts (R62) -/
  reading : Option Nat := none
  /-- completions gathered since the last message (R61) -/
  gathered : Nat := 0
  /-- completions held in their reserved slots (R91) -/
  held : List Completion := []
  deriving DecidableEq, Repr

/-- Errors reported through AER (R62). -/
structure Aer where
  poisoned : Bool := false
  timeout : Bool := false
  unsupported : Bool := false
  abort : Bool := false
  malformed : Bool := false
  overflow : Bool := false
  /-- correctable: a receiver error, a replay -/
  receiver : Bool := false
  replay : Bool := false
  deriving DecidableEq, Repr

/-- A function of the host port: PF 0 is function 0, VF n function n. -/
structure Fn where
  mse : Bool := false
  bme : Bool := false
  d3hot : Bool := false
  msixEn : Bool := false
  fmask : Bool := false
  /-- a function-level reset is in progress (R63) -/
  flr : Bool := false
  /-- MGR_ERR or INS_ERR (R48, R49); MGR_ERR.VF_ERR is computed -/
  err : BitVec 7 := 0
  /-- MGR_EVT_VEC or INS_ERR_VEC -/
  vecEn : Bool := false
  vec : Nat := 0
  rings : KV Ring := []
  vecs : KV Msix := []
  aer : Aer := {}
  /-- Device Control without Initiate Function Level Reset, which reads zero -/
  devCtl : BitVec 16 := 0x2000
  bars : KV (BitVec 32) := []
  /-- other read-write dwords of configuration space -/
  cfg : KV (BitVec 32) := []
  deriving DecidableEq, Repr

/-- Where a request is on its way from arrival to its completion. -/
inductive Stage where
  /-- fetched and checked, its operation not yet started -/
  | arrived
  /-- MSG: in the dispatch queue (R87 step 3) -/
  | queued
  /-- MSG: taken by a virtual engine, awaiting SIGNAL COMPLETE -/
  | taken
  /-- RESTART: pending at its target -/
  | pending
  /-- waiting for staging space (R241) -/
  | staging
  /-- running: a transfer, a job, a command in progress -/
  | running
  deriving DecidableEq, Repr

/-- A fetched request or manager command without a completion (R55, R57). -/
structure Request where
  fn : Nat
  k : Nat
  seq : Nat
  entry : List Byte
  stage : Stage := .arrived
  /-- failed attempts of its host read (R62) -/
  attempts : Nat := 0
  /-- bytes done before a fault (R238) -/
  count : Nat := 0
  /-- bytes that wait to be written to host memory -/
  data : List Byte := []
  /-- admission time, and whether its dispatch slot came from the shared remainder (R82, R83) -/
  tb : Nat := 0
  shared : Bool := false
  /-- its admission to the instance waits for its mirror group (R360) -/
  admitting : Bool := false
  /-- its completion waits for its mirror group (R360) -/
  closing : Bool := false
  deriving DecidableEq, Repr

/-- The DOE mailbox (R64): its Busy and Error bits and the caller nonce of an ATTEST in progress. -/
structure Doe where
  busy : Bool := false
  error : Bool := false
  deriving DecidableEq, Repr

structure HostPort where
  fns : KV Fn := []
  vfEnable : Bool := false
  /-- VF Memory Space Enable of the SR-IOV capability -/
  vfMse : Bool := false
  doe : Doe := {}
  reqs : List Request := []
  /-- the command ring's next SEQ (R57) -/
  cmdSeq : Nat := 1
  stopped : Bool := false
  deriving DecidableEq, Repr

/-- Instance states (R68). -/
inductive InstState where
  | free | defined | running | quiescing | quiesced | faulted | exported
  deriving DecidableEq, Repr

/-- A share of a pool (R76): the guarantee and the shared cap. Units held in admission pools are counted from their holders. -/
structure Share where
  guarantee : Nat := 0
  cap : Nat := 0
  deriving DecidableEq, Repr

/-- A host window (R72 SET_WINDOW). -/
structure Window where
  write : Bool := false
  busBase : Nat := 0
  pages : Nat := 0
  deriving DecidableEq, Repr

/-- A granule of a zone list (R229). -/
structure Granule where
  num : Nat
  mir : Bool := false
  deriving DecidableEq, Repr

/-- The dirty-page log of an instance (R65 to R67). `dirty` lists the page numbers recorded in region bitmaps, `extents`
pairs of first page and number of pages. -/
structure DirtyLog where
  interval : Nat := 1
  tbStart : Nat := 0
  dirty : List Nat := []
  extents : List (Nat × Nat) := []
  deriving DecidableEq, Repr

/-- An export or import session (R69, R93, R95): the next offset, the tag of the last frame, the domain key slot, and for
an import the content taken so far. An export keeps the content that it writes. -/
structure Session where
  offset : Nat := 0
  tag : List Byte := []
  dkey : Nat := 0
  salt : List Byte := []
  stream : List Byte := []
  deriving DecidableEq, Repr

/-- A shrink pending on a pool (R85), since when. -/
structure Shrink where
  pool : Nat
  tower : Nat
  seq : Nat
  tb : Nat := 0
  deriving DecidableEq, Repr

/-- A BARRIER arrival or a kept release (R139). -/
structure Arrival where
  ve : Nat
  mask : Word
  csn : Nat
  icount : Nat
  deriving DecidableEq, Repr

/-- The twin role of an instance (R372). -/
inductive TwinRole where
  | local_ | primary | secondary | exposed
  deriving DecidableEq, Repr

/-- An instance. -/
structure Inst where
  st : InstState := .free
  vectors : Nat := 0
  label : Nat := 0
  /-- INS_SEQ: the SEQ of the next request (R57) -/
  seq : Nat := 1
  /-- shares, keyed by pool code × 16 + tower -/
  shares : KV Share := []
  main : List Granule := []
  bulk : List Granule := []
  /-- physical key pages in VF BAR 2 order -/
  keyPages : List Nat := []
  ringPairs : Nat := 0
  windows : KV Window := []
  log : Option DirtyLog := none
  exporting : Option Session := none
  importing : Option Session := none
  shrinks : List Shrink := []
  /-- acquisition times of the shared subchannel groups in use (R83, R246) -/
  groupTb : KV Nat := []
  arrivals : List Arrival := []
  releases : List Arrival := []
  /-- the key-encryption key has been derived (R78) -/
  kek : Bool := false
  role : TwinRole := .local_
  /-- the secondary copy is being filled (R363) -/
  copying : Bool := false
  /-- last applied mirror group (R369) -/
  lastJsn : Nat := 0
  deriving DecidableEq, Repr

end Sys2Proof.Machine
end

