-- ==== Sys2Proof/Machine/UnitState.lean ====
section
/-! DEFINITION. The state of the hub's other units: Belfry, clock and reset unit, structure image in force, and the rest. -/

namespace Sys2Proof.Machine

open Sys2Proof

/-- An event-log entry (R338). `param` is the eight PARAM bytes as one number. -/
structure LogEntry where
  eseq : Nat := 0
  tb : Nat := 0
  event : Nat := 0
  cls : Nat := 0
  source : Nat := 0
  unit : Nat := 0xFFFF
  inst : Nat := 0xFFFF
  ve : Nat := 0xFF
  ladder : Nat := 0
  detail : Nat := 0
  count : Nat := 1
  addr : Nat := 0
  ref : Nat := 0
  param : Nat := 0
  deriving DecidableEq, Repr

/-- Class-1 occurrences being counted (R340): the entry of the first, the number after it, and the TB of the last. -/
structure Merge where
  event : Nat
  source : Nat
  unit : Nat
  tb0 : Nat
  count : Nat
  last : LogEntry
  deriving DecidableEq, Repr

/-- The Belfry (R337 to R346). -/
structure Belfry where
  stopped : Bool := false
  log : List LogEntry := []
  eseq : Nat := 1
  /-- the sticky array, oldest first, and how many of its entries predate the end of the latest start-up (R341) -/
  sticky : List LogEntry := []
  stickyOld : Nat := 0
  minClass : Nat := 4
  outstanding : Option Nat := none
  /-- a class-4 or higher entry written since the last ALERT_ACK (R345) -/
  alert : Bool := false
  healthMax : Nat := 0
  fatal : Bool := false
  selSticky : Bool := false
  sel : Nat := 0
  merges : List Merge := []
  /-- a boot-record entry could not be written (R403) -/
  entryLost : Bool := false
  deriving DecidableEq, Repr

/-- What the clocks are doing (R424 to R430). -/
inductive Phase where
  /-- PERST# asserted or the rails just powered -/
  | coldReset
  | startUp
  /-- start-up stopped for good: no image, no boot-record entry, a hub failure (R390, R403, R440) -/
  | bringUp
  | warmReset
  | run
  /-- every clock stopped (R33, R416, R463) -/
  | frozen
  deriving DecidableEq, Repr

/-- A device entry (R385); times in microseconds. `paths` holds the PATH bytes. -/
structure DevEntry where
  kind : Nat := 0
  prot : Bool := false
  eui : Bool := false
  apptag : Nat := 0
  /-- PATH bytes: bit 7 the module of the pair, bits 2 to 0 the channel path -/
  paths : List Nat := []
  fence : Nat := 1000
  pathWait : Nat := 5000000
  timeout : Nat := 8000000
  identity : List Byte := []
  deriving DecidableEq, Repr

/-- A patch set (R387): the ROM hash it names, PTM0 to PTM7, and its words by patch RAM address. -/
structure PatchSet where
  romHash : List Byte := []
  ptm : List (BitVec 32) := List.replicate 8 0
  words : List (Nat × BitVec 144) := []
  deriving DecidableEq, Repr

/-- The structure image in force, read (R394): the values its sections give. The defaults are the factory image's (R395) on
the KG9-M128. -/
structure Img where
  slice : Nat := 200
  lockways : Nat := 4
  /-- roles of slots E0 to E15 of the towers, 16 per tower (R379) -/
  roles : List Nat := (List.replicate 8 (List.replicate 15 1 ++ [2])).flatten
  pathMode : Nat := 0
  pathEnable : Nat := 0xFF
  journal : Nat := 2
  msMirFirst : Nat := 0
  msMirCount : Nat := 0
  bsMirFirst : Nat := 0
  bsMirCount : Nat := 0
  /-- per-instance pool limits by pool code; unlisted: R75's -/
  limits : KV Nat := []
  /-- XCE masks of the cipher groups -/
  groups : List Nat := [0xFFFF]
  /-- cipher group of an instance; unlisted: 0 -/
  instGroup : KV Nat := []
  czeIn : Nat := 0xFF
  kg7 : Bool := false
  twin : Bool := false
  fuseRepair : Bool := false
  plainKeys : Bool := false
  /-- PAIR0 and PAIR1 -/
  pair0 : Nat := 0
  pair1 : Nat := 0
  devices : List DevEntry := []
  /-- device lists: instance × 256 + entry to device number; unlisted: no device -/
  devlists : KV Nat := []
  structHash : List Byte := []
  ucodeHash : List Byte := []
  cpePatch : PatchSet := {}
  chePatch : PatchSet := {}
  deriving DecidableEq, Repr

/-- Operation states (R256). -/
inductive SubState where
  | idle | issued | validating | active | reissuing | ending | pending | held
  deriving DecidableEq, Repr

/-- A device command of the current CCE that is outstanding or done (R254, R274). -/
structure Piece where
  lba : Nat
  len : Nat
  off : Nat
  done : Bool := false
  /-- the reported error: final status, detail, device status -/
  err : Option (Nat × Nat × Nat) := none
  retried : Bool := false
  deriving DecidableEq, Repr

/-- An open EXPOSE window (R275): its index, buffer, and the byte offsets the adapter has written. -/
structure Expose where
  k : Nat
  base : Nat
  len : Nat
  shortOk : Bool
  written : List (Nat × Nat) := []
  deriving DecidableEq, Repr

/-- A subchannel's operation block (R255), with what the CSS keeps beside it. -/
structure Sub where
  st : SubState := .idle
  reissued : Bool := false
  onceOpen : Bool := false
  prio : Nat := 0
  /-- index of the current path in the device entry -/
  path : Nat := 0
  ve : Nat := 0
  che : Nat := 0
  device : Nat := 0
  opJsn : Nat := 0
  cce : Nat := 0
  program : Nat := 0
  status : Nat := 0
  user : Nat := 0
  position : Nat := 0
  count : Nat := 0
  fstatus : Nat := 0
  detail : Nat := 0
  devstat : Nat := 0
  reissues : Nat := 0
  endJsn : Nat := 0
  /-- place in SSTART order (R277) -/
  order : Nat := 0
  /-- the checked channel program -/
  prog : List (List Byte) := []
  pieces : List Piece := []
  exposes : List Expose := []
  /-- timebase of the path loss (R268) -/
  lossTb : Nat := 0
  issueTb : Nat := 0
  /-- the first command waits for the START entry's mirror group (R28) -/
  startJsn : Option Nat := none
  /-- the END entry waits for its mirror group (R28) -/
  endWait : Option Nat := none
  /-- run again after a takeover: since when the lost module's egress is closed, and the once-only CCEs that are done (R262, R369) -/
  redo : Option Nat := none
  onceDone : List Nat := []
  /-- its path is lost and the REISSUE entry waits for journal space (R264) -/
  lossWaits : Bool := false
  deriving DecidableEq, Repr

/-- Bytes of an EXPOSE range that the adapter has written. -/
def exposedBytes (e : Expose) : Nat := (e.written.map Prod.snd).sum

/-- COUNT (R259): the bytes of completed CCEs, and those the adapter has written into open EXPOSE ranges. -/
def Sub.moved (x : Sub) : Nat := x.count + (x.exposes.map exposedBytes).sum

/-- A journal entry (R261), as fields. -/
structure JEntry where
  type : Nat
  discard : Bool := false
  onceOpen : Bool := false
  twin : Bool := false
  jsn : Nat
  inst : Nat
  sub : Nat
  device : Nat := 0
  path : Nat := 0
  state : Nat := 0
  opJsn : Nat := 0
  cce : Nat := 0
  status : Nat := 0
  ve : Nat := 0
  detail : Nat := 0
  count : Nat := 0
  tb : Nat := 0
  program : Nat := 0
  statusAddr : Nat := 0
  user : Nat := 0
  deriving DecidableEq, Repr

/-- A channel path (R265, R267): down for every device, or for the listed devices only. -/
structure Path where
  down : Bool := false
  lostDevs : List Nat := []
  deriving DecidableEq, Repr

/-- The channel subsystem. Subchannels are keyed by instance × 65,536 + number. -/
structure Css where
  stopped : Bool := false
  subs : KV Sub := []
  jsn : Nat := 1
  journal : List JEntry := []
  paths : KV Path := []
  chesStopped : List Nat := []
  /-- counted adapter messages: device × 2,048 + vector (R275) -/
  adapterMsgs : KV Nat := []
  order : Nat := 0
  /-- control stores of the channel engines (R191) and their working registers -/
  cheStores : KV ControlStore := []
  cheWork : KV MicroRegs := []
  deriving DecidableEq, Repr

/-- A key slot (R284 to R287). `state`: 0 EMPTY, 1 LOADED, 2 EXHAUSTED. -/
structure Slot where
  alg : Nat := 0
  keylen : Nat := 0
  state : Nat := 0
  exportable : Bool := false
  plain : Bool := false
  unit : Bool := false
  used : Nat := 0
  limit : Nat := 0
  key : List Byte := []
  /-- key check value (R282): first four bytes of the SHA-256 of the key -/
  kcv : Nat := 0
  staging : List Byte := List.replicate 128 0
  running : Nat := 0
  reserved : Nat := 0
  deriving DecidableEq, Repr

/-- A key page by physical number (R282): its instance and handle when granted, its slots. -/
structure Page where
  inst : Option Nat := none
  handle : Nat := 0
  slots : KV Slot := []
  deriving DecidableEq, Repr

/-- The cipher or the compression engines: their jobs, and the engines out of service. -/
structure Accel where
  jobs : List Job := []
  fenced : List Nat := []
  order : Nat := 0
  deriving DecidableEq, Repr

/-- Twin states (R353). -/
inductive TwinState where
  | none | linked | paired | alone | fenced
  deriving DecidableEq, Repr

/-- What a closing event does once its group is acknowledged (R360): complete a commit point of engine `p`, write a completion,
let in a fetched request, or let a channel operation's START or END entry take effect (R28). -/
inductive Deferred where
  | commit (p k : Nat)
  | completion (n seq status detail count : Nat) (result : List Byte)
  | letIn (n seq : Nat)
  | startEntry (i sub : Nat)
  | endEntry (i sub : Nat)
  | jobArea (cz : Bool) (i seq status detail count : Nat) (result : List Byte)
  | barrier (i : Nat) (mask : BitVec 64)
  | nothing
  deriving DecidableEq, Repr

/-- A mirrored line: its line number, content and poison. -/
structure MLine where
  line : Nat
  data : List Byte
  poison : Bool
  deriving DecidableEq, Repr

/-- A closed group (R359): the lines still to be sent, and its JSN once its GROUP_END has been sent. -/
structure Group where
  inst : Nat
  source : Nat
  /-- its open-group handle, from its first slot on -/
  handle : Option Nat := none
  lines : List MLine
  jsn : Option Nat := none
  act : Deferred
  deriving DecidableEq, Repr

/-- The Jalarn link and twin operation (R348 to R373). -/
structure Twin where
  st : TwinState := .none
  /-- JL_STATUS.LINK: 0 down, 1 training, 2 up x8, 3 up x4 -/
  link : Nat := 0
  posB : Bool := false
  mismatch : Bool := false
  /-- the partner's MODID, once IDENT has brought it -/
  partner : Option Nat := none
  latch : Bool := false
  fenceIn : Bool := false
  fenceOut : Bool := false
  ackLow : Bool := false
  /-- the module asks the fence in every fence cycle (R366) -/
  asking : Bool := false
  unanswered : Bool := false
  /-- FSEQ of the next flit expected, and consecutive failed replays (R351) -/
  fseq : Nat := 0
  replays : Nat := 0
  /-- FSEQ of the next flit to send, the replay buffer by FSEQ, oldest first (R349, R351), and the staging space released since the last
  flit, in lines -/
  txSeq : Nat := 0
  sent : KV (List Byte) := []
  released : Nat := 0
  /-- the twin key (R358) -/
  key : Option (List Byte) := none
  /-- ACK_JSN that this module reports, and the one it has received -/
  ackTx : Nat := 0
  ackRx : Nat := 0
  /-- closed groups not yet acknowledged, in the order they closed -/
  groups : List Group := []
  /-- mirrored lines that hub agents have written for an instance since its last hub group -/
  notes : KV (List Nat) := []
  /-- lines that carry a key slot's state for an instance, since its last hub group (R358) -/
  keyNotes : KV (List MLine) := []
  /-- received groups: open, by handle; and durable, not yet applied -/
  rxOpen : KV (List MLine) := []
  staged : List (Nat × Nat × List MLine) := []
  /-- what durable groups have brought for the partner's instances: journal lines by slot, context slots by instance × 64 + virtual
  engine and line, instance control block and dispatch queue lines by line number (R356, R357) -/
  rxJournal : KV (List Byte) := []
  rxSlots : KV (List Byte) := []
  rxControl : KV (List Byte) := []
  /-- TWIN_PAIR in progress, and whether the partner has issued it, with its word on DKEY slot 0 (R358) -/
  pairing : Option Nat := none
  partnerPairs : Option Bool := none
  /-- TWIN_PROTECT and TWIN_HANDOVER in progress: instance and SEQ -/
  protecting : KV Nat := []
  handing : KV Nat := []
  /-- since when the partner's egress is known closed, for an instance, by SURRENDER or HANDOVER, or for all of them (R366, R369); the
  instances that came by HANDOVER; TWIN_FORCE in progress -/
  mayTake : KV Nat := []
  takeAll : Option Nat := none
  handed : List Nat := []
  forcing : Option Nat := none
  /-- lines that TWIN_PROTECT has still to copy, by instance (R363) -/
  copies : KV (List Nat) := []
  /-- timebase of the first fence question (R366) -/
  askTb : Option Nat := none
  /-- lines that the partner's staging still has room for (R359): 32 MiB of 64-byte lines at first -/
  credit : Nat := 524288
  /-- mirror buckets by instance, and the shared one (R361) -/
  buckets : KV Nat := []
  shared : Nat := 0
  /-- last acknowledged group of an instance -/
  lastAck : KV Nat := []
  deriving DecidableEq, Repr

/-- An image as the NOR holds it: the factory image (R395), or the bytes that a command wrote. -/
inductive NorImage where
  | factory
  | bytes (l : List Byte)
  deriving DecidableEq, Repr

/-- An image region of the NOR (R389, R391): its content, its marker, the verdict of its last try, and the command that writes it. -/
structure Region where
  image : Option NorImage := none
  marker : Bool := false
  reason : Nat := 0
  offset : Nat := 0
  writing : Option Nat := none
  new : List Byte := []
  deriving DecidableEq, Repr

/-- A page of calibration values: the one written at manufacture (R449), or the bytes that a command wrote. -/
inductive CalPage where
  | factory
  | bytes (l : List Byte)
  deriving DecidableEq, Repr

/-- A fuse operation that an owner key package asks for (R406). -/
structure FuseOp where
  program : Option (Nat × List Byte) := none
  revoke : Nat := 0
  deriving DecidableEq, Repr

/-- A report on a signing lane (R409): asked for with a nonce before signing can begin, or being signed. -/
inductive Report where
  | asked (nonce : List Byte)
  | signing (body : List Byte)
  deriving DecidableEq, Repr

/-- The Spire (R396 to R413). -/
structure Spire where
  stopped : Bool := false
  /-- MODID (R283) -/
  modid : Nat := 0
  /-- fuses (R396): device secret, root and owner key hashes, revocations -/
  secret : List Byte := List.replicate 32 0
  root : List Byte := List.replicate 32 0
  owners : List (List Byte) := List.replicate 4 (List.replicate 32 0)
  revoke : Nat := 0
  /-- fuse operations of packages already in force, waiting for a cold start (R407) -/
  fuseOps : List FuseOp := []
  /-- owner key package in force (R406, R407): its body, SEED, the domain key slots -/
  package : Option (List Byte) := none
  seed : List Byte := List.replicate 32 0
  dkeys : List (Option (List Byte)) := List.replicate 4 none
  /-- the accepted package that waits for a reset, and whether its seal is damaged (R403) -/
  pendingPkg : Option (List Byte) := none
  /-- package staging buffer, its verdict (0 none, 1 checking, 2 accepted, 3 rejected) and REASON (R411) -/
  pkgStaging : List Byte := List.replicate 8192 0
  pkgState : Nat := 0
  pkgReason : Nat := 0
  /-- EXPORT commands with OFFSET 0 since the boot (R400) -/
  exportNo : Nat := 0
  /-- boot counter of the newest entry, and the ring of entries by slot (R404) -/
  boot : Nat := 0
  bootRing : KV (List Byte) := []
  /-- the identity key has been derived and the head signed (R405) -/
  headSigned : Bool := false
  /-- timebase at tower release -/
  releaseTb : Nat := 0
  /-- measurement registers (R401) -/
  mreg : List (List Byte) := List.replicate 8 (List.replicate 32 0)
  /-- NOR: slots A and B, the push region, the preferred slot (R389) -/
  slotA : Region := { image := some .factory, marker := true }
  slotB : Region := { image := some .factory, marker := true }
  push : Region := {}
  preferred : Nat := 0
  /-- MGR_STATUS.IMAGE: structure image in force, 0 A, 1 B, 2 pushed (R47), and its content -/
  inForce : Nat := 0
  image : NorImage := .factory
  /-- owner slot whose key signed the image in force -/
  owner : Nat := 0
  /-- reports on the DOE and the SMBus lane, and the last one of the SMBus lane (R409, R411) -/
  doeNonce : Option Report := none
  smbNonce : Option Report := none
  smbReport : Option (List Byte) := none
  /-- object selected over SMBus, its entry number, and the read offset (R411) -/
  objSel : Nat := 0
  objEntry : Nat := 0
  objOff : Nat := 0
  deriving DecidableEq, Repr

/-- Clocks, power and resets (R414 to R433). -/
structure Clk where
  phase : Phase := .coldReset
  /-- the timebase -/
  tb : Nat := 0
  /-- 0 Run, 1 Sleep, 2 Deep-sleep (R47) -/
  power : Nat := 0
  /-- MGR_STATUS.TRIM_DEFAULT (R47) -/
  trimDefault : Bool := false
  /-- CLK_RESET_CAUSE (R429) -/
  refclkLost : Bool := false
  thermtripped : Bool := false
  heartbeat : Bool := false
  cause : Nat := 0
  /-- throttle level, latest trimmed reading of each sensor in 1/8 °C, and by level since when the hottest has been low enough to leave
  it (R432, R433) -/
  throttle : Nat := 0
  readings : KV (BitVec 16) := []
  coolTb : KV Nat := []
  /-- level of THERMTRIP_N, asserted (R463) -/
  thermtripPin : Bool := false
  /-- timebase counters that have failed, of three (R32) -/
  badCounters : List Nat := []
  /-- SMB_ADDR straps (R457) -/
  strap : BitVec 2 := 0
  /-- timebase at which a warm reset began -/
  warmTb : Nat := 0
  deriving DecidableEq, Repr

/-- A runtime test in progress (R442): its unit, the engine that stands in, and the SELFTEST_RUN commands that take its result. -/
structure TestRun where
  unit : UnitId
  standIn : Option Nat := none
  waiters : List Nat := []
  deriving DecidableEq, Repr

/-- A scheduled fuse repair (R447): unit, way or lane, kind. -/
structure Repair where
  unit : UnitId
  kind : Nat
  deriving DecidableEq, Repr

/-- The self-test controller (R434 to R453). -/
structure Tst where
  stopped : Bool := false
  /-- power-on results of the last cold start (R404, R434) -/
  bistPass : Nat := 0
  bistFail : Nat := 0
  bistIncomplete : Nat := 0
  softRepairs : Nat := 0
  /-- field fuse operations used, and those scheduled (R441) -/
  fuseUsed : Nat := 0
  repairs : List Repair := []
  /-- fuse reserves placed for good: tower to engine slot (R22, R441) -/
  reserveFused : KV Nat := []
  rollOff : Bool := false
  running : List TestRun := []
  /-- runtime tests since the last reset (R447) -/
  passed : Nat := 0
  failed : Nat := 0
  incomplete : Nat := 0
  /-- latched hub failure: test number and unit (R440) -/
  hubLatch : Option (Nat × UnitId) := none
  /-- the Belfry has logged it -/
  hubLogged : Bool := false
  /-- the calibration page, its one-page buffer, groups to retrain, the writer of the buffer (R449 to R452) -/
  cal : CalPage := .factory
  calBuffer : Option (List Byte) := none
  calWriter : Option Nat := none
  recal : Nat := 0
  /-- validity and FACTORY of the page in force -/
  calValid : Bool := true
  calFactory : Nat := 0
  /-- units out of service that have no place of their own: die-to-die modules, dome ways, stacks, subchannel segments, paths -/
  fenced : List UnitId := []
  /-- towers whose loss of the last idle structural spare has been logged (R442) -/
  skipped : List Nat := []
  deriving DecidableEq, Repr

/-- What leaves the module in the latest command: bus transactions, messages, device commands. -/
inductive Output where
  | hostWrite (fn addr : Nat) (data : List Byte)
  | hostRead (fn addr len : Nat)
  | msix (fn vec : Nat) (addr : Word) (data : BitVec 32)
  | cfgRetry (fn : Nat)
  | cfgData (fn : Nat) (data : BitVec 32)
  | unsupported (fn : Nat)
  | mmioData (fn : Nat) (data : List Byte)
  | completerAbort (fn : Nat)
  | doe (obj : List Byte)
  | smbus (data : List Byte)
  | smbusNack
  | nvme (dev path op lba blocks : Nat) (data : List Byte)
  | adapterReg (dev path pos : Nat) (write : Bool) (len : Nat) (data : List Byte)
  | adapterData (dev : Nat) (data : List Byte)
  | adapterUr (dev : Nat)
  | jalarn (flit : List Byte)
  | fence (high : Bool)
  | tap (t : TapInsn) (value : BitVec 32)
  deriving DecidableEq, Repr

end Sys2Proof.Machine
end

