-- ==== Sys2Proof/Machine/State.lean ====
section
/-! DEFINITION. The state of the module, the reasons a step can stop, and the state after reset. -/

namespace Sys2Proof.Machine

open Sys2Proof

/-- The variants (R1). -/
inductive Variant where
  | m128 | m96 | m128c | m64l
  deriving DecidableEq, Repr

/-- The machine. `pending` is the queue of commands that wait, `out` what the latest command sent out of the module. -/
structure State where
  pending : List Instr := []
  out : List Output := []
  /-- fused variant (R1, R45) -/
  variant : Variant := .m128
  /-- stepping (R44) -/
  stepping : Nat := 0
  /-- the model's own counter of free values taken (assumption log 1) -/
  free : Nat := 0
  hp : HostPort := {}
  insts : KV Inst := []
  /-- virtual engines, keyed by instance × 64 + number -/
  ves : KV VE := []
  engines : KV Engine := []
  domes : KV Dome := []
  mem : Mem := {}
  /-- released granules not yet zeroed (R243): bulk store or not, and number -/
  zeroing : List (Bool × Nat) := []
  /-- the hub's zone cache of 4,096 entries (R231) -/
  hubZones : List ZoneTag := []
  css : Css := {}
  pages : KV Page := []
  xce : Accel := {}
  cze : Accel := {}
  /-- hold times of the last 1,024 releases of shared units, by pool code × 16 + tower (R83) -/
  holds : KV (List Nat) := []
  img : Img := {}
  bel : Belfry := {}
  twin : Twin := {}
  spire : Spire := {}
  clk : Clk := {}
  tst : Tst := {}
  deriving DecidableEq, Repr

/-- Why the machine stops with a fault. No command of this model ends so: an access that the spec says reaches nothing has the
effect the spec gives it (assumption log 2). -/
inductive Fault where
  /-- raised by no command; kept so that the type is not empty. Safe. -/
  | none_
  deriving DecidableEq, Repr

/-- Why a command is refused. -/
inductive Refusal where
  /-- raised by an arm of `exec` that has no meaning yet. Safe. -/
  | notModelled (mnemonic : String)
  deriving DecidableEq, Repr

/-- The module in cold reset, the rails powered and PERST# asserted (R424, R425). -/
def State.reset : State := {}

end Sys2Proof.Machine
end

