-- ==== Sys2Proof/Machine/Ops.lean ====
section
/-! DEFINITION. Shared operations: reading and writing the tables of State, fused features, messages to the host, the event log. -/

namespace Sys2Proof.Machine

open Sys2Proof

/-! ## Tables -/

/-- The virtual engine of key `v` (instance × 64 + number). -/
def State.ve (s : State) (v : Nat) : VE := kvGet {} s.ves v

def State.setVe (s : State) (v : Nat) (e : VE) : State := { s with ves := kvSet s.ves v e }

def State.updVe (s : State) (v : Nat) (f : VE → VE) : State := s.setVe v (f (s.ve v))

/-- The registers of a virtual engine as they are now. -/
def State.ctx (s : State) (v : Nat) : Ctx := (s.ve v).cur

def State.setCtx (s : State) (v : Nat) (c : Ctx) : State := s.setVe v { s.ve v with cur := c }

def State.inst (s : State) (i : Nat) : Inst := kvGet {} s.insts i

def State.setInst (s : State) (i : Nat) (x : Inst) : State := { s with insts := kvSet s.insts i x }

def State.updInst (s : State) (i : Nat) (f : Inst → Inst) : State := s.setInst i (f (s.inst i))

def State.eng (s : State) (p : Nat) : Engine := kvGet {} s.engines p

def State.setEng (s : State) (p : Nat) (e : Engine) : State := { s with engines := kvSet s.engines p e }

def State.updEng (s : State) (p : Nat) (f : Engine → Engine) : State := s.setEng p (f (s.eng p))

/-- What the loader writes into a control store of an engine or (`che`) a channel engine: the hub's master copy of the patch set in force
(R189, R192). -/
def masterStore (s : State) (che : Bool) : ControlStore :=
  let p := if che then s.img.chePatch else s.img.cpePatch
  ControlStore.load p.words p.ptm

/-- A control store's patch RAM and match registers reloaded (R189); its lock is kept. -/
def reloaded (s : State) (c : ControlStore) (che : Bool) : ControlStore := { masterStore s che with locked := c.locked }

def State.dome (s : State) (t : Nat) : Dome := kvGet {} s.domes t

def State.setDome (s : State) (t : Nat) (d : Dome) : State := { s with domes := kvSet s.domes t d }

def State.updDome (s : State) (t : Nat) (f : Dome → Dome) : State := s.setDome t (f (s.dome t))

/-- Function 0 is PF 0, function i + 1 presents instance i. -/
def State.fn (s : State) (n : Nat) : Fn := kvGet {} s.hp.fns n

def State.setFn (s : State) (n : Nat) (f : Fn) : State := { s with hp := { s.hp with fns := kvSet s.hp.fns n f } }

def State.updFn (s : State) (n : Nat) (f : Fn → Fn) : State := s.setFn n (f (s.fn n))

def State.ring (s : State) (n k : Nat) : Ring := kvGet {} (s.fn n).rings k

def State.setRing (s : State) (n k : Nat) (r : Ring) : State :=
  s.updFn n fun f => { f with rings := kvSet f.rings k r }

def State.sub (s : State) (i n : Nat) : Sub := kvGet {} s.css.subs (i * 65536 + n)

def State.setSub (s : State) (i n : Nat) (x : Sub) : State :=
  { s with css := { s.css with subs := kvSet s.css.subs (i * 65536 + n) x } }

def State.page (s : State) (n : Nat) : Page := kvGet {} s.pages n

def State.setPage (s : State) (n : Nat) (x : Page) : State := { s with pages := kvSet s.pages n x }

def State.slot (s : State) (pg n : Nat) : Slot := kvGet {} (s.page pg).slots n

def State.setSlot (s : State) (pg n : Nat) (x : Slot) : State :=
  let p := s.page pg
  s.setPage pg { p with slots := kvSet p.slots n x }

/-- The state with one more transaction sent. -/
def State.emit (s : State) (o : Output) : State := { s with out := s.out ++ [o] }

/-- The outcome of a command: the next state. -/
abbrev Res := Host.Outcome State Fault Refusal

/-- The state in which a command that can bring nothing about leaves the module: nothing sent, nothing changed. -/
def State.quiet (s : State) : State := { s with out := [] }

/-- The next free value's counter, and the state that has taken it. -/
def State.fresh (s : State) : Nat × State := (s.free, { s with free := s.free + 1 })

/-! ## Numbering -/

/-- The tower of a physical engine: 0 to 127 by slot, 128 + t for the fuse reserve of tower t (R22). -/
def towerOf (p : Nat) : Nat := if p < 128 then p / 16 else p - 128

/-- The UNIT number of an engine (R339). -/
def engineUnit (p : Nat) : Nat := if p < 128 then p else 0x100 + (p - 128)

/-- The engine that a UNIT number names. -/
def engineOfUnit (u : Nat) : Nat := if u < 128 then u else u - 0x100 + 128

/-- The engines of tower `t`, its reserve last. -/
def enginesOf (t : Nat) : List Nat := (List.range 16).map (t * 16 + ·) ++ [128 + t]

/-- Key of virtual engine `v` of instance `i`. -/
def veKey (i v : Nat) : Nat := i * 64 + v

/-- The instance and number of a key. -/
def veInst (k : Nat) : Nat := k / 64
def veNum (k : Nat) : Nat := k % 64

/-! ## Fused features (R1, R45, R46) -/

def Variant.towers : Variant → Nat
  | .m128 => 8 | .m96 => 6 | .m128c => 8 | .m64l => 4

def Variant.xces : Variant → Nat
  | .m64l => 8 | _ => 16

def Variant.czes : Variant → Nat
  | .m128 => 8 | .m96 => 8 | _ => 0

/-- HBM3E stacks; the bulk store is present where they are. -/
def Variant.stacks : Variant → Nat
  | .m64l => 0 | _ => 4

def Variant.bulk (v : Variant) : Bool := v.stacks != 0

def Variant.jlk : Variant → Bool
  | .m64l => false | _ => true

def Variant.code : Variant → Nat
  | .m128 => 1 | .m96 => 2 | .m128c => 3 | .m64l => 4

/-- FEAT0 and MGR_CAP0 (R45). -/
def State.feat0 (s : State) : Nat :=
  (2 ^ s.variant.towers - 1) * 2 ^ 48 + (2 ^ s.variant.xces - 1) * 2 ^ 32 + (2 ^ s.variant.czes - 1) * 2 ^ 24
    + (2 ^ s.variant.stacks - 1) * 2 ^ 20 + b2n s.variant.bulk * 4 + b2n s.variant.jlk * 2

/-- The slots the image makes active (R379). -/
def State.dispatchCount (s : State) : Nat := ((s.img.roles.take (s.variant.towers * 16)).filter (· == 1)).length

/-- FEAT1 and MGR_CAP1 (R46). -/
def State.feat1 (s : State) : Nat :=
  s.dispatchCount * 2 ^ 56 + 0x400 * 2 ^ 32 + b2n (s.img.kg7 && s.variant.czes != 0) * 2 ^ 31
    + b2n (s.img.twin && s.variant.jlk) * 2 ^ 30 + 0x400 * 2 ^ 16 + 0x200

def State.feat (s : State) (n : Nat) : Nat :=
  match n with
  | 0 => s.feat0
  | 1 => s.feat1
  | _ => 0

/-- The journal size in bytes (R381). -/
def State.journalBytes (s : State) : Nat := 4 * 2 ^ 20 * 2 ^ s.img.journal

/-- Granules of the main-store pool: 240 MiB less the journal (R217). -/
def State.mainPool (s : State) : Nat := (240 * 2 ^ 20 - s.journalBytes) / 2 ^ 16

/-- First absolute address of the main-store pool (R217). -/
def State.poolBase (s : State) : Nat := 0x1000000 + s.journalBytes

/-- The module is in Run, with its clocks (R424): the only phase in which commands other than power events act. -/
def State.live (s : State) : Bool := s.clk.phase == .run

/-- INS_STATUS.STATE (R68). -/
def InstState.code : InstState → Nat
  | .free => 0 | .defined => 1 | .running => 2 | .quiescing => 3 | .quiesced => 4 | .faulted => 5 | .exported => 6

/-! ## Time -/

/-- `d` timebase units pass, the timebase being 64 bits wide (R11): the engine timers of virtual engines that are dispatched and not waiting fall (R137). -/
def tick (s : State) (d : Nat) : State :=
  { s with
    clk := { s.clk with tb := (s.clk.tb + d) % 2 ^ 64 }
    ves := kvMap (fun _ v =>
      if v.on.isSome && !v.stopped && !v.cur.psw.getLsbD 36 then
        { v with cur := { v.cur with k := v.cur.k.setIfInBounds 4 (v.cur.k.getD 4 0 - BitVec.ofNat 64 d) } }
      else v) s.ves }

/-- Time passes until the timebase is at least `t`: an event that says a time has come brings the time with it (assumption log 11). -/
def passUntil (s : State) (t : Nat) : State := if s.clk.tb < t then tick s (t - s.clk.tb) else s

/-- What passes when no command waits: one cycle of the timebase, while the clocks run (assumption log 4). -/
def idle (s : State) : State := if s.live then tick s.quiet 1 else s.quiet

/-! ## Messages to the host (R61) -/

/-- An MSI-X message on vector `v` of function `n`: sent, or pending in the PBA while the vector cannot send. -/
def sendMsix (s : State) (n v : Nat) : State :=
  let f := s.fn n
  let e := kvGet {} f.vecs v
  if f.msixEn && !f.fmask && !e.masked && f.bme then s.emit (.msix n v e.addr e.data)
  else s.setFn n { f with vecs := kvSet f.vecs v { e with pba := true } }

/-- The error bits of MGR_ERR and INS_ERR (R48, R49). -/
inductive ErrKind where
  | ringBusy | dbDisabled | dbRange | access | poisonIn | rsvdWrite
  deriving DecidableEq, Repr

def ErrKind.mgrBit : ErrKind → Nat
  | .ringBusy => 6 | .dbDisabled => 5 | .dbRange => 4 | .access => 3 | .poisonIn => 1 | .rsvdWrite => 0

def ErrKind.insBit : ErrKind → Nat
  | .poisonIn => 5 | .access => 4 | .ringBusy => 3 | .dbDisabled => 2 | .dbRange => 1 | .rsvdWrite => 0

/-- Bit `b` of a function's error register set; for a VF a bit that becomes 1 signals INS_ERR_VEC (R49). -/
def setErrBit (s : State) (n b : Nat) : State :=
  let f := s.fn n
  if f.err.getLsbD b then s
  else
    let s := s.setFn n { f with err := f.err ||| (1#7 <<< b) }
    if n != 0 && f.vecEn then sendMsix s n f.vec else s

/-- An error of function `n` recorded: in INS_ERR for a VF, in MGR_ERR for PF 0; ACCESS, POISON_IN and RSVD_WRITE of a VF set
MGR_ERR too (R14, R42, R62). -/
def raiseErr (s : State) (n : Nat) (e : ErrKind) : State :=
  if n == 0 then setErrBit s 0 e.mgrBit
  else
    let s := setErrBit s n e.insBit
    match e with
    | .access | .poisonIn | .rsvdWrite => setErrBit s 0 e.mgrBit
    | _ => s

/-! ## The event log (R337 to R344) -/

/-- Does an entry send the MGR_EVT_VEC message (R344)? -/
def notifies (b : Belfry) (e : LogEntry) : Bool :=
  b.minClass ≤ e.cls || e.event == 0x41 || e.event == 0x43 || (e.event == 0x13 && e.detail == 3)

/-- One entry written at the next ESEQ: the ring keeps 16,384 (R337), the sticky array the last 64 of class 4 or above (R341),
BEL_ALERT_N and HEALTH follow (R345), the message is sent if none is outstanding (R344). -/
def logWrite (s : State) (e : LogEntry) : State :=
  if s.bel.stopped then s
  else
    let e := { e with eseq := s.bel.eseq }
    let b := s.bel
    let l := b.log ++ [e]
    let st := if e.cls ≥ 4 then b.sticky ++ [e] else b.sticky
    let drop := st.length - 64
    let b := { b with
      log := l.drop (l.length - 16384)
      eseq := b.eseq + 1
      sticky := st.drop drop
      stickyOld := b.stickyOld - drop
      alert := b.alert || decide (e.cls ≥ 4)
      healthMax := max b.healthMax e.cls }
    let s := { s with bel := b }
    if notifies b e && b.outstanding.isNone && (s.fn 0).vecEn then
      sendMsix { s with bel := { b with outstanding := some e.eseq } } 0 (s.fn 0).vec
    else s

/-- Is `m` the running count of the same class-1 event? -/
def sameMerge (e : LogEntry) (m : Merge) : Bool :=
  m.event == e.event && m.source == e.source && m.unit == e.unit

/-- The end of a second's merging: the entry that counts the further occurrences, if there were any (R340). -/
def flushMerge (s : State) (m : Merge) : State :=
  let s := { s with bel := { s.bel with merges := s.bel.merges.filter fun x => !sameMerge m.last x } }
  if m.count == 0 then s else logWrite s { m.last with count := m.count }

/-- An event recorded: class 1 under the merging rule of R340, every other class at once. -/
def logEvent (s : State) (e : LogEntry) : State :=
  if e.cls != 1 then logWrite s e
  else
    match s.bel.merges.find? (sameMerge e) with
    | some m =>
      if e.tb < m.tb0 + 100000000 then
        { s with bel := { s.bel with
            merges := s.bel.merges.map fun x => if sameMerge e x then { x with count := x.count + 1, last := e } else x } }
      else
        let s := logWrite (flushMerge s m) e
        { s with bel := { s.bel with merges := s.bel.merges ++ [⟨e.event, e.source, e.unit, e.tb, 0, e⟩] } }
    | none =>
      let s := logWrite s e
      { s with bel := { s.bel with merges := s.bel.merges ++ [⟨e.event, e.source, e.unit, e.tb, 0, e⟩] } }

/-- An entry of the present time. -/
def State.entry (s : State) (event cls source unit : Nat) : LogEntry :=
  { tb := s.clk.tb, event := event, cls := cls, source := source, unit := unit }

/-- The power state changed, and the entry that says so (R421, R433). -/
def setPower (s : State) (n : Nat) : State :=
  if s.clk.power == n then s
  else
    let old := s.clk.power
    let s := { s with clk := { s.clk with power := n } }
    logEvent s { s.entry 0x90 0 0x0F 0 with param := n * 2 ^ 56 + old * 2 ^ 48 }

/-- Is a unit under a runtime test (R442)? -/
def underTest (s : State) (source unit : Nat) : Bool := s.tst.running.any fun x => x.unit.source == source && x.unit.unit == unit

/-- Engines of one tower that may be dispatched at the present throttle level (R432). -/
def throttleEngines (s : State) : Nat :=
  match s.clk.throttle with
  | 0 => 17 | 1 => 17 | 2 => 12 | 3 => 8 | _ => 4

/-- Is any unit fenced (MGR_STATUS.DEGRADED, R47)? -/
def State.degraded (s : State) : Bool :=
  s.engines.any (fun e => e.2.fenced) || s.xce.fenced != [] || s.cze.fenced != [] || s.css.chesStopped != []
    || s.domes.any (fun d => d.2.stopped) || s.tst.fenced != [] || s.tst.stopped || s.spire.stopped

end Sys2Proof.Machine
end

