-- ==== Sys2Proof/Machine/Memory.lean ====
section
/-! DEFINITION. The stores, the caches and their coherence (R198 to R206, R214, R237). A line number is an absolute address divided
by 64. -/

namespace Sys2Proof.Machine

open Sys2Proof

/-! ## The stores -/

/-- The byte at an absolute address: an unlisted address reads zero (R76). -/
def cellFind : List Host.Cell → Nat → Byte
  | [], _ => 0
  | (k, b) :: r, a => if k = a then b else cellFind r a

/-- The cells with byte `b` at address `a`; a zero byte is not listed. -/
def cellSet : List Host.Cell → Nat → Byte → List Host.Cell
  | [], a, b => if b = 0 then [] else [(a, b)]
  | (k, x) :: r, a, b =>
    if k < a then (k, x) :: cellSet r a b
    else if k = a then (if b = 0 then r else (a, b) :: r)
    else (if b = 0 then (k, x) :: r else (a, b) :: (k, x) :: r)

/-- The canonical form: addresses strictly rising, no zero byte listed. -/
def Memory.wf : List Host.Cell → Bool
  | [] => true
  | [(_, b)] => b != 0
  | (k, b) :: (k', b') :: r => decide (k < k') && b != 0 && Memory.wf ((k', b') :: r)

/-- `n` bytes of the store from address `a`. -/
def storeRead (c : List Host.Cell) (a n : Nat) : List Byte := (List.range n).map fun i => cellFind c (a + i)

/-- The cells with `d` written from address `a`. -/
def storeWrite (c : List Host.Cell) (a : Nat) : List Byte → List Host.Cell
  | [] => c
  | b :: d => storeWrite (cellSet c a b) (a + 1) d

/-- The 64 bytes of line `l` in the store. -/
def Mem.line (m : Mem) (l : Nat) : List Byte := storeRead m.store (l * 64) 64

/-- Line `l` written at timebase `tb`: its content, its poison, and in the bulk store its check field (R227, R237). -/
def Mem.setLine (m : Mem) (tb l : Nat) (d : List Byte) (poison : Bool) : Mem :=
  { m with
    store := storeWrite m.store (l * 64) (padTo 64 d)
    checks := if l < bulkLine then m.checks else m.checks.write tb l (checkField l (padTo 64 d) poison)
    poison := if poison then (if m.poison.contains l then m.poison else l :: m.poison) else m.poison.filter (· != l) }

/-! ## Looking a line up -/

def l1Find (e : Engine) (l : Nat) : Option L1Line := e.l1d.find? (·.line == l)

def domeFind (d : Dome) (l : Nat) : Option DomeLine := d.lines.find? (·.line == l)

/-- Does a stream buffer hold uncommitted bytes of line `l`? -/
def Stream.holds (st : Stream) (l : Nat) : Bool := st.bufs.any fun b => b.line == l && !b.data.isEmpty

/-- Is every byte of the buffer's line written? -/
def StreamBuf.full (b : StreamBuf) : Bool := b.off + b.data.length == 64

/-- Does engine `p` hold line `l` uncommitted in its L1D or a stream buffer? -/
def Engine.holdsD (e : Engine) (l : Nat) : Bool := e.l1d.any (fun x => x.line == l && x.st == .D) || e.stream.holds l

/-- The engines that hold line `l` uncommitted: D in an L1D, in a stream buffer, or P in a dome (R202). -/
def ownersOf (s : State) (l : Nat) : List Nat :=
  (s.engines.filter fun e => e.2.holdsD l).map Prod.fst
    ++ (s.domes.filterMap fun d => (d.2.lines.find? fun x => x.line == l && x.st == .P).map (·.owner))

/-- Does line `l` lie in a stack that has stopped (R32)? -/
def stackDead (s : State) (l : Nat) : Bool :=
  decide (bulkLine ≤ l) && s.tst.fenced.any fun u => u.source == 6 && u.unit == stackOf l

/-- The committed content of a line and whether it is poisoned: the dome copy in M if there is one, else the store (R201). -/
def committed (s : State) (l : Nat) : List Byte × Bool :=
  match s.domes.findSome? (fun d => d.2.lines.find? fun x => x.line == l && x.st == .M) with
  | some x => (padTo 64 x.data, x.poison)
  | none => (s.mem.line l, s.mem.poison.contains l || stackDead s l)

/-- What engine `p` sees in a line: its own uncommitted bytes over the committed content (R123). -/
def ownView (s : State) (p l : Nat) : List Byte × Bool :=
  let e := s.eng p
  let base :=
    match (s.dome (towerOf p)).lines.find? (fun x => x.line == l && x.st == .P && x.owner == p) with
    | some x => (padTo 64 x.data, x.poison)
    | none => committed s l
  let base :=
    match e.l1d.find? (fun x => x.line == l && x.st == .D) with
    | some x => (padTo 64 x.data, false)
    | none => base
  match e.stream.bufs.find? (·.line == l) with
  | some b => (patch base.1 b.off b.data, base.2 && decide (b.data.length < 64))
  | none => base

/-! ## Removing copies -/

/-- Line `l` leaves the L1s of every engine that `q` selects, and fills of it in flight there are not installed (R197, R214). -/
def dropL1 (s : State) (l : Nat) (q : Nat → Bool) (icache : Bool) : State :=
  { s with engines := kvMap (fun p e => if q p then
      { e with
        l1d := e.l1d.filter (·.line != l)
        l1i := if icache then e.l1i.filter (· != l) else e.l1i
        fills := e.fills.map fun f => if f.line == l then { f with drop := true } else f }
      else e) s.engines }

/-- HELD and REMOVED of a locked way when a locked line leaves it by invalidation (R211). -/
def WayLock.lose (w : WayLock) : WayLock :=
  { w with held := w.held - 1, removed := min 0x3FFF (w.removed + 1) }

/-- A dome without line `l`, removed by invalidation. -/
def Dome.invalidate (d : Dome) (l : Nat) : Dome :=
  match domeFind d l with
  | some x =>
    { d with
      lines := d.lines.filter (·.line != l)
      locks := match kvFind d.locks x.way with
        | some w => if x.locked then kvSet d.locks x.way w.lose else d.locks
        | none => d.locks }
  | none => d

/-- A line in M written back to its store; its copy stays, as E (R201). -/
def writeBack (s : State) (l : Nat) : State :=
  match s.domes.findSome? (fun d => d.2.lines.find? fun x => x.line == l && x.st == .M) with
  | some x =>
    { s with
      mem := s.mem.setLine s.clk.tb l x.data x.poison
      domes := kvMap (fun _ d => { d with lines := d.lines.map fun y =>
        if y.line == l && y.st == .M then { y with st := .E, data := [], poison := false } else y }) s.domes }
  | none => s

/-- Line `l` out of every dome that `t` selects, and out of the L1s of their engines. -/
def dropDomes (s : State) (l : Nat) (t : Nat → Bool) : State :=
  let s := dropL1 s l (fun p => t (towerOf p)) true
  { s with domes := kvMap (fun k d => if t k then d.invalidate l else d) s.domes }

/-! ## Making room -/

/-- The ways that may hold an ordinary line: 0 to 14 but those locked (R196). -/
def Dome.freeWays (d : Dome) (l : Nat) : List Nat :=
  let used := (d.lines.filter (fun x => x.line % 8192 == l % 8192)).map (·.way)
  (List.range 15).filter fun w =>
    !used.contains w && !d.waysOut.contains w && !(match kvFind d.locks w with | some x => x.locked | none => false)

/-- The line of a list that the replacement takes: the spec fixes the class only (R200), so which of the class is a free
choice. -/
def pickFrom {α : Type} (n : Nat) (l : List α) : Option α := l[Config.pick n % l.length]?

/-- A way of dome `t` free for line `l`, after replacing a line if none is (R200): `inl q` when the only candidates are held D
and engine `q` must commit first. -/
def makeRoom (s : State) (t l : Nat) : (Nat ⊕ Unit) ⊕ (Nat × State) :=
  let d := s.dome t
  match d.freeWays l with
  | w :: _ => .inr (w, s)
  | [] =>
    let locked (x : DomeLine) : Bool := match kvFind d.locks x.way with | some w => w.locked | none => false
    let cands := d.lines.filter fun x => x.line % 8192 == l % 8192 && x.st != .P && x.way < 15 && !locked x && !d.waysOut.contains x.way
    let es := enginesOf t
    let inL1 (x : DomeLine) : Bool :=
      es.any fun p => (s.eng p).l1d.any (·.line == x.line) || (s.eng p).l1i.contains x.line
    let dirty (x : DomeLine) : Bool := es.any fun p => (s.eng p).holdsD x.line
    let pool := match cands.filter (fun x => !inL1 x && !dirty x) with
      | [] => cands.filter (fun x => !dirty x)
      | c => c
    let (n, s) := s.fresh
    match pickFrom n pool with
    | some x =>
      let s := writeBack s x.line
      let s := dropL1 s x.line (fun p => towerOf p == t) true
      .inr (x.way, s.updDome t fun d => { d with lines := d.lines.filter fun y => !(y.line == x.line && y.st != .P) })
    | none =>
      match pickFrom n cands with
      | some x => match es.find? (fun p => (s.eng p).holdsD x.line) with
        | some q => .inl (.inl q)
        | none => .inl (.inr ())
      | none => .inl (.inr ())

/-- Line `l` present in dome `t`: in E if `excl`, every other dome's copy gone, else as it was or newly in S, or in E when no other
dome has it (R198). -/
def domeHave (s : State) (t l : Nat) (excl : Bool) : (Nat ⊕ Unit) ⊕ State :=
  let s := if excl then dropDomes (writeBack s l) l (· != t) else s
  match domeFind (s.dome t) l with
  | some x =>
    if excl && x.st == .S then
      .inr (s.updDome t fun d => { d with lines := d.lines.map fun y => if y.line == l then { y with st := .E } else y })
    else .inr s
  | none =>
    match makeRoom s t l with
    | .inl w => .inl w
    | .inr (w, s) =>
      let s := if excl then s else writeBack s l
      let others := s.domes.any fun d => d.1 != t && (domeFind d.2 l).isSome
      let s := if others then
          { s with domes := kvMap (fun _ d => { d with lines := d.lines.map fun y =>
              if y.line == l && y.st == .E then { y with st := .S } else y }) s.domes }
        else s
      .inr (s.updDome t fun d => { d with
        lines := d.lines ++ [{ line := l, st := if others then .S else .E, way := w }] })

/-- Room in the L1D set of engine `p` for line `l`: `none` when all eight ways are D and the engine must commit (R200). -/
def l1Room (s : State) (p l : Nat) : Option State :=
  let e := s.eng p
  let set := e.l1d.filter fun x => x.line % 128 == l % 128
  if set.length < 8 then some s
  else
    let (n, s) := s.fresh
    match pickFrom n (set.filter (·.st != .D)) with
    | some x => some (s.setEng p { e with l1d := e.l1d.filter fun y => !(y.line == x.line && y.st != .D) })
    | none => none

/-- Line `l` of engine `p`'s L1D replaced by `x`. -/
def l1Put (s : State) (p : Nat) (x : L1Line) : State :=
  s.updEng p fun e => { e with l1d := e.l1d.filter (·.line != x.line) ++ [x] }

/-! ## Stops of an access -/

/-- Why an instruction does not complete: a nullifying program exception (R112), a machine check (R335), or a wait that leaves
the instruction to be made again (R149), with the requests it has raised; `hold` is such a wait inside an instruction that goes on where
it is (R150). -/
inductive Stop where
  | exc (code : Nat) (tea : Option Word)
  | mc (code access : Nat) (va : Option Word) (line : Nat)
  | wait (s : State)
  | hold (s : State)
  /-- the stop `st` after `s`: an opening commit point has been passed (R322) -/
  | after (s : State) (st : Stop)

/-- The owners of a line are asked to commit (R202). -/
def askCommit (s : State) (ps : List Nat) : State :=
  { s with engines := kvMap (fun p e => if ps.contains p then { e with steal := true } else e) s.engines }

/-- The engines other than `p` that hold a line uncommitted. -/
def otherOwners (s : State) (p l : Nat) : List Nat := (ownersOf s l).filter (· != p)

/-- The wait of an access that a room or an owner holds up. -/
def waitOn (s : State) (w : Nat ⊕ Unit) : Stop :=
  match w with
  | .inl q => .wait (askCommit s [q])
  | .inr () => .wait s

/-! ## Engine stores -/

/-- Line `l` made D in engine `p`'s L1D with `data` (R204); no other engine holds it. -/
def makeDirty (s : State) (p l : Nat) (data : List Byte) : Except Stop State :=
  let t := towerOf p
  let s' := dropL1 s l (fun q => q != p) true
  match domeHave s' t l true with
  | .inl w => .error (waitOn s w)
  | .inr s' =>
    if ((s'.eng p).l1d.any (·.line == l)) then .ok (l1Put s' p { line := l, st := .D, data := data })
    else match l1Room s' p l with
      | none => .error (.wait (askCommit s [p]))
      | some s' => .ok (l1Put s' p { line := l, st := .D, data := data })

/-- Line `l` exclusive in engine `p`'s dome, no copy of it in another L1 (R198): a stream buffer may take its first byte. -/
def openLine (s : State) (p l : Nat) : Except Stop State :=
  match domeHave (dropL1 s l (fun q => q != p) true) (towerOf p) l true with
  | .inl w => .error (waitOn s w)
  | .inr s' => .ok s'

/-- A line of engine `p`'s stream, which its dome holds, becomes P with content `d`; it is not installed in the L1D (R205). The dome's
copy is written back first if it is M (R201). -/
def sendLine (s : State) (p l : Nat) (d : List Byte) (poison : Bool) : State :=
  let s := writeBack s l
  let s := s.updDome (towerOf p) fun d' => { d' with lines := d'.lines.map fun y =>
    if y.line == l then { y with st := .P, data := d, poison := poison, owner := p, taken := false } else y }
  s.updEng p fun e => { e with l1d := e.l1d.filter (·.line != l) }

/-- Is the line's dome copy P for a commit point of `p` not yet complete? A stream waits for it (R201). -/
def commitHolds (s : State) (p l : Nat) : Bool :=
  (s.dome (towerOf p)).lines.any fun x => x.line == l && x.st == .P && x.owner == p && x.taken

/-- The full stream buffers of engine `p` that do not wait on the dome go there as P lines (R205). -/
def drainStream (s : State) (p : Nat) : State :=
  (s.eng p).stream.bufs.foldl (fun s b =>
    if b.full && !commitHolds s p b.line then
      let (v, bad) := ownView s p b.line
      (sendLine s p b.line v bad).updEng p fun e =>
        { e with stream := { e.stream with bufs := e.stream.bufs.filter (·.line != b.line) } }
    else s) s

/-- The engine leaves no-allocate mode (R205): a partly filled buffer becomes a D line, or merges at the dome if the line is
poisoned. A full buffer, or a poisoned line's, that waits on the dome is waited for. -/
def leaveStream (s : State) (p : Nat) : Except Stop State :=
  let s' := drainStream s p
  let clear (s : State) : State := s.updEng p fun e => { e with stream := {} }
  match (s'.eng p).stream.bufs.find? fun b => !b.data.isEmpty with
  | none => .ok (clear s')
  | some b =>
    let (d, bad) := ownView s' p b.line
    if b.full || (bad && commitHolds s' p b.line) then .error (.wait s)
    else if bad then .ok (sendLine (clear s') p b.line d true)
    else makeDirty (clear s') p b.line d

/-- The streaming detector after a store of `n` bytes at `a` outside no-allocate mode: the span of contiguous stores, and the
mode once eight whole lines lie in it (R205). -/
def Stream.after (st : Stream) (a n : Nat) : Stream :=
  let start := if st.next == a then st.start else a
  let next := a + n
  { start := start, next := next, bufs := [],
    active := decide (next % 64 = 0 ∧ next / 64 ≥ (start + 63) / 64 + 8) }

/-- The bytes `d` joined to the buffer of line `l`, or in a new buffer. -/
def Stream.fill (st : Stream) (a : Nat) (d : List Byte) : Stream :=
  let l := a / 64
  { st with
    next := a + d.length
    bufs := if st.bufs.any (·.line == l) then st.bufs.map fun b => if b.line == l then { b with data := b.data ++ d } else b
            else st.bufs ++ [{ line := l, off := a % 64, data := d }] }

/-- A store of `d` by engine `p` inside one line, at absolute address `a` (R198, R204, R205). -/
def storeLine (s : State) (p a : Nat) (d : List Byte) (va : Word) : Except Stop State :=
  let l := a / 64
  let others := otherOwners s p l
  if others != [] then .error (.wait (askCommit s others))
  else
    let st := (s.eng p).stream
    if st.active && st.next == a then do
      if st.holds l then .ok (drainStream (s.updEng p fun e => { e with stream := e.stream.fill a d }) p)
      else if decide (st.bufs.length ≥ 2) && !st.bufs.any (·.line == l) then .error (.wait s)
      else
        let s' ← openLine s p l
        .ok (drainStream (s'.updEng p fun e => { e with stream := e.stream.fill a d }) p)
    else do
      let s' ← if st.active then leaveStream s p else .ok s
      let (view, bad) := ownView s' p l
      if bad then .error (.mc 1 1 (some va) l)
      else
        let s' ← makeDirty s' p l (patch view (a % 64) d)
        .ok (s'.updEng p fun e => { e with stream := e.stream.after a d.length })

/-! ## Engine loads -/

/-- The fill that a miss starts (R214). -/
def addFill (s : State) (p l : Nat) (k : FillKind) : State :=
  s.updEng p fun e => if e.fills.any (fun f => f.line == l && f.kind == k) then e
    else { e with fills := e.fills ++ [{ line := l, kind := k }] }

/-- A load by engine `p` of `n` bytes inside one line, at absolute address `a`: its own stores over committed data (R123). -/
def loadLine (s : State) (p a n : Nat) (va : Word) : Except Stop (List Byte × State) :=
  let l := a / 64
  let others := otherOwners s p l
  if others != [] then .error (.wait (askCommit s others))
  else
    let (view, bad) := ownView s p l
    if bad then .error (.mc 1 0 (some va) l)
    else
      let data := slice view (a % 64) n
      let e := s.eng p
      if e.l1d.any (·.line == l) || e.holdsD l then .ok (data, s)
      else do
        let s' ← if e.stream.active && e.stream.next / 4096 != a / 4096 then leaveStream s p else .ok s
        -- a streamed line is served from the dome and not installed until it is committed (R205)
        if (ownersOf s' l).contains p then .ok (data, s') else .ok (data, addFill s' p l .load)

/-! ## Hub agents (R199, R239) -/

/-- Absolute bytes read by a hub agent: committed content only; `none` while an engine holds a line of the range uncommitted. -/
def linesOf (a n : Nat) : List Nat :=
  if n = 0 then [] else (List.range ((a + n - 1) / 64 - a / 64 + 1)).map (a / 64 + ·)

/-- The engines that hold a line of the range uncommitted. -/
def rangeOwners (s : State) (a n : Nat) : List Nat := (linesOf a n).flatMap (ownersOf s)

/-- The committed bytes of a range. -/
def hubRead (s : State) (a n : Nat) : List Byte :=
  slice ((linesOf a n).flatMap fun l => (committed s l).1) (a % 64) n

/-- The first poisoned line of a range. -/
def firstPoison (s : State) (a n : Nat) : Option Nat := (linesOf a n).find? fun l => (committed s l).2

/-- The instance that holds the granule of an absolute line, and whether the granule is mirrored. -/
def lineOwner (s : State) (l : Nat) : Option (Nat × Bool) :=
  let a := l * 64
  let base := s.poolBase
  s.insts.findSome? fun e =>
    let g := if a < 0x1000000000 then (if a < base then none else e.2.main.find? fun g => g.num == (a - base) / 65536)
             else e.2.bulk.find? fun g => g.num == (a - 0x1000000000) / 2097152
    g.map fun g => (e.1, g.mir)

/-- Do the closing events of instance `i` wait for its mirror groups: twin mode in force, and it is PRIMARY or its copy is being filled
(R360, R362, R363)? -/
def State.twinned (s : State) (i : Nat) : Bool :=
  s.twin.st == .paired && ((s.inst i).role == .primary || ((s.inst i).role == .exposed && (s.inst i).copying))

/-- Does the partner hold a valid copy of instance `i` (R362)? -/
def State.covered (s : State) (i : Nat) : Bool := s.twin.st == .paired && (s.inst i).role == .primary

/-- A line that a hub agent has written joins the lines to be mirrored for its instance (R357, R359). -/
def noteLine (s : State) (l : Nat) : State :=
  if s.twin.st != .paired then s
  else match lineOwner s l with
    | some (i, true) =>
      if s.twinned i then
        let t := s.twin
        let n := kvGet [] t.notes i
        { s with twin := { t with notes := kvSet t.notes i (if n.contains l then n else n ++ [l]) } }
      else s
    | _ => s

/-- One line written by a hub agent: every dome and L1 copy goes (R199); a whole line clears poison, a partial one keeps it
(R239). -/
def hubLine (s : State) (a : Nat) (d : List Byte) : State :=
  let l := a / 64
  let (old, bad) := committed s l
  let s := dropDomes s l (fun _ => true)
  noteLine { s with mem := s.mem.setLine s.clk.tb l (patch old (a % 64) d) (bad && decide (d.length < 64)) } l

/-- The pieces of `d` at address `a`, cut at line boundaries; `fuel` bounds the number of lines. -/
def lineChunks : Nat → Nat → List Byte → List (Nat × List Byte)
  | 0, _, _ => []
  | fuel + 1, a, d =>
    if d.isEmpty then []
    else
      let n := 64 - a % 64
      (a, d.take n) :: lineChunks fuel (a + n) (d.drop n)

/-- Bytes written by a hub agent in ascending line order, each line whole and committed. -/
def hubWrite (s : State) (a : Nat) (d : List Byte) : State :=
  (lineChunks (d.length / 64 + 2) a d).foldl (fun s c => hubLine s c.1 c.2) s

/-- `d`, written at offset `o` of a line, over the bytes `b` that stand there from offset `off` on. -/
def overlay (off : Nat) (b : List Byte) (o : Nat) (d : List Byte) : List Byte := slice (patch (patch (zeros 64) off b) o d) off b.length

/-- A write inside one line by a hub agent that comes while engines hold the line uncommitted: it reaches the committed content and
every copy, so that no store is lost (R199, R202). -/
def mergeLine (s : State) (a : Nat) (d : List Byte) : State :=
  let l := a / 64
  if (ownersOf s l).isEmpty then hubLine s a d
  else
    let (old, bad) := committed s l
    let put (x : List Byte) : List Byte := patch (padTo 64 x) (a % 64) d
    let s := { s with
      mem := s.mem.setLine s.clk.tb l (put old) bad
      domes := kvMap (fun _ t => { t with lines := t.lines.map fun x =>
        if x.line == l && (x.st == .M || x.st == .P) then { x with data := put x.data } else x }) s.domes
      engines := kvMap (fun _ e => { e with
        l1d := e.l1d.map fun x => if x.line == l && x.st == .D then { x with data := put x.data } else x
        stream := { e.stream with bufs := e.stream.bufs.map fun b =>
          if b.line == l then { b with data := overlay b.off b.data (a % 64) d } else b } }) s.engines }
    noteLine s l

end Sys2Proof.Machine
end

