-- ==== Sys2Proof/Machine/Completion.lean ====
section
/-! DEFINITION. Completion entries, their rings and messages (R54, R58, R61, R91), the dirty-page log (R65 to R67), and the request
fields (R55). -/

namespace Sys2Proof.Machine

open Sys2Proof

/-! ## Request fields (R55) -/

def reqOp (e : List Byte) : Nat := fieldBE e 0 1
def reqFlags (e : List Byte) : Nat := fieldBE e 1 1
def reqChk (e : List Byte) : Bool := bit (reqFlags e) 7
def reqNoint (e : List Byte) : Bool := bit (reqFlags e) 6
def reqFence (e : List Byte) : Bool := bit (reqFlags e) 5
def reqPrio (e : List Byte) : Nat := bits (reqFlags e) 4 3
def reqTarget (e : List Byte) : Nat := fieldBE e 2 2
def reqTag (e : List Byte) : Nat := fieldBE e 4 4
def reqSrc (e : List Byte) : Nat := fieldBE e 8 8
def reqDst (e : List Byte) : Nat := fieldBE e 16 8
def reqSrcLen (e : List Byte) : Nat := fieldBE e 24 4
def reqDstLen (e : List Byte) : Nat := fieldBE e 28 4
def reqCheck (e : List Byte) : Nat := fieldBE e 32 4

/-- Status codes (R60). -/
inductive Status where
  | done | busy | stateRefused | fieldInvalid | opcodeUndefined | featureAbsent | resourceLimit | accessDenied
  | tagMismatch | outputFull | keyExhausted | keyAbsent | abortedQuiesce | outcomeUnknown | deviceError | authFailed
  deriving DecidableEq, Repr

def Status.code : Status → Nat
  | .done => 0 | .busy => 1 | .stateRefused => 2 | .fieldInvalid => 3 | .opcodeUndefined => 4 | .featureAbsent => 5
  | .resourceLimit => 6 | .accessDenied => 7 | .tagMismatch => 8 | .outputFull => 9 | .keyExhausted => 10 | .keyAbsent => 11
  | .abortedQuiesce => 12 | .outcomeUnknown => 13 | .deviceError => 14 | .authFailed => 15

/-! ## Requests in hand -/

def State.req? (s : State) (n seq : Nat) : Option Request := s.hp.reqs.find? fun r => r.fn == n && r.seq == seq

def State.setReqs (s : State) (l : List Request) : State := { s with hp := { s.hp with reqs := l } }

/-- The request of function `n` with number `seq` replaced. -/
def State.putReq (s : State) (r : Request) : State :=
  s.setReqs (s.hp.reqs.map fun x => if x.fn == r.fn && x.seq == r.seq then r else x)

def State.setStage (s : State) (n seq : Nat) (st : Stage) : State :=
  s.setReqs (s.hp.reqs.map fun x => if x.fn == n && x.seq == seq then { x with stage := st } else x)

/-! ## The dirty-page log -/

/-- The pages that the bytes `[addr, addr + n)` touch. -/
def pagesOf (addr n : Nat) : List Nat :=
  if n = 0 then [] else (List.range ((addr + n - 1) / 4096 - addr / 4096 + 1)).map (addr / 4096 + ·)

/-- The logged regions of instance `i`: first page and pages of each host window and each completion ring it holds, by rising base (R67). -/
def logRegions (s : State) (i : Nat) : List (Nat × Nat) :=
  let x := s.inst i
  let ws := (x.windows.filter (fun w => w.2.pages != 0)).map fun w => (w.2.busBase / 4096, w.2.pages)
  let cs := ((List.range 8).filter (· < x.ringPairs)).map fun k =>
    let r := s.ring (i + 1) k
    (r.cqBase / 4096, (2 ^ r.cqSize * 32 + 4095) / 4096)
  (ws ++ cs).mergeSort fun a b => a.1 ≤ b.1

/-- The extents with `[b, b + n)` added: an extent that covers or adjoins it is widened (R67). -/
def addExtent (l : List (Nat × Nat)) (b n : Nat) : List (Nat × Nat) :=
  match l with
  | [] => [(b, n)]
  | (c, m) :: r =>
    if c + m < b then (c, m) :: addExtent r b n
    else if b + n < c then (b, n) :: (c, m) :: r
    else
      let lo := min b c
      addExtent r lo (max (b + n) (c + m) - lo)

/-- The index of the smallest gap between neighbouring extents, the lowest of equal ones (assumption log 96). -/
def minGap : List (Nat × Nat) → Nat → Nat × Nat
  | (b, n) :: (c, m) :: r, i =>
    let g := c - (b + n)
    match minGap ((c, m) :: r) (i + 1) with
    | (g', j) => if g' < g then (g', j) else (g, i)
  | _, i => (2 ^ 64, i)

/-- The extents cut to 128: the two with the smallest gap merged (R67). -/
def capExtents (l : List (Nat × Nat)) : List (Nat × Nat) :=
  if l.length ≤ 128 then l
  else
    let i := (minGap l 0).2
    match l[i]?, l[i + 1]? with
    | some (b, _), some (c, m) => l.take i ++ (b, c + m - b) :: l.drop (i + 2)
    | _, _ => l

/-- Does page `pg` lie in one of the regions? -/
def inRegions (regs : List (Nat × Nat)) (pg : Nat) : Bool := regs.any fun r => r.1 ≤ pg && pg < r.1 + r.2

/-- A page written outside every region: an extent is widened or added (R67). -/
def DirtyLog.extend (d : DirtyLog) (pg : Nat) : DirtyLog := { d with extents := capExtents (addExtent d.extents pg 1) }

/-- A write of `n` bytes at bus address `addr` on behalf of instance `i`: into the bitmap of the region that a page lies in, else
into the extents (R65). -/
def logDirty (s : State) (i addr n : Nat) : State :=
  match (s.inst i).log with
  | none => s
  | some d =>
    let regs := logRegions s i
    let d := (pagesOf addr n).foldl (fun (d : DirtyLog) pg =>
      if inRegions regs pg then { d with dirty := if d.dirty.contains pg then d.dirty else d.dirty ++ [pg] }
      else d.extend pg) d
    s.updInst i fun x => { x with log := some d }

/-- The log as a harvest sees it: pages recorded in the bitmap of a region that the instance no longer has become extents, so that
every logged write of the interval appears (R66). -/
def DirtyLog.settled (d : DirtyLog) (regs : List (Nat × Nat)) : DirtyLog :=
  (d.dirty.filter fun pg => !inRegions regs pg).foldl DirtyLog.extend { d with dirty := d.dirty.filter (inRegions regs) }

/-- Bytes written into host memory for function `n`: a logged write when it is an instance's (R65). -/
def hostWrite (s : State) (n addr : Nat) (data : List Byte) : State :=
  if data.isEmpty then s
  else
    let s := s.emit (.hostWrite n addr data)
    if n == 0 then s else logDirty s (n - 1) addr data.length

/-! ## Completions -/

/-- The 32 bytes of a completion entry (R58). -/
def completionBytes (c : Completion) (phase : Bool) : List Byte :=
  [BitVec.ofNat 8 c.status, BitVec.ofNat 8 (b2n phase * 128 + c.k * 16)] ++ toBE 2 c.detail ++ toBE 4 c.seq ++ toBE 4 c.tag
    ++ toBE 4 c.count ++ padTo 16 c.result

/-- Completion entries written and not yet released. -/
def Ring.unreleased (r : Ring) : Nat := (r.cqTail + 2 ^ r.cqSize - r.cqHead) % 2 ^ r.cqSize

/-- The message rule after a completion is written (R61): COAL_CNT completions gathered, or one message for each. -/
def gather (s : State) (n k : Nat) : State :=
  let r := s.ring n k
  if !r.intEn then s
  else
    let g := r.gathered + 1
    if g ≥ max 1 r.coalCnt then sendMsix (s.setRing n k { r with gathered := 0 }) n r.cqVec
    else s.setRing n k { r with gathered := g }

/-- One completion written at the tail of its ring (R54, R58). -/
def writeCompletion (s : State) (n k : Nat) (c : Completion) : State :=
  let r := s.ring n k
  let s := hostWrite s n (r.cqBase + r.cqTail * 32) (completionBytes c r.phase)
  let t := (r.cqTail + 1) % 2 ^ r.cqSize
  let s := s.setRing n k { r with cqTail := t, phase := if t == 0 then !r.phase else r.phase, reserved := r.reserved - 1 }
  if c.noint then s else gather s n k

/-- May ring `k` of function `n` take a completion now: enabled, Bus Master Enable 1, a released slot (R54, R91)? -/
def ringReady (s : State) (n k : Nat) : Bool :=
  let f := s.fn n
  let r := s.ring n k
  r.cqEn && f.bme && !f.flr && !s.hp.stopped && decide (r.unreleased < 2 ^ r.cqSize - 1)

/-- The held completions of a ring written in finish order while it can take them (R91). -/
def drainRing (s : State) (n k : Nat) : State :=
  (s.ring n k).held.foldl (fun s c =>
    if ringReady s n k then
      let s := s.setRing n k { s.ring n k with held := (s.ring n k).held.drop 1 }
      writeCompletion s n k c
    else s) s

def drainFn (s : State) (n : Nat) : State := (List.range 8).foldl (fun s k => drainRing s n k) s

/-- The completion of request `seq` of function `n`: it leaves the requests in hand, and its entry is written, or held in its
reserved slot (R58, R91). -/
def completeNow (s : State) (n seq : Nat) (st : Nat) (detail count : Nat) (result : List Byte) : State :=
  match s.req? n seq with
  | none => s
  | some r =>
    let c : Completion := { status := st, detail := detail, k := if n == 0 then 0 else r.k, seq := seq, tag := reqTag r.entry,
                            count := count, result := result, noint := reqNoint r.entry }
    let s := s.setReqs (s.hp.reqs.filter fun x => !(x.fn == n && x.seq == seq))
    let s := s.setRing n r.k { s.ring n r.k with held := (s.ring n r.k).held ++ [c] }
    drainRing s n r.k

end Sys2Proof.Machine
end

