-- ==== Sys2Proof/Machine/Mirror.lean ====
section
/-! DEFINITION. The sending side of the mirror (R349, R350, R357 to R361): groups, their slots, and the events that wait for them. -/

namespace Sys2Proof.Machine

open Sys2Proof

/-- A 76-byte slot (R350). -/
def slotBytes (type : Nat) (poison : Bool) (group addr tag : Nat) (data : List Byte) : List Byte :=
  BitVec.ofNat 8 (type * 16 + b2n poison * 8) :: (toBE 2 group ++ toBE 5 addr ++ toBE 4 tag ++ padTo 64 data)

/-- The LINE slot of a mirrored line, or its COPY slot (TYPE 3). -/
def lineSlot (type group : Nat) (m : MLine) : List Byte :=
  slotBytes type m.poison group (m.line * 64) (crc32c m.data).toNat m.data

/-! ## Flits (R349) -/

/-- CRC-64 with the ECMA-182 polynomial, most significant bit first, from zero. -/
def crc64 (l : List Byte) : BitVec 64 :=
  l.foldl (fun (c : BitVec 64) (b : Byte) =>
    (List.range 8).foldl (fun c _ => if c.msb then (c <<< 1) ^^^ 0x42F0E1EBA9EA3693#64 else c <<< 1) (c ^^^ (BitVec.setWidth 64 b <<< (56 : Nat)))) 0#64

/-- A DATA flit: up to three slots, the others EMPTY. -/
def flitBytes (fseq fack ack credit : Nat) (slots : List (List Byte)) : List Byte :=
  let body := 0x40#8 :: (toBE 2 fseq ++ toBE 2 fack ++ toBE 6 ack ++ toBE 1 credit ++ zeros 2 ++ padTo 228 slots.flatten)
  let checked := body ++ toBE 8 (crc64 body).toNat
  checked ++ padTo 6 (Config.flitFec checked)

/-- One DATA flit sent, kept in the replay buffer of 4,096. How many IDLE flits have gone before it, and so its FSEQ, is open. -/
def sendFlit (s : State) (slots : List (List Byte)) : State :=
  let (n, s) := s.fresh
  let t := s.twin
  let fseq := (t.txSeq + Config.pick n) % 4096
  let credit := min 255 (t.released / 1024)
  let f := flitBytes fseq ((t.fseq + 4095) % 4096) t.ackTx credit slots
  let kept := (t.sent.filter fun e => e.1 != fseq) ++ [(fseq, f)]
  State.emit { s with twin := { t with
    txSeq := (fseq + 1) % 4096, sent := kept.drop (kept.length - 4096), released := t.released - 1024 * credit } } (.jalarn f)

/-- Slots sent, three to a flit (assumption log 73). -/
def sendSlots (s : State) : List (List Byte) → State
  | [] => s
  | [a] => sendFlit s [a]
  | [a, b] => sendFlit s [a, b]
  | a :: b :: c :: l => sendSlots (sendFlit s [a, b, c]) l

/-! ## Groups (R359, R361) -/

/-- The GROUP_END slot. -/
def groupEnd (g : Group) (handle jsn : Nat) : List Byte :=
  slotBytes 2 false handle 0 0 (toBE 6 jsn ++ toBE 1 g.source ++ toBE 2 g.inst)

/-- The handles of a group's kind: 256 to 4,095 for channel operations, 0 to 255 for the others (R359). -/
def handleKind (g : Group) : List Nat := if g.source == 7 then List.range' 256 3840 else List.range 256

/-- A free handle for group `g`, which one being open, or none. -/
def freeHandle (s : State) (n : Nat) (g : Group) : Option Nat :=
  let used := s.twin.groups.filterMap fun x => if x.jsn.isNone then x.handle else none
  pickFrom n ((handleKind g).filter fun h => !used.contains h)

/-- The slots of group `k` sent while its instance's bucket and the staging credit last, under handle `h`: the lines, then GROUP_END, at
which the group takes its JSN (R359, R361). -/
def sendUnder (s : State) (k : Nat) (g : Group) (h : Nat) : State :=
  let room := kvGet 0 s.twin.buckets g.inst
  let now := g.lines.take (min room s.twin.credit)
  let rest := g.lines.drop now.length
  let left := room - now.length
  let ends := rest.isEmpty && left > 0
  let j := s.css.jsn
  let g' := { g with handle := some h, lines := rest, jsn := if ends then some j else none }
  let s := { s with
    css := { s.css with jsn := if ends then (j + 1) % 2 ^ 48 else j }
    twin := { s.twin with
      credit := s.twin.credit - now.length
      buckets := kvSet s.twin.buckets g.inst (if ends then left - 1 else left)
      groups := s.twin.groups.set k g' } }
  sendSlots s (now.map (lineSlot 1 h) ++ if ends then [groupEnd g h j] else [])

/-- Group `k` sent as far as it can be; one that finds no free handle of its kind waits (R359). -/
def sendGroup (s : State) (k : Nat) : State :=
  match s.twin.groups[k]? with
  | some g =>
    if g.jsn.isSome then s
    else
      let (n, s) := s.fresh
      match g.handle.or (freeHandle s n g) with
      | some h => sendUnder s k g h
      | none => s
  | none => s

/-- Every unsent group tried, in the order of closing. -/
def sendGroups (s : State) : State := (List.range s.twin.groups.length).foldl sendGroup s

/-- The control-block lines of instance `i` as a closing event changes them (R357): which lines and what they hold, the spec leaves open. -/
def controlOf (n i : Nat) : List MLine :=
  let l := Config.controlLines n i
  (l.zip (List.range 64)).map fun e => { line := 0x1000 + i * 64 + e.2, data := padTo 64 e.1, poison := false }

/-- A group closed by event `act` (R359), with the control-block lines that the event changes. -/
def closeGroup (s : State) (i source : Nat) (lines : List MLine) (act : Deferred) : State :=
  let (n, s) := s.fresh
  let g : Group := { inst := i, source := source, lines := lines ++ (if s.twinned i then controlOf n i else []), act := act }
  sendGroups { s with twin := { s.twin with groups := s.twin.groups ++ [g] } }

/-- The lines that hub agents have written for instance `i`, with their present content, and those of its key slots. -/
def noted (s : State) (i : Nat) : List MLine :=
  ((kvGet [] s.twin.notes i).map fun l => { line := l, data := (committed s l).1, poison := (committed s l).2 }) ++ kvGet [] s.twin.keyNotes i

/-- A closing event of a hub agent, or with SOURCE 7 of a channel operation, that acts for instance `i`. -/
def closeHub (s : State) (i source : Nat) (act : Deferred) : State :=
  closeGroup { s with twin := { s.twin with notes := kvDel s.twin.notes i, keyNotes := kvDel s.twin.keyNotes i } } i source (noted s i) act

/-- The completion of a request: at once, or when its group is acknowledged (R58, R360). -/
def complete (s : State) (n seq st detail count : Nat) (result : List Byte) : State :=
  if n != 0 && s.twinned (n - 1) then
    match s.req? n seq with
    | none => s
    | some r => if r.closing then s
                else closeHub (s.putReq { r with closing := true }) (n - 1) 0x11 (.completion n seq st detail count result)
  else completeNow s n seq st detail count result

end Sys2Proof.Machine
end

