-- ==== Sys2Proof/Machine/Commit.lean ====
section
/-! DEFINITION. Pools and their retry hint (R75, R76, R82, R83), the journal (R261 to R264), commit points (R320 to R323), the
effects they hand over (R322), rollback (R330). -/

namespace Sys2Proof.Machine

open Sys2Proof

/-! ## Pools -/

/-- Pool codes (R75). -/
def poolEnt : Nat := 1
def poolMain : Nat := 2
def poolBulk : Nat := 3
def poolSub : Nat := 4
def poolKey : Nat := 5
def poolRing : Nat := 6
def poolWay : Nat := 7
def poolDisp : Nat := 8
def poolXce : Nat := 9
def poolCze : Nat := 10
def poolMirror : Nat := 11

/-- Is the pool per tower (R75)? -/
def perTower (pool : Nat) : Bool := pool == 1 || pool == 7 || pool == 8

/-- Is the pool an admission pool (R75)? -/
def admission (pool : Nat) : Bool := pool == 4 || pool == 8 || pool == 9 || pool == 10 || pool == 11

def Inst.share (x : Inst) (pool t : Nat) : Share := kvGet {} x.shares (pool * 16 + t)

def Inst.setShare (x : Inst) (pool t : Nat) (sh : Share) : Inst := { x with shares := kvSet x.shares (pool * 16 + t) sh }

/-- Active slots of tower `t` that the image gives (R379). -/
def State.activeSlots (s : State) (t : Nat) : Nat :=
  if t < s.variant.towers then ((s.img.roles.drop (t * 16)).take 16 |>.filter (· == 1)).length else 0

/-- Granules of the bulk store: none without it, 32 fewer when the image permits twin mode (R217, R356). -/
def State.bulkPool (s : State) : Nat :=
  if s.variant.bulk then (if s.img.twin then 42976 else 43008) else 0

/-- Bulk granules of the pool that lie in fenced stacks and have left it (R439). -/
def State.bulkGone (s : State) : Nat :=
  ((List.range 4).map fun st =>
    if s.tst.fenced.any fun u => u.source == 6 && u.unit == st then min s.bulkPool ((st + 1) * 10752) - min s.bulkPool (st * 10752) else 0).sum

/-- Lockable ways of a tower's dome that are in service: L falls when one is retired (R439). -/
def State.lockable (s : State) (t : Nat) : List Nat :=
  ((List.range s.img.lockways).map (15 - s.img.lockways + ·)).filter fun w => !s.tst.fenced.contains ⟨2, t, w⟩

/-- The total of a pool (R75, R77); zero for an absent unit. -/
def poolTotal (s : State) (pool t : Nat) : Nat :=
  let here := decide (t < s.variant.towers)
  match pool with
  | 1 => if here then s.activeSlots t * 64 else 0
  | 2 => s.mainPool
  | 3 => s.bulkPool - s.bulkGone
  | 4 => 1024
  | 5 => 1024
  | 6 => 4096
  | 7 => if here then (s.lockable t).length else 0
  | 8 => if here then 8192 else 0
  | 9 => s.variant.xces * 64
  | 10 => s.variant.czes * 64
  | 11 => if s.variant.jlk then 1024 else 0
  | _ => 0

/-- The sum of the guarantees of all instances in a pool. -/
def poolGuaranteed (s : State) (pool t : Nat) : Nat := (s.insts.map fun x => (x.2.share pool t).guarantee).sum

/-- The effects that commit points taken and not complete will hand over (R322, R360). -/
def openEffects (s : State) : List Effect := s.engines.flatMap fun e => match e.2.commit with
  | some b => b.effects
  | none => []

/-- Subchannels of instance `i` on which an SSTART has answered DONE and its commit point is not complete: no other takes them (R249). -/
def claimed (s : State) (i : Nat) : List Nat := (openEffects s).filterMap fun e => match e with
  | .startOp j n _ _ => if j == i then some n else none
  | _ => none

/-- Jobs that XCALL and ZCALL have admitted and whose commit points are not complete, of an accelerator kind. -/
def openJobs (s : State) (cz : Bool) : List Job := (openEffects s).filterMap fun e => match e with
  | .job j c => if c == cz then some j else none
  | _ => none

/-- Subchannel groups in which instance `i` has a subchannel that is not idle. -/
def busyGroups (s : State) (i : Nat) : List Nat :=
  let busy := (s.css.subs.filter fun e => e.1 / 65536 == i && e.2.st != .idle).map fun e => e.1 % 65536 / 64
  (busy ++ (claimed s i).map fun n => n / 64).dedup

/-- MSG requests of instance `i` that hold a dispatch slot of tower `t`. -/
def dispatchHeld (s : State) (i t : Nat) : Nat :=
  (s.hp.reqs.filter fun r => r.fn == i + 1 && reqOp r.entry == 1 && r.stage == .queued
    && (s.ve (veKey i (reqTarget r.entry))).tower == t).length

/-- The units of an admission pool that instance `i` holds; of MIRROR its guarantee, so that no shared unit shows as in use (assumption log
102). -/
def poolHeld (s : State) (i pool t : Nat) : Nat :=
  match pool with
  | 4 => let g := ((s.inst i).share 4 0).guarantee; g + ((busyGroups s i).filter (g ≤ ·)).length
  | 8 => dispatchHeld s i t
  | 9 => ((s.xce.jobs ++ openJobs s false).filter (·.inst == i)).length
  | 10 => ((s.cze.jobs ++ openJobs s true).filter (·.inst == i)).length
  | _ => ((s.inst i).share pool t).guarantee

/-- Shared units in use: what instances hold beyond their guarantees. -/
def sharedInUse (s : State) (pool t : Nat) : Nat :=
  (s.insts.map fun x => poolHeld s x.1 pool t - (x.2.share pool t).guarantee).sum

/-- How a unit of an admission pool is granted: within the guarantee, from the shared remainder, or not (R82). -/
inductive Admit where
  | own | shared | no
  deriving DecidableEq, Repr

def takeUnit (s : State) (i pool t : Nat) : Admit :=
  let sh := (s.inst i).share pool t
  let held := poolHeld s i pool t
  if held < sh.guarantee then .own
  else if held - sh.guarantee < sh.cap && sharedInUse s pool t < poolTotal s pool t - poolGuaranteed s pool t then .shared
  else .no

/-- The retry hint (R83): the mean `sum / length` over the shared units in use, rounded up once; the mean over no release at all is a free
value. -/
def retryAfter (s : State) (pool t : Nat) : Nat :=
  let h := kvGet [] s.holds (pool * 16 + t)
  let u := max 1 (sharedInUse s pool t)
  let den := if h.isEmpty then u else h.length * u
  let sum := if h.isEmpty then Config.holdUnknown s.free else h.sum
  min 100000 (max 100 ((sum + den - 1) / den))

/-- A shared unit released after `dt` timebase units. -/
def pushHold (s : State) (pool t dt : Nat) : State :=
  let h := kvGet [] s.holds (pool * 16 + t) ++ [dt]
  { s with holds := kvSet s.holds (pool * 16 + t) (h.drop (h.length - 1024)) }

/-- A queued message gives up its dispatch slot; the hold time of a shared one counts (R83). -/
def freeDispatch (s : State) (r : Request) : State :=
  if r.shared && r.stage == .queued then pushHold s poolDisp (s.ve (veKey (r.fn - 1) (reqTarget r.entry))).tower (s.clk.tb - r.tb) else s

/-! ## The journal -/

def SubState.code : SubState → Nat
  | .idle => 0 | .issued => 1 | .validating => 2 | .active => 3 | .reissuing => 4 | .ending => 5 | .pending => 6 | .held => 7

/-- The module index of this module in its pair (R384, R385). -/
def State.pairIndex (s : State) : Nat := if s.img.twin && s.img.pair1 == s.spire.modid then 1 else 0

/-- The channel path of a PATH byte: a local path by number, a partner path by number plus 0x100 (R266, R339, R385). -/
def pathNum (s : State) (b : Nat) : Nat := if b / 128 != s.pairIndex then 0x100 + b % 8 else b % 8

/-- The PATH byte of a journal entry: the device's path in use (R261). -/
def pathByte (s : State) (x : Sub) : Nat :=
  match (s.img.devices[x.device]?).bind (fun d => d.paths[x.path]?) with
  | some b => let n := pathNum s b; if n ≥ 0x100 then 128 + n % 8 else n
  | none => 0

/-- Slots of the journal ring (R261). -/
def State.journalSlots (s : State) : Nat := s.journalBytes / 64

/-- Is an operation started and not yet presented, so that its latest entry is needed (R264)? -/
def SubState.needsEntry (x : SubState) : Bool := x != .idle && x != .issued

/-- JSN of the latest entry of subchannel `n` of instance `i`. -/
def lastEntry (s : State) (i n : Nat) : Option Nat :=
  (s.css.journal.filter fun e => e.inst == i && e.sub == n).getLast?.map (·.jsn)

/-- The age of a JSN: how far the series has gone beyond it. -/
def State.jsnAge (s : State) (j : Nat) : Nat := (s.css.jsn + 2 ^ 48 - j) % 2 ^ 48

/-- The 64 bytes of a journal entry (R261). -/
def JEntry.bytes (e : JEntry) : List Byte :=
  toBE 1 e.type ++ toBE 1 (b2n e.twin * 128 + b2n e.discard * 64 + b2n e.onceOpen * 32) ++ toBE 6 e.jsn ++ toBE 2 e.inst ++ toBE 2 e.sub
    ++ toBE 2 e.device ++ toBE 1 e.path ++ toBE 1 e.state ++ toBE 6 e.opJsn ++ toBE 2 e.cce ++ toBE 1 e.status ++ toBE 1 e.ve
    ++ toBE 2 e.detail ++ toBE 4 e.count ++ toBE 8 e.tb ++ toBE 8 e.program ++ toBE 8 e.statusAddr ++ toBE 8 e.user

/-- One journal entry of subchannel `n` of instance `i`, at the next JSN, written as one committed line in the slot of its number (R261,
R263); in twin mode the line is mirrored (R357). -/
def journalOne (s : State) (i n type : Nat) (discard : Bool) : State :=
  let x := s.sub i n
  let e : JEntry := {
    type := type, discard := discard, onceOpen := type == 7 && x.onceOpen, twin := s.twin.st == .paired
    jsn := s.css.jsn, inst := i, sub := n, device := x.device, path := pathByte s x, state := x.st.code, opJsn := x.opJsn
    cce := x.cce, status := if type == 5 then x.fstatus else 0, ve := x.ve, detail := if type == 5 then x.detail else 0
    count := x.moved, tb := s.clk.tb, program := x.program, statusAddr := x.status, user := x.user }
  let m := s.journalSlots
  let l := 0x40000 + e.jsn % m
  let s := { s with
             css := { s.css with
                      jsn := (s.css.jsn + 1) % 2 ^ 48
                      journal := s.css.journal.filter (fun (y : JEntry) => y.jsn % m != e.jsn % m) ++ [e] }
             mem := s.mem.setLine s.clk.tb l e.bytes false }
  if s.twin.st == .paired then
    let n := kvGet [] s.twin.notes i
    { s with twin := { s.twin with notes := kvSet s.twin.notes i (if n.contains l then n else n ++ [l]) } }
  else s

/-- A journal entry closes the group of its operation in twin mode (R359), which `act` waits for. -/
def closeEntry (s : State) (i : Nat) (act : Deferred) : State := if s.twin.st == .paired then closeHub s i 0x07 act else s

/-- A CARRY entry for every operation whose latest entry has fallen into the oldest eighth of the ring (R264). -/
def carryOld (s : State) : State :=
  s.css.subs.foldl (fun s e =>
    match lastEntry s (e.1 / 65536) (e.1 % 65536) with
    | some j => if e.2.st.needsEntry && s.jsnAge j > s.journalSlots * 7 / 8 then
        closeEntry (journalOne s (e.1 / 65536) (e.1 % 65536) 7 false) (e.1 / 65536) .nothing
      else s
    | none => s) s

/-- A journal entry, what waits for its group in twin mode, and the CARRY entries it makes necessary. -/
def journal (s : State) (i n type : Nat) (discard : Bool) (act : Deferred := .nothing) : State :=
  carryOld (closeEntry (journalOne s i n type discard) i act)

/-- A shared group whose 64 subchannels have become idle returns to the pool (R247). -/
def releaseGroup (s : State) (i n : Nat) : State :=
  let g := n / 64
  match kvFind (s.inst i).groupTb g with
  | none => s
  | some tb =>
    if (busyGroups s i).contains g then s
    else
      let s := pushHold s poolSub 0 (s.clk.tb - tb)
      s.updInst i fun x => { x with groupTb := kvDel x.groupTb g }

/-- The PRESENT entry of a final status, and the subchannel idle (R256). -/
def presentSub (s : State) (i n : Nat) (discard : Bool) : State :=
  let s := s.setSub i n { s.sub i n with st := .idle }
  let s := journal s i n 6 discard
  releaseGroup (s.setSub i n {}) i n

/-! ## Effects (R322) -/

/-- The real address `r` of instance `i` as an absolute one, in a store region (R230). -/
def absOf (s : State) (i r : Nat) : Option Nat :=
  let x := s.inst i
  if r < 0x1000000000 then
    (x.main[r / 65536]?).map fun g => s.poolBase + g.num * 65536 + r % 65536
  else if r < 0xF000000000 then
    let o := r - 0x1000000000
    (x.bulk[o / 2097152]?).map fun g => 0x1000000000 + g.num * 2097152 + o % 2097152
  else none

/-- The zone entry that maps real address `r` of instance `i` (R229, R230). -/
def zoneTag (s : State) (i r : Nat) : Option ZoneTag :=
  let x := s.inst i
  if r < 0x1000000000 then
    (x.main[r / 65536]?).map fun g => { inst := i, bulk := false, index := r / 65536, entry := zoneEntry g.num g.mir }
  else if r < 0xF000000000 then
    let o := r - 0x1000000000
    (x.bulk[o / 2097152]?).map fun g => { inst := i, bulk := true, index := o / 2097152, entry := zoneEntry g.num g.mir }
  else none

/-- A zone cache of `cap` entries after a lookup of `t` (R231). -/
def cacheZone (cap choice : Nat) (c : List ZoneTag) (t : ZoneTag) : List ZoneTag :=
  if c.any fun x => x.inst == t.inst && x.bulk == t.bulk && x.index == t.index then c
  else (if c.length < cap then c else c.eraseIdx (choice % c.length)) ++ [t]

/-- Engine `p` looks up real address `r` of instance `i`: a failed lookup is never held (R231). -/
def engineZone (s : State) (p i r : Nat) : State :=
  match zoneTag s i r with
  | some t => s.updEng p fun e => { e with zones := cacheZone 64 (Config.pickAt s.free r) e.zones t }
  | none => s

/-- A hub agent looks up real address `r` of instance `i` (R231). -/
def hubZone (s : State) (i r : Nat) : State :=
  match zoneTag s i r with
  | some t => { s with hubZones := cacheZone 4096 (Config.pickAt s.free r) s.hubZones t }
  | none => s

/-- An accelerator-completion interruption pends for virtual engine `v` (R117). -/
def pendAccel (s : State) (i v area : Nat) : State :=
  s.updVe (veKey i v) fun e => { e with accel := e.accel ++ [BitVec.ofNat 64 area] }

/-- The 32 bytes of a completion area, which lie in one line, written at real address `area` (R117), with the interruption unless NOINT. -/
def writeArea (s : State) (i v area : Nat) (bytes : List Byte) (noint : Bool) : State :=
  let s := match absOf s i area with
    | some a => mergeLine (hubZone s i area) a bytes
    | none => s
  if noint then s else pendAccel s i v area

/-- Shared group bookkeeping when a subchannel leaves idle (R246). -/
def takeGroup (s : State) (i n : Nat) : State :=
  let x := s.inst i
  let g := n / 64
  if g < (x.share 4 0).guarantee || (kvFind x.groupTb g).isSome then s
  else s.setInst i { x with groupTb := kvSet x.groupTb g s.clk.tb }

/-- An effect handed over in the step that completes its commit point (R322). -/
def runEffect (s : State) (e : Effect) : State :=
  match e with
  | .completion i seq st detail count result => complete s (i + 1) seq st detail count result
  | .signal i t sender param => s.updVe (veKey i t) fun x => { x with signals := kvSet x.signals sender param }
  | .restart i t => s.updVe (veKey i t) fun x => { x with restart := true }
  | .startOp i n v b =>
    let s := takeGroup s i n
    let s := { s with css := { s.css with order := s.css.order + 1 } }
    s.setSub i n { st := .issued, ve := v, prio := bits (fieldBE b 2 1) 7 6,
                   device := kvGet 0xFFFF s.img.devlists (i * 256 + fieldBE b 0 2),
                   program := fieldBE b 8 8, status := fieldBE b 16 8, user := fieldBE b 24 8, order := s.css.order }
  | .job j cz =>
    if cz then { s with cze := { s.cze with jobs := s.cze.jobs ++ [{ j with order := s.cze.order }], order := s.cze.order + 1 } }
    else
      let s := { s with xce := { s.xce with jobs := s.xce.jobs ++ [{ j with order := s.xce.order }], order := s.xce.order + 1 } }
      if reqOp j.entry == 0x1A then s
      else
        let x := s.slot j.page j.slot
        s.setSlot j.page j.slot { x with running := min 127 (x.running + 1), reserved := x.reserved + j.charge }
  | .areaWrite i v area b noint => writeArea s i v area b noint
  | .hostStore i w off d => hostWrite s (i + 1) ((kvGet {} (s.inst i).windows w).busBase + off) d

/-! ## Consumption (R323) -/

/-- The RESTART requests pending at virtual engine `v` of instance `i` complete DONE (R140). -/
def finishRestarts (s : State) (i v : Nat) (st : Status) : State :=
  (s.hp.reqs.filter fun r => r.fn == i + 1 && reqOp r.entry == 4 && r.stage == .pending && reqTarget r.entry == v).foldl
    (fun s r => complete s r.fn r.seq st.code 0 0 []) s

/-- An interruption consumed at its source. -/
def consume (s : State) (k : Nat) (t : Taken) : State :=
  let i := veInst k
  match t with
  | .restart => finishRestarts (s.updVe k fun x => { x with restart := false }) i (veNum k) .done
  | .io n => presentSub s i n false
  | .signal v => s.updVe k fun x => { x with signals := kvDel x.signals v }
  | .message seq =>
    match s.req? (i + 1) seq with
    | some r => freeDispatch (s.setStage (i + 1) seq .taken) r
    | none => s
  | .accel a => s.updVe k fun x => { x with accel := x.accel.erase a }
  | .deferred m => s.updVe k fun x => if x.deferred == some m then { x with deferred := none } else x

/-! ## Key-page registers (R282 to R285) -/

/-- A write of eight bytes or fewer at offset `off` of a key page: only a slot's staging field takes it, where the policy allows
plaintext keys (R285). -/
def writeKeyPage (s : State) (pg off : Nat) (d : List Byte) : State :=
  let n := (off - 0x100) / 0x100
  if 0x100 ≤ off && off < 0x900 && (off - 0x100) % 0x100 ≥ 0x80 && s.img.plainKeys then
    let x := s.slot pg n
    s.setSlot pg n { x with staging := patch x.staging ((off - 0x100) % 0x100 - 0x80) d }
  else s

/-! ## Commit points (R320, R321) -/

/-- The P lines of engine `p`'s dome with `f` applied. -/
def mapP (s : State) (p : Nat) (f : DomeLine → DomeLine) : State :=
  s.updDome (towerOf p) fun d => { d with lines := d.lines.map fun x => if x.st == .P && x.owner == p then f x else x }

/-- The lines that engine `p` holds uncommitted in its L1D and its stream buffers. -/
def Engine.dirtyLines (e : Engine) : List Nat :=
  ((e.l1d.filter (·.st == .D)).map (·.line) ++ (e.stream.bufs.filter fun b => !b.data.isEmpty).map (·.line)).dedup

/-- A stream's buffers after their bytes have been cleaned: a full one is done with, a partly filled one goes on filling (R206). -/
def Stream.cleaned (st : Stream) : Stream :=
  { st with bufs := (st.bufs.filter fun b => !b.full).map fun b => { b with off := b.off + b.data.length, data := [] } }

/-- Every D line and every stream buffer cleaned to the dome as P lines, a dome copy in M being written back first (R201, R321); the
lines stay in the L1D. -/
def cleanEngine (s : State) (p : Nat) : State :=
  let lines := (s.eng p).dirtyLines
  let views := lines.map fun l => (l, ownView s p l)
  let s := lines.foldl writeBack s
  let clean (x : DomeLine) : DomeLine :=
    match views.find? (fun w => w.1 == x.line) with
    | some (_, v, bad) => { x with st := .P, data := v, poison := bad, owner := p, taken := true }
    | none => x
  let s := s.updDome (towerOf p) fun d => { d with lines := d.lines.map clean }
  s.updEng p fun e => { e with
    l1d := e.l1d.map fun x => if x.st == .D then { x with st := .E, data := [] } else x
    stream := e.stream.cleaned }

/-- A commit point taken on engine `p`, which runs virtual engine `k`: state copied into the commit buffer, dirty lines cleaned
(R321). -/
def takeCommit (s : State) (p k : Nat) (effects : List Effect) (opening wait leave : Bool) : State :=
  let s := cleanEngine s p
  let s := mapP s p fun x => { x with taken := true }
  let x := s.ve k
  let b : CommitBuf := { ctx := x.cur, prog := x.prog, mc := x.mc, consumes := x.taken, effects := effects, opening := opening, wait := wait, leave := leave, tb := s.clk.tb,
                         keyWrites := x.keyWrites }
  let s := s.setVe k { x with icount := 0, tbCommit := s.clk.tb, keyWrites := [] }
  s.updEng p fun e => { e with commit := some b, steal := false }

/-- The slots of a tower that virtual engines use, and the lowest good free one (R324, R326). -/
def freeSlot (s : State) (t : Nat) : Nat :=
  let used := (s.ves.filter fun e => e.2.hasCtx && e.2.tower == t).map fun e => e.2.slot
  let bad := (s.dome t).badSlots
  ((List.range 512).find? fun k => !used.contains k && !bad.contains k).getD 0

/-! ## Time slices (R80, R81) -/

/-- A time slice in timebase units. -/
def State.sliceTb (s : State) : Nat := s.img.slice * 100

/-- The window of 64 time slices of tower `t` that holds the present: windows follow one another (R80; assumption log 110). -/
def rollWindow (s : State) (t : Nat) : State :=
  let d := s.dome t
  let w := s.sliceTb * 64
  if w = 0 || decide (s.clk.tb < d.winTb + w) then s
  else s.updDome t fun d => { d with winTb := s.clk.tb - (s.clk.tb - d.winTb) % w, used := [] }

/-- Engine time of virtual engine `k` in the present window since its dispatch. -/
def timeTaken (s : State) (t k : Nat) : Nat := s.clk.tb - max (s.ve k).since (s.dome t).winTb

/-- Virtual engine `k`, which leaves an engine of tower `t`, charged to its instance. -/
def chargeTime (s : State) (t k : Nat) : State :=
  let s := rollWindow s t
  s.updDome t fun d => { d with used := kvSet d.used (veInst k) (kvGet 0 d.used (veInst k) + timeTaken s t k) }

/-- Engines of a tower that the dispatcher may use. -/
def dispatchable (s : State) (t : Nat) : Nat :=
  ((enginesOf t).filter fun p => (s.eng p).role == .dispatch && !(s.eng p).fenced).length

/-- Those that throttling leaves unparked (R432, R433). -/
def unparkedEngines (s : State) (t : Nat) : Nat := min (dispatchable s t) (throttleEngines s)

/-- Are the entitlements of tower `t` scaled: its engines in service below its entitlement total ÷ 64 (R81, R433)? -/
def entScaled (s : State) (t : Nat) : Bool := decide (unparkedEngines s t * 64 < poolGuaranteed s poolEnt t)

/-- The entitlement of instance `i` on tower `t` in force: as set, or scaled, rounded down and at least 1 (R81; assumption log 110). -/
def entitled (s : State) (i t : Nat) : Nat :=
  let e := ((s.inst i).share poolEnt t).guarantee
  if e != 0 && entScaled s t then max 1 (e * (unparkedEngines s t * 64) / poolGuaranteed s poolEnt t) else e

/-- Engine time that instance `i` has taken on tower `t` in its present window. -/
def engineTime (s : State) (i t : Nat) : Nat :=
  kvGet 0 (s.dome t).used i
    + ((enginesOf t).filterMap fun p => (s.eng p).ve.bind fun k => if veInst k == i then some (timeTaken s t k) else none).sum

/-- Engine time that instance `i` has taken beyond its entitlement. -/
def spareTime (s : State) (i t : Nat) : Nat := engineTime s i t - entitled s i t * s.sliceTb

/-- Is instance `i` still short of the engine time it is entitled to in the window: entitlement ÷ 64 engines over 64 slices (R80)? -/
def short (s : State) (i t : Nat) : Bool := decide (engineTime s i t < entitled s i t * s.sliceTb)

/-- The spare engine time that instance `i` may take in a window; a SHARED_CAP of 0 sets no cap below 64 × VE count (R76). -/
def spareCap (s : State) (i t : Nat) : Nat :=
  let c := ((s.inst i).share poolEnt t).cap
  let n := (s.ves.filter fun e => veInst e.1 == i && e.2.placed && e.2.tower == t).length
  (if c = 0 then 64 * n else c) * s.sliceTb

/-- A virtual engine off its engine, its time charged: streaming ends with the switch (R205), a wait on memory or a MOVB's direction is forgotten. -/
def leaveEngine (s : State) (p k : Nat) : State :=
  ((chargeTime s (towerOf p) k).updVe k fun x => { x with on := none, desc := none, opened := false }).updEng p fun e => { e with ve := none, stream := {} }

/-- The slot-map step that completes a commit point (R321): the copied state becomes the checkpoint, the cleaned lines become M
(E with the store written where a newer version is already D, R201), interruptions are consumed, the effect is handed over. -/
def finishCommit (s : State) (p k : Nat) (b : CommitBuf) : State :=
  let dirty := (s.eng p).dirtyLines
  let s := mapP s p fun x => if x.taken then { x with st := .M, owner := 0, taken := false } else x
  let s := drainStream (dirty.foldl writeBack s) p
  let x := s.ve k
  let s := s.setVe k { x with
                       ckpt := b.ctx, ckProg := b.prog, ckMc := b.mc, csn := x.csn + 1, slot := freeSlot s x.tower, taken := x.taken.drop b.consumes.length
                       opened := b.opening }
  let s := s.updEng p fun e => { e with commit := none, steal := false }
  let i := veInst k
  let s := s.updInst i fun y => { y with releases := y.releases.filter fun a => a.ve != veNum k || x.csn < a.csn }
  let s := b.keyWrites.foldl (fun s w =>
    match (s.inst i).keyPages[w.1 / 4096]? with
    | some pg => writeKeyPage s pg (w.1 % 4096) w.2
    | none => s) s
  let s := b.consumes.foldl (fun s t => consume s k t) s
  let s := b.effects.foldl runEffect s
  if b.leave then leaveEngine s p k
  else if (s.inst i).st == .quiescing then takeCommit s p k [] false true true
  else s

/-- A commit point taken and completed in one step. -/
def commitNow (s : State) (p k : Nat) (effects : List Effect) (leave : Bool) : State :=
  let s := takeCommit s p k effects false true leave
  match (s.eng p).commit with
  | some b => finishCommit s p k b
  | none => s

/-- A commit point taken with the engine waiting for it: complete at once in a single module, after its mirror group in twin mode. -/
def commitWait (s : State) (p k : Nat) (leave : Bool) : State :=
  if s.twinned (veInst k) then takeCommit s p k [] false true leave else commitNow s p k [] leave

/-- A host-window access while Bus Master Enable is 0 (R91): the virtual engine commits and is descheduled until it returns. -/
def parkBme (s : State) (p k : Nat) : State :=
  if (s.eng p).commit.isSome then s else commitWait (s.updVe k fun e => { e with waitBme := true }) p k true

/-- A checkstop's effect on memory and on the virtual engine (R201, R330): D lines, stream buffers, P lines, the commit in
progress and outstanding accesses are discarded; the virtual engine is at its checkpoint. -/
def rollback (s : State) (p : Nat) : State :=
  let t := towerOf p
  let lost := ((s.dome t).lines.filter fun x => x.st == .P && x.owner == p).map (·.line)
  let s := lost.foldl (fun s l => dropDomes s l (· == t)) s
  let k := (s.eng p).ve
  let s := s.updEng p fun e => { e with l1d := [], l1i := [], stream := {}, fills := [], commit := none, steal := false }
  match k with
  | some k => s.updVe k fun x =>
      { x with cur := x.ckpt, prog := x.ckProg, mc := if x.mcHeld then x.mc else x.ckMc, taken := [], opened := false, keyWrites := [], icount := 0, barrier := none, desc := none }
  | none => s

/-- The L1 caches of an engine walked before it takes work, its streaming detector cleared (R207). -/
def walkL1 (s : State) (p : Nat) : State :=
  s.updEng p fun e => { e with l1d := [], l1i := [], fills := [], stream := {} }

/-- A dome walked after a repair: its lines written back and gone with the L1 copies, its way locks cleared (R207). A line that an
engine holds uncommitted stays (assumption log 105). -/
def walkDome (s : State) (t : Nat) : State :=
  let s := (((s.dome t).lines.map (·.line)).filter fun l => (ownersOf s l).isEmpty).foldl (fun s l => dropDomes (writeBack s l) l (· == t)) s
  s.updDome t fun d => { d with locks := kvMap (fun _ w => { w with locked := false, held := 0, removed := 0 }) d.locks }

end Sys2Proof.Machine
end

