-- ==== Sys2Proof/Machine/Flags.lean ====
section
/-! DEFINITION. Register access and every flag computation: ESW fields (R100), conditions (R105), integer flags (R153), the results of
the register families. -/

namespace Sys2Proof.Machine

open Sys2Proof

/-! ## Registers -/

/-- G[r]. -/
def Ctx.G (c : Ctx) (r : BitVec 5) : Word := c.g[r.toNat]

/-- G[r] by a number below 32. -/
def Ctx.Gn (c : Ctx) (n : Nat) : Word := c.g.getD n 0

def Ctx.setG (c : Ctx) (r : BitVec 5) (v : Word) : Ctx := { c with g := c.g.set r.toNat v }

/-- F[r]. -/
def Ctx.F (c : Ctx) (r : BitVec 5) : Word := c.f[r.toNat]

def Ctx.setF (c : Ctx) (r : BitVec 5) (v : Word) : Ctx := { c with f := c.f.set r.toNat v }

/-- DA[r], r below 8 (R99). -/
def Ctx.DA (c : Ctx) (n : Nat) : BitVec 128 := c.da.getD n 0

def Ctx.setDA (c : Ctx) (n : Nat) (v : BitVec 128) : Ctx := { c with da := c.da.setIfInBounds n v }

/-- K[n]: K9 is formed from the virtual engine's number by its reader, K12 to K15 read zero (R102). -/
def Ctx.K (c : Ctx) (n : Nat) : Word := c.k.getD n 0

def Ctx.setK (c : Ctx) (n : Nat) (v : Word) : Ctx := { c with k := c.k.setIfInBounds n v }

/-- A register pair as 128 bits, the even register high (R97). -/
def Ctx.pair (c : Ctx) (r : BitVec 5) : BitVec 128 := c.G r ++ c.G (r + 1)

def Ctx.setPair (c : Ctx) (r : BitVec 5) (v : BitVec 128) : Ctx :=
  (c.setG r (v.extractLsb' 64 64)).setG (r + 1) (v.extractLsb' 0 64)

/-- Is the register number odd, so no pair (R97)? -/
def odd5 (r : BitVec 5) : Bool := r.getLsbD 0

/-! ## ESW fields (R100) -/

/-- Bit `n` of ESW[63:0]. -/
def Ctx.sb (c : Ctx) (n : Nat) : Bool := c.psw.getLsbD n

/-- Bit `n` of ESW[63:0] set to `b`. -/
def Ctx.setSb (c : Ctx) (n : Nat) (b : Bool) : Ctx :=
  { c with psw := if b then c.psw ||| (1#64 <<< n) else c.psw &&& ~~~(1#64 <<< n) }

def bMCM : Nat := 47
def bIOM : Nat := 46
def bEXM : Nat := 45
def bFXM : Nat := 44
def bDOM : Nat := 43
def bPS : Nat := 39
def bRP : Nat := 38
def bTE : Nat := 37
def bWT : Nat := 36
def bZ : Nat := 4
def bN : Nat := 3
def bC : Nat := 2
def bV : Nat := 1
def bDV : Nat := 0

/-- The defined bits of ESW[63:0]; the others are RZ (R100). -/
def pswMask : Word := 0x0000F8F00000001F

/-- Z and N of a result, C and V as they were (R115, logical instructions). -/
def Ctx.setZN (c : Ctx) (v : Word) : Ctx := (c.setSb bZ (v == 0)).setSb bN (v.getLsbD 63)

def Ctx.setCV (c : Ctx) (cy ov : Bool) : Ctx := (c.setSb bC cy).setSb bV ov

/-- The flags Z, N, C, V and DV as a number in ESW bit order (GETF). -/
def Ctx.flags (c : Ctx) : Word := c.psw &&& 0x1F

/-- A condition of R105. -/
def Ctx.cond (c : Ctx) (n : BitVec 4) : Bool :=
  let z := c.sb bZ
  let ng := c.sb bN
  let cy := c.sb bC
  let v := c.sb bV
  match n.toNat with
  | 0 => z | 1 => !z
  | 2 => ng != v | 3 => ng == v
  | 4 => !z && ng == v | 5 => z || ng != v
  | 6 => cy | 7 => !cy
  | 8 => !cy && !z | 9 => cy || z
  | 10 => v | 11 => !v
  | 12 => ng | 13 => !ng
  | 14 => c.sb bDV
  | _ => true

/-! ## Integer results -/

/-- The sum `a + b + cin` with its carry and signed overflow (R153). -/
def addFlags (a b : Word) (cin : Bool) : Word × Bool × Bool :=
  let r := a + b + (if cin then 1 else 0)
  (r, decide (a.toNat + b.toNat + b2n cin ≥ 2 ^ 64),
   decide (a.toInt + b.toInt + b2n cin ≠ r.toInt))

/-- The difference `a - b - bin` with its borrow and signed overflow (R153). -/
def subFlags (a b : Word) (bin : Bool) : Word × Bool × Bool :=
  let r := a - b - (if bin then 1 else 0)
  (r, decide (a.toNat < b.toNat + b2n bin),
   decide (a.toInt - b.toInt - b2n bin ≠ r.toInt))

end Sys2Proof.Machine
end

