-- ==== Sys2Proof/Machine/Pending.lean ====
section
/-! DEFINITION. The interruptions that pend at a virtual engine, and the one it takes next (R137, R143). -/

namespace Sys2Proof.Machine

open Sys2Proof

/-- The interruption classes as RFI numbers them, with what the save frame takes. -/
inductive Intr where
  | restart
  | prog (e : ProgExc)
  | io (sub : Nat)
  | clock
  | timer
  | signal (sender : Nat) (param : Word)
  | message (seq : Nat)
  | accel (area : Word)
  | machine (m : McInfo)
  | deferred (m : McInfo)

def Intr.cls : Intr → Nat
  | .restart => 0
  | .prog _ => 1
  | .io _ => 2
  | .clock => 3 | .timer => 3 | .signal _ _ => 3 | .message _ => 3 | .accel _ => 3
  | .machine _ => 4 | .deferred _ => 4

/-- The element of a list that comes first in serial order of `key` modulo `2^w` (R29). -/
def serialFirst {α : Type} (w : Nat) (key : α → Nat) : List α → Option α
  | [] => none
  | x :: r =>
    match serialFirst w key r with
    | some y => if serialBefore w (key y) (key x) then some y else some x
    | none => some x

/-- The subchannels of virtual engine `k` with a final status to present, lowest END_JSN first. -/
def ioPending (s : State) (k : Nat) : Option Nat :=
  let i := veInst k
  let c := s.css.subs.filter fun e =>
    e.1 / 65536 == i && e.2.st == .pending && e.2.ve == veNum k && !(s.ve k).taken.contains (.io (e.1 % 65536))
  (serialFirst 48 (fun e => e.2.endJsn) c).map fun e => e.1 % 65536

/-- The queued messages of virtual engine `k`, lowest SEQ first. -/
def messagePending (s : State) (k : Nat) : Option Nat :=
  let c := s.hp.reqs.filter fun r =>
    r.fn == veInst k + 1 && reqOp r.entry == 1 && r.stage == .queued && reqTarget r.entry == veNum k
      && !(s.ve k).taken.contains (.message r.seq)
  (serialFirst 32 (·.seq) c).map (·.seq)

/-- The clock comparator condition (R137). -/
def clockHolds (s : State) (c : Ctx) : Bool := decide ((c.K 3).toNat ≤ s.clk.tb)

/-- The engine-timer condition (R137). -/
def timerHolds (c : Ctx) : Bool := (c.K 4).getLsbD 63

/-- The accelerator completions not yet taken, in order of completion. -/
def accelPending (x : VE) : Option Word :=
  (x.taken.foldl (fun l t => match t with | .accel a => l.erase a | _ => l) x.accel).head?

/-- The first held signal not yet taken. -/
def signalPending (x : VE) : Option (Nat × Word) :=
  x.signals.find? fun e => !x.taken.any fun t => match t with | .signal v => v == e.1 | _ => false

/-- The external interruptions enabled in K5, in order (R143). -/
def externalPending (s : State) (k : Nat) : Option Intr :=
  let x := s.ve k
  let c := x.cur
  let en (n : Nat) : Bool := (c.K 5).getLsbD n
  if !c.sb bEXM then none
  else if en 1 && clockHolds s c then some .clock
  else if en 2 && timerHolds c then some .timer
  else
    match (if en 3 then signalPending x else none) with
    | some (v, w) => some (.signal v w)
    | none =>
      match (if en 0 then messagePending s k else none) with
      | some q => some (.message q)
      | none => (if en 4 then accelPending x else none).map .accel

/-- The interruption that virtual engine `k` takes next (R143); a stopped one takes a restart only (R104). -/
def nextIntr (s : State) (k : Nat) : Option Intr :=
  let x := s.ve k
  let c := x.cur
  let restart := x.restart && !x.taken.contains .restart
  if x.stopped then (if restart then some .restart else none)
  else
    match x.mc, x.deferred, x.prog with
    | some m, _, _ => if c.sb bMCM then some (.machine m) else rest s k restart
    | none, some m, _ => if c.sb bMCM && !x.taken.contains (.deferred m) then some (.deferred m) else rest s k restart
    | none, none, _ => rest s k restart
where
  rest (s : State) (k : Nat) (restart : Bool) : Option Intr :=
    let x := s.ve k
    match x.prog with
    | some e => some (.prog e)
    | none =>
      if restart then some .restart
      else
        match (if x.cur.sb bIOM then ioPending s k else none) with
        | some n => some (.io n)
        | none => externalPending s k

end Sys2Proof.Machine
end

