-- ==== Sys2Proof/Machine/Operands.lean ====
section
/-! DEFINITION. Operand forms: addressing modes (R108, R109), translation (R118 to R122), loads and stores of an operand (R110), and
the frame every Olisy instruction runs in (R112, R149). -/

namespace Sys2Proof.Machine

open Sys2Proof

/-! ## Addressing modes -/

/-- Does a base update meet a G register that R1 names (R109)? -/
def baseMeets (b r1 : BitVec 5) (gReg isPair : Bool) : Bool := gReg && (b == r1 || (isPair && b == r1 + 1))

/-- The effective address of an F-B operand and the new base, or `none` for a breach of R109. -/
def eaFB (c : Ctx) (f : FB) (size : Nat) (gReg isPair : Bool) : Option (Word × Option Word) :=
  let base := c.G f.b
  match f.am.toNat with
  | 0 => some (base + f.d12.signExtend 64, none)
  | 1 => if f.d12 != 0 || baseMeets f.b f.r1 gReg isPair then none else some (base, some (base + BitVec.ofNat 64 size))
  | 2 => if f.d12 != 0 || baseMeets f.b f.r1 gReg isPair then none
         else some (base - BitVec.ofNat 64 size, some (base - BitVec.ofNat 64 size))
  | _ => some (c.ia + (f.b ++ f.d12).signExtend 64, none)

/-- The effective address of an F-D operand and the new base, or `none` for a breach of R107 or R109. -/
def eaFD (c : Ctx) (f : FD) (size : Nat) (gReg isPair : Bool) : Option (Word × Option Word) :=
  let base := c.G f.b
  if f.imm8 != 0 || f.z != 0 then none
  else
    match f.am.toNat with
    | 0 => if f.x != 0 || f.s != 0 then none else some (base + f.d20.signExtend 64, none)
    | 1 => if f.s.toNat > 4 then none else some (base + (c.G f.x <<< f.s.toNat) + f.d20.signExtend 64, none)
    | 2 => if f.x != 0 || f.s != 0 || f.d20 != 0 || baseMeets f.b f.r1 gReg isPair then none
           else some (base, some (base + BitVec.ofNat 64 size))
    | 3 => if f.x != 0 || f.s != 0 || f.d20 != 0 || baseMeets f.b f.r1 gReg isPair then none
           else some (base - BitVec.ofNat 64 size, some (base - BitVec.ofNat 64 size))
    | 4 => if f.x != 0 || f.s != 0 || f.b != 0 then none else some (c.ia + f.d20.signExtend 64, none)
    | _ => none

/-- The base register updated (R108). -/
def Ctx.setBase (c : Ctx) (b : BitVec 5) (u : Option Word) : Ctx :=
  match u with
  | some v => c.setG b v
  | none => c

/-! ## Translation -/

/-- What an access is for (R121). -/
inductive Access where
  | load | store | fetch
  deriving DecidableEq, Repr

/-- Where an instance-real address leads (R118): an absolute store address, the cipher-page window, or a host window. -/
inductive Phys where
  | mem (a : Nat)
  | page (off : Nat)
  | window (w off : Nat)
  deriving DecidableEq, Repr

/-- An instance-real address resolved; `none` where nothing backs it (R118, R230). -/
def resolve (s : State) (i r : Nat) : Option Phys :=
  let x := s.inst i
  if r < 0xF000000000 then (absOf s i r).map .mem
  else if r < 0x20000000000 then
    let o := r - 0xF000000000
    if o < x.keyPages.length * 4096 then some (.page o) else none
  else
    let w := (r - 0x20000000000) / 0x10000000000
    let o := (r - 0x20000000000) % 0x10000000000
    if w < 8 && o < (kvGet {} x.windows w).pages * 4096 then some (.window w o) else none

/-- A translation-table entry's layout checks at level `lv` (R120). -/
def entryOk (lv e : Nat) : Bool :=
  let leaf := bit e 1
  bit e 0 && bits e 63 44 == 0 && bits e 10 6 == 0 && !bit e 2 && (leaf || bits e 5 3 == 0)
    && (match lv with
        | 4 => !leaf && bits e 12 11 == 0
        | 3 => if leaf then bits e 29 11 == 0 else bits e 12 11 == 0
        | 2 => if leaf then bits e 19 11 == 0 else true
        | _ => leaf && bits e 11 11 == 0)

/-- A translation found: virtual base, size, frame, permissions. -/
structure Xlat where
  vbase : Nat
  size : Nat
  frame : Nat
  x : Bool
  u : Bool
  w : Bool
  deriving DecidableEq, Repr

/-- The index bits of a level (R119). -/
def levelIndex (lv va : Nat) : Nat :=
  match lv with
  | 4 => bits va 49 40
  | 3 => bits va 39 30
  | 2 => bits va 29 20
  | _ => bits va 19 12

def levelSize (lv : Nat) : Nat :=
  match lv with
  | 3 => 2 ^ 30
  | 2 => 2 ^ 20
  | _ => 2 ^ 12

/-- The table walk from level `lv` at real origin `org` (R119, R120, R230). A table entry is read as the engine's own loads are. A table
that lies in a window is backed by no granule and raises the zone exception (assumption log 106). -/
def walk (s : State) (p i : Nat) (va : Word) (org : Nat) : Nat → Except Stop (Xlat × State)
  | 0 => .error (.exc 0x302 (some va))
  | lv + 1 => do
    let level := lv + 1
    let r := org + levelIndex level va.toNat * 8
    match absOf s i r with
    | none => .error (.exc 0x303 (some va))
    | some a =>
      match loadLine (engineZone s p i r) p a 8 va with
      | .error (.mc _ _ _ l) => .error (.mc 1 3 (some va) l)
      | .error e => .error e
      | .ok (d, s) =>
        let e := beNat d
        if !entryOk level e then .error (.exc 0x302 (some va))
        else if bit e 1 then
          let sz := levelSize level
          .ok ({ vbase := va.toNat / sz * sz, size := sz, frame := bits e 43 11 * 2048, x := bit e 5, u := bit e 4, w := bit e 3 }, s)
        else walk s p i va (bits e 43 11 * 2048) lv

/-- Is a virtual address canonical: bits [63:50] all equal to bit 49 (R119)? -/
def canonical (va : Word) : Bool :=
  let h := va.toNat / 2 ^ 49
  h == 0 || h == 2 ^ 15 - 1

/-- The translation of `va` for virtual engine `k` on engine `p` with TE = 1: the walk, or a TLB entry that differs from it, which of
the two being open until TLBI (R122). -/
def xlatVa (s : State) (p k : Nat) (va : Word) : Except Stop (Xlat × State) := do
  let c := s.ctx k
  let i := veInst k
  let asid := (c.K 1).setWidth 16
  let hit := (s.eng p).tlb.find? fun t => t.inst == i && t.asid == asid && t.vbase == va.toNat / t.size * t.size
  let (n, s) := s.fresh
  match hit with
  | some t =>
    let old : Xlat := { vbase := t.vbase, size := t.size, frame := t.frame, x := t.x, u := t.u, w := t.w }
    match walk s p i va (bits (c.K 0).toNat 43 13 * 8192) 4 with
    | .ok (x, s') => if x == old || Config.pick n % 2 == 0 then .ok (x, s') else .ok (old, s)
    | .error e => if Config.pick n % 2 == 0 then .error e else .ok (old, s)
  | none =>
    let (x, s) ← walk s p i va (bits (c.K 0).toNat 43 13 * 8192) 4
    let t : TlbEntry := { inst := i, asid := asid, vbase := x.vbase, size := x.size, frame := x.frame, x := x.x, u := x.u, w := x.w }
    let (m, s) := s.fresh
    .ok (x, s.updEng p fun e =>
      { e with tlb := (if e.tlb.length < 2048 then e.tlb else e.tlb.eraseIdx (Config.pick m % e.tlb.length)) ++ [t] })

/-- One address translated and checked for an access, in the order of R112 step 5: addressing, page translation, zone,
protection. -/
def translate (s : State) (p k : Nat) (acc : Access) (va : Word) : Except Stop (Phys × State) := do
  let c := s.ctx k
  let i := veInst k
  let guard (ph : Phys) : Except Stop Phys :=
    match ph with
    | .window w _ => if acc == .store && !(kvGet {} (s.inst i).windows w).write then .error (.exc 0x304 (some va)) else .ok ph
    | _ => .ok ph
  if c.sb bTE then
    if !canonical va then .error (.exc 0x301 (some va))
    else
      let (x, s) ← xlatVa s p k va
      match resolve s i (x.frame + (va.toNat - x.vbase)) with
      | none => .error (.exc 0x303 (some va))
      | some ph =>
        let bad := (acc == .store && !x.w) || (c.sb bPS && !x.u) || (acc == .fetch && !x.x)
        if bad then .error (.exc 0x304 (some va)) else .ok (← guard ph, engineZone s p i (x.frame + (va.toNat - x.vbase)))
  else
    match (if va.toNat < 2 ^ 44 then resolve s i va.toNat else none) with
    | none => .error (.exc 0x303 (some va))
    | some ph => .ok (← guard ph, engineZone s p i va.toNat)

/-- The pieces of an operand in its pages, the lower page first (R110): virtual address, place and length. -/
def translateOp (s : State) (p k : Nat) (acc : Access) (va : Word) (n : Nat) : Except Stop (List (Word × Phys × Nat) × State) := do
  let first := 4096 - va.toNat % 4096
  let (a, s) ← translate s p k acc va
  if n ≤ first then .ok ([(va, a, n)], s)
  else
    let va2 := va + BitVec.ofNat 64 first
    let (b, s) ← translate s p k acc va2
    .ok ([(va, a, first), (va2, b, n - first)], s)

/-! ## Loads -/

/-- The registers of a key page as a program or the host reads them (R282 to R284); the staging field and the context area read
zero. -/
def slotStat (x : Slot) : Nat :=
  x.alg * 2 ^ 48 + x.keylen * 2 ^ 32 + x.state * 2 ^ 16 + b2n x.exportable * 2048 + b2n x.plain * 1024 + b2n x.unit * 512
    + (if x.alg ≥ 3 then 256 else 0) + x.running

/-- An access the cipher-page window admits: eight aligned bytes (R285). -/
def pageAccessOk (off n : Nat) : Bool := n == 8 && off % 8 == 0

/-- Bytes inside lines loaded one line at a time. -/
def loadChunks (s : State) (p : Nat) (va : Word) : Nat → Nat → Nat → Except Stop (List Byte × State)
  | 0, _, _ => .ok ([], s)
  | fuel + 1, a, n => do
    if n = 0 then .ok ([], s)
    else
      let m := min n (64 - a % 64)
      let (d, s) ← loadLine s p a m va
      let (r, s) ← loadChunks s p (va + BitVec.ofNat 64 m) fuel (a + m) (n - m)
      .ok (d ++ r, s)

/-- The value of a key-page register at offset `off` of physical page `pg` (R282 to R284). -/
def keyPageReg (s : State) (modid : Nat) (pg off : Nat) : Nat :=
  if off == 0 then (s.page pg).handle * 2 ^ 32 + modid * 1024 + pg
  else if 0x100 ≤ off && off < 0x900 then
    let x := s.slot pg ((off - 0x100) / 0x100)
    match (off - 0x100) % 0x100 with
    | 0 => slotStat x
    | 8 => x.used
    | 0x10 => x.limit
    | 0x18 => x.kcv
    | _ => 0
  else 0

/-- One piece of an operand loaded; `keys` where the instruction may reach the cipher-page window (R285). -/
def loadPiece (s : State) (p k : Nat) (va : Word) (ph : Phys) (n : Nat) (keys : Bool) : Except Stop (List Byte × State) :=
  match ph with
  | .mem a => loadChunks s p va 66 a n
  | .page off =>
    if !keys || !pageAccessOk off n then .error (.exc 0x104 none)
    else
      let pg := ((s.inst (veInst k)).keyPages[off / 4096]?).getD 0
      .ok (toBE 8 (keyPageReg s s.spire.modid pg (off % 4096)), s)
  | .window w off =>
    -- a load from a host window reads host memory; what it returns is the host's, a free value here (assumption log 7)
    let i := veInst k
    if !(s.fn (i + 1)).bme then .error (.wait (parkBme s p k))
    else
      let (f, s) := s.fresh
      let s := s.updEng p fun e => { e with winFails := 0 }
      .ok (padTo n (Config.bytes f n), s.emit (.hostRead (i + 1) ((kvGet {} (s.inst i).windows w).busBase + off) n))

/-- The pieces of an operand loaded in ascending order. -/
def loadPieces (s : State) (p k : Nat) (keys : Bool) : List (Word × Phys × Nat) → Except Stop (List Byte × State)
  | [] => .ok ([], s)
  | (va, ph, n) :: r => do
    let (d, s) ← loadPiece s p k va ph n keys
    let (e, s) ← loadPieces s p k keys r
    .ok (d ++ e, s)

/-- An operand of `n` bytes loaded (R110). -/
def loadOp (s : State) (p k : Nat) (va : Word) (n : Nat) (keys : Bool := false) : Except Stop (List Byte × State) := do
  let (ps, s) ← translateOp s p k .load va n
  loadPieces s p k keys ps

/-! ## Stores -/

/-- Bytes stored one line at a time. -/
def storeChunks (s : State) (p : Nat) (va : Word) : List (Nat × List Byte) → Except Stop State
  | [] => .ok s
  | (a, d) :: r => do
    let s ← storeLine s p a d va
    storeChunks s p (va + BitVec.ofNat 64 d.length) r

/-- The store pieces of an operand: a piece in a host window is an effect that a commit point hands over (R118, R322). `keys` where the
instruction may reach the cipher-page window (R285). -/
def storePieces (s : State) (p k : Nat) (d : List Byte) (keys : Bool) : List (Word × Phys × Nat) → Except Stop (State × List Effect)
  | [] => .ok (s, [])
  | (va, ph, n) :: r => do
    let x := d.take n
    match ph with
    | .mem a =>
      let s ← storeChunks s p va (lineChunks 66 a x)
      storePieces s p k (d.drop n) keys r
    | .page off =>
      if !keys || !pageAccessOk off n then .error (.exc 0x104 none)
      else storePieces (s.updVe k fun e => { e with keyWrites := e.keyWrites ++ [(off, x)] }) p k (d.drop n) keys r
    | .window w off =>
      let (s, es) ← storePieces s p k (d.drop n) keys r
      .ok (s, .hostStore (veInst k) w off x :: es)

/-- `s` with the requests to commit that have been raised on the way to `w`. -/
def withSteals (s w : State) : State :=
  { s with engines := kvMap (fun q x => { x with steal := x.steal || (w.eng q).steal }) s.engines }

/-- A store that waits stores nothing: an operand across two lines is written whole or not at all (R130, R132, R149). -/
def wholeStore (s : State) (r : Except Stop (State × List Effect)) : Except Stop (State × List Effect) :=
  match r with
  | .error (.wait w) => .error (.wait (withSteals s w))
  | r => r

/-- An operand stored: both pages are checked before either is written (R110). -/
def storeOp (s : State) (p k : Nat) (va : Word) (d : List Byte) (keys : Bool := false) : Except Stop (State × List Effect) := do
  let (ps, s) ← translateOp s p k .store va d.length
  wholeStore s (storePieces s p k d keys ps)

/-! ## The frame of an instruction -/

/-- The virtual engine that engine `p` is executing, if it can execute an instruction now: clocks running, the engine in service
and not waiting for a commit point, the virtual engine not stopped, waiting, at a barrier or at an interruption. An ESW just loaded and
a dispatch let an enabled interruption come before the first instruction (R143, R146). -/
def running (s : State) (p : Nat) : Option Nat :=
  let e := s.eng p
  if s.live && !e.fenced && e.phase == .run && !(match e.commit with | some b => b.wait | none => false) then
    match e.ve with
    | some k =>
      let x := s.ve k
      if x.on == some p && (s.inst (veInst k)).st == .running && !x.stopped && x.barrier.isNone && !x.waitBme && x.prog.isNone && !(x.mc.isSome && x.cur.sb bMCM) && !x.cur.sb bWT
        && !(x.check && (nextIntr s k).isSome)
      then some k else none
    | none => none
  else none

/-- A program exception pends at virtual engine `k` (R142): INTERRUPTION_TAKE presents it. -/
def raiseProg (s : State) (k code ilen fp : Nat) (tea : Option Word) : State :=
  s.updVe k fun x => { x with prog := some { code := code, ilen := ilen, ia := x.cur.ia, fpFlags := fp, tea := tea } }

/-- The instance-real address of an absolute line in the instance's granules, zero where it has none. -/
def realOfLine (s : State) (i l : Nat) : Nat :=
  let a := l * 64
  let x := s.inst i
  if a < 0x1000000000 then
    match x.main.findIdx? fun g => (a - s.poolBase) / 65536 == g.num with
    | some n => n * 65536 + (a - s.poolBase) % 65536
    | none => 0
  else
    match x.bulk.findIdx? fun g => (a - 0x1000000000) / 2097152 == g.num with
    | some n => 0x1000000000 + n * 2097152 + (a - 0x1000000000) % 2097152
    | none => 0

/-- An immediate machine check at the instruction of `k` (R335): pending while MCM is 1, else held with the virtual engine
stopped. -/
def machineCheck (s : State) (k code access ilen : Nat) (va : Option Word) (line : Nat) : State :=
  let x := s.ve k
  let i := veInst k
  let held := !x.cur.sb bMCM
  let info : McInfo := {
    code := code, nullified := true, access := access, ilen := ilen, va := va
    line := if code == 3 then 0 else realOfLine s i line
    eseq := s.bel.eseq, tb := s.clk.tb }
  let e := { s.entry 0x13 0 0x11 3 with
    inst := i, ve := veNum k, detail := if held then 3 else 0, addr := if code == 3 then 0 else line * 64 }
  logEvent (s.setVe k { x with mc := some info, mcHeld := held, stopped := held }) e

/-- The free values that a stopped instruction may have taken are not taken again (assumption log 1). -/
def State.skipFree (s : State) : State := { s with free := s.free + 64 }

/-- What a stopped instruction leaves (R112, R149). -/
def stopInstr (s : State) (k ilen : Nat) (st : Stop) : State :=
  match st with
  | .exc code tea => raiseProg s.skipFree k code ilen 0 tea
  | .mc code access va line => machineCheck s.skipFree k code access ilen va line
  | .wait s' => s'
  | .hold s' => s'
  | .after s' st => stopInstr s' k ilen st

/-- The fetch of an instruction of `n` bytes: translated and checked as a fetch, its lines neither poisoned (R335) nor uncommitted
elsewhere (R202). What stands there is the command's (assumption log 5). The cipher-page window admits no fetch (R285); a fetch from a
host window passes without a host read (assumption log 109). -/
def fetchInstr (s : State) (p k n : Nat) : Except Stop State := do
  let c := s.ctx k
  let (ps, s) ← translateOp s p k .fetch c.ia n
  ps.foldlM (fun (s : State) (x : Word × Phys × Nat) =>
    match x.2.1 with
    | .mem a =>
      let l := a / 64
      let others := otherOwners s p l
      if others != [] then .error (.wait (askCommit s others))
      else if (ownView s p l).2 then .error (.mc 2 2 (some x.1) l)
      else if (s.eng p).l1i.contains l then .ok s else .ok (addFill s p l .fetch)
    | .page _ => .error (.exc 0x104 none)
    | .window _ _ => .ok s) s

/-- An instruction's result: its new state, and a completing exception with its floating-point flags (R114). -/
structure Done where
  s : State
  trap : Option (Nat × Nat) := none
  /-- IA has already been moved past the instruction -/
  moved : Bool := false

/-- Virtual engine `k` past an instruction of `n` bytes: IA on the next one, RP 0 (R150), one more instruction completed (R320). -/
def advance (s : State) (k n : Nat) : State :=
  s.updVe k fun x => { x with cur := { x.cur with ia := x.cur.ia + BitVec.ofNat 64 n }.setSb bRP false, icount := x.icount + 1, opened := false, check := false }

/-- RP of an instruction that is not a block-repeat and waits on memory: it is nullified and saved with RP 0 (R149). -/
def clearRp (s : State) (k : Nat) : State :=
  if (s.ctx k).sb bRP then s.updVe k fun x => { x with cur := x.cur.setSb bRP false } else s

/-- What an instruction that has begun leaves when its body stops. -/
def stopBody (s : State) (k ilen : Nat) : Stop → State
  | .wait s' => clearRp s' k
  | .after s' st => stopBody s' k ilen st
  | st => stopInstr s k ilen st

/-- A wait inside an instruction that resumes where it is: RP stays as it was (R149, R150). -/
def Stop.keepRp : Stop → Stop
  | .wait s => .hold s
  | .after s st => .after s st.keepRp
  | st => st

/-- One instruction of `n` bytes on engine `p`: fetch, the privileged check (R112), the body; its end, or what stopped it. The body
gives the state with IA still on the instruction, or with IA at a branch target less `n`. -/
def instr (s : State) (p n : Nat) (priv : Bool) (body : State → Nat → Except Stop Done) : Res :=
  let s := s.quiet
  match running s p with
  | none => .next s
  | some k =>
    match fetchInstr s p k n with
    | .error e => .next (stopInstr s k n e)
    | .ok s1 =>
      if priv && (s.ctx k).sb bPS then .next (stopInstr s1 k n (.exc 0x102 none))
      else
        match body s1 k with
        | .error e => .next (stopBody s1 k n e)
        | .ok d =>
          let s2 := if d.moved then d.s else advance d.s k n
          match d.trap with
          | some (code, fp) => .next (raiseProg s2 k code n fp none)
          | none => .next s2

/-- The result of an instruction on registers alone. -/
inductive RegRes where
  | ok (c : Ctx)
  | trap (c : Ctx) (code fp : Nat)
  | exc (code : Nat)

/-- MSID of the running module (R188). -/
def State.msid (s : State) : Nat := beNat (s.img.ucodeHash.take 4)

/-- The registers an instruction starts from: a micro-save area of another microcode set does not resume (R190). -/
def State.resumeCtx (s : State) (k : Nat) : Ctx :=
  let c := s.ctx k
  if c.micro.msid == s.msid then c else { c with micro := { c.micro with valid := false } }

/-- An instruction on registers alone. -/
def regInstr (s : State) (p n : Nat) (priv : Bool) (f : Ctx → RegRes) : Res :=
  instr s p n priv fun s k =>
    let micro := (s.ctx k).micro
    match f (s.resumeCtx k) with
    | .ok c => .ok { s := s.setCtx k { c with micro := micro } }
    | .trap c code fp => .ok { s := s.setCtx k { c with micro := micro }, trap := some (code, fp) }
    | .exc code => .error (.exc code none)

/-- An instruction that loads: the operand's bytes at its address, then registers. -/
def loadInstr (s : State) (p n : Nat) (ea : Ctx → Option (Word × Option Word)) (size : Nat) (b : BitVec 5) (aligned : Nat)
    (f : Ctx → List Byte → RegRes) (keys : Bool := false) : Res :=
  instr s p n false fun s k => do
    let c := s.ctx k
    match ea c with
    | none => .error (.exc 0x104 none)
    | some (a, u) =>
      if a.toNat % aligned != 0 then .error (.exc 0x104 none)
      else
        let (d, s) ← loadOp s p k a size keys
        match f c d with
        | .ok c => .ok { s := s.setCtx k (c.setBase b u) }
        | .trap c code fp => .ok { s := s.setCtx k (c.setBase b u), trap := some (code, fp) }
        | .exc code => .error (.exc code none)

/-- An instruction of R322. `act` computes its effects with the state after it. Opening and closing commit points complete inside
the step, unless the instance is twinned: there each waits for its mirror group (R360), and the instruction goes on when it is met
again. -/
def withEffects (s0 : State) (p k n : Nat) (hostStore : Bool) (act : State → Except Stop (State × List Effect)) : Except Stop Done := do
  if (s0.eng p).commit.isSome then .error (.wait s0)
  else if hostStore && !(s0.fn (veInst k + 1)).bme then .error (.wait (parkBme s0 p k))
  else if s0.twinned (veInst k) then
    if (s0.ve k).opened then
      let (s, es) ← act s0
      .ok { s := takeCommit ((advance s k n).updVe k fun e => { e with opened := false }) p k es false true false, moved := true }
    else .error (.wait (takeCommit s0 p k [] true true false))
  else
    let s := commitNow s0 p k [] false
    match act s with
    | .error e => .error (.after s e)
    | .ok (s, es) => .ok { s := commitNow (advance s k n) p k es false, moved := true }

/-- An instruction that stores the bytes `d c` at its address. An exception on the data gives its code and the operand's size: the
checks of the address come before it (R112). -/
def storeInstr (s : State) (p n : Nat) (ea : Ctx → Option (Word × Option Word)) (b : BitVec 5) (aligned : Nat)
    (d : Ctx → Except (Nat × Nat) (List Byte × Ctx)) (keys : Bool := false) : Res :=
  instr s p n false fun s k => do
    let c := s.ctx k
    match ea c with
    | none => .error (.exc 0x104 none)
    | some (a, u) =>
      if a.toNat % aligned != 0 then .error (.exc 0x104 none)
      else
        match d c with
        | .error (code, size) =>
          match translateOp s p k .store a size with
          | .error e => .error e
          | .ok _ => .error (.exc code none)
        | .ok (bytes, c') =>
          let run (s : State) := do
            let (s, es) ← storeOp s p k a bytes keys
            .ok (s.setCtx k (c'.setBase b u), es)
          let (s', es) ← run s
          if es.isEmpty then .ok { s := s' } else withEffects s p k n true run

end Sys2Proof.Machine
end

