-- ==== Sys2Proof/Machine/HostPort.lean ====
section
/-! DEFINITION. The host port: registers and their access rules (R40 to R53), function-level resets (R63, R91), configuration
space (R36, R38), messages (R61). -/

namespace Sys2Proof.Machine

open Sys2Proof

/-! ## Reaching a function -/

/-- How a request of the host reaches a BAR: not at all, answered Unsupported Request (R38, R43), swallowed by a function-level
reset (R63), or served. -/
inductive Reach where
  | silent | unsupported | ignored | served
  deriving DecidableEq, Repr

/-- Does the configuration space of function `n` exist? -/
def State.present (s : State) (n : Nat) : Bool := n == 0 || (n ≤ 512 && s.hp.vfEnable)

def State.reach (s : State) (n : Nat) : Reach :=
  let f := s.fn n
  if s.hp.stopped || s.clk.phase == .coldReset || s.clk.phase == .frozen then .silent
  else if !s.live || !s.present n then .unsupported
  else if f.flr then .ignored
  else if f.d3hot || !(if n == 0 then f.mse else s.hp.vfMse) then .unsupported
  else .served

/-! ## Registers of BAR 0 (R44 to R51) -/

/-- The registers of BAR 0 and VF BAR 0. -/
inductive Reg where
  | id | status | err | cap (k : Nat) | vec | seq
  | rqBase (k : Nat) | rqCtl (k : Nat) | rqHead (k : Nat) | cqBase (k : Nat) | cqCtl (k : Nat) | cqTail (k : Nat)
  | rqDb (k : Nat) | cqDb (k : Nat)
  | none
  deriving DecidableEq, Repr

/-- Is ring pair `k` of function `n` allocated (R49)? -/
def State.hasRing (s : State) (n k : Nat) : Bool := if n == 0 then k == 0 else k < (s.inst (n - 1)).ringPairs

/-- The register of a ring pair at offset `o` of its block. -/
def ringReg (k o : Nat) : Reg :=
  match o with
  | 0 => .rqBase k | 8 => .rqCtl k | 0x10 => .rqHead k | 0x18 => .cqBase k | 0x20 => .cqCtl k | 0x28 => .cqTail k
  | _ => .none

/-- The register at the eight-byte offset `o` of function `n`'s BAR 0 (R44, R49). -/
def regAt (s : State) (n o : Nat) : Reg :=
  if o == 0 then .id
  else if o == 8 then .status
  else if o == 0x10 then .err
  else if n == 0 then
    if 0x20 ≤ o && o ≤ 0x38 then .cap ((o - 0x20) / 8)
    else if o == 0x40 then .vec
    else if 0x100 ≤ o && o < 0x130 then ringReg 0 (o - 0x100)
    else if o == 0x1000 then .rqDb 0
    else if o == 0x1008 then .cqDb 0
    else .none
  else if o == 0x18 then .seq
  else if o == 0x20 then .vec
  else
    let k := if 0x2000 ≤ o then (o - 0x2000) / 0x10 else (o - 0x1000) / 0x40
    if o < 0x1000 || !s.hasRing n k then .none
    else if 0x2000 ≤ o then (if o % 0x10 == 0 then .rqDb k else .cqDb k)
    else ringReg k ((o - 0x1000) % 0x40)

/-- MGR_STATUS (R47). -/
def State.mgrStatus (s : State) : Nat :=
  s.spire.inForce * 64 + b2n s.clk.trimDefault * 16 + b2n (s.twin.st == .paired) * 8 + b2n s.degraded * 4 + s.clk.power

/-- MGR_ERR.VF_ERR (R48): some VF has an INS_ERR bit set. -/
def State.vfErr (s : State) : Bool := s.hp.fns.any fun e => e.1 != 0 && e.2.err != 0

/-- INS_RQk_CTL (R50). -/
def Ring.rqCtl (r : Ring) : Nat := b2n r.rqEn * 2 ^ 31 + r.rqSize * 2 ^ 16

/-- INS_CQk_CTL (R51). -/
def Ring.cqCtl (r : Ring) : Nat :=
  b2n r.cqEn * 2 ^ 31 + b2n r.intEn * 2 ^ 30 + r.cqVec * 2 ^ 20 + r.cqSize * 2 ^ 16 + r.coalCnt * 2 ^ 8 + r.coalTime

/-- What a read of a register returns (R43 to R51). -/
def regRead (s : State) (n : Nat) (r : Reg) : Nat :=
  let f := s.fn n
  let x := s.inst (n - 1)
  match r with
  | .id => if n == 0 then s.variant.code * 256 + s.stepping else n - 1
  | .status => if n == 0 then s.mgrStatus else x.st.code
  | .err => f.err.toNat + (if n == 0 then b2n s.vfErr * 4 else 0)
  | .cap k => s.feat k
  | .vec => b2n f.vecEn * 256 + f.vec
  | .seq => x.seq
  | .rqBase k => (s.ring n k).rqBase
  | .rqCtl k => (s.ring n k).rqCtl
  | .rqHead k => (s.ring n k).rqHead
  | .cqBase k => (s.ring n k).cqBase
  | .cqCtl k => (s.ring n k).cqCtl
  | .cqTail k => (s.ring n k).cqTail
  | _ => 0

/-- Vectors of function `n` (R36). -/
def State.vectors (s : State) (n : Nat) : Nat := if n == 0 then 8 else (s.inst (n - 1)).vectors

/-- A ring base written (R52). -/
def writeBase (s : State) (n k : Nat) (cpl : Bool) (v : Nat) : State :=
  let r := s.ring n k
  if (if cpl then r.cqEn else r.rqEn) then raiseErr s n .ringBusy
  else
    let b := v / 4096 * 4096
    s.setRing n k (if cpl then { r with cqBase := b } else { r with rqBase := b })

/-- The read of an entry dropped: no entry comes from it, and its reserved slot is free again. -/
def Ring.cancelRead (r : Ring) : Ring := if r.reading.isSome then { r with reading := none, reserved := r.reserved - 1 } else r

/-- Fetching stops on every ring of function `n` (R68, R71, R87): the reads of entries in flight are dropped. -/
def stopFetch (s : State) (n : Nat) : State := s.updFn n fun f => { f with rings := kvMap (fun _ r => r.cancelRead) f.rings }

/-- Request ring control written (R50, R52). A ring disabled while the read of an entry is in progress takes no entry from it. -/
def writeRqCtl (s : State) (n k v : Nat) : State :=
  let r := s.ring n k
  let size := bits v 19 16
  let en := bit v 31
  if size < 6 || size > 12 then raiseErr s n .rsvdWrite
  else if r.rqEn && size != r.rqSize then raiseErr s n .ringBusy
  else
    let r' := if en && !r.rqEn then { r with rqHead := 0, rqTail := 0 }
              else if !en then r.cancelRead else r
    s.setRing n k { r' with rqEn := en, rqSize := size }

/-- Completion ring control written (R51, R52). A ring that becomes enabled takes the completions held for it (R91). -/
def writeCqCtl (s : State) (n k v : Nat) : State :=
  let r := s.ring n k
  let size := bits v 19 16
  let vec := bits v 23 20
  let en := bit v 31
  if size < 6 || size > 12 || s.vectors n ≤ vec then raiseErr s n .rsvdWrite
  else if r.cqEn && size != r.cqSize then raiseErr s n .ringBusy
  else
    let r' := if en && !r.cqEn then { r with cqTail := 0, cqHead := 0, phase := true, gathered := 0 } else r
    let r' := { r' with cqEn := en, cqSize := size, cqVec := vec, intEn := bit v 30, coalCnt := bits v 15 8, coalTime := bits v 7 0 }
    drainRing (s.setRing n k r') n k

/-- A request doorbell (R53). -/
def ringRqDb (s : State) (n k v : Nat) : State :=
  let r := s.ring n k
  let m := 2 ^ r.rqSize
  if !r.rqEn then raiseErr s n .dbDisabled
  else if m ≤ v then raiseErr s n .dbRange
  else if (v + m - r.rqHead) % m > (r.rqTail + m - r.rqHead) % m then s.setRing n k { r with rqTail := v }
  else s

/-- A completion doorbell (R53): the slots it releases take completions held for want of one (R54). -/
def ringCqDb (s : State) (n k v : Nat) : State :=
  let r := s.ring n k
  let m := 2 ^ r.cqSize
  if !r.cqEn then raiseErr s n .dbDisabled
  else if m ≤ v then raiseErr s n .dbRange
  else if (v + m - r.cqHead) % m > (r.cqTail + m - r.cqHead) % m then raiseErr s n .dbRange
  else drainRing (s.setRing n k { r with cqHead := v }) n k

/-- MGR_EVT_VEC or INS_ERR_VEC written (R44, R49). -/
def writeVec (s : State) (n v : Nat) : State :=
  if n == 0 then s.updFn 0 fun f => { f with vecEn := bit v 8, vec := v % 8 }
  else if s.vectors n ≤ v % 16 then raiseErr s n .rsvdWrite
  else s.updFn n fun f => { f with vecEn := bit v 8, vec := v % 16 }

/-- A write of `d` at byte `o` of a 64-bit register, merged with its value (R12, R42). -/
def regWrite (s : State) (n : Nat) (r : Reg) (o : Nat) (d : List Byte) : State :=
  let v := beNat (patch (toBE 8 (regRead s n r)) o d)
  match r with
  | .err =>
    let ones := BitVec.ofNat 7 (beNat (patch (zeros 8) o d))
    s.updFn n fun f => { f with err := f.err &&& ~~~ones }
  | .vec => writeVec s n v
  | .rqBase k => writeBase s n k false v
  | .cqBase k => writeBase s n k true v
  | .rqCtl k => writeRqCtl s n k v
  | .cqCtl k => writeCqCtl s n k v
  | _ => s

/-- May an access of `l` bytes at `off` reach a register BAR: 1, 2, 4 or 8 bytes, naturally aligned (R42)? -/
def regAccessOk (off l : Nat) : Bool := (l == 1 || l == 2 || l == 4 || l == 8) && off % l == 0

/-- May it reach an MSI-X table or PBA: 4 or 8 bytes, naturally aligned (R42)? -/
def msixAccessOk (off l : Nat) : Bool := (l == 4 || l == 8) && off % l == 0

/-- A write into BAR 0 or VF BAR 0 (R42). -/
def bar0Write (s : State) (n off : Nat) (d : List Byte) : State :=
  let l := d.length
  let o := off % 8
  if !regAccessOk off l then raiseErr s n .access
  else
    match regAt s n (off - o) with
    | .rqDb k => if o ≥ 4 then s else if l < 4 then raiseErr s n .access else ringRqDb s n k (fieldBE d 0 4)
    | .cqDb k => if o ≥ 4 then s else if l < 4 then raiseErr s n .access else ringCqDb s n k (fieldBE d 0 4)
    | r => regWrite s n r o d

/-- A write into VF BAR 2: only a slot's staging field takes it (R282, R285). -/
def bar2Write (s : State) (n off : Nat) (d : List Byte) : State :=
  if !regAccessOk off d.length then raiseErr s n .access
  else
    match (s.inst (n - 1)).keyPages[off / 4096]? with
    | some pg => writeKeyPage s pg (off % 4096) d
    | none => s

/-! ## MSI-X (R39, R61) -/

/-- A message that waits in the PBA is sent once its vector can send. -/
def sendPending (s : State) (n v : Nat) : State :=
  let f := s.fn n
  let e := kvGet {} f.vecs v
  if e.pba && f.msixEn && !f.fmask && !e.masked && f.bme then
    (s.setFn n { f with vecs := kvSet f.vecs v { e with pba := false } }).emit (.msix n v e.addr e.data)
  else s

def sendAllPending (s : State) (n : Nat) : State := (List.range 16).foldl (fun s v => sendPending s n v) s

/-- Vectors in the table of function `n`: 8 of PF 0, 16 of a VF (R36). -/
def tableSize (n : Nat) : Nat := if n == 0 then 8 else 16

/-- One little-endian dword of the MSI-X table written. -/
def msixDword (s : State) (n off : Nat) (v : Nat) : State :=
  let k := off / 16
  if off ≥ 0x1000 || k ≥ tableSize n then s
  else
    let f := s.fn n
    let e := kvGet {} f.vecs k
    let w := BitVec.ofNat 32 v
    let e := match off % 16 / 4 with
      | 0 => { e with addr := (e.addr &&& 0xFFFFFFFF00000000#64) ||| (w &&& 0xFFFFFFFC#32).setWidth 64 }
      | 1 => { e with addr := (e.addr &&& 0xFFFFFFFF#64) ||| (w.setWidth 64 <<< 32) }
      | 2 => { e with data := w }
      | _ => { e with masked := v.testBit 0 }
    sendPending (s.setFn n { f with vecs := kvSet f.vecs k e }) n k

/-- A write into BAR 4 or VF BAR 4, in PCI Express byte order; the PBA takes no write (R41, R42). -/
def bar4Write (s : State) (n off : Nat) (d : List Byte) : State :=
  let l := d.length
  if !msixAccessOk off l then raiseErr s n .access
  else
    let s := msixDword s n off (leNat (d.take 4))
    if l == 8 then msixDword s n (off + 4) (leNat (d.drop 4)) else s

/-- A memory request that the function does not support: reported through AER, a read answered so (R38, R43, R62). -/
def unsupportedRequest (s : State) (n : Nat) : State :=
  (s.updFn n fun f => { f with aer := { f.aer with unsupported := true } }).emit (.unsupported n)

/-- A write of the host at offset `off` of a BAR of function `n`. -/
def hostRegWrite (s : State) (n bar off : Nat) (d : List Byte) : State :=
  let s := s.quiet
  match s.reach n with
  | .silent => s
  | .ignored => s
  | .unsupported => unsupportedRequest s n
  | .served =>
    match bar with
    | 0 => if off < 65536 then bar0Write s n off d else s
    | 2 => if n != 0 && off < 65536 then bar2Write s n off d else s
    | 4 => if off < 8192 then bar4Write s n off d else s
    | _ => s

/-! ## Reads of the BARs (R42, R43) -/

/-- The `l` bytes at offset `off` of a BAR of 64-bit big-endian registers (R41). -/
def regBytes (v off l : Nat) : List Byte := slice (toBE 8 v) (off % 8) l

/-- The 64-bit register at offset `o`, a multiple of 8, of VF BAR 2: the shadow of a key page's (R43, R282). -/
def bar2Reg (s : State) (n o : Nat) : Nat :=
  match (s.inst (n - 1)).keyPages[o / 4096]? with
  | some pg => keyPageReg s s.spire.modid pg (o % 4096)
  | none => 0

/-- The PBA of function `n` as one number (R36). -/
def State.pba (s : State) (n : Nat) : Nat :=
  (List.range (tableSize n)).foldl (fun a v => a + b2n (kvGet {} (s.fn n).vecs v).pba * 2 ^ v) 0

/-- The dword at offset `off`, a multiple of 4, of BAR 4 or VF BAR 4: MSI-X table, then PBA (R40). -/
def bar4Dword (s : State) (n off : Nat) : Nat :=
  if off ≥ 0x1000 then (if off == 0x1000 then s.pba n else 0)
  else if off / 16 ≥ tableSize n then 0
  else
    let e := kvGet {} (s.fn n).vecs (off / 16)
    match off % 16 / 4 with
    | 0 => e.addr.toNat % 2 ^ 32
    | 1 => e.addr.toNat / 2 ^ 32
    | 2 => e.data.toNat
    | _ => b2n e.masked

/-- What a read of `l` bytes at `off` of a BAR returns; none when it is completed with Completer Abort (R42). -/
def barRead (s : State) (n bar off l : Nat) : Option (List Byte) :=
  match bar with
  | 4 => if !msixAccessOk off l then none else some ((toLE 4 (bar4Dword s n off) ++ toLE 4 (bar4Dword s n (off + 4))).take l)
  | 2 => if !regAccessOk off l then none else some (regBytes (bar2Reg s n (off / 8 * 8)) off l)
  | _ => if !regAccessOk off l then none else some (regBytes (regRead s n (regAt s n (off / 8 * 8))) off l)

/-- Does function `n` implement the BAR, and does `off` lie in it (R40)? -/
def inBar (n bar off : Nat) : Bool :=
  match bar with
  | 0 => decide (off < 65536)
  | 2 => n != 0 && decide (off < 65536)
  | 4 => decide (off < 8192)
  | _ => false

/-- A read of the host, answered from the shadow registers (R43). During a function-level reset it returns zero (R63). -/
def hostRegRead (s : State) (n bar off l : Nat) : State :=
  let s := s.quiet
  match s.reach n with
  | .silent => s
  | .ignored => s.emit (.mmioData n (zeros l))
  | .unsupported => unsupportedRequest s n
  | .served =>
    if !inBar n bar off then s
    else
      match barRead s n bar off l with
      | some d => s.emit (.mmioData n d)
      | none => (raiseErr (s.updFn n fun f => { f with aer := { f.aer with abort := true } }) n .access).emit (.completerAbort n)

/-- Offset of ring pair `k`'s register block, and of its doorbells. -/
def ringOff (n k : Nat) : Nat := if n == 0 then 0x100 else 0x1000 + k * 0x40
def doorbellOff (n k : Nat) : Nat := if n == 0 then 0x1000 else 0x2000 + k * 0x10

/-- Does the block of ring pair `k` stand in the register map? -/
def ringMapped (n k : Nat) : Bool := if n == 0 then k == 0 else k < 8

def execReqRingDoorbell (fn k off : Nat) (data : List Byte) (s : State) : Res :=
  .next (if ringMapped fn k then hostRegWrite s fn 0 (doorbellOff fn k + off) data else s.quiet)

def execCplRingDoorbell (fn k off : Nat) (data : List Byte) (s : State) : Res :=
  .next (if ringMapped fn k then hostRegWrite s fn 0 (doorbellOff fn k + 8 + off) data else s.quiet)

def execRingBaseWrite (fn k : Nat) (cpl : Bool) (off : Nat) (data : List Byte) (s : State) : Res :=
  .next (if ringMapped fn k then hostRegWrite s fn 0 (ringOff fn k + (if cpl then 0x18 else 0) + off) data else s.quiet)

def execReqRingCtlWrite (fn k off : Nat) (data : List Byte) (s : State) : Res :=
  .next (if ringMapped fn k then hostRegWrite s fn 0 (ringOff fn k + 8 + off) data else s.quiet)

def execCplRingCtlWrite (fn k off : Nat) (data : List Byte) (s : State) : Res :=
  .next (if ringMapped fn k then hostRegWrite s fn 0 (ringOff fn k + 0x20 + off) data else s.quiet)

def execKeyStagingWrite (fn off : Nat) (data : List Byte) (s : State) : Res := .next (hostRegWrite s fn 2 off data)

def execMsixVectorUnmask (fn vec : Nat) (s : State) : Res := .next (hostRegWrite s fn 4 (vec * 16 + 12) (zeros 4))

/-- An access to a register: a write, or the read that the same row of the table answers (assumption log 97). -/
def execRegisterWrite (fn bar off : Nat) (acc : RegAccess) (s : State) : Res :=
  .next (match acc with
    | .write d => hostRegWrite s fn bar off d
    | .read l => hostRegRead s fn bar off l)

/-- COAL_TIME has run out for the completions gathered on ring `k` (R61). -/
def execCoalTimerExpire (fn k : Nat) (s : State) : Res :=
  let s := s.quiet
  let r := s.ring fn k
  if s.live && r.cqEn && r.intEn && r.coalTime != 0 && r.gathered != 0 then
    .next (sendMsix (s.setRing fn k { r with gathered := 0 }) fn r.cqVec)
  else .next s

/-! ## Function-level and host-port resets (R63, R91, R427) -/

/-- A ring after a reset of its function: its registers at reset, the slots reserved and the completions held for requests in
hand kept. -/
def Ring.afterReset (r : Ring) : Ring :=
  { reserved := r.cancelRead.reserved, held := r.held }

/-- Function `n` reset: BAR 0 and BAR 4 registers at reset values, and of configuration space all but the BARs and the AER bits
(assumption log 98). -/
def resetFn (s : State) (n : Nat) (busy : Bool) : State :=
  s.updFn n fun f => { rings := kvMap (fun _ r => r.afterReset) f.rings, aer := f.aer, bars := f.bars, flr := busy }

/-- A function-level reset starts. -/
def startFlr (s : State) (n : Nat) : State :=
  if s.live && !s.hp.stopped && s.present n then resetFn s n true else s

def execVfFlr (fn : Nat) (s : State) : Res :=
  .next (if fn == 0 then s.quiet else startFlr s.quiet fn)

def execPfFlr (s : State) : Res := .next (startFlr s.quiet 0)

def execFlrComplete (fn : Nat) (s : State) : Res :=
  .next (s.quiet.updFn fn fun f => { f with flr := false })

/-- Every VF reset, its reset complete. -/
def resetVfs (s : State) : State :=
  { s with hp := { s.hp with fns := kvMap (fun n f =>
      if n == 0 then f else { rings := kvMap (fun _ r => r.afterReset) f.rings, aer := f.aer }) s.hp.fns } }

/-- VF Enable cleared (R91). -/
def clearVfEnable (s : State) : State :=
  let s := resetVfs s
  { s with hp := { s.hp with vfEnable := false } }

def execVfEnableClear (s : State) : Res :=
  let s := s.quiet
  .next (if s.live && !s.hp.stopped && s.hp.vfEnable then clearVfEnable s else s)

/-- A host-port reset (R427): configuration space returns to reset too. -/
def execHostPortReset (s : State) : Res :=
  let s := s.quiet
  if s.hp.stopped || s.clk.phase == .coldReset || s.clk.phase == .frozen then .next s
  else
    let s := clearVfEnable (resetFn s 0 false)
    .next { s with hp := { s.hp with doe := {}, vfMse := false, fns := kvMap (fun _ f => { f with bars := [], aer := {} }) s.hp.fns } }

/-! ## Bus Master Enable (R91) -/

/-- Bus Master Enable becomes 1: held completions and messages go, virtual engines parked at a host window may run again. -/
def setBme (s : State) (n : Nat) : State :=
  let s := s.updFn n fun f => { f with bme := true }
  let s := drainFn s n
  let s := sendAllPending s n
  if n == 0 then s
  else { s with ves := kvMap (fun k v => if veInst k == n - 1 then { v with waitBme := false } else v) s.ves }

def execBusMasterEnableSet (fn : Nat) (s : State) : Res :=
  let s := s.quiet
  .next (if s.live && !s.hp.stopped && s.present fn && !(s.fn fn).flr then setBme s fn else s)

/-! ## Power states of PF 0 (R421, R422) -/

def execPf0D3hotEnter (s : State) : Res :=
  let s := s.quiet
  .next (if s.live && !s.hp.stopped then s.updFn 0 fun f => { f with d3hot := true } else s)

/-- PF 0 back in D0: Sleep or Deep-sleep ends (R421). -/
def execPf0D0Return (s : State) : Res :=
  let s := s.quiet
  if s.live && !s.hp.stopped && (s.fn 0).d3hot then
    let s := s.updFn 0 fun f => { f with d3hot := false }
    .next (setPower s 0)
  else .next s

/-! ## Configuration space (R36, R38) -/

/-- The DOE mailbox aborted: Error cleared, the object in progress dropped (R64). -/
def doeAbort (s : State) : State := { s with hp := { s.hp with doe := {} } }

def execDoeAbort (s : State) : Res :=
  let s := s.quiet
  .next (if s.live && !s.hp.stopped then doeAbort s else s)

/-- The AER status registers of a function (R62). -/
def Aer.uncorrectable (a : Aer) : BitVec 32 :=
  BitVec.ofNat 32 (b2n a.poisoned * 2 ^ 12 + b2n a.timeout * 2 ^ 14 + b2n a.abort * 2 ^ 15 + b2n a.overflow * 2 ^ 17
    + b2n a.malformed * 2 ^ 18 + b2n a.unsupported * 2 ^ 20)

def Aer.correctable (a : Aer) : BitVec 32 := BitVec.ofNat 32 (b2n a.receiver + b2n a.replay * 2 ^ 12)

/-- Bits written as 1 cleared. -/
def Aer.clearUncorrectable (a : Aer) (v : BitVec 32) : Aer :=
  { a with
    poisoned := a.poisoned && !v.getLsbD 12
    timeout := a.timeout && !v.getLsbD 14
    abort := a.abort && !v.getLsbD 15
    overflow := a.overflow && !v.getLsbD 17
    malformed := a.malformed && !v.getLsbD 18
    unsupported := a.unsupported && !v.getLsbD 20 }

def Aer.clearCorrectable (a : Aer) (v : BitVec 32) : Aer :=
  { a with receiver := a.receiver && !v.getLsbD 0, replay := a.replay && !v.getLsbD 12 }

/-- The address bits of dword `k` of the six BAR dwords that software can set: every BAR is 64-bit, so an odd dword is a high half; the
even ones leave the BAR's size out (R40). `vf`: the VF BARs, which include BAR 2. -/
def barMask (vf : Bool) (k : Nat) : BitVec 32 :=
  match k with
  | 0 => 0xFFFF0000
  | 2 => if vf then 0xFFFF0000 else 0
  | 4 => 0xFFFFE000
  | 1 | 5 => 0xFFFFFFFF
  | 3 => if vf then 0xFFFFFFFF else 0
  | _ => 0

/-- A BAR dword as it reads: the low dword of a BAR carries the type of a 64-bit, non-prefetchable memory BAR (R40). -/
def barDword (vf : Bool) (k : Nat) (v : BitVec 32) : BitVec 32 :=
  let m := barMask vf k
  (v &&& m) ||| (if k % 2 == 0 && m != 0 then 4 else 0)

/-- The bits of Device Control that PF 0 holds: error reporting, payload and read-request sizes, Extended Tag; Relaxed Ordering and No
Snoop stay 0 (R37). -/
def devCtlMask : BitVec 16 := 0x71EF

/-- The value of a configuration register. The places of its bits are the base specification's (assumption log 14). -/
def cfgRead (s : State) (n : Nat) (r : CfgReg) : BitVec 32 :=
  let f := s.fn n
  match r with
  | .id => if n == 0 then Config.deviceId ++ Config.vendorId else 0xFFFFFFFF
  | .command => BitVec.ofNat 32 (b2n (n == 0 && f.mse) * 2 + b2n f.bme * 4)
  | .bar k => if n == 0 then barDword false k (kvGet 0 f.bars k) else 0
  | .vfBar k => if n == 0 then barDword true k (kvGet 0 f.bars (k + 16)) else 0
  | .sriovControl => BitVec.ofNat 32 (b2n (n == 0 && s.hp.vfEnable) + b2n (n == 0 && s.hp.vfMse) * 8)
  | .msixControl => BitVec.ofNat 32 (b2n f.msixEn * 2 ^ 31 + b2n f.fmask * 2 ^ 30 + (tableSize n - 1) * 2 ^ 16)
  | .powerControl => if f.d3hot then 0xB else 0x8
  | .doeControl => BitVec.ofNat 32 (b2n (n == 0 && s.hp.doe.busy) + b2n (n == 0 && s.hp.doe.error) * 4)
  | .deviceCap => 0x10008022
  | .deviceControl => if n == 0 then f.devCtl.setWidth 32 else 0
  | .deviceCap2 => 0x0003000F
  | .deviceCap3 => 0x6
  | .powerCap => 0x00030000
  | .sriovVfs => if n == 0 then 0x02000200 else 0
  | .sriovLayout => if n == 0 then 0x00010001 else 0
  | .sriovPageSizes => if n == 0 then 1 else 0
  | .ari => 0
  | .aerUncorrectable => f.aer.uncorrectable
  | .aerCorrectable => f.aer.correctable
  | .other d => kvGet 0 f.cfg d

/-- A write of a configuration register. -/
def cfgWrite (s : State) (n : Nat) (r : CfgReg) (v : BitVec 32) : State :=
  match r with
  | .command =>
    let s := if n == 0 then s.updFn 0 fun f => { f with mse := v.getLsbD 1 } else s
    if v.getLsbD 2 then (if (s.fn n).bme then s else setBme s n) else s.updFn n fun f => { f with bme := false }
  | .bar k => if n == 0 && k < 6 then s.updFn 0 fun f => { f with bars := kvSet f.bars k (v &&& barMask false k) } else s
  | .vfBar k => if n == 0 && k < 6 then s.updFn 0 fun f => { f with bars := kvSet f.bars (k + 16) (v &&& barMask true k) } else s
  | .sriovControl =>
    if n != 0 then s
    else
      let s := { s with hp := { s.hp with vfMse := v.getLsbD 3 } }
      if v.getLsbD 0 then { s with hp := { s.hp with vfEnable := true } }
      else if s.hp.vfEnable then clearVfEnable s else s
  | .msixControl =>
    sendAllPending (s.updFn n fun f => { f with msixEn := v.getLsbD 31, fmask := v.getLsbD 30 }) n
  | .deviceControl =>
    let s := if n == 0 then s.updFn 0 fun f => { f with devCtl := v.setWidth 16 &&& devCtlMask } else s
    if v.getLsbD 15 then startFlr s n else s
  | .aerUncorrectable => s.updFn n fun f => { f with aer := f.aer.clearUncorrectable v }
  | .aerCorrectable => s.updFn n fun f => { f with aer := f.aer.clearCorrectable v }
  | .id | .deviceCap | .deviceCap2 | .deviceCap3 | .powerCap | .sriovVfs | .sriovLayout | .sriovPageSizes | .ari => s
  | .powerControl =>
    match (v.toNat % 4) with
    | 3 => s.updFn n fun f => { f with d3hot := true }
    | 0 =>
      let back := (s.fn n).d3hot
      let s := s.updFn n fun f => { f with d3hot := false }
      if n == 0 && back then setPower s 0 else s
    | _ => s
  | .doeControl => if n == 0 && v.getLsbD 0 then doeAbort s else s
  | .other d => s.updFn n fun f => { f with cfg := kvSet f.cfg d v }

def execPcieConfigRequest (fn : Nat) (reg : CfgReg) (write : Bool) (data : BitVec 32) (s : State) : Res :=
  let s := s.quiet
  match s.reach fn with
  | .silent => .next s
  | _ =>
    if !s.live then .next (s.emit (.cfgRetry fn))
    else if !s.present fn then .next (s.emit (.unsupported fn))
    else if write then .next (cfgWrite s fn reg data)
    else .next (s.emit (.cfgData fn (cfgRead s fn reg)))

end Sys2Proof.Machine
end

