-- ==== Sys2Proof/Machine/Entry.lean ====
section
/-! DEFINITION. Request entries: their fetch (R54, R68), checks 1 to 3 of R56 opcode by opcode, their SEQ (R57), failed reads (R62),
and the turn of a request or a manager command (R59, R74). -/

namespace Sys2Proof.Machine

open Sys2Proof

/-! ## Fields of an entry -/

/-- Which bytes an opcode uses, whether it allows CHK, and the bytes whose value it does not allow. Bytes 0, 1 and 4 to 7 belong
to every opcode. -/
structure Form where
  used : List (Nat × Nat) := []
  chk : Bool := false
  bad : List (Nat × Bool) := []

/-- The lowest byte at which an entry breaks its form (R56 check 3). -/
def formFault (e : List Byte) (f : Form) : Option Nat :=
  let flags := reqFlags e % 8 != 0 || (reqChk e && !f.chk)
  let isUsed (i : Nat) : Bool := i < 2 || (4 ≤ i && i < 8) || f.used.any (fun r => r.1 ≤ i && i ≤ r.2)
    || (32 ≤ i && i < 36 && reqChk e && f.chk)
  (List.range 64).find? fun i =>
    (!isUsed i && e.getD i 0 != 0) || (i == 1 && flags) || f.bad.any (fun b => b.1 == i && b.2)

/-- A list of bytes with the verdict on each. -/
abbrev bads (l : List (Nat × Bool)) : List (Nat × Bool) := l

/-- SRC with SRC_LEN, DST with DST_LEN. -/
def useSrc : List (Nat × Nat) := [(8, 15), (24, 27)]
def useDst : List (Nat × Nat) := [(16, 23), (28, 31)]

def par (e : List Byte) (i : Nat) : Nat := fieldBE e i 1

def maxLen : Nat := 1048576

/-- Forms of the messaging, cipher, key and compression requests (R140, R288, R289, R296, R304). -/
def requestForm (e : List Byte) : Option Form :=
  let op := reqOp e
  let src := reqSrcLen e
  let dst := reqDstLen e
  let tag := par e 36
  let key : List (Nat × Nat) := [(3, 3)]
  let slotBad : List (Nat × Bool) := [(2, par e 2 != 0), (3, bit (par e 3) 3)]
  match op with
  | 0x01 => some { used := [(2, 3), (8, 31), (36, 63)], bad := [(2, reqTarget e ≥ 64)] }
  | 0x02 => some { used := useSrc ++ [(40, 47)], chk := true, bad := [(24, src == 0 || src > maxLen)] }
  | 0x03 => some { used := useDst ++ [(40, 47)], bad := [(28, dst == 0 || dst > maxLen)] }
  | 0x04 => some { used := [(2, 3)], bad := [(2, reqTarget e ≥ 64)] }
  | 0x10 => some { used := key ++ useSrc ++ useDst ++ [(36, 36), (40, 51)], chk := true,
                   bad := slotBad ++ bads [(24, src > maxLen), (48, fieldBE e 48 4 > 65536)] }
  | 0x11 => some { used := key ++ useSrc ++ useDst ++ [(36, 36), (40, 63)], chk := true,
                   bad := slotBad ++ bads [(24, src > maxLen || src < tag), (48, fieldBE e 48 4 > 65536)] }
  | 0x12 => some { used := key ++ useSrc ++ useDst ++ [(36, 36)], chk := true, bad := slotBad ++ bads [(24, src > maxLen)] }
  | 0x13 => some { used := key ++ useSrc ++ [(36, 36), (52, 63)], chk := true, bad := slotBad ++ bads [(24, src > maxLen || src < tag)] }
  | 0x14 => some { used := key ++ useSrc ++ useDst ++ [(40, 55)], chk := true, bad := slotBad ++ bads [(24, src > maxLen || src < 16)] }
  | 0x15 => some { used := key ++ useSrc ++ useDst ++ [(40, 55)], chk := true, bad := slotBad ++ bads [(24, src > maxLen || src < 16)] }
  | 0x16 => some { used := key ++ useSrc ++ useDst ++ [(36, 36)], chk := true, bad := slotBad ++ bads [(24, src > maxLen)] }
  | 0x17 => some { used := key ++ useSrc ++ [(36, 36)], chk := true, bad := slotBad ++ bads [(24, src > maxLen || src < tag)] }
  | 0x18 => some { used := key ++ useSrc ++ useDst ++ [(36, 36)], chk := true, bad := slotBad ++ bads [(24, src > maxLen)] }
  | 0x19 => some { used := key ++ useSrc ++ [(36, 36)], chk := true, bad := slotBad ++ bads [(24, src > maxLen || src < tag)] }
  | 0x1A => some { used := useSrc ++ useDst ++ [(36, 36)], chk := true, bad := [(24, src > maxLen), (36, tag == 0 || tag > 3)] }
  | 0x20 => some { used := [(2, 3)] ++ useSrc ++ useDst ++ [(36, 63)], chk := true,
                   bad := [(2, reqTarget e != 0), (24, src > maxLen), (28, dst > 16777216), (36, tag > 2),
                           (37, par e 37 == 0 || (par e 37 > 9 && par e 37 != 0x10))] }
  | 0x21 => some { used := [(2, 3)] ++ useSrc ++ useDst ++ [(36, 63)], chk := true,
                   bad := [(2, reqTarget e != 0), (24, src == 0 || src > maxLen), (28, dst > 16777216), (36, tag > 2), (37, par e 37 != 0)] }
  | 0x30 =>
    let alg := par e 36
    let fl := par e 37
    let plain := bit fl 0
    let len := fieldBE e 48 2
    let lim := fieldBE e 40 8
    let lenOk := match alg with
      | 1 => len == 16 | 2 => len == 32 | 3 => len == 32 | 4 => len == 64 | 5 => len == 16 | 6 => len == 32
      | _ => 16 ≤ len && len ≤ 128 && len % 8 == 0
    some { used := key ++ (if plain then [] else useSrc) ++ [(36, 37), (40, 49)],
           bad := slotBad ++ bads [(24, !plain && src != len + 8), (36, alg == 0 || alg > 8), (37, fl > 7 || (alg ≤ 2 && bit fl 2)),
                              (40, if alg ≤ 2 then lim != 0 else lim > 2 ^ 36), (48, !lenOk)] }
  | 0x31 => some { used := key ++ useDst, bad := slotBad }
  | 0x32 => some { used := key, bad := slotBad }
  | 0x33 => some { used := key ++ [(40, 47)], bad := slotBad }
  | _ => none

/-- May an ENTITLEMENT of `g` stand with `n` virtual engines (R76)? -/
def entitlementOk (g n : Nat) : Bool := if n == 0 then g == 0 else 1 ≤ g && g ≤ 64 * n

/-- SOURCE and UNIT of the units that have a runtime test, and whether the unit is fused in (R442, R447): engines, domes,
channel engines, cipher and compression engines. -/
def testableUnits (v : Variant) (source : Nat) : Option (Nat → Bool) :=
  match source with
  | 1 => some fun u => if u < 128 then u / 16 < v.towers else u / 256 == 1 && u % 256 < v.towers
  | 2 => some fun u => u < v.towers
  | 7 => some fun u => u < 32
  | 9 => some fun u => u < v.xces
  | 10 => some fun u => u < v.czes
  | _ => none

/-- Forms of the manager commands (R72, R73, R343, R354, R391, R447). -/
def commandForm (v : Variant) (e : List Byte) : Option Form :=
  let src := reqSrcLen e
  let dst := reqDstLen e
  let b := par e 36
  let inst : List (Nat × Nat) := [(2, 3)]
  let instBad : List (Nat × Bool) := [(2, reqTarget e ≥ 512)]
  match reqOp e with
  | 0x40 => some { used := inst ++ [(36, 36), (40, 47)], bad := instBad ++ bads [(36, b == 0 || b > 16)] }
  | 0x41 => some { used := inst, bad := instBad }
  | 0x42 => some { used := inst, bad := instBad }
  | 0x43 => some { used := inst, bad := instBad }
  | 0x44 => some { used := inst, bad := instBad }
  | 0x45 => some { used := inst, bad := instBad }
  | 0x46 => some { used := inst, bad := instBad }
  | 0x50 => some { used := inst ++ [(36, 38), (40, 41)],
                   bad := instBad ++ bads [(36, b > 7), (37, par e 37 > 63), (38, par e 38 > 64 || par e 37 + par e 38 > 64),
                                      (40, !entitlementOk (fieldBE e 40 2) (par e 38))] }
  | 0x51 => some { used := inst ++ [(36, 37), (40, 43)] ++ (if admission b || b == 1 then [(44, 47)] else []),
                   bad := instBad ++ bads [(36, b == 0 || b > 11), (37, if perTower b then par e 37 > 7 else par e 37 != 0)] }
  | 0x52 => some { used := inst ++ [(36, 37), (40, 51)],
                   bad := instBad ++ bads [(36, b > 7), (37, par e 37 > 1), (46, par e 46 % 16 != 0), (47, par e 47 != 0),
                                      (48, fieldBE e 48 4 > 2 ^ 28)] }
  | 0x53 => some { used := [(36, 37)], bad := [(36, b == 0 || b > 11), (37, if perTower b then par e 37 > 7 else par e 37 != 0)] }
  | 0x60 => some { used := inst ++ useDst ++ [(36, 37), (40, 47)], bad := instBad ++ bads [(28, dst < maxLen), (36, b > 1), (37, par e 37 > 3)] }
  | 0x61 => some { used := inst ++ useSrc ++ [(37, 37), (40, 47)], bad := instBad ++ bads [(37, par e 37 > 3)] }
  | 0x62 => some { used := inst, bad := instBad }
  | 0x63 => some { used := inst ++ useDst, bad := instBad }
  | 0x64 => some { used := inst, bad := instBad }
  | 0x68 => some { used := useDst ++ [(40, 47)], bad := [(28, dst < 64)] }
  | 0x69 => some { used := [(36, 36)], bad := [(36, b > 6)] }
  | 0x70 => some { used := [(36, 36)] ++ (if b == 1 then inst else []), bad := [(2, b == 1 && reqTarget e ≥ 512), (36, b > 1)] }
  | 0x71 => some {}
  | 0x72 => some { used := inst, bad := instBad }
  | 0x73 => some { used := inst, bad := instBad }
  | 0x74 => some { used := [(45, 47)], bad := [(45, par e 45 > 0x3F)] }
  | 0x75 => some { used := [(36, 39)],
                   bad := [(36, (testableUnits v b).isNone), (37, if b == 2 then par e 37 > 14 else par e 37 != 0)] }
  | 0x76 => some { used := useDst, bad := [(28, dst < 64)] }
  | 0x77 => some { used := [(36, 36)], bad := [(36, b > 3)] }
  | 0x78 => some { used := [(36, 36)] ++ (if dst == 0 then [] else useDst), bad := [(28, dst != 0 && dst < 256), (36, b > 3)] }
  | 0x79 => some { used := useSrc ++ [(36, 36)], bad := [(24, src == 0 || src > maxLen), (36, b > 1)] }
  | 0x7A => some { used := useSrc, bad := [(24, src == 0 || src > maxLen)] }
  | 0x7B => some { used := [(36, 37)], bad := [(36, b > 1), (37, par e 37 > 1)] }
  | 0x7C => some { used := useDst, bad := [(28, dst < 4096)] }
  | 0x7D => some { used := useSrc, bad := [(24, src != 4096)] }
  | 0x7E => some { used := [(36, 36)], bad := [(36, b > 15)] }
  | 0x7F => some { used := (if dst == 0 then [] else useDst) ++ [(36, 36)],
                   bad := [(28, dst < 64 && !(dst == 0 && b == 1)), (36, b > 1)] }
  | _ => none

/-- Does an entry need an absent unit (R5, R56 check 2, R77, R354, R447)? A SELFTEST_RUN whose UNIT names no unit on any variant does too
(assumption log 100), and so does a RECAL of the bulk-store group where there is no bulk store (assumption log 101). -/
def needsAbsent (s : State) (n : Nat) (e : List Byte) : Bool :=
  let op := reqOp e
  let b := par e 36
  let noTower := par e 37 ≥ s.variant.towers
  let asks := fieldBE e 40 8 != 0
  if n != 0 then (op == 0x20 || op == 0x21) && s.variant.czes == 0
  else if op == 0x50 then b < 8 && b ≥ s.variant.towers && (par e 38 != 0 || fieldBE e 40 2 != 0)
  else if op == 0x51 then
    asks && ((b == 3 && !s.variant.bulk) || (b == 10 && s.variant.czes == 0) || (b == 11 && !s.variant.jlk)
             || (perTower b && par e 37 < 8 && noTower))
  else if 0x70 ≤ op && op ≤ 0x74 then !s.variant.jlk
  else if op == 0x75 then
    match testableUnits s.variant b with
    | some f => !f (fieldBE e 38 2)
    | none => false
  else if op == 0x7E then b < 16 && bit b 1 && !s.variant.bulk
  else false

/-- Virtual engines of instance `i` placed on tower `t`. -/
def placedOn (s : State) (i t : Nat) : Nat :=
  (s.ves.filter fun e => veInst e.1 == i && e.2.placed && e.2.tower == t).length

/-- The lowest byte of a SET_ENGINES or RESIZE entry whose value the present placement of the instance does not allow (R76, R79). -/
def stateFields (s : State) (e : List Byte) : Option Nat :=
  let i := reqTarget e
  match reqOp e with
  | 0x50 =>
    if par e 37 + par e 38 ≤ 64 && (List.range (par e 38)).any (fun j => let v := s.ve (veKey i (par e 37 + j)); v.placed && v.tower != par e 36) then some 37 else none
  | 0x51 =>
    let n := placedOn s i (par e 37)
    if par e 36 == 1 && !entitlementOk (fieldBE e 40 4) n then some 40 else none
  | _ => none

/-- Checks 1 to 3 of R56: the status and DETAIL of the first that fails; DETAIL is the lowest failing byte. -/
def entryCheck (s : State) (n : Nat) (e : List Byte) : Option (Status × Nat) :=
  match (if n == 0 then commandForm s.variant e else requestForm e) with
  | none => some (.opcodeUndefined, 0)
  | some f =>
    if needsAbsent s n e then some (.featureAbsent, 0)
    else (formFault e f).map fun i => (.fieldInvalid, match (if n == 0 then stateFields s e else none) with | some j => min i j | none => i)

/-! ## Fetching (R54, R57, R68) -/

/-- Is ring pair `k` given up by a shrink that waits for its requests (R85, R86)? -/
def ringLeaving (x : Inst) (k : Nat) : Bool := x.shrinks.any (·.pool == 6) && decide ((kvGet {} x.shares (6 * 16)).guarantee ≤ k)

/-- May function `n` fetch an entry of ring `k`: a valid entry, no read of the ring in progress, a completion slot to reserve? -/
def canFetch (s : State) (n k : Nat) : Bool :=
  let f := s.fn n
  let r := s.ring n k
  s.live && !s.hp.stopped && !s.bel.fatal && s.present n && f.bme && !f.flr && s.hasRing n k && r.rqEn && r.cqEn && r.reading.isNone
    && r.rqHead != r.rqTail && decide (r.unreleased + r.reserved < 2 ^ r.cqSize - 1)
    && (n == 0 || ((s.inst (n - 1)).st == .running && !ringLeaving (s.inst (n - 1)) k))

/-- The read of the entry at the head of ring `k` sent. -/
def readEntry (s : State) (n k : Nat) : State :=
  let r := s.ring n k
  s.emit (.hostRead n (r.rqBase + r.rqHead * 64) 64)

def execRequestFetchStart (fn k : Nat) (s : State) : Res :=
  let s := s.quiet
  if canFetch s fn k then
    let r := s.ring fn k
    .next (readEntry (s.setRing fn k { r with reading := some 0, reserved := r.reserved + 1 }) fn k)
  else .next s

/-- A fetched entry takes the function's next SEQ and joins the requests in hand (R57); INS_RQk_HEAD moves past it now that it has
arrived (assumption log 99). -/
def takeEntry (s : State) (n k : Nat) (e : List Byte) : Nat × State :=
  let r := s.ring n k
  let s := s.setRing n k { r with reading := none, rqHead := (r.rqHead + 1) % 2 ^ r.rqSize }
  let seq := if n == 0 then s.hp.cmdSeq else (s.inst (n - 1)).seq
  let next := (seq + 1) % 2 ^ 32
  let s := if n == 0 then { s with hp := { s.hp with cmdSeq := next } } else s.updInst (n - 1) fun x => { x with seq := next }
  (seq, s.setReqs (s.hp.reqs ++ [{ fn := n, k := k, seq := seq, entry := padTo 64 e, tb := s.clk.tb }]))

/-- A request of a PRIMARY instance is admitted when its mirror group is acknowledged (R360). -/
def admitMirrored (s : State) (n seq : Nat) : State :=
  if n != 0 && s.twinned (n - 1) then
    match s.req? n seq with
    | some r => closeHub (s.putReq { r with admitting := true }) (n - 1) 0x0B (.letIn n seq)
    | none => s
  else s

/-- POISON_IN, and the AER bit of a poisoned packet (R62). -/
def poisonIn (s : State) (n : Nat) : State :=
  raiseErr (s.updFn n fun f => { f with aer := { f.aer with poisoned := true } }) n .poisonIn

/-- Does function `n` admit entries: the manager's always, an instance's in RUNNING (R68)? -/
def State.admits (s : State) (n : Nat) : Bool := n == 0 || (s.inst (n - 1)).st == .running

def execRequestEntryArrive (fn k : Nat) (entry : List Byte) (poisoned : Bool) (s : State) : Res :=
  let s := s.quiet
  if !s.live || s.hp.stopped || (s.ring fn k).reading.isNone then .next s
  else if !s.admits fn then .next (stopFetch s fn)
  else if poisoned then
    let (seq, s) := takeEntry s fn k (zeros 64)
    .next (complete (poisonIn s fn) fn seq Status.deviceError.code 0x100 0 [])
  else
    let (seq, s) := takeEntry s fn k entry
    match entryCheck s fn (padTo 64 entry) with
    | some (st, d) => .next (complete s fn seq st.code d 0 [])
    | none => .next (admitMirrored s fn seq)

/-! ## Failed host reads (R62) -/

/-- A read of host memory fails: a completion timeout, or Unsupported Request, which of the two being the host's. -/
def readFailed (s : State) (n : Nat) : State :=
  let (x, s) := s.fresh
  s.updFn n fun f => { f with aer := { f.aer with timeout := f.aer.timeout || Config.pick x % 2 == 1 } }

/-! ## Turns -/

/-- Does an earlier request on the same ring lack its written completion (R59 FENCE)? -/
def fenceHolds (s : State) (r : Request) : Bool :=
  reqFence r.entry &&
    (s.hp.reqs.any (fun x => x.fn == r.fn && x.k == r.k && serialBefore 32 x.seq r.seq)
     || (s.ring r.fn r.k).held.any (fun c => serialBefore 32 c.seq r.seq))

/-- Request `seq` of VF `n` with opcode `op`, if its operation may start: admitted, its fence met, its instance running. -/
def takeReq (s : State) (n seq op : Nat) : Option Request :=
  match s.req? n seq with
  | none => none
  | some r =>
    if s.live && !s.hp.stopped && !s.bel.fatal && n != 0 && reqOp r.entry == op && r.stage == .arrived && !r.admitting && !r.closing
      && !fenceHolds s r && (s.inst (n - 1)).st == .running then some r else none

/-- Commands that run one at a time with others of their kind (R74, R391, R447): those of one instance, those of the structure
image, those of the self-test controller. -/
inductive Line where
  | inst (i : Nat) | image | selftest | atOnce
  deriving DecidableEq, Repr

def lineOf (e : List Byte) : Line :=
  let op := reqOp e
  if op == 0x46 || op == 0x53 || op == 0x63 then .atOnce
  else if op < 0x68 || op == 0x72 || op == 0x73 then .inst (reqTarget e)
  else if op == 0x79 || op == 0x7A || op == 0x7B then .image
  else if op == 0x75 || op == 0x77 || op == 0x7D || op == 0x7E || (op == 0x7F && par e 36 == 1) then .selftest
  else .atOnce

/-- Manager command `seq` with code `op`, if its turn has come. -/
def takeCmd (s : State) (seq op : Nat) : Option Request :=
  match s.req? 0 seq with
  | none => none
  | some r =>
    let l := lineOf r.entry
    let earlier := l != .atOnce && s.hp.reqs.any fun x => x.fn == 0 && lineOf x.entry == l && serialBefore 32 x.seq seq
    if s.live && !s.hp.stopped && !s.bel.fatal && reqOp r.entry == op && r.stage == .arrived && !earlier && !fenceHolds s r then some r else none

/-- A request in hand completes with no effect. -/
def answer (s : State) (r : Request) (st : Status) (detail : Nat) : State := complete s r.fn r.seq st.code detail 0 []

/-- A request in hand completes DONE. -/
def done (s : State) (r : Request) (count : Nat) (result : List Byte) : State := complete s r.fn r.seq 0 0 count result

/-- A manager command refused in the present state, and logged (R70, R470). -/
def refuse (s : State) (r : Request) (inst detail : Nat) : State :=
  let s := logEvent s { s.entry 0x42 0 0x12 0xFFFF with inst := inst, detail := detail, ref := r.seq }
  answer s r .stateRefused detail

/-- The module leaves Sleep (R421). -/
def wake (s : State) : State := setPower s 0

end Sys2Proof.Machine
end

