-- ==== Sys2Proof/Machine/InstMem.lean ====
section
/-! DEFINITION. The stores of an instance as hub agents reach them by instance-real address (R118, R230, R238, R239). -/

namespace Sys2Proof.Machine

open Sys2Proof

/-- Does `[r, r + n)` lie wholly within the instance's main-store or bulk-store region? -/
def rangeBacked (s : State) (i r n : Nat) : Bool :=
  let x := s.inst i
  decide (r + n ≤ x.main.length * 65536)
    || (decide (0x1000000000 ≤ r) && decide (r + n ≤ 0x1000000000 + x.bulk.length * 2097152))

/-- The absolute pieces of a real range, cut at 64 KiB. -/
def realPieces (s : State) (i : Nat) : Nat → Nat → Nat → List (Nat × Nat)
  | 0, _, _ => []
  | fuel + 1, r, n =>
    if n = 0 then []
    else
      let m := min n (65536 - r % 65536)
      match absOf s i r with
      | some a => (a, m) :: realPieces s i fuel (r + m) (n - m)
      | none => []

def instPieces (s : State) (i r n : Nat) : List (Nat × Nat) := realPieces s i (n / 65536 + 2) r n

/-- The zone lookups of a hub agent's access to a range, one for each granule (R231). -/
def hubUse (s : State) (i r n : Nat) : State :=
  let size := if r < 0x1000000000 then 65536 else 2097152
  (List.range (if n = 0 then 0 else (r % size + n - 1) / size + 1)).foldl (fun s j => hubZone s i (r / size * size + j * size)) s

/-- Engines that hold a line of the range uncommitted. -/
def instOwners (s : State) (i r n : Nat) : List Nat := (instPieces s i r n).flatMap fun p => rangeOwners s p.1 p.2

/-- The lines of the range, in ascending order. -/
def instLines (s : State) (i r n : Nat) : List Nat := (instPieces s i r n).flatMap fun p => linesOf p.1 p.2

/-- The committed bytes of a range. -/
def instRead (s : State) (i r n : Nat) : List Byte := (instPieces s i r n).flatMap fun p => hubRead s p.1 p.2

/-- The first poisoned line of a range. -/
def instPoison (s : State) (i r n : Nat) : Option Nat := (instLines s i r n).find? fun l => (committed s l).2

/-- Bytes before the first poisoned line of a range. -/
def bytesBefore (s : State) (r n : Nat) (lines : List Nat) : Nat :=
  match lines.findIdx? fun l => (committed s l).2 with
  | some k => if k = 0 then 0 else min n (64 - r % 64 + (k - 1) * 64)
  | none => n

/-- Bytes written by a hub agent over a range. -/
def writePieces (s : State) : List (Nat × Nat) → List Byte → State
  | [], _ => s
  | (a, m) :: r, d => writePieces (hubWrite s a (d.take m)) r (d.drop m)

def instWrite (s : State) (i r : Nat) (d : List Byte) : State := writePieces (hubUse s i r d.length) (instPieces s i r d.length) d

/-- POISON_CONSUMED (R339, R470): `ref` is the SEQ of a request or the JSN of a channel operation. -/
def logPoison (s : State) (i l detail ref : Nat) : State :=
  logEvent s { s.entry 0x13 0 0x11 3 with inst := i, addr := l * 64, detail := detail, ref := ref }

end Sys2Proof.Machine
end

