-- ==== Sys2Proof/Machine/Accel.lean ====
section
/-! DEFINITION. What cipher and compression jobs share: admission, staging (R241, R298), queues (R300, R317), their ends (R58, R117). -/

namespace Sys2Proof.Machine

open Sys2Proof

/-! ## The two kinds -/

/-- The cipher or the compression engines. -/
def State.accel (s : State) (cz : Bool) : Accel := if cz then s.cze else s.xce

def State.setAccel (s : State) (cz : Bool) (a : Accel) : State := if cz then { s with cze := a } else { s with xce := a }

def State.setJobs (s : State) (cz : Bool) (l : List Job) : State := s.setAccel cz { s.accel cz with jobs := l }

/-- Engines fused in. -/
def accelCount (s : State) (cz : Bool) : Nat := if cz then s.variant.czes else s.variant.xces

def accelPool (cz : Bool) : Nat := if cz then poolCze else poolXce

/-- The cipher group of an instance, as a mask of engines; the compression engines form one (R300, R317). -/
def groupMask (s : State) (cz : Bool) (i : Nat) : Nat :=
  if cz then s.img.czeIn else (s.img.groups[kvGet 0 s.img.instGroup i]?).getD 0xFFFF

/-- Engines in service that may run jobs of instance `i`. -/
def groupEngines (s : State) (cz : Bool) (i : Nat) : List Nat :=
  (List.range (accelCount s cz)).filter fun e => bit (groupMask s cz i) e && !(s.accel cz).fenced.contains e

/-- Accelerator engines that may take jobs at the present throttle level, at most; never fewer than one to a group (R432, R433). -/
def throttleAccel (s : State) (cz : Bool) : Nat :=
  if cz then
    match s.clk.throttle with
    | 0 => 8 | 1 => 4 | 2 => 2 | _ => 1
  else
    max s.img.groups.length (match s.clk.throttle with | 0 => 16 | 1 => 12 | 2 => 8 | 3 => 4 | _ => 2)

/-- One engine parked: the highest-numbered of the first group that has the most. -/
def parkOne (g : List (List Nat)) : List (List Nat) :=
  let most := (g.map List.length).foldl max 0
  match g.findIdx? (·.length == most) with
  | some k => g.modify k List.dropLast
  | none => g

/-- The engines of each group that are not fenced and not parked (R433). -/
def unparked (s : State) (cz : Bool) : List (List Nat) :=
  let masks := if cz then [s.img.czeIn] else s.img.groups
  let g := masks.map fun m => (List.range (accelCount s cz)).filter fun e => bit m e && !(s.accel cz).fenced.contains e
  parkOne^[(g.map List.length).sum - throttleAccel s cz] g

/-- May engine `e` take a job: in service, not parked, not under test (R433, R444)? -/
def takesJobs (s : State) (cz : Bool) (e : Nat) : Bool :=
  (unparked s cz).any (·.contains e) && !underTest s (if cz then 0x0A else 0x09) e

def Job.running? (j : Job) : Option Nat :=
  match j.st with
  | .running e => some e
  | _ => none

/-- Has a job ended but for its mirror group? -/
def Job.ended? (j : Job) : Bool :=
  match j.st with
  | .ended _ => true
  | _ => false

/-- The job that engine `e` runs. -/
def jobOn (s : State) (cz : Bool) (e : Nat) : Option Job := (s.accel cz).jobs.find? fun j => j.running? == some e

/-- Two jobs are one: admitted under the same SEQ of the same instance. -/
def Job.same (a b : Job) : Bool := a.inst == b.inst && a.seq == b.seq

def State.putJob (s : State) (cz : Bool) (j : Job) : State :=
  s.setJobs cz ((s.accel cz).jobs.map fun x => if x.same j then j else x)

/-! ## Staging (R241, R298, R305) -/

def stagingSize : Nat := 8 * 2 ^ 20

/-- Bytes that a request stages: its whole source with CHK, and source and AAD of every GCM_DECRYPT. -/
def stagedBytes (e : List Byte) : Nat :=
  if reqOp e == 0x11 then reqSrcLen e + fieldBE e 48 4 else if reqChk e then reqSrcLen e else 0

/-- Staging in use: by jobs past their wait for it, and by STORE_WRITE requests. -/
def stagingUsed (s : State) : Nat :=
  ((s.xce.jobs ++ s.cze.jobs).map fun j => if j.st == .staging || j.ended? then 0 else stagedBytes j.entry).sum
    + (s.hp.reqs.map fun r => if reqOp r.entry == 2 && r.stage == .running then stagedBytes r.entry else 0).sum

def stagingFits (s : State) (e : List Byte) : Bool := stagingUsed s + stagedBytes e ≤ stagingSize

/-! ## Key slots -/

def Slot.classD (x : Slot) : Bool := x.alg ≥ 3

/-- RUNNING of a slot (R284): the jobs admitted on it. -/
def countRunning (s : State) (pg n : Nat) : State :=
  let c := (s.xce.jobs.filter fun j => reqOp j.entry != 0x1A && j.page == pg && j.slot == n).length
  let x := s.slot pg n
  s.setSlot pg n { x with running := min 127 c }

/-! ## Admission and the end of a job -/

/-- A job in its queue; a cipher job counts in RUNNING and reserves its charge (R284, R295). -/
def addJob (s : State) (cz : Bool) (j : Job) : State :=
  let j := { j with st := if stagedBytes j.entry != 0 && !stagingFits s j.entry then .staging else .queued }
  runEffect s (.job j cz)

/-- The 32 bytes of a completion area (R117). -/
def areaBytes (seq st detail count : Nat) (e result : List Byte) : List Byte :=
  [BitVec.ofNat 8 st, 0x80] ++ toBE 2 detail ++ toBE 4 seq ++ toBE 4 (reqTag e) ++ toBE 4 count ++ padTo 16 result

/-- Does a job generate a nonce (R291)? -/
def nonceJob (j : Job) : Bool := reqOp j.entry == 0x10 || reqOp j.entry == 0x12

/-- Counters of a slot after a job on it that completes DONE (R292, R293, R295). -/
def Slot.afterDone (x : Slot) (j : Job) : Slot :=
  if x.classD then
    let u := x.used + j.charge
    { x with used := u, state := if u ≥ x.limit then 2 else x.state }
  else if nonceJob j then
    { x with used := x.used + 1, state := if x.used + 1 ≥ 2 ^ 48 then 2 else x.state }
  else x

/-- A key slot in 512 bytes: its fields, then the wrapped key. -/
def slotRecord (wrap : List Byte) (x : Slot) : List Byte :=
  padTo 512 (padTo 32 (toBE 1 x.alg ++ toBE 1 x.keylen ++ toBE 1 x.state
    ++ toBE 1 (b2n x.exportable * 4 + b2n x.plain * 2 + b2n x.unit) ++ zeros 4 ++ toBE 8 x.used ++ toBE 8 x.limit ++ toBE 4 x.kcv)
    ++ (if x.state == 0 then [] else keyWrap wrap x.key))

/-- The state of key slot `n` of page `pg`, as `x` gives it, in the next group of the twinned instance `i` (R358): its record under the twin
key, in lines of the instance's control block that the spec does not place. -/
def noteKey (s : State) (i n : Nat) (x : Slot) : State :=
  if !s.twinned i then s
  else
    let (m, s) := s.fresh
    let r := slotRecord (s.twin.key.getD []) x
    let lines := (List.range 8).map fun k => { line := 0x1000 + i * 64 + Config.pickAt m (8 * n + k) % 64, data := slice r (64 * k) 64, poison := false : MLine }
    { s with twin := { s.twin with keyNotes := kvSet s.twin.keyNotes i (kvGet [] s.twin.keyNotes i ++ lines) } }

/-- The key operations that change a slot's state: KEY_LOAD, KEY_RETIRE, KEY_LIMIT. -/
def keyChange (op : Nat) : Bool := op == 0x30 || op == 0x32 || op == 0x33

/-- A job leaves with its status, in the step that writes its completion: its unit returns to the pool; its charge is released, and one that
completes DONE moves the counters of its slot (R292, R295). -/
def leaveJob (s : State) (cz : Bool) (j : Job) (st : Nat) : State :=
  let s := s.setJobs cz ((s.accel cz).jobs.filter fun x => !x.same j)
  let s := if j.shared then pushHold s (accelPool cz) 0 (s.clk.tb - j.tb) else s
  if cz || reqOp j.entry == 0x1A then s
  else
    let x := s.slot j.page j.slot
    let x := { x with reserved := x.reserved - j.charge }
    countRunning (s.setSlot j.page j.slot (if st == Status.done.code && reqOp j.entry < 0x30 then x.afterDone j else x)) j.page j.slot

/-- The completion of a job written to its area. -/
def areaDone (s : State) (j : Job) (st detail count : Nat) (result : List Byte) : State :=
  match j.area with
  | some a => writeArea s j.inst j.ve a (areaBytes j.seq st detail count j.entry result) (reqNoint j.entry)
  | none => s

/-- The end of a job: it leaves and its completion goes to the ring or the area. In a twinned instance a completion entry, and the completion of
a job that generated a nonce, wait for their mirror group first (R294, R360). -/
def endJob (s : State) (cz : Bool) (j : Job) (st detail count : Nat) (result : List Byte) : State :=
  let n := j.inst + 1
  let op := reqOp j.entry
  let waits := s.twinned j.inst &&
    (if j.area.isNone then (match s.req? n j.seq with | some r => !r.closing | none => false)
     else st == Status.done.code && (nonceJob j || keyChange op))
  let x := s.slot j.page j.slot
  let s := if waits && !cz && st == Status.done.code then
      (if op < 0x30 && op != 0x1A then noteKey s j.inst j.slot (x.afterDone j) else if keyChange op then noteKey s j.inst j.slot x else s)
    else s
  let s := if waits then s.setJobs cz ((s.accel cz).jobs.map fun x => if x.same j then { x with st := .ended st } else x) else leaveJob s cz j st
  if j.area.isNone then complete s n j.seq st detail count result
  else if waits then closeHub s j.inst 0x11 (.jobArea cz j.inst j.seq st detail count result)
  else areaDone s j st detail count result

/-- The job under a SEQ whose completion waited for its group leaves. -/
def endedJob (s : State) (cz : Bool) (i seq : Nat) : Option (Job × State) :=
  match (s.accel cz).jobs.find? fun j => j.inst == i && j.seq == seq && j.ended? with
  | some j => match j.st with
    | .ended st => some (j, leaveJob s cz j st)
    | _ => none
  | none => none

/-- Queued jobs of an instance that a quiesce cancels (R87). -/
def abortQueued (s : State) (cz : Bool) (i : Nat) : State :=
  ((s.accel cz).jobs.filter fun j => j.inst == i && (j.st == .queued || j.st == .staging)).foldl
    (fun s j => endJob s cz j Status.abortedQuiesce.code 0 0 []) s

/-! ## A job's buffers -/

/-- Owners of lines that a job submitted by an instruction reads or writes. -/
def jobOwners (s : State) (j : Job) : List Nat :=
  match j.area with
  | none => []
  | some a => (j.src ++ j.aad ++ j.dst ++ [(a, 32)]).flatMap fun (p : Nat × Nat) => instOwners s j.inst p.1 p.2

/-- Bytes of real pieces. -/
def readPieces (s : State) (i : Nat) (l : List (Nat × Nat)) : List Byte := l.flatMap fun p => instRead s i p.1 p.2

/-- The first poisoned line of real pieces. -/
def poisonPieces (s : State) (i : Nat) (l : List (Nat × Nat)) : Option Nat := l.findSome? fun p => instPoison s i p.1 p.2

/-- Bytes of real pieces before the first poisoned line. -/
def goodBytes (s : State) (i : Nat) : List (Nat × Nat) → Nat
  | [] => 0
  | (r, n) :: l =>
    let g := bytesBefore s r n (instLines s i r n)
    if g < n then g else n + goodBytes s i l

/-- Bytes written over real pieces. -/
def writeReal (s : State) (i : Nat) : List (Nat × Nat) → List Byte → State
  | [], _ => s
  | (r, n) :: l, d => writeReal (instWrite s i r (d.take n)) i l (d.drop n)

/-- A job's output written to DST: host memory, as an extent of the dirty log, or instance store. -/
def jobWrite (s : State) (j : Job) (d : List Byte) : State :=
  match j.area with
  | none => hostWrite s (j.inst + 1) (reqDst j.entry) d
  | some _ => writeReal s j.inst j.dst d

/-- Must a job's transfers wait: Bus Master Enable 0 for a host job (R91)? -/
def jobWaits (s : State) (j : Job) : Bool := j.area.isNone && (!(s.fn (j.inst + 1)).bme || s.hp.stopped)

/-- The zone lookups of a job that an instruction submitted (R231). -/
def jobZones (s : State) (j : Job) : State :=
  if j.area.isNone then s else (j.src ++ j.aad ++ j.dst).foldl (fun s p => hubUse s j.inst p.1 p.2) s

/-- What a job reads: its source, or the end it comes to before its data is whole (R62, R238, R298): status, detail, and good bytes. -/
inductive JobData where
  | ok (src aad : List Byte)
  | failed (st detail good : Nat) (poisonIn : Bool) (line : Option Nat)

def jobData (s : State) (j : Job) (src aad : List Byte) (fault : Option JobFault) : JobData :=
  let e := j.entry
  match fault with
  | some .hostReadFailed => .failed Status.deviceError.code 0x101 0 false none
  | some .hostPoisoned => .failed Status.deviceError.code 0x100 0 true none
  | some .other => .failed Status.deviceError.code 0 0 false none
  | f =>
    match j.area, f with
    | none, some (.lineTag n) => .failed Status.tagMismatch.code 0 n false none
    | none, _ => .ok (padTo (reqSrcLen e) src) (padTo (fieldBE e 48 4) aad)
    | some _, _ =>
      -- a tag that fails in a line of a store is read again or poisons the line (CACHE_ERROR, STORE_READ_ERROR); here the poison decides
      match poisonPieces s j.inst (j.src ++ j.aad) with
      | some l => .failed Status.tagMismatch.code 0 (goodBytes s j.inst j.src) false (some l)
      | none => .ok (readPieces s j.inst j.src) (readPieces s j.inst j.aad)

/-- Does CHK hold (R240)? -/
def chkOk (e src : List Byte) : Bool := !reqChk e || (crc32c src).toNat == reqCheck e

/-! ## Which job a free engine takes (R292, R300, R317) -/

/-- Is a nonce-generating job held back by an earlier one on its slot (R292)? -/
def heldBack (s : State) (j : Job) : Bool :=
  nonceJob j && s.xce.jobs.any fun x => nonceJob x && x.page == j.page && x.slot == j.slot && x.order < j.order

/-- Does job `a` come before job `b`: priority, then a suspended one, then admission? -/
def Job.before (a b : Job) : Bool :=
  let pa := reqPrio a.entry
  let pb := reqPrio b.entry
  if pa != pb then pb < pa
  else if (a.st == .suspended) != (b.st == .suspended) then a.st == .suspended
  else a.order < b.order

/-- The job that engine `e` would take next. -/
def nextJob (s : State) (cz : Bool) (e : Nat) : Option Job :=
  (((s.accel cz).jobs.filter fun j =>
    (j.st == .queued || j.st == .suspended) && (groupEngines s cz j.inst).contains e && !heldBack s j).mergeSort Job.before).head?

/-- A job on an engine. -/
def startJob (s : State) (cz : Bool) (j : Job) (e : Nat) : State :=
  let a := s.accel cz
  let s := s.setAccel cz { a with order := a.order + 1 }
  s.putJob cz { j with st := .running e, startOrder := a.order }

/-- The admission of a job that a host request asks for: BUSY with its hint (R82, R83), or the job in its queue. -/
def offerJob (s : State) (r : Request) (cz : Bool) (j : Job) : State :=
  let i := r.fn - 1
  if (groupEngines s cz i).isEmpty then answer s r .deviceError 0
  else
    match takeUnit s i (accelPool cz) 0 with
    | .no => complete s r.fn r.seq Status.busy.code 0 0 (toBE 8 (retryAfter s (accelPool cz) 0) ++ zeros 8)
    | a =>
      let s := s.setStage r.fn r.seq .running
      addJob s cz { j with inst := i, seq := r.seq, entry := r.entry, tb := s.clk.tb, shared := a == .shared }

/-! ## Failed host reads (R62) -/

/-- The third failure of the read of a request's source: its job ends, and it completes DEVICE_ERROR. -/
def sourceFailed (s : State) (x : Request) : State :=
  let mine (j : Job) : Bool := j.area.isNone && j.inst + 1 == x.fn && j.seq == x.seq
  let st := Status.deviceError.code
  match s.xce.jobs.find? mine, s.cze.jobs.find? mine with
  | some j, _ => endJob s false j st 0x101 0 []
  | none, some j => endJob s true j st 0x101 0 []
  | none, none => complete s x.fn x.seq st 0x101 0 []

/-- A read of host memory fails: it is made three times in all. A read for a request of a VF whose Bus Master Enable is 0 is not made
again before that returns (R91). -/
def execHostReadFailed (r : HostRead) (s : State) : Res :=
  let s := s.quiet
  if !s.live || s.hp.stopped then .next s
  else
    match r with
    | .entry n k =>
      let g := s.ring n k
      match g.reading with
      | none => .next s
      | some a =>
        let s := readFailed s n
        if !s.admits n then .next (stopFetch s n)
        else if a < 2 then .next (readEntry (s.setRing n k { g with reading := some (a + 1) }) n k)
        else
          let (seq, s) := takeEntry s n k (zeros 64)
          .next (complete s n seq Status.deviceError.code 0x101 0 [])
    | .source n q =>
      match s.req? n q.toNat with
      | none => .next s
      | some x =>
        if !(x.stage == .arrived || x.stage == .running) || x.closing || x.admitting || (n != 0 && !(s.fn n).bme) then .next s
        else
          let s := readFailed s n
          if x.attempts < 2 then
            .next ((s.putReq { x with attempts := x.attempts + 1 }).emit (.hostRead n (reqSrc x.entry) (reqSrcLen x.entry)))
          else .next (sourceFailed s x)
    | .window p va len ilen bad =>
      match running s p with
      | none => .next s
      | some k =>
        match translate s p k .load va with
        | .ok (.window w off, s') =>
          let n := veInst k + 1
          if bad then .next (machineCheck (poisonIn s' n) k 3 0 ilen (some va) 0)
          else
            let a := (s'.eng p).winFails
            let s' := readFailed s' n
            if a < 2 then
              .next ((s'.updEng p fun e => { e with winFails := a + 1 }).emit
                (.hostRead n ((kvGet {} (s'.inst (n - 1)).windows w).busBase + off) len))
            else .next (machineCheck (s'.updEng p fun e => { e with winFails := 0 }) k 3 0 ilen (some va) 0)
        | _ => .next s

/-- STAGING_SPACE_FREE: a job or a STORE_WRITE that waits for staging gets it (R241). The STORE_WRITE's read waits for Bus Master
Enable too (R91). -/
def execStagingSpaceFree (fn : Nat) (seq : BitVec 32) (s : State) : Res :=
  let s := s.quiet
  let q := seq.toNat
  let waits (j : Job) : Bool := j.inst + 1 == fn && j.seq == q && j.st == .staging
  let go (cz : Bool) (j : Job) : State := s.putJob cz { j with st := .queued }
  match s.xce.jobs.find? waits, s.cze.jobs.find? waits with
  | some j, _ => .next (if s.live && stagingFits s j.entry then go false j else s)
  | none, some j => .next (if s.live && stagingFits s j.entry then go true j else s)
  | none, none =>
    match s.req? fn q with
    | some r =>
      if s.live && r.stage == .staging && stagingFits s r.entry && (s.fn fn).bme then
        .next ((s.setStage fn q .running).emit (.hostRead fn (reqSrc r.entry) (reqSrcLen r.entry)))
      else .next s
    | none => .next s

end Sys2Proof.Machine
end

