-- ==== Sys2Proof/Machine/Channel.lean ====
section
/-! DEFINITION. The channel subsystem (R245 to R279): channel programs, their commands on the paths, path loss and reissue, adapters,
final statuses. -/

namespace Sys2Proof.Machine

open Sys2Proof

/-! ## Devices and paths -/

/-- The device entry an operation names. -/
def subDev (s : State) (x : Sub) : DevEntry := (s.img.devices[x.device]?).getD {}

/-- A namespace (KIND 1) or an adapter function (KIND 2, R385). -/
def DevEntry.namespace (d : DevEntry) : Bool := d.kind == 1

def blockSize (dev : Nat) : Nat := if Config.lba4k dev then 4096 else 512

/-- Paths that the bifurcation mode provides (R265). -/
def pathsOfMode (m : Nat) : Nat :=
  match m with
  | 0 => 8 | 1 => 4 | _ => 2

def State.path (s : State) (n : Nat) : Path := kvGet {} s.css.paths n

/-- Is a path available for device `dev` (R265 to R267)? -/
def pathUp (s : State) (dev n : Nat) : Bool :=
  let p := s.path n
  (if n < 0x100 then decide (n < pathsOfMode s.img.pathMode) && bit s.img.pathEnable n else s.twin.st == .paired && decide (s.twin.link ≥ 2))
    && !p.down && !p.lostDevs.contains dev

/-- Path number of an operation. -/
def subPath (s : State) (x : Sub) : Nat := pathNum s (((subDev s x).paths[x.path]?).getD 0)

/-- Bytes outstanding on a path (R266). -/
def pathLoad (s : State) (n : Nat) : Nat :=
  (s.css.subs.map fun e =>
    if e.2.st == .active && subPath s e.2 == n then ((e.2.pieces.filter fun p => !p.done).map fun p => p.len * blockSize e.2.device).sum else 0).sum

/-- The smallest element by a key, the earlier on a tie. -/
def leastBy (key : Nat → Nat) : List Nat → Option Nat
  | [] => none
  | a :: r =>
    match leastBy key r with
    | some b => if key b < key a then some b else some a
    | none => some a

/-- The path an operation takes: the available local path with the fewest outstanding bytes, else a partner path (R266). -/
def choosePath (s : State) (x : Sub) : Option Nat :=
  let d := subDev s x
  let num (i : Nat) : Nat := pathNum s ((d.paths[i]?).getD 0)
  let up := (List.range d.paths.length).filter fun i => pathUp s x.device (num i)
  match up.filter (fun i => num i < 0x100) with
  | [] => leastBy (fun i => pathLoad s (num i)) up
  | l => leastBy (fun i => pathLoad s (num i)) l

/-! ## Journal space (R264) -/

/-- Started operations without an END. -/
def startedOps (s : State) : Nat :=
  (s.css.subs.filter fun e => e.2.st == .validating || e.2.st == .active || e.2.st == .reissuing).length

/-- Journal slots outside the span from the oldest needed entry to the next one. -/
def freeEntries (s : State) : Nat :=
  let ages := s.css.subs.filterMap fun e =>
    if e.2.st.needsEntry then (lastEntry s (e.1 / 65536) (e.1 % 65536)).map s.jsnAge else none
  s.journalSlots - ages.foldl max 0

/-- Is there space for a START, and for another entry of a started operation? -/
def spaceForStart (s : State) : Bool := freeEntries s ≥ 1024 + 3 * startedOps s
def spaceForEntry (s : State) : Bool := freeEntries s > 3 * startedOps s

/-! ## The program check (R251 to R253) -/

def cceCmd (c : List Byte) : Nat := fieldBE c 0 1
def cceFlag (c : List Byte) (b : Nat) : Bool := bit (fieldBE c 1 1) b
def cceMore (c : List Byte) : Bool := cceFlag c 0
def cceOnce (c : List Byte) : Bool := cceFlag c 1
def cceNostore (c : List Byte) : Bool := cceFlag c 2
def cceShortOk (c : List Byte) : Bool := cceFlag c 3
def cceCount (c : List Byte) : Nat := fieldBE c 4 4
def cceAddr (c : List Byte) : Nat := fieldBE c 8 8

/-- Commands by device kind (R252). -/
def cmdDefined (ns : Bool) (cmd : Nat) : Bool :=
  cmd == 5 || cmd == 0x10
    || (if ns then cmd == 1 || cmd == 2 || cmd == 3 || cmd == 4 || cmd == 7 else 0x20 ≤ cmd && cmd ≤ 0x23)

/-- Does a command move data blocks of a namespace? -/
def cmdBlocks (cmd : Nat) : Bool := cmd == 1 || cmd == 2 || cmd == 3 || cmd == 7

/-- Does a command use ADDR as a buffer, of COUNT bytes? -/
def cceBuffer (c : List Byte) : Bool :=
  let m := cceCmd c
  (m == 1 && !cceNostore c) || m == 2 || m == 3 || m == 0x20 || m == 0x21 || m == 0x22

/-- What the check carries from one CCE to the next: the position (LBA, or offset with the BAR above it) and the EXPOSE CCEs. -/
structure Walk where
  pos : Nat := 0
  exposes : Nat := 0

/-- The BAR and the offset of an adapter position (R252). -/
def posBar (p : Nat) : Nat := bits p 63 61
def posOff (p : Nat) : Nat := bits p 47 0

/-- The lowest failing byte of CCE `k` of an operation on device `dev`, and the position after it. -/
def checkCce (ns : Bool) (dev k : Nat) (c : List Byte) (w : Walk) : Option Nat × Walk :=
  let m := cceCmd c
  let n := cceCount c
  let a := cceAddr c
  let bs := blockSize dev
  let zero (lo hi : Nat) : Option Nat := firstNonzero c lo hi
  let flags := fieldBE c 1 1 ≥ 16 || (cceShortOk c && m != 0x22) || (cceNostore c && m != 1) || (k == 255 && cceMore c)
  let countZero := m == 4 || m == 5 || m == 0x10
  let addrZero := m == 4 || m == 7 || m == 0x10 || (m == 1 && cceNostore c)
  let blocks := n / bs
  let cap := if ns then Config.capacity dev else Config.barSize dev (posBar w.pos)
  let badCount : Option Nat :=
    if countZero then zero 4 8
    else if cmdBlocks m then (if n == 0 || n > 2 ^ 24 || n % bs != 0 || w.pos + blocks > cap then some 4 else none)
    else if m == 0x20 || m == 0x21 then (if (n != 4 && n != 8) || posOff w.pos + n > cap then some 4 else none)
    else if m == 0x22 then (if n == 0 || n > 2 ^ 24 then some 4 else none)
    else if n == 0 || n > 10000000 then some 4 else none
  let badAddr : Option Nat :=
    if addrZero then zero 8 16
    else if m == 5 then
      (if ns then (if a > cap then some 8 else none)
       else if posBar a ≥ 6 || Config.barSize dev (posBar a) == 0 || bits a 60 56 != 0 || posOff a > Config.barSize dev (posBar a) then some 8
       else if bits a 55 48 != 0 then some 9 else none)
    else if m == 0x23 then
      (match zero 8 14 with
       | some b => some b
       | none => if bits a 15 11 != 0 then some 14 else none)
    else none
  let w' : Walk := {
    pos := if m == 5 then a else if cmdBlocks m then w.pos + blocks else w.pos
    exposes := w.exposes + (if m == 0x22 then 1 else 0) }
  let bad :=
    if !cmdDefined ns m || w'.exposes > 16 then some 0
    else if flags then some 1
    else match zero 2 4 with
      | some b => some b
      | none => match badCount with
        | some b => some b
        | none => badAddr
  (bad, w')

/-- The whole program read and checked from CCE `k`: its CCEs, or the failing CCE with the final status and its detail. -/
def checkProgram (s : State) (i : Nat) (x : Sub) (ns : Bool) : Nat → Nat → Walk → Except (Nat × Status × Nat × Option Nat) (List (List Byte))
  | 0, k, _ => .error (k, .fieldInvalid, 1, none)
  | fuel + 1, k, w =>
    let a := x.program + k * 16
    if !rangeBacked s i a 16 then .error (k, .accessDenied, 0, none)
    else
      match instPoison s i a 16 with
      | some l => .error (k, .tagMismatch, 0, some l)
      | none =>
        let c := instRead s i a 16
        match checkCce ns x.device k c w with
        | (some b, _) => .error (k, .fieldInvalid, b, none)
        | (none, w') =>
          if cceBuffer c && !rangeBacked s i (cceAddr c) (cceCount c) then .error (k, .accessDenied, 0, none)
          else if !cceMore c then .ok [c]
          else
            match checkProgram s i x ns fuel (k + 1) w' with
            | .ok r => .ok (c :: r)
            | .error e => .error e

/-! ## Ends (R256, R257) -/

/-- The END entry written, the operation then ENDING or HELD: windows close, and in twin mode the status waits for the entry's group (R28,
R256). -/
def endWith (after : SubState) (s : State) (i n : Nat) (st : Status) (detail devstat : Nat) : State :=
  let x := s.sub i n
  let jsn := s.css.jsn
  journal (s.setSub i n { x with
    st := after, fstatus := st.code, detail := detail, devstat := devstat, endJsn := jsn, count := x.moved, pieces := [], exposes := []
    startJsn := none, lossWaits := false, endWait := if s.twin.st == .paired then some jsn else none }) i n 5 false (.endEntry i n)

def endSub (s : State) (i n : Nat) (st : Status) (detail devstat : Nat) : State := endWith .ending s i n st detail devstat

/-- The 32-byte status record (R259). -/
def statusRecord (n : Nat) (x : Sub) : List Byte :=
  [BitVec.ofNat 8 x.fstatus, BitVec.ofNat 8 (128 + b2n x.reissued * 64)] ++ toBE 2 x.detail ++ toBE 6 x.endJsn ++ toBE 2 n
    ++ toBE 2 x.cce ++ zeros 2 ++ toBE 4 x.count ++ toBE 4 x.devstat ++ toBE 8 x.user

/-- The status record written where it may be, and the operation PENDING (R259). -/
def writeStatus (s : State) (i n : Nat) : State :=
  let x := s.sub i n
  let s := if rangeBacked s i x.status 32 && (instPoison s i x.status 32).isNone then instWrite s i x.status (statusRecord n x) else s
  s.setSub i n { s.sub i n with st := .pending }

/-! ## Issuing CCEs (R254, R262, R268, R276) -/

/-- A range of blocks split under the path's transfer size, in ascending order. -/
def splitRange (maxBlocks : Nat) : Nat → Nat → Nat → Nat → List Piece
  | 0, _, _, _ => []
  | fuel + 1, lba, len, off =>
    if len = 0 then []
    else
      let m := min len (max 1 maxBlocks)
      { lba := lba, len := m, off := off } :: splitRange maxBlocks fuel (lba + m) (len - m) (off + m)

/-- The device command of a piece. -/
def pieceOut (s : State) (i : Nat) (x : Sub) (c : List Byte) (p : Piece) : Output :=
  let bs := blockSize x.device
  let m := cceCmd c
  let data := if m == 2 || m == 3 then instRead s i (cceAddr c + p.off * bs) (p.len * bs) else []
  .nvme x.device (subPath s x) m p.lba p.len data

/-- The commands of the current CCE sent for the pieces given. -/
def sendPieces (s : State) (i n : Nat) (c : List Byte) (ps : List Piece) : State :=
  let x := s.sub i n
  let m := cceCmd c
  let outs :=
    if m == 0x20 || m == 0x21 then
      [Output.adapterReg x.device (subPath s x) x.position (m == 0x20) (cceCount c)
        (if m == 0x20 then instRead s i (cceAddr c) (cceCount c) else [])]
    else ps.map (pieceOut s i x c)
  { s with out := s.out ++ outs }.setSub i n { x with pieces := ps, issueTb := s.clk.tb }

/-- The current CCE of an operation. -/
def curCce (x : Sub) : List Byte := (x.prog[x.cce]?).getD []

/-- The bytes that a completed CCE adds to COUNT (R259). -/
def cceBytes (c : List Byte) : Nat :=
  let m := cceCmd c
  if m == 1 || m == 2 || m == 3 || m == 0x20 || m == 0x21 then cceCount c else 0

/-- The first poisoned line of the data that the current CCE sends for the pieces given (R276). -/
def egressPoison (s : State) (i : Nat) (x : Sub) (c : List Byte) (ps : List Piece) : Option Nat :=
  let m := cceCmd c
  let bs := blockSize x.device
  if m == 2 || m == 3 then ps.findSome? fun p => instPoison s i (cceAddr c + p.off * bs) (p.len * bs)
  else if m == 0x20 then instPoison s i (cceAddr c) (cceCount c)
  else none

/-- The end of an operation that meets a poisoned line at egress: the current CCE sends nothing (R276). -/
def endPoisoned (s : State) (i n l : Nat) : State := endSub (logPoison s i l 2 (s.sub i n).opJsn) i n .tagMismatch 0 0

/-- The error of the failing piece with the lowest LBA (R274). -/
def pieceError (x : Sub) : Option (Nat × Nat × Nat) :=
  ((x.pieces.filter fun p => p.done && p.err.isSome).mergeSort (fun a b => a.lba ≤ b.lba)).head?.bind (·.err)

/-- The end of an operation by a piece's error. -/
def endError (s : State) (i n : Nat) (e : Nat × Nat × Nat) : State :=
  endSub s i n (if e.1 == 8 then .tagMismatch else .deviceError) e.2.1 e.2.2

/-- A path lost for one operation (R256, R268, R270, R274). A once-only CCE whose ONCE_ISSUE entry is not committed has not been issued; a
CCE that is complete but for its ONCE_DONE entry is complete; a REISSUE entry waits for journal space (R264). -/
def losePath (s : State) (i n : Nat) : State :=
  let x := s.sub i n
  match pieceError x with
  | some e => endError s i n e
  | none =>
    if !x.pieces.isEmpty && x.pieces.all (·.done) then s
    else if x.onceOpen && x.startJsn.isNone then endSub s i n .outcomeUnknown 0 0
    else
      let since := if x.lossWaits then x.lossTb else s.clk.tb
      if !spaceForEntry s then s.setSub i n { x with lossWaits := true, lossTb := since }
      else journal (s.setSub i n { x with st := .reissuing, onceOpen := false, lossWaits := false, lossTb := since }) i n 4 false

/-- May the current CCE complete now: its ONCE_DONE entry, if it needs one, has space (R264)? -/
def doneReady (s : State) (x : Sub) : Bool := !x.onceOpen || spaceForEntry s

/-- The current CCE complete: ONCE_DONE if it was once-only, its bytes counted, its position advanced. -/
def finishCce (s : State) (i n : Nat) : State :=
  let x := s.sub i n
  let c := curCce x
  let pos := if cceCmd c == 5 then cceAddr c
             else if cmdBlocks (cceCmd c) then x.position + cceCount c / blockSize x.device else x.position
  let s := s.setSub i n { x with count := x.count + cceBytes c, position := pos, pieces := [], onceOpen := false }
  if x.onceOpen then journal s i n 3 false else s

/-- The end of the program: the length check of the EXPOSE ranges, then DONE (R275). -/
def endProgram (s : State) (i n : Nat) : State :=
  if (s.sub i n).exposes.any fun e => !e.shortOk && exposedBytes e < e.len then endSub s i n .deviceError 0x203 0
  else endSub s i n .done 0 0

/-- Does the current CCE wait: for journal space, or for its ONCE_ISSUE entry's group (R262, R264)? -/
inductive Ready where
  | go (s : State)
  | hold (s : State)

/-- The ONCE_ISSUE entry of a once-only CCE. -/
def onceIssue (s : State) (i n : Nat) : Ready :=
  let x := s.sub i n
  if !cceOnce (curCce x) || x.onceOpen || x.onceDone.contains x.cce then .go s
  else if !spaceForEntry s then .hold s
  else
    let wait := s.twin.st == .paired
    let s := s.setSub i n { x with onceOpen := true, startJsn := if wait then some s.css.jsn else none }
    let s := journal s i n 2 false (.startEntry i n)
    if wait then .hold s else .go s

/-- Does the current CCE wait out the fence interval before it is reissued (R269)? -/
def fenced (m : Nat) : Bool := m == 2 || m == 3 || m == 7 || m == 0x20

/-- Does a command send data of its buffer? -/
def cmdSends (m : Nat) : Bool := m == 2 || m == 3 || m == 0x20

/-- CCEs executed from the current one until one waits: for the world outside, for a line that an engine holds uncommitted, for journal
space, or for a mirror group; `fuel` bounds their number. -/
def runCces : Nat → State → Nat → Nat → State
  | 0, s, _, _ => s
  | fuel + 1, s, i, n =>
    let x := s.sub i n
    let c := curCce x
    let m := cceCmd c
    let redone := x.onceDone.contains x.cce
    let owners := if cmdSends m && !redone then instOwners s i (cceAddr c) (cceCount c) else []
    if x.st != .active || x.lossWaits || x.startJsn.isSome || !x.pieces.isEmpty then s
    else if !pathUp s x.device (subPath s x) then losePath s i n
    else if owners != [] then askCommit s owners
    else
      match (if cmdSends m && !redone then instPoison s i (cceAddr c) (cceCount c) else none) with
      | some l => endPoisoned s i n l
      | none =>
        match onceIssue s i n with
        | .hold s => s
        | .go s =>
          let x := s.sub i n
          -- the CCE completes at once, and the next one follows
          let next (s : State) : State :=
            let s := finishCce s i n
            if cceMore c then
              runCces fuel (s.setSub i n { s.sub i n with cce := x.cce + 1 }) i n
            else endProgram s i n
          if redone then next s
          else if m == 5 || m == 0x10 || m == 0x22 then
            if !doneReady s x then s
            else if m == 0x22 then
              next (s.setSub i n { x with exposes := x.exposes ++
                [{ k := x.exposes.length, base := cceAddr c, len := cceCount c, shortOk := cceShortOk c }] })
            else next s
          else if m == 0x23 then
            let v := x.device * 2048 + cceAddr c % 2048
            match kvFind s.css.adapterMsgs v with
            | some (w + 1) =>
              if !doneReady s x then s else next { s with css := { s.css with adapterMsgs := kvSet s.css.adapterMsgs v w } }
            | _ => s.setSub i n { x with issueTb := s.clk.tb, pieces := [{ lba := 0, len := 0, off := 0 }] }
          else
            let s := if cmdSends m then hubUse s i (cceAddr c) (cceCount c) else s
            let ps := if cmdBlocks m then
                let b := cceCount c / blockSize x.device
                splitRange (Config.maxBlocks x.device (subPath s x)) (b + 1) x.position b 0
              else [{ lba := x.position, len := 0, off := 0 }]
            let s := match x.redo with
              | some t => if fenced m then passUntil s (t + (subDev s x).fence * 100) else s
              | none => s
            sendPieces s i n c ps

/-- CCEs of an operation executed as far as they go. -/
def runSub (s : State) (i n : Nat) : State := runCces 257 s i n

/-- Every piece has completed: the CCE ends with the error of the lowest LBA, or completes (R274). -/
def settleCce (s : State) (i n : Nat) : State :=
  let x := s.sub i n
  if x.pieces.any fun p => !p.done then s
  else
    match pieceError x with
    | some e => endError s i n e
    | none =>
      if !doneReady s x then s
      else
        let more := cceMore (curCce x)
        let s := finishCce s i n
        if more then runSub (s.setSub i n { s.sub i n with cce := x.cce + 1 }) i n else endProgram s i n

/-! ## CHE_START_OPERATION (R253, R256, R264, R277) -/

/-- Operations that channel engine `c` holds. -/
def cheLoad (s : State) (c : Nat) : Nat :=
  (s.css.subs.filter fun e => e.2.che == c && (e.2.st == .validating || e.2.st == .active || e.2.st == .reissuing || e.2.st == .ending)).length

/-- May channel engine `c` take another operation? -/
def cheFree (s : State) (c : Nat) : Bool := decide (c < 32) && !s.css.chesStopped.contains c && !underTest s 7 c && decide (cheLoad s c < 2048)

/-- Is no other ISSUED operation before subchannel `n` of instance `i`: higher PRIO, then SSTART order (R277)? -/
def firstIssued (s : State) (i n : Nat) : Bool :=
  let x := s.sub i n
  !s.css.subs.any fun e => e.2.st == .issued && e.1 != i * 65536 + n
    && (x.prio < e.2.prio || (x.prio == e.2.prio && e.2.order < x.order))

/-- Engines that hold a line of the program uncommitted, the first CCE of which there is one counting. -/
def progOwners (s : State) (i : Nat) : Nat → Nat → List Nat
  | 0, _ => []
  | fuel + 1, a =>
    if !rangeBacked s i a 16 then []
    else
      let o := instOwners s i a 16
      if o != [] then o else if cceMore (instRead s i a 16) then progOwners s i fuel (a + 16) else []

/-- The program of a VALIDATING operation checked, and its CCEs executed as far as they go; a line that an engine holds uncommitted is waited
for (R202). -/
def validate (s : State) (i n : Nat) : State :=
  let x := s.sub i n
  let owners := progOwners s i 256 x.program
  if owners != [] then askCommit s owners
  else
    match checkProgram s i x (subDev s x).namespace 256 0 {} with
    | .error (k, st, d, bad) =>
      let s := s.setSub i n { x with cce := k }
      let s := match bad with
        | some l => logPoison s i l 2 x.opJsn
        | none => s
      endSub s i n st d 0
    | .ok prog =>
      -- with no path available, the operation waits for one as if its path had been lost
      let s := hubUse s i x.program (16 * prog.length)
      runSub (s.setSub i n { x with st := .active, prog := prog, path := (choosePath s x).getD 0 }) i n

/-- What an operation that waits for a line, for journal space or for a path does next, if it can (R202, R264). -/
def resumeOp (s : State) (i n : Nat) : State :=
  let x := s.sub i n
  if x.st == .validating then validate s i n
  else if x.st != .active then s
  else if x.lossWaits then losePath s i n
  else if x.pieces.isEmpty then runSub s i n
  else settleCce s i n

/-- Every operation that waits, in SSTART order. -/
def resumeOps (s : State) : State :=
  if !s.live || s.css.stopped then s
  else
    ((s.css.subs.filter fun e => e.2.st == .validating || e.2.st == .active).mergeSort fun a b => a.2.order ≤ b.2.order).foldl
      (fun s e => resumeOp s (e.1 / 65536) (e.1 % 65536)) s

def execCheStartOperation (che i sub : Nat) (s : State) : Res :=
  let s := s.quiet
  let x := s.sub i sub
  if !s.live || s.css.stopped then .next s
  else if (x.st == .validating || x.st == .active) && x.che == che then .next (resumeOp s i sub)
  else if !(cheFree s che && x.st == .issued && (s.inst i).st == .running && firstIssued s i sub && spaceForStart s) then .next s
  else
    let j := s.css.jsn
    let s := s.setSub i sub { x with st := .validating, che := che, opJsn := j, startJsn := if s.twin.st == .paired then some j else none }
    .next (validate (journal s i sub 1 false (.startEntry i sub)) i sub)

/-! ## Device completions (R254, R273, R274) -/

/-- The piece of the current CCE at `lba` that has not completed. -/
def openPiece (x : Sub) (lba : Nat) : Option Piece := x.pieces.find? fun p => p.lba == lba && !p.done

def setPiece (x : Sub) (lba : Nat) (p : Piece) : Sub :=
  { x with pieces := x.pieces.map fun q => if q.lba == lba && !q.done then p else q }

/-- The path of an operation lost for its device only, and for the device's other operations on it (R267). -/
def loseDevice (s : State) (dev path : Nat) : State :=
  let p := s.path path
  let s := { s with css := { s.css with paths := kvSet s.css.paths path { p with lostDevs := dev :: p.lostDevs.filter (· != dev) } } }
  let s := logEvent s { s.entry 0x20 2 0x08 path with param := dev * 2 ^ 48 }
  s.css.subs.foldl (fun s e =>
    if e.2.st == .active && e.2.device == dev && subPath s e.2 == path then losePath s (e.1 / 65536) (e.1 % 65536) else s) s

def execDeviceCompletion (i sub : Nat) (c : DevCompletion) (s : State) : Res :=
  let s := s.quiet
  let x := s.sub i sub
  let cce := curCce x
  let m := cceCmd cce
  if !(s.live && !s.css.stopped && x.st == .active && !x.lossWaits && m != 0x23) then .next s
  else
    match openPiece x c.lba with
    | none => .next s
    | some p =>
      let close (s : State) (err : Option (Nat × Nat × Nat)) : State :=
        settleCce (s.setSub i sub (setPiece (s.sub i sub) c.lba { p with done := true, err := err })) i sub
      match c.outcome with
      | .good data =>
        if m == 0x21 || (m == 1 && !cceNostore cce) then
          let (a, len) := if m == 0x21 then (cceAddr cce, cceCount cce)
                          else (cceAddr cce + p.off * blockSize x.device, p.len * blockSize x.device)
          let owners := instOwners s i a len
          if owners != [] then .next (askCommit s owners)
          else .next (close (instWrite s i a (padTo len data)) none)
        else .next (close s none)
      | .pathRelated => .next (loseDevice s x.device (subPath s x))
      | .guardOnWrite =>
        if p.retried then .next (loseDevice s x.device (subPath s x))
        else
          match egressPoison s i x cce [p] with
          | some l => .next (endPoisoned s i sub l)
          | none => .next ((s.setSub i sub (setPiece x c.lba { p with retried := true })).emit (pieceOut s i x cce p))
      | .guardOnRead => .next (close s (some (8, 2, 0)))
      | .referenceOnRead => .next (close s (some (8, 3, 0)))
      | .error st => .next (close s (some (14, 0x200, if (subDev s x).namespace then st.toNat else 0)))

/-! ## Paths lost and returned (R267 to R271) -/

def execCommandTimeout (i sub : Nat) (s : State) : Res :=
  let s := s.quiet
  let x := s.sub i sub
  if s.live && !s.css.stopped && x.st == .active && !x.lossWaits && x.pieces.any (fun p => !p.done) && cceCmd (curCce x) != 0x23 then
    let s := passUntil s (x.issueTb + (subDev s x).timeout * 100)
    .next (loseDevice s x.device (subPath s x))
  else .next s

/-- A whole path lost. -/
def loseLink (s : State) (path : Nat) : State :=
  let p := s.path path
  let s := { s with css := { s.css with paths := kvSet s.css.paths path { p with down := true } } }
  let s := logEvent s { s.entry 0x20 2 0x08 path with param := 0xFFFF * 2 ^ 48 }
  s.css.subs.foldl (fun s e =>
    if e.2.st == .active && subPath s e.2 == path then losePath s (e.1 / 65536) (e.1 % 65536) else s) s

def execPathLost (path : Nat) (dev : Option Nat) (s : State) : Res :=
  let s := s.quiet
  let p := s.path path
  if !s.live || s.css.stopped || p.down then .next s
  else
    match dev with
    | none => .next (loseLink s path)
    | some d => if p.lostDevs.contains d then .next s else .next (loseDevice s d path)

def execPathReissue (i sub path : Nat) (s : State) : Res :=
  let s := s.quiet
  let x := s.sub i sub
  let d := subDev s x
  let idx := (List.range d.paths.length).find? fun k => pathNum s ((d.paths[k]?).getD 0) == path
  match idx with
  | none => .next s
  | some k =>
    if !(s.live && !s.css.stopped && x.st == .reissuing && x.startJsn.isNone && choosePath s x == some k) then .next s
    else
      let c := curCce x
      let started := !x.pieces.isEmpty
      let s := if started && fenced (cceCmd c) then passUntil s (x.lossTb + d.fence * 100) else s
      let left := x.pieces.filter fun p => !p.done
      let fresh := if cmdBlocks (cceCmd c) then
          left.flatMap fun p => splitRange (Config.maxBlocks x.device path) (p.len + 1) p.lba p.len p.off
        else left.map fun p => { p with retried := false }
      let s := s.setSub i sub { x with st := .active, path := k, reissued := true, reissues := min 0xFFFF (x.reissues + 1), pieces := [] }
      if started && cceCmd c != 0x23 then
        match egressPoison s i (s.sub i sub) c fresh with
        | some l => .next (endPoisoned s i sub l)
        | none =>
          let s := sendPieces s i sub c fresh
          .next (s.setSub i sub { s.sub i sub with pieces := (x.pieces.filter (·.done)) ++ fresh })
      else .next (runSub s i sub)

def execPathWaitExpire (i sub : Nat) (s : State) : Res :=
  let s := s.quiet
  let x := s.sub i sub
  if s.live && !s.css.stopped && x.st == .reissuing then
    .next (endSub (passUntil s (x.lossTb + (subDev s x).pathWait * 100)) i sub .deviceError 0x201 0)
  else .next s

def execPathReturn (path : Nat) (dev : Option Nat) (identityOk : Bool) (s : State) : Res :=
  let s := s.quiet
  let p := s.path path
  let out := match dev with
    | none => p.down
    | some d => p.lostDevs.contains d
  if !s.live || s.css.stopped || !out then .next s
  else
    let param := dev.getD 0xFFFF * 2 ^ 48
    if !identityOk then .next (logEvent s { s.entry 0x22 0 0x08 path with param := param })
    else
      let p := match dev with
        | none => { p with down := false }
        | some d => { p with lostDevs := p.lostDevs.filter (· != d) }
      let s := { s with css := { s.css with paths := kvSet s.css.paths path p } }
      .next (logEvent s { s.entry 0x21 0 0x08 path with param := param })

/-! ## END entries and statuses (R256, R259) -/

/-- The status record is written once the END entry is committed and no engine holds its line; that of an operation held by a quiesce whose
instance has since been resumed, too (R28, R256). -/
def execEndEntryCommit (i sub : Nat) (s : State) : Res :=
  let s := s.quiet
  let x := s.sub i sub
  let due := x.st == .ending || (x.st == .held && (s.inst i).st == .running)
  if !(s.live && !s.css.stopped && due && x.endWait.isNone) then .next s
  else
    let owners := if rangeBacked s i x.status 32 then instOwners s i x.status 32 else []
    if owners != [] then .next (askCommit s owners) else .next (resumeOps (writeStatus s i sub))

/-! ## Adapters (R275) -/

/-- The operation, if any, whose current CCE waits for vector `vec` of device `dev`: the one started first. -/
def waiterOf (s : State) (dev vec : Nat) : Option Nat :=
  ((s.css.subs.filter fun e =>
    let c := curCce e.2
    e.2.st == .active && e.2.device == dev && cceCmd c == 0x23 && cceAddr c % 2048 == vec && !e.2.pieces.isEmpty).mergeSort
      fun a b => a.2.order ≤ b.2.order).head?.map Prod.fst

/-- The WAITINT of an operation satisfied. -/
def endWaitint (s : State) (i n : Nat) : State :=
  let x := s.sub i n
  settleCce (s.setSub i n { x with pieces := x.pieces.map fun p => { p with done := true } }) i n

def execAdapterMsix (dev vec : Nat) (s : State) : Res :=
  let s := s.quiet
  if !s.live || s.css.stopped then .next s
  else
    match waiterOf s dev vec with
    | some k => .next (endWaitint s (k / 65536) (k % 65536))
    | none =>
      let v := dev * 2048 + vec
      .next { s with css := { s.css with adapterMsgs := kvSet s.css.adapterMsgs v (kvGet 0 s.css.adapterMsgs v + 1) } }

def execWaitintTimeout (i sub : Nat) (s : State) : Res :=
  let s := s.quiet
  let x := s.sub i sub
  let c := curCce x
  if s.live && !s.css.stopped && x.st == .active && cceCmd c == 0x23 && !x.pieces.isEmpty then
    .next (endSub (passUntil s (x.issueTb + cceCount c * 100)) i sub .deviceError 0x202 0)
  else .next s

/-- The window that a bus address of an adapter names: instance, subchannel, window number and offset (R275). -/
def exposeAt (addr : Nat) : Option (Nat × Nat × Nat × Nat) :=
  if addr < 2 ^ 54 then none
  else
    let o := addr - 2 ^ 54
    if o / 2 ^ 44 ≥ 512 then none else some (o / 2 ^ 44, o / 2 ^ 28 % 65536, o / 2 ^ 24 % 16, o % 2 ^ 24)

/-- An access of an adapter to a bus address (R275). The spec has no event code for one outside every window (assumption log 128). -/
def execAdapterDma (dev : Nat) (write : Bool) (addr : Nat) (len : Nat) (data : List Byte) (s : State) : Res :=
  let s := s.quiet
  if !s.live || s.css.stopped then .next s
  else
    let n := if write then data.length else len
    let hit : Option (Nat × Nat × Expose × Nat) := match exposeAt addr with
      | none => none
      | some (i, sub, k, off) =>
        let x := s.sub i sub
        if x.device != dev || (x.st != .active && x.st != .reissuing) then none
        else ((x.exposes.find? fun e => e.k == k && off + n ≤ e.len).map fun e => (i, sub, e, off))
    match hit with
    | none => .next (s.emit (.adapterUr dev))
    | some (i, sub, e, off) =>
      let a := e.base + off
      let owners := instOwners s i a n
      if owners != [] then .next (askCommit s owners)
      else if write then
        let s := instWrite s i a data
        let x := s.sub i sub
        .next (s.setSub i sub { x with exposes := x.exposes.map fun y =>
          if y.k == e.k then { y with written := if n == 0 then y.written else addExtent y.written off n } else y })
      else
        match instPoison s i a n with
        | some l =>
          -- an operation whose path is lost does not end here (R256): the adapter gets no data
          if (s.sub i sub).st == .active then .next (endPoisoned s i sub l)
          else .next ((logPoison s i l 2 (s.sub i sub).opJsn).emit (.adapterUr dev))
        | none => .next ((hubUse s i a n).emit (.adapterData dev (instRead s i a n)))

end Sys2Proof.Machine
end

