-- ==== Sys2Proof/Machine/Cipher.lean ====
section
/-! DEFINITION. The cipher engines (R280 to R302): keys, requests, jobs. -/

namespace Sys2Proof.Machine

open Sys2Proof

/-! ## Targets and algorithms -/

/-- Handle and slot of TARGET (R288). -/
def tgtHandle (e : List Byte) : Nat := bits (reqTarget e) 7 4
def tgtSlot (e : List Byte) : Nat := bits (reqTarget e) 2 0

/-- The physical page of a handle that instance `i` holds (R286). -/
def pageOf (s : State) (i h : Nat) : Option Nat := (s.inst i).keyPages[h]?

/-- Does a key of algorithm `alg` serve an opcode (R287)? -/
def serves (alg op : Nat) : Bool :=
  match alg with
  | 1 => 0x10 ≤ op && op ≤ 0x13
  | 2 => 0x10 ≤ op && op ≤ 0x13
  | 3 => op == 0x14 || op == 0x15
  | 4 => op == 0x14 || op == 0x15
  | 5 => op == 0x16 || op == 0x17
  | 6 => op == 0x16 || op == 0x17
  | 7 => op == 0x18 || op == 0x19
  | 8 => op == 0x18 || op == 0x19
  | _ => false

/-- Is TAGLEN in the range of the algorithm (R280)? -/
def tagLenOk (alg op n : Nat) : Bool :=
  if op == 0x14 || op == 0x15 then true
  else match alg with
    | 1 => 12 ≤ n && n ≤ 16
    | 2 => 12 ≤ n && n ≤ 16
    | 5 => 8 ≤ n && n ≤ 16
    | 6 => 8 ≤ n && n ≤ 16
    | 7 => 16 ≤ n && n ≤ 32
    | _ => 24 ≤ n && n ≤ 48

/-- The output length of a cipher request (R296). -/
def outLen (e : List Byte) : Nat :=
  let op := reqOp e
  let src := reqSrcLen e
  let tag := par e 36
  match op with
  | 0x10 => src + tag
  | 0x11 => src - tag
  | 0x12 => tag
  | 0x14 => src
  | 0x15 => src
  | 0x16 => tag
  | 0x18 => tag
  | 0x1A => if tag == 1 then 32 else if tag == 2 then 48 else 64
  | _ => 0

/-- The usage units that a class D job is charged (R295). -/
def chargeOf (x : Slot) (e : List Byte) : Nat := if x.unit then 1 else max 1 ((reqSrcLen e + 15) / 16)

/-- Is a key exhausted for a request (R293, R295)? -/
def keyExhausted (x : Slot) (e : List Byte) : Bool :=
  let op := reqOp e
  if x.classD then x.state == 2 || x.used + x.reserved + chargeOf x e > x.limit
  else x.state == 2 && (op == 0x10 || op == 0x12)

/-- The charge of jobs of a slot that are admitted and whose commit points are not complete. -/
def openCharge (s : State) (pg n : Nat) : Nat :=
  (((openJobs s false).filter fun j => j.page == pg && j.slot == n).map (·.charge)).sum

/-- Steps 1 to 5 of R297: the status of the first that applies, with DETAIL. -/
def cipherStatus (s : State) (i : Nat) (e : List Byte) : Option (Status × Nat) :=
  let op := reqOp e
  let full := reqDstLen e < outLen e
  if op == 0x1A then (if full then some (.outputFull, 0) else none)
  else
    match pageOf s i (tgtHandle e) with
    | none => some (.accessDenied, 0)
    | some pg =>
      let x := s.slot pg (tgtSlot e)
      if x.state == 0 then some (.keyAbsent, 0)
      else if !serves x.alg op then some (.fieldInvalid, 3)
      else if !tagLenOk x.alg op (par e 36) then some (.fieldInvalid, 36)
      else if keyExhausted { x with reserved := x.reserved + openCharge s pg (tgtSlot e) } e then some (.keyExhausted, 0)
      else if full then some (.outputFull, 0)
      else none

/-- The job of a cipher request: its page, slot and charge. -/
def cipherJob (s : State) (i : Nat) (e : List Byte) : Job :=
  let pg := (pageOf s i (tgtHandle e)).getD 0
  let x := s.slot pg (tgtSlot e)
  let j : Job := { inst := i, seq := 0, entry := e }
  if reqOp e == 0x1A then j
  else { j with page := pg, slot := tgtSlot e, charge := if x.classD && reqOp e < 0x30 then chargeOf x e else 0 }

/-- A cipher request offered to its queue (R297). -/
def cipherRequest (s : State) (n q op : Nat) : Res :=
  let s := s.quiet
  match takeReq s n q op with
  | none => .next s
  | some r =>
    match cipherStatus s (n - 1) r.entry with
    | some (st, d) => .next (answer s r st d)
    | none => .next (offerJob s r false (cipherJob s (n - 1) r.entry))

def execGcmEncrypt (fn : Nat) (seq : BitVec 32) (s : State) : Res := cipherRequest s fn seq.toNat 0x10
def execGcmDecrypt (fn : Nat) (seq : BitVec 32) (s : State) : Res := cipherRequest s fn seq.toNat 0x11
def execGmacGenerate (fn : Nat) (seq : BitVec 32) (s : State) : Res := cipherRequest s fn seq.toNat 0x12
def execGmacVerify (fn : Nat) (seq : BitVec 32) (s : State) : Res := cipherRequest s fn seq.toNat 0x13
def execXtsEncrypt (fn : Nat) (seq : BitVec 32) (s : State) : Res := cipherRequest s fn seq.toNat 0x14
def execXtsDecrypt (fn : Nat) (seq : BitVec 32) (s : State) : Res := cipherRequest s fn seq.toNat 0x15
def execCmacGenerate (fn : Nat) (seq : BitVec 32) (s : State) : Res := cipherRequest s fn seq.toNat 0x16
def execCmacVerify (fn : Nat) (seq : BitVec 32) (s : State) : Res := cipherRequest s fn seq.toNat 0x17
def execHmacGenerate (fn : Nat) (seq : BitVec 32) (s : State) : Res := cipherRequest s fn seq.toNat 0x18
def execHmacVerify (fn : Nat) (seq : BitVec 32) (s : State) : Res := cipherRequest s fn seq.toNat 0x19
def execHash (fn : Nat) (seq : BitVec 32) (s : State) : Res := cipherRequest s fn seq.toNat 0x1A

/-! ## Key management (R288 to R290) -/

/-- The instance's key-encryption key (R397, R399). -/
def kekOf (s : State) (i : Nat) : List Byte := kdf s.spire.secret "KG9 KEK" (s.spire.seed ++ toBE 2 i) 32

/-- What a key operation comes to: the state, status and DETAIL, and the bytes it writes to DST. -/
structure KeyEnd where
  s : State
  st : Status
  detail : Nat := 0
  out : List Byte := []

/-- KEY_LOAD with its wrapped key (R289). `self` jobs of XCALL on the slot that are this operation do not count in RUNNING. -/
def keyLoad (s : State) (i : Nat) (e data : List Byte) (own : Nat) : KeyEnd :=
  match pageOf s i (tgtHandle e) with
  | none => { s := s, st := .accessDenied }
  | some pg =>
    let n := tgtSlot e
    let x := s.slot pg n
    let fl := par e 37
    let alg := par e 36
    let len := fieldBE e 48 2
    let lim := fieldBE e 40 8
    if bit fl 0 && !s.img.plainKeys then { s := s, st := .accessDenied }
    else if x.running > own then { s := s, st := .stateRefused }
    else
      match (if bit fl 0 then some (x.staging.take len) else keyUnwrap (kekOf s i) (padTo (len + 8) data)) with
      | none => { s := s, st := .authFailed }
      | some key =>
        if (alg == 3 || alg == 4) && key.take (len / 2) == key.drop (len / 2) then { s := s, st := .fieldInvalid, detail := 48 }
        else
          let y : Slot := {
            alg := alg, keylen := len, state := 1, exportable := bit fl 1, plain := bit fl 0, unit := bit fl 2
            limit := if alg ≤ 2 then 2 ^ 48 else if lim == 0 then 2 ^ 36 else lim
            key := key, kcv := fieldBE (sha256 key) 0 4, running := x.running }
          { s := s.setSlot pg n y, st := .done }

def keyWrapOp (s : State) (i : Nat) (e : List Byte) : KeyEnd :=
  match pageOf s i (tgtHandle e) with
  | none => { s := s, st := .accessDenied }
  | some pg =>
    let x := s.slot pg (tgtSlot e)
    if x.state == 0 then { s := s, st := .keyAbsent }
    else if !x.exportable then { s := s, st := .accessDenied }
    else if reqDstLen e < x.keylen + 8 then { s := s, st := .fieldInvalid, detail := 28 }
    else { s := s, st := .done, out := keyWrap (kekOf s i) x.key }

def keyRetire (s : State) (i : Nat) (e : List Byte) (own : Nat) : KeyEnd :=
  match pageOf s i (tgtHandle e) with
  | none => { s := s, st := .accessDenied }
  | some pg =>
    let x := s.slot pg (tgtSlot e)
    if x.running > own then { s := s, st := .stateRefused }
    else { s := s.setSlot pg (tgtSlot e) { running := x.running }, st := .done }

def keyLimit (s : State) (i : Nat) (e : List Byte) : KeyEnd :=
  match pageOf s i (tgtHandle e) with
  | none => { s := s, st := .accessDenied }
  | some pg =>
    let x := s.slot pg (tgtSlot e)
    let lim := fieldBE e 40 8
    if lim == 0 || lim ≥ x.limit || !x.classD then { s := s, st := .fieldInvalid, detail := 40 }
    else { s := s.setSlot pg (tgtSlot e) { x with limit := lim, state := if lim ≤ x.used then 2 else x.state }, st := .done }

/-- The key operation of an entry. -/
def keyOp (s : State) (i : Nat) (e data : List Byte) (own : Nat) : KeyEnd :=
  match reqOp e with
  | 0x30 => keyLoad s i e data own
  | 0x31 => keyWrapOp s i e
  | 0x32 => keyRetire s i e own
  | _ => keyLimit s i e

/-- A key operation refused in the present state of its slot is logged (R60, assumption log 34). -/
def keyRefused (s : State) (i seq : Nat) (st : Status) : State :=
  if st != .stateRefused then s
  else logEvent s { s.entry 0x42 0 0x12 0xFFFF with inst := i, detail := (s.inst i).st.code, ref := seq }

/-- A key-management request of the host; one that reads or writes host memory waits for Bus Master Enable (R91). A wrapped key is
written by HOST_TRANSFER_DONE. -/
def keyRequest (s : State) (n q op : Nat) (data : List Byte) : Res :=
  let s := s.quiet
  match takeReq s n q op with
  | none => .next s
  | some r =>
    let moves := op == 0x31 || (op == 0x30 && !bit (par r.entry 37) 0)
    if moves && !(s.fn n).bme then .next s
    else
      let k := keyOp s (n - 1) r.entry data 0
      if op == 0x31 && k.st == .done then .next (k.s.putReq { r with stage := .running, data := k.out })
      else
        let s := keyRefused k.s (n - 1) q k.st
        let s := match pageOf s (n - 1) (tgtHandle r.entry) with
          | some pg => if k.st == .done && keyChange op then noteKey s (n - 1) (tgtSlot r.entry) (s.slot pg (tgtSlot r.entry)) else s
          | none => s
        .next (complete s n q k.st.code k.detail k.out.length [])

def execKeyLoad (fn : Nat) (seq : BitVec 32) (data : List Byte) (s : State) : Res := keyRequest s fn seq.toNat 0x30 data
def execKeyWrap (fn : Nat) (seq : BitVec 32) (s : State) : Res := keyRequest s fn seq.toNat 0x31 []
def execKeyRetire (fn : Nat) (seq : BitVec 32) (s : State) : Res := keyRequest s fn seq.toNat 0x32 []
def execKeyLimit (fn : Nat) (seq : BitVec 32) (s : State) : Res := keyRequest s fn seq.toNat 0x33 []

/-! ## CIPHER_JOB_START (R300, R301) -/

/-- Suspension contexts free: seven on each key page, 64 in the hub for HASH. -/
def contextFree (s : State) (j : Job) : Bool :=
  let h := reqOp j.entry == 0x1A
  let n := (s.xce.jobs.filter fun x => x.st == .suspended && (reqOp x.entry == 0x1A) == h && (h || x.page == j.page)).length
  n < (if h then 64 else 7)

/-- The running job that a job of priority `p` of instance `i` may suspend: the lowest priority below `p`, the later started on a
tie, of those that have a context free and fewer than four suspensions. -/
def victim (s : State) (i p : Nat) : Option Job :=
  ((s.xce.jobs.filter fun j =>
    (match j.running? with | some e => (groupEngines s false i).contains e | none => false)
      && reqPrio j.entry < p && contextFree s j && j.suspends < 4).mergeSort fun a b =>
        reqPrio a.entry < reqPrio b.entry || (reqPrio a.entry == reqPrio b.entry && a.startOrder ≥ b.startOrder)).head?

def execCipherJobStart (e : Nat) (s : State) : Res :=
  let s := s.quiet
  if !s.live || accelCount s false ≤ e || !takesJobs s false e then .next s
  else
    match nextJob s false e with
    | none => .next s
    | some j =>
      match jobOn s false e with
      | none => .next (startJob s false j e)
      | some r =>
        let busy := ((groupEngines s false j.inst).filter (takesJobs s false)).all fun q => (jobOn s false q).isSome
        match victim s j.inst (reqPrio j.entry) with
        | some v =>
          if busy && v.same r then
            .next (startJob (s.putJob false { r with st := .suspended, suspends := r.suspends + 1 }) false j e)
          else .next s
        | none => .next s

/-! ## CIPHER_JOB_DONE (R291 to R298) -/

/-- What a cipher job computes from its source: status, output, RESULT. -/
def cipherResult (x : Slot) (e src aad fixed : List Byte) : Status × List Byte × List Byte :=
  let tag := par e 36
  let nonce := fixed ++ toBE 8 x.used
  let given := slice e 52 12
  let body := src.take (src.length - tag)
  let sent := src.drop (src.length - tag)
  let check (b : Bool) (out : List Byte) : Status × List Byte × List Byte := if b then (.done, out, []) else (.authFailed, [], [])
  let mac (m : List Byte) : List Byte := if x.alg ≤ 6 then cmac x.key m else if x.alg == 7 then hmac256 x.key m else hmac384 x.key m
  match reqOp e with
  | 0x10 =>
    let c := gcmCrypt x.key nonce src
    (.done, c ++ (gcmTag x.key nonce aad c).take tag, nonce)
  | 0x11 => check ((gcmTag x.key given aad body).take tag == sent) (gcmCrypt x.key given body)
  | 0x12 => (.done, (gcmTag x.key nonce src []).take tag, nonce)
  | 0x13 => check ((gcmTag x.key given body []).take tag == sent) []
  | 0x14 => (.done, xts false x.key (slice e 40 16) src, [])
  | 0x15 => (.done, xts true x.key (slice e 40 16) src, [])
  | 0x1A => (.done, if tag == 1 then sha256 src else if tag == 2 then sha384 src else sha512 src, [])
  | op =>
    if op == 0x16 || op == 0x18 then (.done, (mac src).take tag, [])
    else check ((mac body).take tag == sent) []

/-- Output that an unstaged job has produced before its source failed after `good` bytes: how much of it DST holds is open
(R60, R298). -/
def partialOut (s : State) (j : Job) (x : Slot) (src fixed : List Byte) (good : Nat) : State :=
  let op := reqOp j.entry
  if reqChk j.entry || !(op == 0x10 || op == 0x14 || op == 0x15) then s
  else
    let most := good / 16 * 16 - 16
    let (n, s) := s.fresh
    let out := (cipherResult x j.entry (padTo (reqSrcLen j.entry) (src.take good)) [] fixed).2.1
    jobWrite s j (out.take (Config.pick n % (most + 1)))

def execCipherJobDone (e : Nat) (src aad : List Byte) (fault : Option JobFault) (s : State) : Res :=
  let s := s.quiet
  match jobOn s false e with
  | none => .next s
  | some j =>
    let owners := jobOwners s j
    if !s.live || jobWaits s j then .next s
    else if owners != [] then .next (askCommit s owners)
    else
      let s := jobZones s j
      let x := s.slot j.page j.slot
      -- XP_PAGE bits [31:0], the fixed field of every nonce (R283, R291)
      let fixed := toBE 4 (s.spire.modid * 1024 + j.page)
      match jobData s j src aad fault with
      | .failed st d good pin line =>
        let s := if pin && j.area.isNone then poisonIn s (j.inst + 1) else s
        let s := match line with
          | some l => logPoison s j.inst l 1 j.seq
          | none => s
        let tag := st == Status.tagMismatch.code
        let s := if tag then partialOut s j x src fixed good else s
        .next (endJob s false j st d (if tag then good else 0) [])
      | .ok src aad =>
        if !chkOk j.entry src then .next (endJob s false j Status.tagMismatch.code 1 0 [])
        else if nonceJob j && x.state == 2 then .next (endJob s false j Status.keyExhausted.code 0 0 [])
        else if reqOp j.entry ≥ 0x30 then
          let k := keyOp s j.inst j.entry src 1
          let s := jobWrite (keyRefused k.s j.inst j.seq k.st) j k.out
          .next (endJob s false j k.st.code k.detail k.out.length [])
        else
          let (st, out, result) := cipherResult x j.entry src aad fixed
          let s := jobWrite s j out
          .next (endJob s false j st.code 0 out.length result)

end Sys2Proof.Machine
end

