-- ==== Sys2Proof/Machine/Inflate.lean ====
section
/-! DEFINITION. The decoding of DEFLATE, zlib and gzip streams (R306, R307, R315, R316). -/

namespace Sys2Proof

/-- Why a stream does not decode: a stream error with its REASON and bit offset, an output that does not fit with the source bytes
consumed, or a check value that differs with its DETAIL, the value computed and the value in the stream. -/
inductive ZFail where
  | stream (reason pos : Nat)
  | full (count : Nat)
  | check (detail computed given : Nat)
  deriving DecidableEq, Repr

/-- The decoder: the next bit of the source, the output so far, blocks and stored blocks. -/
structure Inf where
  pos : Nat := 0
  out : Array Byte := #[]
  blocks : Nat := 0
  stored : Nat := 0

/-- The source of a stream, and the output space. -/
structure ZSrc where
  a : Array Byte
  room : Nat

def ZSrc.bit (z : ZSrc) (i : Nat) : Nat := ((z.a.getD (i / 8) 0).toNat / 2 ^ (i % 8)) % 2
def ZSrc.size (z : ZSrc) : Nat := z.a.size * 8
def ZSrc.byte (z : ZSrc) (i : Nat) : Nat := (z.a.getD i 0).toNat

/-- `n` bits, least significant first. -/
def ZSrc.take (z : ZSrc) (pos n : Nat) : Except ZFail Nat :=
  if pos + n > z.size then .error (.stream 0x0A z.size)
  else .ok ((List.range n).foldl (fun v i => v + z.bit (pos + i) * 2 ^ i) 0)

/-- A canonical code: how many codes there are of each length, and the symbols by length and value. -/
structure Huff where
  counts : List Nat
  syms : Array Nat

def mkHuff (lens : List Nat) : Huff :=
  { counts := (List.range 16).map fun n => if n = 0 then 0 else lens.count n
    syms := ((List.range 15).flatMap fun n => (lens.zipIdx.filter fun x => x.1 == n + 1).map Prod.snd).toArray }

/-- Codes left unused by a set of lengths, in units of the longest code; negative when over-subscribed. -/
def Huff.left (h : Huff) : Int :=
  (h.counts.drop 1).foldl (fun (l : Int) n => l * 2 - n) 1

/-- Does a set of code lengths form a complete prefix code? A distance code of one symbol, or of none, is complete too (RFC 1951). -/
def Huff.complete (h : Huff) (dist : Bool) : Bool :=
  h.left == 0 || (dist && h.left > 0 && h.syms.size ≤ 1 && h.counts.getD 1 0 == h.syms.size)

/-- One symbol decoded from `pos`: the symbol and the position after it. -/
def Huff.decode (h : Huff) (z : ZSrc) (start : Nat) : Nat → Nat → Nat → Nat → Nat → Except ZFail (Nat × Nat)
  | 0, _, _, _, _ => .error (.stream 0x06 start)
  | fuel + 1, pos, code, first, index =>
    let len := 15 - fuel
    if pos ≥ z.size then .error (.stream 0x0A z.size)
    else
      let code := code + z.bit pos
      let n := h.counts.getD len 0
      if code < first + n then .ok (h.syms.getD (index + (code - first)) 0, pos + 1)
      else h.decode z start fuel (pos + 1) (code * 2) ((first + n) * 2) (index + n)

def Huff.next (h : Huff) (z : ZSrc) (pos : Nat) : Except ZFail (Nat × Nat) := h.decode z pos 15 pos 0 0 0

def lenBase : List Nat := [3, 4, 5, 6, 7, 8, 9, 10, 11, 13, 15, 17, 19, 23, 27, 31, 35, 43, 51, 59, 67, 83, 99, 115, 131, 163, 195, 227, 258]
def lenBits : List Nat := [0, 0, 0, 0, 0, 0, 0, 0, 1, 1, 1, 1, 2, 2, 2, 2, 3, 3, 3, 3, 4, 4, 4, 4, 5, 5, 5, 5, 0]

/-- Base and extra bits of distance symbol `d`. -/
def distBits (d : Nat) : Nat := if d < 4 then 0 else d / 2 - 1
def distBase (d : Nat) : Nat := if d < 4 then d + 1 else (2 + d % 2) * 2 ^ (d / 2 - 1) + 1

/-- Source bytes consumed up to bit `pos`. -/
def bytesUsed (pos : Nat) : Nat := (pos + 7) / 8

/-- `n` bytes copied from `dist` back. -/
def copyBack : Nat → Nat → Array Byte → Array Byte
  | 0, _, o => o
  | n + 1, dist, o => copyBack n dist (o.push (o.getD (o.size - dist) 0))

/-- The symbols of a compressed block. -/
def symbols (z : ZSrc) (lit dist : Huff) : Nat → Inf → Except ZFail Inf
  | 0, s => .error (.stream 0x0A s.pos)
  | fuel + 1, s => do
    let (sym, pos) ← lit.next z s.pos
    if sym < 256 then
      if s.out.size ≥ z.room then .error (.full (bytesUsed pos))
      else symbols z lit dist fuel { s with pos := pos, out := s.out.push (BitVec.ofNat 8 sym) }
    else if sym = 256 then .ok { s with pos := pos }
    else if sym ≥ 286 then .error (.stream 0x07 s.pos)
    else
      let eb := lenBits.getD (sym - 257) 0
      let ex ← z.take pos eb
      let len := lenBase.getD (sym - 257) 0 + ex
      let dpos := pos + eb
      let (d, pos) ← dist.next z dpos
      if d ≥ 30 then .error (.stream 0x07 dpos)
      else
        let dx ← z.take pos (distBits d)
        let back := distBase d + dx
        let pos := pos + distBits d
        if back > s.out.size then .error (.stream 0x08 dpos)
        else if s.out.size + len > z.room then .error (.full (bytesUsed pos))
        else symbols z lit dist fuel { s with pos := pos, out := copyBack len back s.out }

def fixedLit : Huff :=
  mkHuff (List.replicate 144 8 ++ List.replicate 112 9 ++ List.replicate 24 7 ++ List.replicate 8 8)
def fixedDist : Huff := mkHuff (List.replicate 32 5)

/-- The order of the code-length code's lengths (RFC 1951). -/
def clOrder : List Nat := [16, 17, 18, 0, 8, 7, 9, 6, 10, 5, 11, 4, 12, 3, 13, 2, 14, 1, 15]

/-- Code lengths read under the code-length code until `n` are known. -/
def readLens (z : ZSrc) (cl : Huff) (n : Nat) : Nat → Nat → List Nat → Except ZFail (List Nat × Nat)
  | 0, pos, _ => .error (.stream 0x06 pos)
  | fuel + 1, pos, acc => do
    if acc.length ≥ n then (if acc.length = n then .ok (acc, pos) else .error (.stream 0x06 pos))
    else
      let (sym, p) ← cl.next z pos
      if sym < 16 then readLens z cl n fuel p (acc ++ [sym])
      else if sym = 16 then
        match acc.getLast? with
        | none => .error (.stream 0x06 pos)
        | some last =>
          let r ← z.take p 2
          readLens z cl n fuel (p + 2) (acc ++ List.replicate (r + 3) last)
      else if sym = 17 then
        let r ← z.take p 3
        readLens z cl n fuel (p + 3) (acc ++ List.replicate (r + 3) 0)
      else
        let r ← z.take p 7
        readLens z cl n fuel (p + 7) (acc ++ List.replicate (r + 11) 0)

/-- The codes of a dynamic block, and the position after them. -/
def dynamicCodes (z : ZSrc) (pos : Nat) : Except ZFail (Huff × Huff × Nat) := do
  let hl ← z.take pos 5
  let hd ← z.take (pos + 5) 5
  let hc ← z.take (pos + 10) 4
  let raw ← (List.range (hc + 4)).mapM fun i => z.take (pos + 14 + i * 3) 3
  let cl := mkHuff ((List.range 19).map fun k => raw.getD (clOrder.findIdx (· == k)) 0)
  let p := pos + 14 + (hc + 4) * 3
  if !cl.complete false then .error (.stream 0x06 pos)
  else
    let (lens, q) ← readLens z cl (hl + 257 + hd + 1) 400 p []
    let l := lens.take (hl + 257)
    let lit := mkHuff l
    let dist := mkHuff (lens.drop (hl + 257))
    if l.getD 256 0 = 0 then .error (.stream 0x09 p)
    else if !lit.complete false || !dist.complete true then .error (.stream 0x06 p)
    else .ok (lit, dist, q)

/-- Blocks to the final one. -/
def inflateBlocks (z : ZSrc) : Nat → Inf → Except ZFail Inf
  | 0, s => .error (.stream 0x0A s.pos)
  | fuel + 1, s => do
    let fin ← z.take s.pos 1
    let ty ← z.take (s.pos + 1) 2
    let p := s.pos + 3
    let s' ←
      match ty with
      | 0 => do
        let q := (p + 7) / 8 * 8
        let len ← z.take q 16
        let nlen ← z.take (q + 16) 16
        if len + nlen ≠ 0xFFFF then .error (.stream 0x05 q)
        else
          let b := q / 8 + 4
          let have' := min len (z.a.size - b)
          if s.out.size + have' > z.room then .error (.full (b + (z.room - s.out.size) + 1))
          else if have' < len then .error (.stream 0x0A z.size)
          else .ok { s with pos := (b + len) * 8, out := s.out ++ z.a.extract b (b + len), stored := s.stored + 1 }
      | 1 => symbols z fixedLit fixedDist (z.size + 1) { s with pos := p }
      | 2 => do
        let (lit, dist, q) ← dynamicCodes z p
        symbols z lit dist (z.size + 1) { s with pos := q }
      | _ => .error (.stream 0x04 (s.pos + 1))
    let s' := { s' with blocks := s'.blocks + 1 }
    if fin = 1 then .ok s' else inflateBlocks z fuel s'

/-- Little-endian bytes of the source. -/
def ZSrc.le (z : ZSrc) (i n : Nat) : Except ZFail Nat := z.take (i * 8) (n * 8)

/-- The end of the stream at byte `n`: nothing may follow (R307). -/
def atEnd (z : ZSrc) (n : Nat) (s : Inf) : Except ZFail Inf :=
  if n < z.a.size then .error (.stream 0x0B (n * 8)) else .ok s

/-- A zero-terminated field of a gzip header: the byte after it. -/
def skipString (z : ZSrc) : Nat → Nat → Except ZFail Nat
  | 0, i => .error (.stream 0x0C (i * 8))
  | fuel + 1, i => if i ≥ z.a.size then .error (.stream 0x0C (i * 8)) else if z.byte i = 0 then .ok (i + 1) else skipString z fuel (i + 1)

/-- The gzip header: the byte after it. -/
def gzipHeader (z : ZSrc) : Except ZFail Nat := do
  if z.a.size < 4 then .error (.stream 0x0A z.size)
  else if z.byte 0 ≠ 0x1F || z.byte 1 ≠ 0x8B || z.byte 2 ≠ 8 || z.byte 3 ≥ 32 then .error (.stream 0x03 0)
  else if z.a.size < 10 then .error (.stream 0x0A z.size)
  else
    let flg := z.byte 3
    let n := z.a.size
    let i ← if bit flg 2 then
        (if n < 12 then .error (.stream 0x0C 80)
         else
           let e := 12 + z.byte 10 + 256 * z.byte 11
           if e > n then .error (.stream 0x0C 80) else .ok e)
      else .ok 10
    let i ← if bit flg 3 then skipString z (n + 1) i else .ok i
    let i ← if bit flg 4 then skipString z (n + 1) i else .ok i
    if bit flg 1 then
      if i + 2 > n then .error (.stream 0x0C (i * 8))
      else
        let want := (crc32z (z.a.toList.take i)).toNat % 65536
        let got := z.byte i + 256 * z.byte (i + 1)
        if want ≠ got then .error (.check 0x13 want got) else .ok (i + 2)
    else .ok i

/-- A whole framed stream decoded and verified in stream order (R306, R315): FORMAT 0 raw, 1 zlib, 2 gzip. -/
def inflate (format : Nat) (src : List Byte) (room : Nat) : Except ZFail Inf := do
  let z : ZSrc := { a := src.toArray, room := room }
  let fuel := z.size + 1
  match format with
  | 0 =>
    let s ← inflateBlocks z fuel {}
    atEnd z (bytesUsed s.pos) s
  | 1 =>
    if z.a.size < 2 then .error (.stream 0x0A z.size)
    else
      let cmf := z.byte 0
      let flg := z.byte 1
      if cmf % 16 ≠ 8 || cmf / 16 > 7 || (cmf * 256 + flg) % 31 ≠ 0 then .error (.stream 0x01 0)
      else if bit flg 5 then .error (.stream 0x02 8)
      else
        let s ← inflateBlocks z fuel { pos := 16 }
        let e := bytesUsed s.pos
        let _ ← z.le e 4
        let got := beNat ((z.a.extract e (e + 4)).toList)
        let want := (adler32 s.out.toList).toNat
        if want ≠ got then .error (.check 0x10 want got) else atEnd z (e + 4) s
  | _ =>
    let h ← gzipHeader z
    let s ← inflateBlocks z fuel { pos := h * 8 }
    let e := bytesUsed s.pos
    let got ← z.le e 4
    let want := (crc32z s.out.toList).toNat
    if want ≠ got then .error (.check 0x11 want got)
    else
      let size ← z.le (e + 4) 4
      if size ≠ s.out.size % 2 ^ 32 then .error (.check 0x12 (s.out.size % 2 ^ 32) size)
      else atEnd z (e + 8) s

end Sys2Proof
end

