-- ==== Sys2Proof/Machine/Deflate.lean ====
section
/-! DEFINITION. The forming of DEFLATE streams (R308 to R311, R318): match search, blocks, and the choice of their forms. The hash function,
the code lengths of a dynamic block and the way they are written are free values. -/

namespace Sys2Proof

/-! ## The match search (R308, R311, R318) -/

/-- A symbol of a block: a literal, or a match of a length at a distance. -/
inductive ZSym where
  | lit (b : Nat)
  | copy (len dist : Nat)
  deriving DecidableEq, Repr

/-- Chain steps, nice length, lazy or not, and window of a level (R308, R311). -/
structure ZLevel where
  steps : Nat
  nice : Nat
  lazy : Bool
  window : Nat := 32768

def zlevel (level : Nat) : ZLevel :=
  match level with
  | 1 => ⟨4, 8, false, 32768⟩
  | 2 => ⟨8, 16, false, 32768⟩
  | 3 => ⟨16, 32, false, 32768⟩
  | 4 => ⟨32, 16, true, 32768⟩
  | 5 => ⟨64, 32, true, 32768⟩
  | 6 => ⟨128, 128, true, 32768⟩
  | 7 => ⟨512, 128, true, 32768⟩
  | 8 => ⟨1024, 258, true, 32768⟩
  | 9 => ⟨4096, 258, true, 32768⟩
  | _ => ⟨1, 258, false, 4096⟩

/-- The hash-table entry of the three bytes at a position; the KG7 pass has 4,096 of them (R311). -/
def hashAt (level : Nat) (src : Array Byte) (p : Nat) : Nat :=
  let v := (src.getD p 0).toNat * 65536 + (src.getD (p + 1) 0).toNat * 256 + (src.getD (p + 2) 0).toNat
  if level == 0x10 then Config.hashEntry level v % 4096 else Config.hashEntry level v

/-- The candidates at position `p`, latest first: every earlier position of the window in the same hash entry, one inside a match too, as
many as the level examines. -/
def candidates3 (level : Nat) (src : Array Byte) (p : Nat) : List Nat :=
  let l := zlevel level
  if p + 3 > src.size then []
  else
    (((List.range (min p l.window)).map fun k => p - 1 - k).filter fun q => hashAt level src q == hashAt level src p).take l.steps

/-- How far the bytes at `q` and at `p` agree, at most `n`. -/
def matchLen (src : Array Byte) (q p : Nat) : Nat → Nat
  | 0 => 0
  | n + 1 => if src.getD q 0 == src.getD p 0 then 1 + matchLen src (q + 1) (p + 1) n else 0

/-- The longest match among candidates, the latest on a tie; the walk stops at the nice length. -/
def walkChain (src : Array Byte) (p lim nice : Nat) : List Nat → Nat × Nat → Nat × Nat
  | [], best => best
  | q :: r, best =>
    if best.1 ≥ nice then best
    else
      let n := matchLen src q p lim
      walkChain src p lim nice r (if n > best.1 then (n, p - q) else best)

/-- The match at position `p` of a span that ends at `e`: its length, zero where there is none, and its distance. -/
def bestMatch (level : Nat) (src : Array Byte) (e p : Nat) : Nat × Nat :=
  let m := walkChain src p (min 258 (e - p)) (zlevel level).nice (candidates3 level src p) (0, 0)
  if m.1 < 3 then (0, 0) else m

/-- The symbols of a span from `p` to `e`. -/
def spanSyms (level : Nat) (src : Array Byte) (e : Nat) : Nat → Nat → List ZSym
  | 0, _ => []
  | fuel + 1, p =>
    if p ≥ e then []
    else
      let m := bestMatch level src e p
      let later := (zlevel level).lazy && decide (m.1 < (bestMatch level src e (p + 1)).1)
      if m.1 == 0 || later then .lit (src.getD p 0).toNat :: spanSyms level src e fuel (p + 1)
      else .copy m.1 m.2 :: spanSyms level src e fuel (p + m.1)

/-! ## Forms of a block (RFC 1951) -/

/-- `n` bits of a number, least significant first. -/
def lowBits (n v : Nat) : List Bool := (List.range n).map fun i => v.testBit i

/-- The canonical code of a symbol, first bit first. -/
def codeBits (lens : List Nat) (sym : Nat) : List Bool :=
  let n := lens.getD sym 0
  let first := (List.range n).foldl (fun a k => (a + (if k = 0 then 0 else lens.count k)) * 2) 0
  let v := first + (lens.take sym).count n
  (lowBits n v).reverse

/-- The length code of a match, and its distance code. -/
def lenSym (len : Nat) : Nat := ((List.range 29).filter fun k => lenBase.getD k 0 ≤ len).length - 1
def distSym (dist : Nat) : Nat := ((List.range 30).filter fun d => distBase d ≤ dist).length - 1

/-- Literal/length and distance symbols of a ZSym. -/
def ZSym.litSym : ZSym → Nat
  | .lit b => b
  | .copy n _ => 257 + lenSym n

def symBits (lit dist : List Nat) : ZSym → List Bool
  | .lit b => codeBits lit b
  | .copy n d =>
    let k := lenSym n
    let j := distSym d
    codeBits lit (257 + k) ++ lowBits (lenBits.getD k 0) (n - lenBase.getD k 0) ++ codeBits dist j ++ lowBits (distBits j) (d - distBase j)

/-- The symbols of a block and its end-of-block code under two codes. -/
def bodyBits (lit dist : List Nat) (l : List ZSym) : List Bool := l.flatMap (symBits lit dist) ++ codeBits lit 256

def fixedLens : List Nat := List.replicate 144 8 ++ List.replicate 112 9 ++ List.replicate 24 7 ++ List.replicate 8 8

/-- The fixed-Huffman form after the block's three header bits. -/
def fixedForm (l : List ZSym) : List Bool := bodyBits fixedLens (List.replicate 30 5) l

/-- How often each of `n` symbols occurs. -/
def tally (n : Nat) (l : List Nat) : List Nat := (List.range n).map l.count

/-- Bits packed into bytes, the first bit lowest. -/
def packBits : Nat → List Bool → List Byte
  | 0, _ => []
  | fuel + 1, l =>
    if l.isEmpty then []
    else BitVec.ofNat 8 ((List.range 8).foldl (fun a i => a + (if (l.getD i false) then 2 ^ i else 0)) 0) :: packBits fuel (l.drop 8)

/-- The dynamic-Huffman form: code lengths and their writing are the engine's, and the form counts only where it decodes to those codes and
gives every symbol of the block a code. -/
def dynamicForm (l : List ZSym) : Option (List Bool) :=
  let lits := l.map ZSym.litSym ++ [256]
  let dists := l.filterMap fun x => match x with
    | .copy _ d => some (distSym d)
    | .lit _ => none
  let ll := Config.codeLengths (tally 286 lits) 15
  let dl := Config.codeLengths (tally 30 dists) 15
  let h := Config.codeHeader ll dl
  let decodes := match dynamicCodes { a := (packBits h.length h).toArray, room := 0 } 0 with
    | .ok (x, y, q) => q == h.length && x.counts == (mkHuff ll).counts && x.syms == (mkHuff ll).syms && y.counts == (mkHuff dl).counts
        && y.syms == (mkHuff dl).syms
    | .error _ => false
  if decodes && lits.all (fun k => ll.getD k 0 != 0) && dists.all (fun k => dl.getD k 0 != 0) then some (h ++ bodyBits ll dl l) else none

/-! ## The stream (R309) -/

/-- A raw stream as it is formed: its bits, the bit position at which each block ends, and the number of stored blocks. -/
structure ZOut where
  bits : List Bool := []
  ends : List Nat := []
  stored : Nat := 0

/-- Spans of 65,535 bytes, one block each. -/
def spans (n : Nat) : Nat := max 1 ((n + 65534) / 65535)

/-- Block `k` of the stream: the smaller of the dynamic and the fixed form, fixed on a tie, if it ends strictly before a stored block would;
otherwise the span stored. The KG7 pass computes the fixed form only. -/
def addBlock (level : Nat) (src : Array Byte) (z : ZOut) (k : Nat) : ZOut :=
  let a := k * 65535
  let e := min (a + 65535) src.size
  let n := e - a
  let last := k + 1 == spans src.size
  let pos := z.bits.length
  let l := spanSyms level src e (n + 1) a
  let f := fixedForm l
  let (type, body) := match (if level == 0x10 then none else dynamicForm l) with
    | some d => if d.length < f.length then (2, d) else (1, f)
    | none => (1, f)
  let pad := (8 - (pos + 3) % 8) % 8
  if pos + 3 + body.length < pos + 3 + pad + 32 + 8 * n then
    let bits := z.bits ++ last :: lowBits 2 type ++ body
    { bits := bits, ends := z.ends ++ [bits.length], stored := z.stored }
  else
    let bits := z.bits ++ last :: lowBits 2 0 ++ List.replicate pad false ++ lowBits 16 n ++ lowBits 16 (65535 - n)
      ++ (src.extract a e).toList.flatMap fun b => lowBits 8 b.toNat
    { bits := bits, ends := z.ends ++ [bits.length], stored := z.stored + 1 }

/-- The raw DEFLATE stream of a source at a level: it depends on nothing else (R310). -/
def deflate (src : List Byte) (level : Nat) : ZOut := (List.range (spans src.length)).foldl (addBlock level src.toArray) {}

/-- Its bytes. -/
def ZOut.bytes (z : ZOut) : List Byte := packBits (z.bits.length + 1) z.bits

end Sys2Proof
end

