-- ==== Sys2Proof/Machine/Compress.lean ====
section
/-! DEFINITION. The compression engines (R304 to R317), and the instructions that submit jobs, XCALL and ZCALL (R116, R299). -/

namespace Sys2Proof.Machine

open Sys2Proof

/-! ## Requests -/

/-- Steps 1 to 4 of R305: the byte of the first field that fails. -/
def compressFault (s : State) (e : List Byte) : Option Nat :=
  let op := reqOp e
  let fmt := par e 36
  let kg7 := op == 0x20 && par e 37 == 0x10
  if reqTarget e != 0 then some 2
  else if reqSrcLen e > maxLen || (op == 0x21 && reqSrcLen e == 0) then some 24
  else if reqDstLen e > 16777216 then some 28
  else if kg7 && !bit s.feat1 31 then some 37
  else if kg7 && fmt == 2 then some 36
  else firstNonzero e 38 64

/-- A compression request offered to its queue (R305). -/
def compressRequest (s : State) (n q op : Nat) : Res :=
  let s := s.quiet
  match takeReq s n q op with
  | none => .next s
  | some r =>
    match compressFault s r.entry with
    | some b => .next (answer s r .fieldInvalid b)
    | none => .next (offerJob s r true { inst := n - 1, seq := q, entry := r.entry })

def execCompress (fn : Nat) (seq : BitVec 32) (s : State) : Res := compressRequest s fn seq.toNat 0x20
def execDecompress (fn : Nat) (seq : BitVec 32) (s : State) : Res := compressRequest s fn seq.toNat 0x21

/-! ## Streams of COMPRESS (R306 to R312) -/

/-- zlib FLG and gzip XFL of a level (R308). -/
def zlibFlg (level : Nat) : Nat :=
  if level == 1 || level == 0x10 then 0x01 else if level ≤ 5 then 0x5E else if level == 6 then 0x9C else 0xDA
def gzipXfl (level : Nat) : Nat := if level == 1 then 4 else if level == 9 then 2 else 0

/-- The framed stream of a source and its raw stream (R306). -/
def framed (format level : Nat) (src c : List Byte) : List Byte :=
  match format with
  | 0 => c
  | 1 => [0x78, BitVec.ofNat 8 (zlibFlg level)] ++ c ++ toBE 4 (adler32 src).toNat
  | _ => [0x1F, 0x8B, 8] ++ zeros 5 ++ [BitVec.ofNat 8 (gzipXfl level), 0xFF] ++ c ++ toLE 4 (crc32z src).toNat
           ++ toLE 4 (src.length % 2 ^ 32)

/-- RESULT of a compression job that completes DONE (R313). -/
def zResult (data : List Byte) (blocks stored : Nat) : List Byte :=
  toBE 4 (crc32z data).toNat ++ toBE 4 (adler32 data).toNat ++ toBE 4 blocks ++ toBE 4 stored

/-! ## Jobs (R314 to R317) -/

def execCompressionJobStart (e : Nat) (s : State) : Res :=
  let s := s.quiet
  if !s.live || accelCount s true ≤ e || !takesJobs s true e || (jobOn s true e).isSome then .next s
  else
    match nextJob s true e with
    | none => .next s
    | some j => .next (startJob s true j e)

/-- DST left undefined by a COMPRESS that fails (R60, R314). -/
def undefinedDst (s : State) (j : Job) : State :=
  let (n, s) := s.fresh
  let (m, s) := s.fresh
  jobWrite s j ((Config.bytes n (reqDstLen j.entry)).take (Config.pick m % (reqDstLen j.entry + 1)))

/-- The end of a COMPRESS: where the stream does not fit, COUNT is the source of the blocks written whole (R314). -/
def compressEnd (s : State) (j : Job) (src : List Byte) : State :=
  let e := j.entry
  let level := par e 37
  let z := deflate src level
  let out := framed (par e 36) level src z.bytes
  if out.length > reqDstLen e then
    let head := match par e 36 with | 0 => 0 | 1 => 16 | _ => 80
    let k := min (z.ends.takeWhile fun b => head + b ≤ 8 * reqDstLen e).length (spans src.length - 1)
    endJob (undefinedDst s j) true j Status.outputFull.code 0 (k * 65535) []
  else endJob (jobWrite s j out) true j 0 0 out.length (zResult src (spans src.length) z.stored)

/-- The end of a DECOMPRESS: nothing is written unless the check pass finds no fault (R315). -/
def decompressEnd (s : State) (j : Job) (src : List Byte) : State :=
  match inflate (par j.entry 36) src (reqDstLen j.entry) with
  | .ok r =>
    let d := r.out.toList
    endJob (jobWrite s j d) true j 0 0 d.length (zResult d r.blocks r.stored)
  | .error (.full n) => endJob s true j Status.outputFull.code 0 n []
  | .error (.stream reason pos) =>
    endJob s true j Status.fieldInvalid.code 8 0 (toBE 1 reason ++ zeros 3 ++ toBE 4 pos)
  | .error (.check d want got) => endJob s true j Status.tagMismatch.code d 0 (toBE 4 want ++ toBE 4 got)

/-- A line tag fails after `good` source bytes: of the faults of a DECOMPRESS the first in stream order decides (R315); COUNT is 0 (R313). -/
def tagFailEnd (s : State) (j : Job) (src : List Byte) (good : Nat) : State :=
  let fail (s : State) : State := endJob s true j Status.tagMismatch.code 0 0 []
  if reqOp j.entry == 0x20 then fail (if reqChk j.entry then s else undefinedDst s j)
  else
    match inflate (par j.entry 36) (src.take good) (reqDstLen j.entry) with
    | .ok _ => fail s
    | .error (.stream 0x0A _) => fail s
    | .error (.stream 0x0C _) => fail s
    | .error _ => decompressEnd s j (src.take good)

def execCompressionJobDone (e : Nat) (src : List Byte) (fault : Option JobFault) (s : State) : Res :=
  let s := s.quiet
  match jobOn s true e with
  | none => .next s
  | some j =>
    let owners := jobOwners s j
    if !s.live || jobWaits s j then .next s
    else if owners != [] then .next (askCommit s owners)
    else
      let s := jobZones s j
      match jobData s j src [] fault with
      | .failed st d good pin line =>
        let s := if pin && j.area.isNone then poisonIn s (j.inst + 1) else s
        let s := match line with
          | some l => logPoison s j.inst l 1 j.seq
          | none => s
        if st == Status.tagMismatch.code then
          .next (tagFailEnd s j (if j.area.isNone then src else readPieces s j.inst j.src) good)
        else .next (endJob s true j st d 0 [])
      | .ok src _ =>
        if !chkOk j.entry src then .next (endJob s true j Status.tagMismatch.code 1 0 [])
        else if reqOp j.entry == 0x20 then .next (compressEnd s j src)
        else .next (decompressEnd s j src)

/-! ## XCALL and ZCALL (R116, R299) -/

/-- Real pieces of an operand of `n` bytes at virtual address `va`, one page at a time; only store regions take them, a page in a window
raising the zone exception (assumption log 112). -/
def callPieces (s : State) (p k : Nat) (acc : Access) : Nat → Word → Nat → Except Stop (List (Nat × Nat) × State)
  | 0, _, _ => .ok ([], s)
  | fuel + 1, va, n => do
    if n = 0 then .ok ([], s)
    else
      let m := min n (4096 - va.toNat % 4096)
      let (ph, s) ← translate s p k acc va
      match ph with
      | .mem a =>
        let (r, s) ← callPieces s p k acc fuel (va + BitVec.ofNat 64 m) (n - m)
        .ok ((realOfLine s (veInst k) (a / 64) + a % 64, m) :: r, s)
      | _ => .error (.exc 0x303 (some va))

def callOperand (s : State) (p k : Nat) (acc : Access) (va : Word) (n : Nat) : Except Stop (List (Nat × Nat) × State) :=
  callPieces s p k acc (n / 4096 + 2) va n

/-- The checks of a descriptor (R56, R116): the status of the first that fails. -/
def callCheck (s : State) (i : Nat) (e : List Byte) (cz : Bool) : Option (Status × Nat) :=
  let op := reqOp e
  let inRange := if cz then op / 16 == 2 else op / 16 == 1 || op / 16 == 3
  match requestForm e with
  | none => some (.opcodeUndefined, 0)
  | some f =>
    if needsAbsent s (i + 1) e then some (.featureAbsent, 0)
    else if !inRange then some (.fieldInvalid, 0)
    else
      let f := { f with bad := f.bad ++ [(24, decide (reqSrcLen e > maxLen)), (28, decide (reqDstLen e > maxLen))] }
      match formFault e f with
      | some b => some (.fieldInvalid, b)
      | none => if cz then (compressFault s e).map fun b => (.fieldInvalid, b) else none

/-- The statuses of a descriptor after its form: a key operation is judged when it runs (R289, R290). -/
def callStatus (s : State) (i : Nat) (e : List Byte) (cz : Bool) : Option (Status × Nat) :=
  if cz then none
  else if reqOp e ≥ 0x30 then (if (pageOf s i (tgtHandle e)).isNone then some (.accessDenied, 0) else none)
  else cipherStatus s i e

/-- The effect of XCALL or ZCALL: the SEQ taken, then the job, or the completion in its area, for which other engines that hold its line
uncommitted commit first (R116, R202). -/
def callEffects (s0 : State) (p k : Nat) (f : FA) (cz : Bool) : Except Stop (State × List Effect) := do
  let s := s0
  let c := s.ctx k
  let i := veInst k
  let (e, s) ← loadOp s p k (c.G f.r2) 64
  let (src, s) ← callOperand s p k .load (BitVec.ofNat 64 (reqSrc e)) (reqSrcLen e)
  let aadLen := if reqOp e == 0x10 || reqOp e == 0x11 then fieldBE e 48 4 else 0
  let (aad, s) ← callOperand s p k .load (BitVec.ofNat 64 (fieldBE e 40 8)) aadLen
  let (dst, s) ← callOperand s p k .store (BitVec.ofNat 64 (reqDst e)) (reqDstLen e)
  let (area, s) ← callOperand s p k .store (c.G f.r3) 32
  let at_ := (area.head?.map Prod.fst).getD 0
  let seq := (s.inst i).seq
  let s := s.updInst i fun x => { x with seq := (x.seq + 1) % 2 ^ 32 }
  let others := (instOwners s i at_ 32).filter (· != p)
  let now (st : Status) (d : Nat) (result : List Byte) : Except Stop (State × List Effect) :=
    if others != [] then .error (.wait (askCommit s0 others))
    else .ok (s.setCtx k ((s.ctx k).setSb bZ false), [.areaWrite i (veNum k) at_ (areaBytes seq st.code d 0 e result) (reqNoint e)])
  match callCheck s i e cz with
  | some (st, d) => now st d []
  | none =>
    match callStatus s i e cz with
    | some (st, d) => now st d []
    | none =>
      if (groupEngines s cz i).isEmpty then now .deviceError 0 []
      else
        match takeUnit s i (accelPool cz) 0 with
        | .no => now .busy 0 (toBE 8 (retryAfter s (accelPool cz) 0))
        | a =>
          let j := if cz then { inst := i, seq := seq, entry := e } else { cipherJob s i e with seq := seq }
          let j := { j with inst := i, entry := e, area := some at_, ve := veNum k, src := src, aad := aad, dst := dst, tb := s.clk.tb,
                            shared := a == .shared
                            st := if stagedBytes e != 0 && !stagingFits s e then .staging else .queued }
          .ok (s.setCtx k ((s.ctx k).setSb bZ true), [.job j cz])

/-- XCALL or ZCALL on engine `p`: the descriptor is 64-byte, the completion area 32-byte aligned (R110). -/
def callInstr (p : Nat) (f : FA) (cz : Bool) (s : State) : Res :=
  instr s p 4 false fun s k =>
    if cz && s.variant.czes == 0 then .error (.exc 0x103 none)
    else if f.r1 != 0 || f.fn != 0 || ((s.ctx k).G f.r2).toNat % 64 != 0 || ((s.ctx k).G f.r3).toNat % 32 != 0 then
      .error (.exc 0x104 none)
    else withEffects s p k 4 false fun s => callEffects s p k f cz

def execXcall (p : Nat) (f : FA) (s : State) : Res := callInstr p f false s
def execZcall (p : Nat) (f : FA) (s : State) : Res := callInstr p f true s

end Sys2Proof.Machine
end

