-- ==== Sys2Proof/Machine/Integer.lean ====
section
/-! DEFINITION. The integer, logical and branch instructions (R105, R115, R152 to R157). An unused FN bit is reserved; an unused
register field is reserved only where the spec says so (assumption log 8). -/

namespace Sys2Proof.Machine

open Sys2Proof

/-- The bits of FN outside `mask` are zero (R107). -/
def fnOk (f : FA) (mask : BitVec 9) : Bool := f.fn &&& ~~~mask == 0

/-- The result of an instruction that may overflow: fixed-point overflow when V and FXM (R114, R157). -/
def fxResult (c : Ctx) (ov : Bool) : RegRes := if ov && c.sb bFXM then .trap c 0x201 0 else .ok c

/-- A sum or difference written to G[rd] with Z N C V (R153). -/
def arith (c : Ctx) (rd : BitVec 5) (r : Word × Bool × Bool) : Ctx := ((c.setG rd r.1).setZN r.1).setCV r.2.1 r.2.2

/-- The same with the Z of ADDC and SUBB: 1 only if it was 1 (R153). -/
def arithZ (c : Ctx) (rd : BitVec 5) (r : Word × Bool × Bool) : Ctx :=
  (arith c rd r).setSb bZ (c.sb bZ && r.1 == 0)

def execAdd (p : Nat) (f : FA) (s : State) : Res :=
  regInstr s p 4 false fun c =>
    if !fnOk f 0 then .exc 0x104
    else
      let r := addFlags (c.G f.r2) (c.G f.r3) false
      fxResult (arith c f.r1 r) r.2.2

def execAddc (p : Nat) (f : FA) (s : State) : Res :=
  regInstr s p 4 false fun c =>
    if !fnOk f 0 then .exc 0x104
    else .ok (arithZ c f.r1 (addFlags (c.G f.r2) (c.G f.r3) (c.sb bC)))

def execSub (p : Nat) (f : FA) (s : State) : Res :=
  regInstr s p 4 false fun c =>
    if !fnOk f 0 then .exc 0x104
    else
      let r := subFlags (c.G f.r2) (c.G f.r3) false
      fxResult (arith c f.r1 r) r.2.2

def execSubb (p : Nat) (f : FA) (s : State) : Res :=
  regInstr s p 4 false fun c =>
    if !fnOk f 0 then .exc 0x104
    else .ok (arithZ c f.r1 (subFlags (c.G f.r2) (c.G f.r3) (c.sb bC)))

/-- The low 64 bits of a signed product with Z N V (R153); C stays. -/
def mulResult (c : Ctx) (rd : BitVec 5) (a b : Word) : RegRes :=
  let t := a.toInt * b.toInt
  let r := BitVec.ofInt 64 t
  let ov := decide (t ≠ r.toInt)
  fxResult (((c.setG rd r).setZN r).setSb bV ov) ov

def execMul (p : Nat) (f : FA) (s : State) : Res :=
  regInstr s p 4 false fun c =>
    if !fnOk f 0 then .exc 0x104 else mulResult c f.r1 (c.G f.r2) (c.G f.r3)

/-- A 128-bit product in a pair: Z of all 128 bits, N bit 127, C and V zero (R153). -/
def pairProduct (c : Ctx) (rd : BitVec 5) (v : BitVec 128) : Ctx :=
  (((c.setPair rd v).setSb bZ (v == 0)).setSb bN (v.getLsbD 127)).setCV false false

def execMulwu (p : Nat) (f : FA) (s : State) : Res :=
  regInstr s p 4 false fun c =>
    if !fnOk f 0 || odd5 f.r1 then .exc 0x104
    else .ok (pairProduct c f.r1 (BitVec.ofNat 128 ((c.G f.r2).toNat * (c.G f.r3).toNat)))

def execMulws (p : Nat) (f : FA) (s : State) : Res :=
  regInstr s p 4 false fun c =>
    if !fnOk f 0 || odd5 f.r1 then .exc 0x104
    else .ok (pairProduct c f.r1 (BitVec.ofInt 128 ((c.G f.r2).toInt * (c.G f.r3).toInt)))

/-! ## Division (R155, R156): the operands of an interrupted division are those it read first (R151) -/

/-- Does an instruction of major opcode `op` continue from the micro-save area (R150, R190)? -/
def Ctx.resumes (c : Ctx) (op : Byte) : Bool := c.sb bRP && c.micro.valid && c.micro.ia == c.ia && c.micro.op == op

/-- Which registers the routines of the micro-routine row read: F for FDIV and FSQRT, DA for the decimal ones but CVBP, G for the rest. -/
inductive SourceFile where
  | g | f | da
  deriving DecidableEq, Repr

def sourceFile (op : Byte) : SourceFile :=
  if op == 0x73 || op == 0x74 then .f
  else if op == 0x92 || op == 0x93 || op == 0x97 || op == 0x98 then .da else .g

/-- The value of source register `n` of a routine of opcode `op`, and that register with another value. -/
def Ctx.source (c : Ctx) (op : Byte) (n : Nat) : BitVec 128 :=
  match sourceFile op with
  | .g => (c.G (BitVec.ofNat 5 n)).setWidth 128
  | .f => (c.F (BitVec.ofNat 5 n)).setWidth 128
  | .da => c.DA n

def Ctx.setSource (c : Ctx) (op : Byte) (n : Nat) (v : BitVec 128) : Ctx :=
  match sourceFile op with
  | .g => c.setG (BitVec.ofNat 5 n) (v.setWidth 64)
  | .f => c.setF (BitVec.ofNat 5 n) (v.setWidth 64)
  | .da => c.setDA n v

/-- The context whose operands a micro-routine instruction computes from: those saved with a valid micro-save area for this address
when RP is 1 (R150, R151, R190), else the current ones. -/
def Ctx.operands (c : Ctx) (op : Byte) : Ctx :=
  if c.resumes op then c.micro.src.foldl (fun c e => c.setSource op e.1 e.2) c else c

def execDivu (p : Nat) (f : FA) (s : State) : Res :=
  regInstr s p 4 false fun c =>
    if !fnOk f 0 then .exc 0x104
    else
      let o := c.operands 0x27
      if o.G f.r3 == 0 then .exc 0x202
      else let q := o.G f.r2 / o.G f.r3; .ok ((c.setG f.r1 q).setZN q)

/-- Does a signed division raise fixed-point divide: zero divisor, or -2^63 by -1 (R156)? -/
def divTraps (a b : Word) : Bool := b == 0 || (a == BitVec.intMin 64 && b == BitVec.allOnes 64)

def execDivs (p : Nat) (f : FA) (s : State) : Res :=
  regInstr s p 4 false fun c =>
    if !fnOk f 0 then .exc 0x104
    else
      let o := c.operands 0x28
      if divTraps (o.G f.r2) (o.G f.r3) then .exc 0x202
      else let q := BitVec.ofInt 64 ((o.G f.r2).toInt.tdiv (o.G f.r3).toInt); .ok ((c.setG f.r1 q).setZN q)

def execRemu (p : Nat) (f : FA) (s : State) : Res :=
  regInstr s p 4 false fun c =>
    if !fnOk f 0 then .exc 0x104
    else
      let o := c.operands 0x29
      if o.G f.r3 == 0 then .exc 0x202
      else let q := o.G f.r2 % o.G f.r3; .ok ((c.setG f.r1 q).setZN q)

def execRems (p : Nat) (f : FA) (s : State) : Res :=
  regInstr s p 4 false fun c =>
    if !fnOk f 0 then .exc 0x104
    else
      let o := c.operands 0x2A
      if divTraps (o.G f.r2) (o.G f.r3) then .exc 0x202
      else let q := BitVec.ofInt 64 ((o.G f.r2).toInt.tmod (o.G f.r3).toInt); .ok ((c.setG f.r1 q).setZN q)

/-- Flags of a comparison, the result discarded (R153). -/
def cmpFlags (c : Ctx) (a b : Word) : Ctx :=
  let r := subFlags a b false
  (c.setZN r.1).setCV r.2.1 r.2.2

def execCmp (p : Nat) (f : FA) (s : State) : Res :=
  regInstr s p 4 false fun c =>
    if !fnOk f 0 then .exc 0x104 else .ok (cmpFlags c (c.G f.r2) (c.G f.r3))

def execNeg (p : Nat) (f : FA) (s : State) : Res :=
  regInstr s p 4 false fun c =>
    if !fnOk f 0 || f.r3 != 0 then .exc 0x104
    else
      let r := subFlags 0 (c.G f.r2) false
      fxResult (arith c f.r1 r) r.2.2

/-! ## Logic, shifts, moves -/

/-- A two-operand instruction whose result sets Z and N. -/
def logicRR (p : Nat) (f : FA) (s : State) (op : Word → Word → Word) : Res :=
  regInstr s p 4 false fun c =>
    if !fnOk f 0 then .exc 0x104
    else let r := op (c.G f.r2) (c.G f.r3); .ok ((c.setG f.r1 r).setZN r)

def execAnd (p : Nat) (f : FA) (s : State) : Res := logicRR p f s fun a b => a &&& b
def execOr (p : Nat) (f : FA) (s : State) : Res := logicRR p f s fun a b => a ||| b
def execXor (p : Nat) (f : FA) (s : State) : Res := logicRR p f s fun a b => a ^^^ b
def execAndn (p : Nat) (f : FA) (s : State) : Res := logicRR p f s fun a b => a &&& ~~~b
def execShl (p : Nat) (f : FA) (s : State) : Res := logicRR p f s fun a b => a <<< (b.toNat % 64)
def execShr (p : Nat) (f : FA) (s : State) : Res := logicRR p f s fun a b => a >>> (b.toNat % 64)
def execSar (p : Nat) (f : FA) (s : State) : Res := logicRR p f s fun a b => a.sshiftRight (b.toNat % 64)
def execRol (p : Nat) (f : FA) (s : State) : Res := logicRR p f s fun a b => a.rotateLeft (b.toNat % 64)

/-- A one-operand instruction that sets no flag; R3 must be 0. -/
def unaryG (p : Nat) (f : FA) (s : State) (op : Word → Word) : Res :=
  regInstr s p 4 false fun c =>
    if !fnOk f 0 || f.r3 != 0 then .exc 0x104 else .ok (c.setG f.r1 (op (c.G f.r2)))

/-- The number of leading zeros of a word. -/
def clz64 (v : Word) : Nat := 64 - (if v == 0 then 0 else Nat.log2 v.toNat + 1)

/-- The number of bits set. -/
def popc64 (v : Word) : Nat := ((List.range 64).filter fun i => v.getLsbD i).length

def execClz (p : Nat) (f : FA) (s : State) : Res := unaryG p f s fun v => BitVec.ofNat 64 (clz64 v)
def execPopc (p : Nat) (f : FA) (s : State) : Res := unaryG p f s fun v => BitVec.ofNat 64 (popc64 v)
def execBswap (p : Nat) (f : FA) (s : State) : Res := unaryG p f s fun v => BitVec.ofNat 64 (leNat (toBE 8 v.toNat))

def execSext (p : Nat) (f : FA) (s : State) : Res :=
  regInstr s p 4 false fun c =>
    let n := f.fn.toNat / 128
    if !fnOk f 0x180 || n == 3 then .exc 0x104
    else .ok (c.setG f.r1 (sext (8 * 2 ^ n) (c.G f.r2).toNat))

def execMov (p : Nat) (f : FA) (s : State) : Res :=
  regInstr s p 4 false fun c => if !fnOk f 0 then .exc 0x104 else .ok (c.setG f.r1 (c.G f.r2))

/-- The condition in FN[8:5]. -/
def fnCond (f : FA) : BitVec 4 := f.fn.extractLsb' 5 4

def execCsel (p : Nat) (f : FA) (s : State) : Res :=
  regInstr s p 4 false fun c =>
    if !fnOk f 0x1E0 then .exc 0x104 else .ok (c.setG f.r1 (if c.cond (fnCond f) then c.G f.r2 else c.G f.r3))

/-! ## Immediates -/

def simm (f : FC) : Word := f.imm14.signExtend 64
def zimm (f : FC) : Word := f.imm14.setWidth 64

def execAddi (p : Nat) (f : FC) (s : State) : Res :=
  regInstr s p 4 false fun c =>
    let r := addFlags (c.G f.r2) (simm f) false
    fxResult (arith c f.r1 r) r.2.2

def execCmpi (p : Nat) (f : FC) (s : State) : Res :=
  regInstr s p 4 false fun c => if f.r2 != 0 then .exc 0x104 else .ok (cmpFlags c (c.G f.r1) (simm f))

/-- An instruction with the zero-extended immediate that sets Z and N. -/
def logicRI (p : Nat) (f : FC) (s : State) (op : Word → Word → Word) : Res :=
  regInstr s p 4 false fun c => let r := op (c.G f.r2) (zimm f); .ok ((c.setG f.r1 r).setZN r)

def execAndi (p : Nat) (f : FC) (s : State) : Res := logicRI p f s fun a b => a &&& b
def execOri (p : Nat) (f : FC) (s : State) : Res := logicRI p f s fun a b => a ||| b
def execXori (p : Nat) (f : FC) (s : State) : Res := logicRI p f s fun a b => a ^^^ b

/-- A shift by IMM14[5:0]; IMM14[13:6] must be 0. -/
def shiftRI (p : Nat) (f : FC) (s : State) (op : Word → Nat → Word) : Res :=
  regInstr s p 4 false fun c =>
    if f.imm14.toNat ≥ 64 then .exc 0x104
    else let r := op (c.G f.r2) f.imm14.toNat; .ok ((c.setG f.r1 r).setZN r)

def execShli (p : Nat) (f : FC) (s : State) : Res := shiftRI p f s fun a n => a <<< n
def execShri (p : Nat) (f : FC) (s : State) : Res := shiftRI p f s fun a n => a >>> n
def execSari (p : Nat) (f : FC) (s : State) : Res := shiftRI p f s fun a n => a.sshiftRight n
def execRoli (p : Nat) (f : FC) (s : State) : Res := shiftRI p f s fun a n => a.rotateLeft n

def execMuli (p : Nat) (f : FC) (s : State) : Res :=
  regInstr s p 4 false fun c => mulResult c f.r1 (c.G f.r2) (simm f)

/-! ## Control and branches -/

def execNop (p : Nat) (f : FA) (s : State) : Res :=
  regInstr s p 4 false fun c => if !fnOk f 0 then .exc 0x104 else .ok c

/-- IA at `target` once an instruction of `n` bytes is past; a misaligned target raises specification (R115). -/
def jump (c : Ctx) (target : Word) (n : Nat) : RegRes :=
  if target.toNat % 4 != 0 then .exc 0x104 else .ok { c with ia := target - BitVec.ofNat 64 n }

def off20 (f : FJ) : Word := f.off20.signExtend 64 <<< 2

def execBc (p : Nat) (f : FJ) (s : State) : Res :=
  regInstr s p 4 false fun c => if c.cond f.cond then jump c (c.ia + off20 f) 4 else .ok c

def execBal (p : Nat) (f : FJ) (s : State) : Res :=
  regInstr s p 4 false fun c =>
    if f.cond != 15 then .exc 0x104 else jump (c.setG 31 (c.ia + 4)) (c.ia + off20 f) 4

def execBr (p : Nat) (f : FA) (s : State) : Res :=
  regInstr s p 4 false fun c =>
    if !fnOk f 0x1E0 || f.r1 != 0 || f.r3 != 0 then .exc 0x104
    else if c.cond (fnCond f) then jump c (c.G f.r2) 4 else .ok c

def execBalr (p : Nat) (f : FA) (s : State) : Res :=
  regInstr s p 4 false fun c =>
    if !fnOk f 0 then .exc 0x104 else jump (c.setG f.r1 (c.ia + 4)) (c.G f.r2) 4

def execBct (p : Nat) (f : FC) (s : State) : Res :=
  regInstr s p 4 false fun c =>
    if f.r2 != 0 then .exc 0x104
    else
      let v := c.G f.r1 - 1
      let c' := c.setG f.r1 v
      if v != 0 then jump c' (c.ia + simm f <<< 2) 4 else .ok c'

/-! ## Flags, features, timebase -/

def execGetf (p : Nat) (f : FA) (s : State) : Res :=
  regInstr s p 4 false fun c => if !fnOk f 0 then .exc 0x104 else .ok (c.setG f.r1 c.flags)

def execSetf (p : Nat) (f : FA) (s : State) : Res :=
  regInstr s p 4 false fun c =>
    if !fnOk f 0 then .exc 0x104 else .ok { c with psw := (c.psw &&& ~~~0x1F) ||| (c.G f.r2 &&& 0x1F) }

def execFeat (p : Nat) (f : FA) (s : State) : Res :=
  regInstr s p 4 false fun c =>
    if !fnOk f 0 || f.r2.toNat > 3 then .exc 0x104 else .ok (c.setG f.r1 (BitVec.ofNat 64 (s.feat f.r2.toNat)))

def execTbr (p : Nat) (f : FA) (s : State) : Res :=
  regInstr s p 4 false fun c => if !fnOk f 0 then .exc 0x104 else .ok (c.setG f.r1 (BitVec.ofNat 64 s.clk.tb))

end Sys2Proof.Machine
end

