-- ==== Sys2Proof/Machine/Float.lean ====
section
/-! DEFINITION. Binary floating point (R167 to R176): values as a sign and an integer times a power of two, exact arithmetic, one
rounding. -/

namespace Sys2Proof.Machine

open Sys2Proof

/-! ## Formats and values -/

/-- A format: precision, exponent field width (R167). -/
structure Fmt where
  p : Nat
  ebits : Nat
  deriving DecidableEq, Repr

def fmt64 : Fmt := { p := 53, ebits := 11 }
def fmt32 : Fmt := { p := 24, ebits := 8 }

def Fmt.bias (m : Fmt) : Int := 2 ^ (m.ebits - 1) - 1
/-- The exponent of the unit of the smallest subnormal. -/
def Fmt.emin (m : Fmt) : Int := 1 - m.bias - (m.p - 1)
def Fmt.width (m : Fmt) : Nat := m.p + m.ebits
def Fmt.fracBits (m : Fmt) : Nat := m.p - 1
def Fmt.expMax (m : Fmt) : Nat := 2 ^ m.ebits - 1
def Fmt.signBit (m : Fmt) (neg : Bool) : Nat := if neg then 2 ^ (m.width - 1) else 0
def Fmt.zero (m : Fmt) (neg : Bool) : Nat := m.signBit neg
def Fmt.inf (m : Fmt) (neg : Bool) : Nat := m.signBit neg + m.expMax * 2 ^ m.fracBits
/-- The largest finite value M. -/
def Fmt.max (m : Fmt) (neg : Bool) : Nat := m.inf neg - 1
/-- The default NaN. -/
def Fmt.nan (m : Fmt) : Nat := m.expMax * 2 ^ m.fracBits + 2 ^ (m.fracBits - 1)

/-- A decoded operand: a NaN with its bits, an infinity, or the finite value (-1)^neg × m × 2^e. -/
inductive FVal where
  | nan (bits : Nat) (signalling : Bool)
  | inf (neg : Bool)
  | fin (neg : Bool) (m : Nat) (e : Int)
  deriving DecidableEq, Repr

/-- An operand read in a format; with FTZ a subnormal is a zero of its sign (R171). -/
def unpack (m : Fmt) (ftz : Bool) (w : Word) : FVal :=
  let v := w.toNat % 2 ^ m.width
  let neg := bit v (m.width - 1)
  let ex := v / 2 ^ m.fracBits % 2 ^ m.ebits
  let fr := v % 2 ^ m.fracBits
  if ex = m.expMax then
    if fr = 0 then .inf neg else .nan v (!bit v (m.fracBits - 1))
  else if ex = 0 then .fin neg (if ftz then 0 else fr) m.emin
  else .fin neg (fr + 2 ^ m.fracBits) (m.emin + (ex - 1))

/-- A NaN made quiet, sign and payload kept (R170). -/
def quiet (m : Fmt) (v : Nat) : Nat := if bit v (m.fracBits - 1) then v else v + 2 ^ (m.fracBits - 1)

/-! ## Flags (R169), in FPCR.TRAPS bit order -/

def flI : Nat := 16
def flDZ : Nat := 8
def flO : Nat := 4
def flU : Nat := 2
def flX : Nat := 1

/-! ## Rounding -/

/-- Does rounding `q` with remainder `r` of `2^d` go away from zero, in mode `rm` (R101)? -/
def roundsUp (rm : Nat) (neg : Bool) (q r d : Nat) : Bool :=
  match rm with
  | 0 => decide (2 * r > 2 ^ d) || (2 * r == 2 ^ d && q % 2 == 1)
  | 1 => decide (2 * r ≥ 2 ^ d)
  | 2 => !neg && r != 0
  | 3 => neg && r != 0
  | _ => false

/-- `m × 2^e` as an integer multiple of `2^t`, rounded. -/
def roundAt (rm : Nat) (neg : Bool) (m : Nat) (e t : Int) : Nat :=
  if t ≤ e then m * 2 ^ (e - t).toNat
  else
    let d := (t - e).toNat
    let q := m / 2 ^ d
    let r := m % 2 ^ d
    if roundsUp rm neg q r d then q + 1 else q

/-- The encoding of `m × 2^e` where `m < 2^p + 1` and `e ≥ emin`. -/
def encode (f : Fmt) (neg : Bool) (m : Nat) (e : Int) : Nat :=
  let (m, e) := if m = 2 ^ f.p then (m / 2, e + 1) else (m, e)
  f.signBit neg + (if m < 2 ^ f.fracBits then m else (e - f.emin + 1).toNat * 2 ^ f.fracBits + (m - 2 ^ f.fracBits))

/-- The one rounding of a nonzero exact result `m × 2^e` (R168, R169, R171): encoding and flags. -/
def roundF (f : Fmt) (rm : Nat) (ftz neg : Bool) (m : Nat) (e : Int) : Nat × Nat :=
  let top := e + Nat.log2 m + 1
  let eu := top - f.p
  let mu := roundAt rm neg m e eu
  let lim : Int := f.bias + 1
  -- magnitude of the unbounded rounding against N and M
  let big := decide (eu + Nat.log2 mu ≥ lim)
  let tiny := decide (eu + Nat.log2 mu < 1 - f.bias)
  if big then
    let away := rm == 0 || rm == 1 || (rm == 2 && !neg) || (rm == 3 && neg)
    (if away then f.inf neg else f.max neg, flO + flX)
  else if tiny && ftz then (f.zero neg, flU + flX)
  else
    let eb := max eu f.emin
    let mb := roundAt rm neg m e eb
    let inexact := decide (roundAt 4 neg m e eb ≠ mb) || (if eb ≤ e then false else m % 2 ^ (eb - e).toNat != 0)
    (encode f neg mb eb, (if inexact then flX else 0) + (if tiny && inexact then flU else 0))

/-- The sign of an exact zero sum: minus only in roundTowardNegative, or when both terms are minus (R168). -/
def zeroSign (rm : Nat) (a b : Bool) : Bool := if a == b then a else rm == 3

/-- A signed exact sum as a result. -/
def roundInt (f : Fmt) (rm : Nat) (ftz : Bool) (v : Int) (e : Int) (zneg : Bool) : Nat × Nat :=
  if v = 0 then (f.zero zneg, 0) else roundF f rm ftz (decide (v < 0)) v.natAbs e

/-- The signed integer of a value at unit `2^t`, `t` not above its exponent. -/
def scaled (neg : Bool) (m : Nat) (e t : Int) : Int :=
  let v : Int := (m * 2 ^ (e - t).toNat : Nat)
  if neg then -v else v

/-! ## NaN operands (R170) -/

/-- The result when an operand is a NaN: the first one, quiet; invalid when any is signalling. -/
def nanResult (f : Fmt) (l : List FVal) : Option (Nat × Nat) :=
  let nans := l.filterMap fun v => match v with | .nan b s => some (b, s) | _ => none
  match nans with
  | [] => none
  | (b, _) :: _ => some (quiet f b, if nans.any (·.2) then flI else 0)

def invalid (f : Fmt) : Nat × Nat := (f.nan, flI)

/-! ## Operations -/

def FVal.negate : FVal → FVal
  | .nan b s => .nan b s
  | .inf n => .inf (!n)
  | .fin n m e => .fin (!n) m e

/-- The sum of two values that are no NaN. -/
def addVal (f : Fmt) (rm : Nat) (ftz : Bool) (a b : FVal) : Nat × Nat :=
  match a, b with
  | .inf x, .inf y => if x == y then (f.inf x, 0) else invalid f
  | .inf x, _ => (f.inf x, 0)
  | _, .inf y => (f.inf y, 0)
  | .fin na ma ea, .fin nb mb eb =>
    let t := min ea eb
    roundInt f rm ftz (scaled na ma ea t + scaled nb mb eb t) t (zeroSign rm na nb)
  | _, _ => invalid f

/-- The exact product of two finite values or infinities; `none` for 0 × ∞. -/
def mulVal (a b : FVal) : Option FVal :=
  match a, b with
  | .inf x, .inf y => some (.inf (x != y))
  | .inf x, .fin y m _ => if m = 0 then none else some (.inf (x != y))
  | .fin x m _, .inf y => if m = 0 then none else some (.inf (x != y))
  | .fin x m e, .fin y n g => some (.fin (x != y) (m * n) (e + g))
  | _, _ => none

def fpAdd (f : Fmt) (rm : Nat) (ftz : Bool) (a b : FVal) : Nat × Nat := (nanResult f [a, b]).getD (addVal f rm ftz a b)

def fpSub (f : Fmt) (rm : Nat) (ftz : Bool) (a b : FVal) : Nat × Nat := (nanResult f [a, b]).getD (addVal f rm ftz a b.negate)

def fpMul (f : Fmt) (rm : Nat) (ftz : Bool) (a b : FVal) : Nat × Nat :=
  (nanResult f [a, b]).getD <|
    match mulVal a b with
    | none => invalid f
    | some (.inf n) => (f.inf n, 0)
    | some (.fin n m e) => if m = 0 then (f.zero n, 0) else roundF f rm ftz n m e
    | some (.nan b _) => (b, 0)

/-- Fused multiply-add: a × b + c, the product's sign changed if `neg` (R168, R170). -/
def fpFma (f : Fmt) (rm : Nat) (ftz neg : Bool) (a b c : FVal) (subC : Bool) : Nat × Nat :=
  let isNan (v : FVal) : Bool := match v with | .nan _ _ => true | _ => false
  match (if isNan a || isNan b then some (.fin false 0 0) else mulVal a b) with
  | none => invalid f
  | some pr => (nanResult f [a, b, c]).getD
      (addVal f rm ftz (if neg then pr.negate else pr) (if subC then c.negate else c))

def fpDiv (f : Fmt) (rm : Nat) (ftz : Bool) (a b : FVal) : Nat × Nat :=
  (nanResult f [a, b]).getD <|
    match a, b with
    | .inf _, .inf _ => invalid f
    | .inf x, .fin y _ _ => (f.inf (x != y), 0)
    | .fin x _ _, .inf y => (f.zero (x != y), 0)
    | .fin x m e, .fin y n g =>
      if n = 0 then (if m = 0 then invalid f else (f.inf (x != y), flDZ))
      else if m = 0 then (f.zero (x != y), 0)
      else
        let k := f.p + 4 + Nat.log2 n
        let q := m * 2 ^ k / n
        let st := if m * 2 ^ k % n = 0 then 0 else 1
        roundF f rm ftz (x != y) (2 * q + st) (e - g - k - 1)
    | _, _ => invalid f

/-- The integer square root, one bit at a time from bit `n`. -/
def isqrt (v : Nat) : Nat → Nat → Nat
  | 0, r => r
  | n + 1, r => let r' := r + 2 ^ n; if r' * r' ≤ v then isqrt v n r' else isqrt v n r

def fpSqrt (f : Fmt) (rm : Nat) (ftz : Bool) (a : FVal) : Nat × Nat :=
  (nanResult f [a]).getD <|
    match a with
    | .inf n => if n then invalid f else (f.inf false, 0)
    | .fin n m e =>
      if m = 0 then (f.zero n, 0)
      else if n then invalid f
      else
        let k := 2 * f.p + 4 + (if (e % 2) = 0 then 0 else 1)
        let v := m * 2 ^ k
        let r := isqrt v (Nat.log2 v / 2 + 2) 0
        let st := if r * r = v then 0 else 1
        roundF f rm ftz false (2 * r + st) ((e - k) / 2 - 1)
    | _ => invalid f

/-- Is `a` below `b`, for values that are no NaN; -0 equals +0. -/
def ltVal (a b : FVal) : Bool :=
  match a, b with
  | .inf x, .inf y => x && !y
  | .inf x, _ => x
  | _, .inf y => !y
  | .fin na ma ea, .fin nb mb eb => let t := min ea eb; decide (scaled na ma ea t < scaled nb mb eb t)
  | _, _ => false

def FVal.neg : FVal → Bool
  | .inf n => n
  | .fin n _ _ => n
  | .nan _ _ => false

/-- A value that is no NaN written back in its format, exactly. -/
def packVal (f : Fmt) (v : FVal) : Nat :=
  match v with
  | .nan b _ => b
  | .inf n => f.inf n
  | .fin n m e => if m = 0 then f.zero n else encode f n m e

/-- FMIN or FMAX (R173). -/
def fpMinMax (f : Fmt) (wantMax : Bool) (a b : FVal) : Nat × Nat :=
  (nanResult f [a, b]).getD <|
    let less := ltVal a b || (!ltVal b a && a.neg && !b.neg)
    (packVal f (if less != wantMax then a else b), 0)

/-! ## Conversions (R174) -/

/-- The integer nearest to a finite value in mode `rm`. -/
def toIntVal (rm : Nat) (n : Bool) (m : Nat) (e : Int) : Int :=
  let v : Int := roundAt rm n m e 0
  if n then -v else v

/-- Conversion to a 64-bit integer: result and flags. -/
def fpToInt (rm : Nat) (signed : Bool) (a : FVal) : Nat × Nat :=
  let hi : Int := if signed then 2 ^ 63 - 1 else 2 ^ 64 - 1
  let lo : Int := if signed then -(2 ^ 63) else 0
  let enc (v : Int) : Nat := (BitVec.ofInt 64 v).toNat
  match a with
  | .nan _ _ => (0, flI)
  | .inf n => (enc (if n then lo else hi), flI)
  | .fin n m e =>
    let v := toIntVal rm n m e
    if v > hi then (enc hi, flI)
    else if v < lo then (enc lo, flI)
    else
      let exact := if e ≥ 0 then true else m % 2 ^ (-e).toNat == 0
      (enc v, if exact then 0 else flX)

/-- Conversion between formats (R170, R174). -/
def fpConv (src dst : Fmt) (rm : Nat) (ftz : Bool) (a : FVal) : Nat × Nat :=
  match a with
  | .nan b s =>
    let q := quiet src b
    let neg := bit q (src.width - 1)
    let fr := q % 2 ^ src.fracBits
    let fr := if dst.p < src.p then fr / 2 ^ (src.p - dst.p) else fr * 2 ^ (dst.p - src.p)
    (dst.signBit neg + dst.expMax * 2 ^ dst.fracBits + fr, if s then flI else 0)
  | .inf n => (dst.inf n, 0)
  | .fin n m e => if m = 0 then (dst.zero n, 0) else roundF dst rm ftz n m e

/-! ## The instructions -/

def Ctx.rm (c : Ctx) : Nat := c.fpcr.toNat % 8
def Ctx.ftz (c : Ctx) : Bool := c.fpcr.getLsbD 21

/-- An instruction's flags set in FPCR.FLAGS, and the trap if one is enabled (R169, R172). -/
def fpResult (c : Ctx) (flags : Nat) : RegRes :=
  let c' := { c with fpcr := c.fpcr ||| BitVec.ofNat 32 (flags * 256) }
  let hit := flags &&& (c.fpcr.toNat / 65536 % 32)
  if hit != 0 then .trap c' 0x206 hit else .ok c'

/-- The format that FN[8] selects. -/
def fmtOf (f : FA) : Fmt := if f.fn.getLsbD 8 then fmt32 else fmt64

/-- A floating-point instruction from F registers to F[R1]. -/
def fpInstr (p : Nat) (f : FA) (s : State) (ok : Bool) (op : Fmt → Nat → Bool → FVal → FVal → FVal → Nat × Nat) (micro : Option Byte) : Res :=
  regInstr s p 4 false fun c =>
    if !fnOk f 0x100 || !ok then .exc 0x104
    else
      let m := fmtOf f
      let o := match micro with | some op => c.operands op | none => c
      let r := op m c.rm c.ftz (unpack m c.ftz (o.F f.r2)) (unpack m c.ftz (o.F f.r3)) (unpack m c.ftz (o.F f.r1))
      fpResult (c.setF f.r1 (BitVec.ofNat 64 r.1)) r.2

def execFadd (p : Nat) (f : FA) (s : State) : Res := fpInstr p f s true (fun m rm z a b _ => fpAdd m rm z a b) none
def execFsub (p : Nat) (f : FA) (s : State) : Res := fpInstr p f s true (fun m rm z a b _ => fpSub m rm z a b) none
def execFmul (p : Nat) (f : FA) (s : State) : Res := fpInstr p f s true (fun m rm z a b _ => fpMul m rm z a b) none
def execFdiv (p : Nat) (f : FA) (s : State) : Res := fpInstr p f s true (fun m rm z a b _ => fpDiv m rm z a b) (some 0x73)
def execFsqrt (p : Nat) (f : FA) (s : State) : Res := fpInstr p f s (f.r3 == 0) (fun m rm z a _ _ => fpSqrt m rm z a) (some 0x74)
def execFma (p : Nat) (f : FA) (s : State) : Res := fpInstr p f s true (fun m rm z a b c => fpFma m rm z false a b c false) none
def execFms (p : Nat) (f : FA) (s : State) : Res := fpInstr p f s true (fun m rm z a b c => fpFma m rm z false a b c true) none
def execFnma (p : Nat) (f : FA) (s : State) : Res := fpInstr p f s true (fun m rm z a b c => fpFma m rm z true a b c false) none
def execFmin (p : Nat) (f : FA) (s : State) : Res := fpInstr p f s true (fun m _ _ a b _ => fpMinMax m false a b) none
def execFmax (p : Nat) (f : FA) (s : State) : Res := fpInstr p f s true (fun m _ _ a b _ => fpMinMax m true a b) none

def execFcmp (p : Nat) (f : FA) (s : State) : Res :=
  regInstr s p 4 false fun c =>
    if !fnOk f 0x100 then .exc 0x104
    else
      let m := fmtOf f
      let a := unpack m c.ftz (c.F f.r2)
      let b := unpack m c.ftz (c.F f.r3)
      let set (z n v : Bool) := (((c.setSb bZ z).setSb bN n).setSb bC false).setSb bV v
      match nanResult m [a, b] with
      | some (_, fl) => fpResult (set false false true) fl
      | none => fpResult (set (!ltVal a b && !ltVal b a) (ltVal a b) false) 0

/-- A sign operation on F[R2] (R170); a binary32 result has zero above (R98). -/
def signInstr (p : Nat) (f : FA) (s : State) (op : Nat → Nat → Nat) : Res :=
  regInstr s p 4 false fun c =>
    if !fnOk f 0x100 then .exc 0x104
    else
      let m := fmtOf f
      .ok (c.setF f.r1 (BitVec.ofNat 64 (op ((c.F f.r2).toNat % 2 ^ m.width) (m.width - 1))))

def execFneg (p : Nat) (f : FA) (s : State) : Res := signInstr p f s fun v n => v ^^^ 2 ^ n
def execFabs (p : Nat) (f : FA) (s : State) : Res := signInstr p f s fun v n => v % 2 ^ n

def execFcvt (p : Nat) (f : FA) (s : State) : Res :=
  regInstr s p 4 false fun c =>
    let kind := f.fn.toNat / 16 % 16
    let m := fmtOf f
    if !fnOk f 0x1F0 || kind ≥ 8 || (kind < 2 && f.fn.getLsbD 8) then .exc 0x104
    else
      let toF (r : Nat × Nat) : RegRes := fpResult (c.setF f.r1 (BitVec.ofNat 64 r.1)) r.2
      let toG (r : Nat × Nat) : RegRes := fpResult (c.setG f.r1 (BitVec.ofNat 64 r.1)) r.2
      let x := unpack m c.ftz (c.F f.r2)
      match kind with
      | 0 => toF (fpConv fmt64 fmt32 c.rm c.ftz (unpack fmt64 c.ftz (c.F f.r2)))
      | 1 => toF (fpConv fmt32 fmt64 c.rm c.ftz (unpack fmt32 c.ftz (c.F f.r2)))
      | 2 => toF (roundInt m c.rm c.ftz (c.G f.r2).toInt 0 false)
      | 3 => toF (roundInt m c.rm c.ftz ((c.G f.r2).toNat : Int) 0 false)
      | 4 => toG (fpToInt c.rm true x)
      | 5 => toG (fpToInt c.rm false x)
      | 6 => toG (fpToInt 4 true x)
      | _ => toG (fpToInt 4 false x)

def execFmovg (p : Nat) (f : FA) (s : State) : Res :=
  regInstr s p 4 false fun c => if !fnOk f 0 then .exc 0x104 else .ok (c.setG f.r1 (c.F f.r2))

def execGmovf (p : Nat) (f : FA) (s : State) : Res :=
  regInstr s p 4 false fun c => if !fnOk f 0 then .exc 0x104 else .ok (c.setF f.r1 (c.G f.r2))

/-- The defined bits of FPCR (R101). -/
def fpcrMask : BitVec 32 := 0x003F1F07#32

def execLfpc (p : Nat) (f : FA) (s : State) : Res :=
  regInstr s p 4 false fun c =>
    let v := (c.G f.r2).setWidth 32
    if !fnOk f 0 || v.toNat % 8 > 4 then .exc 0x104 else .ok { c with fpcr := v &&& fpcrMask }

def execSfpc (p : Nat) (f : FA) (s : State) : Res :=
  regInstr s p 4 false fun c => if !fnOk f 0 then .exc 0x104 else .ok (c.setG f.r1 (c.fpcr.setWidth 64))

end Sys2Proof.Machine
end

