-- ==== Sys2Proof/Machine/Decimal.lean ====
section
/-! DEFINITION. Packed decimal (R99, R159 to R165): a value is a magnitude and a sign. -/

namespace Sys2Proof.Machine

open Sys2Proof

/-! ## Values -/

/-- Is a sign nibble accepted (R159)? -/
def signOk (n : Nat) : Bool := n == 12 || n == 13 || n == 15

/-- A packed operand: its magnitude and whether its sign is minus; `none` when a digit or the sign is invalid (R159). -/
def unpackDec (l : List Byte) : Option (Nat × Bool) :=
  let n := nibbles l
  let sg := n.getLastD 0
  if signOk sg then (digitsVal n.dropLast 0).map fun v => (v, sg == 13) else none

def daBytes (v : BitVec 128) : List Byte := toBE 16 v.toNat

def daVal (v : BitVec 128) : Option (Nat × Bool) := unpackDec (daBytes v)

/-- An accumulator of the low 31 digits with a sign nibble. -/
def daOf (m : Nat) (sign : Nat) : BitVec 128 := BitVec.ofNat 128 (packDigits 31 (m % tenTo31) * 16 + sign)

/-- The sign of a true result: minus only if negative and not zero (R160). -/
def signOf (m : Nat) (neg : Bool) : Nat := if neg && m != 0 then 13 else 12

/-- Z and N of a decimal value (R161). -/
def Ctx.setDecZN (c : Ctx) (m : Nat) (neg : Bool) : Ctx := (c.setSb bZ (m == 0)).setSb bN (neg && m != 0)

/-- A true result written to DA[r], with Z, N and DV, and decimal overflow when DV and DOM (R157, R161). -/
def decResult (c : Ctx) (r : Nat) (v : Int) (ov : Bool) : RegRes :=
  let m := v.natAbs
  let neg := decide (v < 0)
  let w := m % tenTo31
  let c := ((c.setDA r (daOf m (signOf m neg))).setDecZN w neg).setSb bDV ov
  if ov && c.sb bDOM then .trap c 0x204 0 else .ok c

def signed (v : Nat × Bool) : Int := if v.2 then -(v.1 : Int) else v.1

/-- Decimal register fields in range (R99). -/
def daOk (r : BitVec 5) : Bool := decide (r.toNat < 8)

/-- A decimal instruction on two accumulators, both checked. -/
def decInstr (p : Nat) (f : FA) (s : State) (mask : BitVec 9) (micro : Option Byte) (ok : Bool)
    (op : Ctx → Nat × Bool → Nat × Bool → RegRes) : Res :=
  regInstr s p 4 false fun c =>
    if !fnOk f mask || f.r3 != 0 || !daOk f.r1 || !daOk f.r2 || !ok then .exc 0x104
    else
      let o := match micro with | some op => c.operands op | none => c
      match daVal (o.DA f.r1.toNat), daVal (o.DA f.r2.toNat) with
      | some a, some b => op c a b
      | _, _ => .exc 0x203

/-- ADDP and (`inv`) SUBP: the decimal unit's routine runs on the engine's working registers (R194). -/
def addSubP (inv : Bool) (p : Nat) (f : FA) (s : State) : Res :=
  instr s p 4 false fun s k =>
    let c := s.ctx k
    if !fnOk f 0 || f.r3 != 0 || !daOk f.r1 || !daOk f.r2 then .error (.exc 0x104 none)
    else
      let x := c.DA f.r1.toNat
      let y := c.DA f.r2.toNat
      match daVal x, daVal y with
      | some a, some b =>
        let s := s.updEng p fun e => { e with work := (e.work.addRoutine inv x y).getD e.work }
        let v := if inv then signed a - signed b else signed a + signed b
        match decResult c f.r1.toNat v (decide (v.natAbs ≥ tenTo31)) with
        | .ok c => .ok { s := s.setCtx k c }
        | .trap c code fp => .ok { s := s.setCtx k c, trap := some (code, fp) }
        | .exc code => .error (.exc code none)
      | _, _ => .error (.exc 0x203 none)

def execAddp (p : Nat) (f : FA) (s : State) : Res := addSubP false p f s

def execSubp (p : Nat) (f : FA) (s : State) : Res := addSubP true p f s

def execMulp (p : Nat) (f : FA) (s : State) : Res :=
  decInstr p f s 0 (some 0x92) true fun c a b =>
    let v := signed a * signed b
    decResult c f.r1.toNat v (decide (v.natAbs ≥ tenTo31))

/-- DIVP (R162, R163); FN[4:0] is SCALE. -/
def execDivp (p : Nat) (f : FA) (s : State) : Res :=
  decInstr p f s 0x1F (some 0x93) (!odd5 f.r1) fun c a b =>
    let n := a.1 * 10 ^ (f.fn.toNat % 32)
    if b.1 = 0 then .exc 0x205
    else
      let q := n / b.1
      let r := n % b.1
      if q ≥ tenTo31 then .exc 0x205
      else
        let qn := a.2 != b.2
        .ok (((c.setDA f.r1.toNat (daOf q (signOf q qn))).setDA (f.r1.toNat + 1) (daOf r (signOf r a.2))).setDecZN q qn)

def execCmpp (p : Nat) (f : FA) (s : State) : Res :=
  decInstr p f s 0 none true fun c a b =>
    .ok ((c.setSb bZ (signed a == signed b)).setSb bN (decide (signed a < signed b)))

def execMovp (p : Nat) (f : FA) (s : State) : Res :=
  regInstr s p 4 false fun c =>
    if !fnOk f 0 || f.r3 != 0 || !daOk f.r1 || !daOk f.r2 then .exc 0x104
    else
      match daVal (c.DA f.r2.toNat) with
      | some (m, neg) => .ok ((c.setDA f.r1.toNat (c.DA f.r2.toNat)).setDecZN m neg)
      | none => .exc 0x203

/-- SHRP (R164): the shift is IMM14[13:8], signed, the rounding digit IMM14[3:0]. -/
def execShrp (p : Nat) (f : FC) (s : State) : Res :=
  regInstr s p 4 false fun c =>
    let n := (f.imm14.extractLsb' 8 6).toInt
    let r := f.imm14.toNat % 16
    if f.imm14.toNat / 16 % 16 != 0 || n = -32 || r ≥ 10 || !daOk f.r1 || !daOk f.r2 then .exc 0x104
    else
      match daVal (c.DA f.r2.toNat) with
      | none => .exc 0x203
      | some (m, neg) =>
        let sg (v : Nat) : Int := if neg then -(v : Int) else v
        if n ≥ 0 then
          let v := m * 10 ^ n.toNat
          decResult c f.r1.toNat (sg v) (decide (v ≥ tenTo31))
        else
          let k := n.natAbs
          let q := m / 10 ^ k
          let dropped := m / 10 ^ (k - 1) % 10
          decResult c f.r1.toNat (sg (if dropped + r ≥ 10 then q + 1 else q)) false

def execCvbp (p : Nat) (f : FA) (s : State) : Res :=
  regInstr s p 4 false fun c =>
    if !fnOk f 0 || f.r3 != 0 || !daOk f.r1 then .exc 0x104
    else
      let v := ((c.operands 0x96).G f.r2).toInt
      let neg := decide (v < 0)
      .ok ((c.setDA f.r1.toNat (daOf v.natAbs (signOf v.natAbs neg))).setDecZN v.natAbs neg)

def execCvpb (p : Nat) (f : FA) (s : State) : Res :=
  regInstr s p 4 false fun c =>
    if !fnOk f 0 || f.r3 != 0 || !daOk f.r2 then .exc 0x104
    else
      match daVal ((c.operands 0x97).DA f.r2.toNat) with
      | none => .exc 0x203
      | some x =>
        let v := signed x
        let r := BitVec.ofInt 64 v
        let ov := decide (v ≠ r.toInt)
        fxResult (((c.setG f.r1 r).setZN r).setSb bV ov) ov

/-! ## Memory forms -/

/-- LDP: L + 1 bytes, right-aligned with leading zero digits (R162). -/
def execLdp (p : Nat) (f : FD) (s : State) : Res :=
  loadInstr s p 8 (fun c => if daOk f.r1 then eaFD c f (f.l.toNat + 1) false false else none) (f.l.toNat + 1) f.b 1 fun c d =>
    match unpackDec d with
    | none => .exc 0x203
    | some (m, neg) => .ok ((c.setDA f.r1.toNat (BitVec.ofNat 128 (beNat d))).setDecZN m neg)

/-- STP: the low 2L + 1 digits and the sign; DV when a nonzero digit is lost (R157, R162). -/
def execStp (p : Nat) (f : FD) (s : State) : Res :=
  storeInstr s p 8 (fun c => if daOk f.r1 then eaFD c f (f.l.toNat + 1) false false else none) f.b 1 fun c =>
    let v := c.DA f.r1.toNat
    match daVal v with
    | none => .error (0x203, f.l.toNat + 1)
    | some (m, _) =>
      let n := f.l.toNat + 1
      .ok (toBE n (v.toNat % 2 ^ (8 * n)), c.setSb bDV (decide (m ≥ 10 ^ (2 * f.l.toNat + 1))))

/-! ## EDITP (R165) -/

/-- The pattern's number of digit bytes, if no byte is reserved. -/
def editDigits (pat : List Byte) : Option Nat :=
  if pat.all (fun b => b.toNat ≥ 0x10 && (b.toNat < 0x13 || b.toNat ≥ 0x20)) then
    let n := (pat.filter fun b => b == 0x10 || b == 0x11).length
    if n ≤ 31 then some n else none
  else none

/-- The edit: pattern, digits left (most significant first), significance. -/
def editBytes (fill : Byte) (neg : Bool) : List Byte → List Nat → Bool → List Byte
  | [], _, _ => []
  | b :: r, ds, sg =>
    if b == 0x10 then
      let d := ds.headD 0
      if sg || d != 0 then BitVec.ofNat 8 (0x30 + d) :: editBytes fill neg r ds.tail true
      else fill :: editBytes fill neg r ds.tail false
    else if b == 0x11 then BitVec.ofNat 8 (0x30 + ds.headD 0) :: editBytes fill neg r ds.tail true
    else if b == 0x12 then (if neg then 0x2D else fill) :: editBytes fill neg r ds sg
    else (if sg then b else fill) :: editBytes fill neg r ds sg

/-- Do the listed register fields name different registers (R107)? -/
def distinct (l : List (BitVec 5)) : Bool := decide l.Nodup

def execEditp (p : Nat) (f : FE) (s : State) : Res :=
  instr s p 4 false fun s k => do
    let c := s.resumeCtx k
    let resumed := c.resumes 0x98
    let o := c.operands 0x98
    let len := (o.G f.rc).toNat
    if f.opt.getLsbD 3 || !distinct [f.rd, f.rs, f.rc, f.rp] || len < 1 || len > 64 then .error (.exc 0x104 none)
    else
      let (pat, s) ← if resumed && c.micro.pattern.length == len then .ok (c.micro.pattern, s) else loadOp s p k (o.G f.rs) len
      let (_, s) ← translateOp s p k .store (o.G f.rd) len
      match editDigits pat, daVal (o.DA (f.opt.toNat % 8)) with
      | some d, some (m, neg) =>
        -- the digits the pattern selects are the value of Z, N and the sign byte (R161)
        let sel := m % 10 ^ d
        let out := editBytes ((o.G f.rp).setWidth 8) (neg && sel != 0) pat (toDigits d sel).reverse false
        let run (s : State) := do
          let (s, es) ← storeOp s p k (o.G f.rd) out
          .ok (s.setCtx k ((s.ctx k).setDecZN sel neg), es)
        let ends := do
          let (s', es) ← run s
          if es.isEmpty then .ok { s := s' } else withEffects s p k 4 true run
        -- a routine that resumed from the micro-save area goes on resuming (R151)
        if resumed then ends.mapError Stop.keepRp else ends
      | _, _ => .error (.exc 0x203 none)

end Sys2Proof.Machine
end

