-- ==== Sys2Proof/Machine/LoadStore.lean ====
section
/-! DEFINITION. The loads and stores, compare-and-swap and address instructions (R108 to R110, R115). -/

namespace Sys2Proof.Machine

open Sys2Proof

/-- A load of `n` bytes into G[R1], sign-extended or not. -/
def loadG (p : Nat) (f : FB) (s : State) (n : Nat) (signed : Bool) : Res :=
  loadInstr s p 4 (fun c => eaFB c f n true false) n f.b 1 (fun c d =>
    .ok (c.setG f.r1 (if signed then Sys2Proof.sext (8 * n) (beNat d) else BitVec.ofNat 64 (beNat d)))) (keys := n == 8)

def execLdb (p : Nat) (f : FB) (s : State) : Res := loadG p f s 1 false
def execLdbs (p : Nat) (f : FB) (s : State) : Res := loadG p f s 1 true
def execLdh (p : Nat) (f : FB) (s : State) : Res := loadG p f s 2 false
def execLdhs (p : Nat) (f : FB) (s : State) : Res := loadG p f s 2 true
def execLdw (p : Nat) (f : FB) (s : State) : Res := loadG p f s 4 false
def execLdws (p : Nat) (f : FB) (s : State) : Res := loadG p f s 4 true
def execLdd (p : Nat) (f : FB) (s : State) : Res := loadG p f s 8 false

/-- A store of the low `n` bytes of G[R1]. -/
def storeG (p : Nat) (f : FB) (s : State) (n : Nat) : Res :=
  storeInstr s p 4 (fun c => eaFB c f n true false) f.b 1 (fun c => .ok (toBE n (c.G f.r1).toNat, c)) (keys := n == 8)

def execStb (p : Nat) (f : FB) (s : State) : Res := storeG p f s 1
def execSth (p : Nat) (f : FB) (s : State) : Res := storeG p f s 2
def execStw (p : Nat) (f : FB) (s : State) : Res := storeG p f s 4
def execStd (p : Nat) (f : FB) (s : State) : Res := storeG p f s 8

/-- LDQ: a pair, 16-byte aligned (R97, R110). -/
def execLdq (p : Nat) (f : FB) (s : State) : Res :=
  loadInstr s p 4 (fun c => if odd5 f.r1 then none else eaFB c f 16 true true) 16 f.b 16 fun c d =>
    .ok (c.setPair f.r1 (BitVec.ofNat 128 (beNat d)))

def execStq (p : Nat) (f : FB) (s : State) : Res :=
  storeInstr s p 4 (fun c => if odd5 f.r1 then none else eaFB c f 16 true true) f.b 16 fun c =>
    .ok (toBE 16 (c.pair f.r1).toNat, c)

/-- LA: the effective address and the base update, no access (R110). -/
def execLa (p : Nat) (f : FB) (s : State) : Res :=
  regInstr s p 4 false fun c =>
    match eaFB c f 8 true false with
    | none => .exc 0x104
    | some (a, u) => .ok ((c.setBase f.b u).setG f.r1 a)

def execLax (p : Nat) (f : FD) (s : State) : Res :=
  regInstr s p 8 false fun c =>
    if f.l != 0 then .exc 0x104
    else match eaFD c f 8 true false with
    | none => .exc 0x104
    | some (a, u) => .ok ((c.setBase f.b u).setG f.r1 a)

/-- Compare and swap of eight aligned bytes (R115). The access counts as a store whether or not the values are equal
(assumption log 9). -/
def casInstr (s : State) (p n : Nat) (ea : Ctx → Option (Word × Option Word)) (r1 b : BitVec 5) : Res :=
  instr s p n false fun s k => do
    let c := s.ctx k
    match ea c with
    | none => .error (.exc 0x104 none)
    | some (a, u) =>
      if a.toNat % 8 != 0 then .error (.exc 0x104 none)
      else
        let run (s : State) := do
          let (ps, s) ← translateOp s p k .store a 8
          let (d, s) ← loadPieces s p k false ps
          let m := BitVec.ofNat 64 (beNat d)
          if m == c.G r1 then
            let (s, es) ← wholeStore s (storePieces s p k (toBE 8 (c.G (r1 + 1)).toNat) false ps)
            .ok (s.setCtx k ((c.setSb bZ true).setBase b u), es)
          else .ok (s.setCtx k (((c.setG r1 m).setSb bZ false).setBase b u), [])
        let (s', es) ← run s
        if es.isEmpty then .ok { s := s' } else withEffects s p k n true run

def execCas (p : Nat) (f : FB) (s : State) : Res :=
  casInstr s p 4 (fun c => if odd5 f.r1 then none else eaFB c f 8 true true) f.r1 f.b

def execCasx (p : Nat) (f : FD) (s : State) : Res :=
  casInstr s p 8 (fun c => if odd5 f.r1 || f.l != 0 then none else eaFD c f 8 true true) f.r1 f.b

/-- The operand size that L selects in LDX and STX, and whether it is signed (R115). -/
def ldxSize (l : BitVec 4) : Option (Nat × Bool) :=
  match l.toNat with
  | 0 => some (1, false) | 1 => some (1, true)
  | 2 => some (2, false) | 3 => some (2, true)
  | 4 => some (4, false) | 5 => some (4, true)
  | 6 => some (8, false) | 7 => some (16, false)
  | _ => none

/-- The address of an LDX or STX operand of `n` bytes: R1 is a pair field at 16 bytes. -/
def eaLdx (f : FD) (n : Nat) (c : Ctx) : Option (Word × Option Word) :=
  if n == 16 && odd5 f.r1 then none else eaFD c f n true (n == 16)

def execLdx (p : Nat) (f : FD) (s : State) : Res :=
  match ldxSize f.l with
  | none => loadInstr s p 8 (fun _ => none) 1 f.b 1 fun c _ => .ok c
  | some (n, sg) =>
    loadInstr s p 8 (eaLdx f n) n f.b (if n == 16 then 16 else 1) (fun c d =>
      .ok (if n == 16 then c.setPair f.r1 (BitVec.ofNat 128 (beNat d))
           else c.setG f.r1 (if sg then Sys2Proof.sext (8 * n) (beNat d) else BitVec.ofNat 64 (beNat d)))) (keys := n == 8)

/-- STX. The signed codes of L select the same sizes as the unsigned ones (assumption log 10). -/
def execStx (p : Nat) (f : FD) (s : State) : Res :=
  match ldxSize f.l with
  | none => storeInstr s p 8 (fun _ => none) f.b 1 fun c => .ok ([], c)
  | some (n, _) =>
    storeInstr s p 8 (eaLdx f n) f.b (if n == 16 then 16 else 1) (fun c =>
      .ok (if n == 16 then toBE 16 (c.pair f.r1).toNat else toBE n (c.G f.r1).toNat, c)) (keys := n == 8)

/-! ## Floating-point loads and stores: binary32 lies in the low half, the high half zero (R98) -/

def loadF (p : Nat) (f : FB) (s : State) (n : Nat) : Res :=
  loadInstr s p 4 (fun c => eaFB c f n false false) n f.b 1 fun c d => .ok (c.setF f.r1 (BitVec.ofNat 64 (beNat d)))

def storeF (p : Nat) (f : FB) (s : State) (n : Nat) : Res :=
  storeInstr s p 4 (fun c => eaFB c f n false false) f.b 1 fun c => .ok (toBE n (c.F f.r1).toNat, c)

def execFldd (p : Nat) (f : FB) (s : State) : Res := loadF p f s 8
def execFlds (p : Nat) (f : FB) (s : State) : Res := loadF p f s 4
def execFstd (p : Nat) (f : FB) (s : State) : Res := storeF p f s 8
def execFsts (p : Nat) (f : FB) (s : State) : Res := storeF p f s 4

/-- The size that L selects in FLDX and FSTX. -/
def fldxSize (l : BitVec 4) : Option Nat :=
  match l.toNat with
  | 6 => some 8
  | 4 => some 4
  | _ => none

def execFldx (p : Nat) (f : FD) (s : State) : Res :=
  match fldxSize f.l with
  | none => loadInstr s p 8 (fun _ => none) 1 f.b 1 fun c _ => .ok c
  | some n => loadInstr s p 8 (fun c => eaFD c f n false false) n f.b 1 fun c d => .ok (c.setF f.r1 (BitVec.ofNat 64 (beNat d)))

def execFstx (p : Nat) (f : FD) (s : State) : Res :=
  match fldxSize f.l with
  | none => storeInstr s p 8 (fun _ => none) f.b 1 fun c => .ok ([], c)
  | some n => storeInstr s p 8 (fun c => eaFD c f n false false) f.b 1 fun c => .ok (toBE n (c.F f.r1).toNat, c)

end Sys2Proof.Machine
end

