-- ==== Sys2Proof/Machine/BlockRepeat.lean ====
section
/-! DEFINITION. The block-repeat instructions (R125 to R132, R150). A command carries how many elements are processed before the
next boundary at which the engine turns to something else. -/

namespace Sys2Proof.Machine

open Sys2Proof

/-- One element: the state after it with its registers, the host-window stores it makes, and whether the instruction is complete. -/
abbrev Elem := State → Bool → Except Stop (State × List Effect × Bool)

/-- How a run of elements ends. -/
inductive BlkEnd where
  | done (s : State)
  | more (s : State)
  | stop (s : State) (e : Stop)

/-- One element with its commit points when it stores to a host window (R118, R322): the state after it, whether the instruction is
complete, and whether the engine now waits for a closing commit point. -/
def elemRun (e : Elem) (s : State) (p k : Nat) : Except Stop (State × Bool × Bool) := do
  let start := !(s.ctx k).sb bRP
  let resume (s : State) : State := s.updVe k fun x => { x with cur := x.cur.setSb bRP true, opened := false }
  let (s', es, fin) ← e s start
  if es.isEmpty then .ok (s', fin, false)
  else if (s.eng p).commit.isSome then .error (.wait s)
  else if !(s.fn (veInst k + 1)).bme then .error (.wait (parkBme s p k))
  else if s.twinned (veInst k) then
    if (s.ve k).opened then .ok (takeCommit (resume s') p k es false true false, false, true)
    else .error (.wait (takeCommit s p k [] true true false))
  else
    let s := commitNow s p k [] false
    match e s start with
    | .error x => .error (.after s x)
    | .ok (s', es, fin) => .ok (commitNow (resume s') p k es false, fin, false)

/-- Up to `n` elements (R125, R131): after each that does not end the instruction RP is 1. -/
def elems (e : Elem) (p k : Nat) : Nat → State → BlkEnd
  | 0, s => .more s
  | n + 1, s =>
    match elemRun e s p k with
    | .error x => .stop s x
    | .ok (s', fin, waits) =>
      if waits then .more s'
      else if fin then .done s'
      else elems e p k n (s'.updVe k fun x => { x with cur := x.cur.setSb bRP true })

/-- A block-repeat instruction: its field rules, a count of zero, or its elements. -/
def blockInstr (p : Nat) (s : State) (n : Nat) (ok : Bool) (rc : BitVec 5) (zero : Ctx → Bool → Ctx) (e : Nat → Elem) : Res :=
  instr s p 4 false fun s k =>
    if !ok then .error (.exc 0x104 none)
    else
      let c := s.ctx k
      if c.G rc == 0 then .ok { s := (s.setCtx k (zero c (!c.sb bRP))).updVe k fun x => { x with desc := none } }
      else
        match elems (e k) p k n s with
        | .done s => .ok { s := s.updVe k fun x => { x with desc := none } }
        | .more s => .ok { s := s, moved := true }
        | .stop s x => .error (.after s x.keepRp)

/-- The byte at a virtual address. -/
def loadByte (s : State) (p k : Nat) (a : Word) : Except Stop (Byte × State) := do
  let (d, s) ← loadOp s p k a 1
  .ok (d.headD 0, s)

/-- G[r] moved by `d`. -/
def Ctx.bump (c : Ctx) (r : BitVec 5) (d : Word) : Ctx := c.setG r (c.G r + d)

/-- MOVB, whose source byte is read before its destination is checked (assumption log 111) (R127, R129): the direction is kept while the engine stays in the instruction, else decided from the registers. -/
def movbElem (p : Nat) (f : FE) (k : Nat) : Elem := fun s _ => do
  let c := s.ctx k
  let rs := (c.G f.rs).toNat
  let rd := (c.G f.rd).toNat
  let rc := (c.G f.rc).toNat
  let desc := ((s.ve k).desc).getD (!f.opt.getLsbD 0 && decide (rs < rd ∧ rd < rs + rc))
  let off : Word := if desc then c.G f.rc - 1 else 0
  let (b, s) ← loadByte s p k (c.G f.rs + off)
  let (s, es) ← storeOp s p k (c.G f.rd + off) [b]
  let c := c.bump f.rc (-1)
  let c := if desc then c else (c.bump f.rd 1).bump f.rs 1
  .ok ((s.setCtx k c).updVe k fun x => { x with desc := some desc }, es, rc == 1)

def execMovb (p : Nat) (f : FE) (n : Nat) (s : State) : Res :=
  blockInstr p s n (f.rp == 0 && f.opt.toNat < 2 && distinct [f.rd, f.rs, f.rc]) f.rc (fun c _ => c) (movbElem p f)

def fillbElem (p : Nat) (f : FE) (k : Nat) : Elem := fun s _ => do
  let c := s.ctx k
  let size := 2 ^ (f.opt.toNat % 4)
  let (s, es) ← storeOp s p k (c.G f.rd) (toBE size (c.G f.rp).toNat)
  .ok (s.setCtx k ((c.bump f.rd (BitVec.ofNat 64 size)).bump f.rc (-1)), es, c.G f.rc == 1)

def execFillb (p : Nat) (f : FE) (n : Nat) (s : State) : Res :=
  blockInstr p s n (f.rs == 0 && f.opt.toNat < 4 && distinct [f.rd, f.rc, f.rp]) f.rc (fun c _ => c) (fillbElem p f)

/-- The flags of a comparison that ends: Z, and C with N (R127). -/
def Ctx.cmpbFlags (c : Ctx) (z lower : Bool) : Ctx := (((c.setSb bZ z).setSb bC lower).setSb bN lower).setSb bV false

def cmpbElem (p : Nat) (f : FE) (k : Nat) : Elem := fun s _ => do
  let c := s.ctx k
  let (a, s) ← loadByte s p k (c.G f.rd)
  let (b, s) ← loadByte s p k (c.G f.rs)
  if a != b then .ok (s.setCtx k (c.cmpbFlags false (decide (a.toNat < b.toNat))), [], true)
  else
    let fin := c.G f.rc == 1
    let c := ((c.bump f.rd 1).bump f.rs 1).bump f.rc (-1)
    .ok (s.setCtx k (if fin then c.cmpbFlags true false else c), [], fin)

def execCmpb (p : Nat) (f : FE) (n : Nat) (s : State) : Res :=
  blockInstr p s n (f.rp == 0 && f.opt == 0 && distinct [f.rd, f.rs, f.rc]) f.rc (fun c _ => c.cmpbFlags true false) (cmpbElem p f)

def scanbElem (p : Nat) (f : FE) (k : Nat) : Elem := fun s _ => do
  let c := s.ctx k
  let (b, s) ← loadByte s p k (c.G f.rs)
  if (b == (c.G f.rp).setWidth 8) != f.opt.getLsbD 0 then .ok (s.setCtx k (c.setSb bZ true), [], true)
  else
    let fin := c.G f.rc == 1
    let c := (c.bump f.rs 1).bump f.rc (-1)
    .ok (s.setCtx k (if fin then c.setSb bZ false else c), [], fin)

def execScanb (p : Nat) (f : FE) (n : Nat) (s : State) : Res :=
  blockInstr p s n (f.rd == 0 && f.opt.toNat < 2 && distinct [f.rs, f.rc, f.rp]) f.rc (fun c _ => c.setSb bZ false) (scanbElem p f)

def translateElem (p : Nat) (f : FE) (k : Nat) : Elem := fun s _ => do
  let c := s.ctx k
  let (b, s) ← loadByte s p k (c.G f.rs)
  let (t, s) ← loadByte s p k (c.G f.rp + b.setWidth 64)
  let (s, es) ← storeOp s p k (c.G f.rd) [t]
  .ok (s.setCtx k (((c.bump f.rd 1).bump f.rs 1).bump f.rc (-1)), es, c.G f.rc == 1)

def execTranslate (p : Nat) (f : FE) (n : Nat) (s : State) : Res :=
  blockInstr p s n (f.opt == 0 && distinct [f.rd, f.rs, f.rc, f.rp]) f.rc (fun c _ => c) (translateElem p f)

def trtbElem (p : Nat) (f : FE) (k : Nat) : Elem := fun s _ => do
  let c := s.ctx k
  let (b, s) ← loadByte s p k (c.G f.rs)
  let (t, s) ← loadByte s p k (c.G f.rp + b.setWidth 64)
  if t != 0 then .ok (s.setCtx k ((c.setG f.rd (t.setWidth 64)).setSb bZ false), [], true)
  else
    let fin := c.G f.rc == 1
    let c := (c.bump f.rs 1).bump f.rc (-1)
    .ok (s.setCtx k (if fin then c.setSb bZ true else c), [], fin)

def execTrtb (p : Nat) (f : FE) (n : Nat) (s : State) : Res :=
  blockInstr p s n (f.opt == 0 && distinct [f.rd, f.rs, f.rc, f.rp]) f.rc (fun c _ => c.setSb bZ true) (trtbElem p f)

/-- The start action (INIT) and the end action (FINAL) of CRCB: the low 32 bits complemented (R127). -/
def crcFlip (b : Bool) (v : BitVec 32) : BitVec 32 := if b then ~~~v else v

def crcbElem (p : Nat) (f : FE) (k : Nat) : Elem := fun s start => do
  let c := s.ctx k
  let (b, s) ← loadByte s p k (c.G f.rs)
  let fin := c.G f.rc == 1
  let v := crcByte polyC (crcFlip (start && f.opt.getLsbD 0) ((c.G f.rd).setWidth 32)) b
  let c := ((c.setG f.rd ((crcFlip (fin && f.opt.getLsbD 1) v).setWidth 64)).bump f.rs 1).bump f.rc (-1)
  .ok (s.setCtx k c, [], fin)

/-- CRCB of no bytes complements the low 32 bits for INIT and for FINAL and leaves the high bits (R127, R128). -/
def crcbZero (f : FE) (c : Ctx) (start : Bool) : Ctx :=
  let v := c.G f.rd
  c.setG f.rd (v.extractLsb' 32 32 ++ crcFlip (f.opt.getLsbD 1) (crcFlip (start && f.opt.getLsbD 0) (v.setWidth 32)))

def execCrcb (p : Nat) (f : FE) (n : Nat) (s : State) : Res :=
  blockInstr p s n (f.rp == 0 && f.opt.toNat < 4 && distinct [f.rd, f.rs, f.rc]) f.rc (crcbZero f) (crcbElem p f)

/-- MULMB (R127, R154): an element whose multiplicand and carry are zero stores nothing, its accumulator is still checked. -/
def mulmbElem (p : Nat) (f : FE) (k : Nat) : Elem := fun s start => do
  let c := s.ctx k
  let carry : Word := if start && f.opt.getLsbD 0 then 0 else c.G (f.rp + 1)
  let (m, s) ← loadOp s p k (c.G f.rs) 8
  let fin := c.G f.rc == 1
  let next (s : State) (es : List Effect) (cy : Word) : State × List Effect × Bool :=
    let c := (((c.setG (f.rp + 1) cy).bump f.rd (-8)).bump f.rs (-8)).bump f.rc (-1)
    (s.setCtx k (if fin then c.setSb bZ (cy == 0) else c), es, fin)
  if beNat m == 0 && carry == 0 then
    let (_, s) ← translateOp s p k .store (c.G f.rd) 8
    .ok (next s [] 0)
  else
    let (a, s) ← loadOp s p k (c.G f.rd) 8
    let t := beNat m * (c.G f.rp).toNat + beNat a + carry.toNat
    let (s, es) ← storeOp s p k (c.G f.rd) (toBE 8 (t % 2 ^ 64))
    .ok (next s es (BitVec.ofNat 64 (t / 2 ^ 64)))

def execMulmb (p : Nat) (f : FE) (n : Nat) (s : State) : Res :=
  blockInstr p s n (!odd5 f.rp && f.opt.toNat < 2 && distinct [f.rd, f.rs, f.rc, f.rp, f.rp + 1]) f.rc
    (fun c start =>
      let c := if start && f.opt.getLsbD 0 then c.setG (f.rp + 1) 0 else c
      c.setSb bZ (c.G (f.rp + 1) == 0))
    (mulmbElem p f)

end Sys2Proof.Machine
end

