-- ==== Sys2Proof/Machine/Control.lean ====
section
/-! DEFINITION. Control and cache instructions: COMMIT, SIGNAL, SSTART, BARRIER (R133 to R139, R246 to R249) and the maintenance of lines
(R212 to R215). -/

namespace Sys2Proof.Machine

open Sys2Proof

/-! ## COMMIT (R133) -/

def execCommit (p : Nat) (f : FA) (s : State) : Res :=
  instr s p 4 false fun s k =>
    if f.r1 != 0 || f.r2 != 0 || f.r3 != 0 || f.fn != 0 then .error (.exc 0x104 none)
    else if (s.eng p).commit.isSome then .error (.wait s)
    else .ok { s := takeCommit (advance s k 4) p k [] false true false, moved := true }

/-! ## The result of SSTART and SIGNAL (R135) -/

/-- G[r1] and Z for a status with its hint. -/
def Ctx.result (c : Ctx) (r1 : BitVec 5) (st : Status) (retry : Nat) : Ctx :=
  let hint := if st = .busy then retry % 2 ^ 48 else 0
  (c.setG r1 (BitVec.ofNat 64 (st.code * 2 ^ 56 + hint))).setSb bZ (st = .done)

/-- Is virtual engine `v` of instance `i` placed (R79)? -/
def State.placed (s : State) (i v : Nat) : Bool := v < 64 && (s.ve (veKey i v)).placed

/-! ## SIGNAL (R136) -/

/-- The refusal of a COMPLETE that names no request awaiting its answer, logged (R70, R136). -/
def logRefusedAnswer (s : State) (p k seq : Nat) : State :=
  let i := veInst k
  logEvent s { s.entry 0x42 0 0x01 (engineUnit p) with
    inst := i, ve := veNum k, detail := (s.inst i).st.code, ref := seq }

/-- SIGNAL, whose function stands in G[R2]. -/
def signalInstr (p : Nat) (f : FA) (s : State) : Res :=
  instr s p 4 false fun s k =>
    let c := s.ctx k
    let g2 := (c.G f.r2).toNat
    let g3 := c.G f.r3
    let i := veInst k
    let fnc := bits g2 63 56
    let bad := f.fn != 0 || fnc == 0 || fnc > 3 || (fnc == 1 && bits g2 55 48 > 15) || (fnc != 1 && bits g2 55 6 != 0)
    if bad then .error (.exc 0x104 none)
    else withEffects s p k 4 false fun s =>
      let answer (s : State) (st : Status) (retry : Nat) (es : List Effect) : Except Stop (State × List Effect) :=
        .ok (s.setCtx k ((s.ctx k).result f.r1 st retry), es)
      let t := g2 % 64
      match fnc with
      | 1 => do
        let (d, s) ← loadOp s p k g3 20
        let seq := g2 % 2 ^ 32
        match s.req? (i + 1) seq with
        | some r =>
          if r.stage == .taken && !r.closing then
            answer s .done 0 [.completion i seq (bits g2 55 48) (bits g2 47 32) (fieldBE d 0 4) (slice d 4 16)]
          else answer (logRefusedAnswer s p k seq) .stateRefused 0 []
        | none => answer (logRefusedAnswer s p k seq) .stateRefused 0 []
      | 2 =>
        if !s.placed i t then answer s .accessDenied 0 []
        else if (kvFind (s.ve (veKey i t)).signals (veNum k)).isSome then answer s .busy 100 []
        else answer s .done 0 [.signal i t (veNum k) g3]
      | _ =>
        if !s.placed i t then answer s .accessDenied 0 []
        else answer s .done 0 [.restart i t]

/-- SIGNAL with the function COMPLETE. -/
def execSignalComplete (p : Nat) (f : FA) (s : State) : Res := signalInstr p f s

/-- SIGNAL with the function SIGNAL_VE. -/
def execSignalVe (p : Nat) (f : FA) (s : State) : Res := signalInstr p f s

/-- SIGNAL with the function RESTART_VE. -/
def execRestartVe (p : Nat) (f : FA) (s : State) : Res := signalInstr p f s

/-! ## SSTART (R134, R246 to R249) -/

/-- The start block's own rules (R248, R249 check 3). -/
def startBlockOk (s : State) (i : Nat) (b : List Byte) : Bool :=
  let dev := fieldBE b 0 2
  let prog := fieldBE b 8 8
  let stat := fieldBE b 16 8
  dev < 256 && fieldBE b 2 1 % 64 == 0 && fieldBE b 3 5 == 0 && (slice b 32 32).all (· == 0)
    && (kvFind s.img.devlists (i * 256 + dev)).isSome
    && prog % 16 == 0 && stat % 32 == 0 && (absOf s i prog).isSome && (absOf s i stat).isSome

/-- The checks of R249, in order. -/
def sstartStatus (s : State) (i n : Nat) (b : List Byte) : Status :=
  let sh := (s.inst i).share poolSub 0
  let g := n / 64
  if n ≥ 65536 || g ≥ sh.guarantee + sh.cap then .accessDenied
  else if (s.sub i n).st != .idle || (claimed s i).contains n then .stateRefused
  else if !startBlockOk s i b then .fieldInvalid
  else if g ≥ sh.guarantee && !(busyGroups s i).contains g
      && sharedInUse s poolSub 0 ≥ poolTotal s poolSub 0 - poolGuaranteed s poolSub 0 then .busy
  else .done

def execSstart (p : Nat) (f : FA) (s : State) : Res :=
  instr s p 4 false fun s k =>
    if f.fn != 0 then .error (.exc 0x104 none)
    else withEffects s p k 4 false fun s => do
      let c := s.ctx k
      let i := veInst k
      let n := (c.G f.r2).toNat
      let (b, s) ← loadOp s p k (c.G f.r3) 64
      let st := sstartStatus s i n b
      .ok (s.setCtx k ((s.ctx k).result f.r1 st (retryAfter s poolSub 0)),
           if st = .done then [.startOp i n (veNum k) b] else [])

/-! ## BARRIER (R139) -/

/-- The virtual engines that a mask names. -/
def maskVes (m : Word) : List Nat := (List.range 64).filter fun v => m.getLsbD v

/-- The point of its execution at which virtual engine `k` is: the CSN of the latest commit point, be it complete or under way, and the
instructions completed since (R139). -/
def pointOf (s : State) (k : Nat) : Nat × Nat :=
  let x := s.ve k
  (match x.on with
   | some p => if (s.eng p).commit.isSome then x.csn + 1 else x.csn
   | none => x.csn, x.icount)

/-- The barrier under mask `m` complete: arrivals become releases, each at the point where its virtual engine now is, and every named
virtual engine that waits goes on. -/
def releaseBarrier (s : State) (i : Nat) (m : Word) : State :=
  let x := s.inst i
  let mine := (x.arrivals.filter fun a => a.mask == m).map fun a =>
    let q := pointOf s (veKey i a.ve)
    { a with csn := q.1, icount := q.2 }
  let s := s.setInst i { x with arrivals := x.arrivals.filter (fun a => a.mask != m), releases := x.releases ++ mine }
  (maskVes m).foldl (fun s v =>
    let k := veKey i v
    if (s.ve k).barrier == some m then
      let s := (advance s k 4).updVe k fun e => { e with barrier := none }
      -- a virtual engine that is off its engine has its held context changed
      if (s.ve k).on.isNone then s.updVe k fun e => { e with ckpt := e.cur, ckProg := e.prog, ckMc := e.mc } else s
    else s) s

/-- Does every named virtual engine hold an arrival under `m`? -/
def barrierFull (s : State) (i : Nat) (m : Word) : Bool :=
  (maskVes m).all fun v => (s.inst i).arrivals.any fun a => a.ve == v && a.mask == m

/-- A full barrier completes: at once, or twin-wide when its group is acknowledged. -/
def completeBarrier (s : State) (i : Nat) (m : Word) (tw : Bool) : State :=
  if !barrierFull s i m then s
  else if tw && s.twinned i then closeGroup s i 0x11 [] (.barrier i m)
  else releaseBarrier s i m

/-- BARRIER. Where the BARRIERs that meet differ in TW, the last to arrive decides (assumption log 113). -/
def execBarrier (p : Nat) (f : FA) (s : State) : Res :=
  instr s p 4 false fun s k =>
    let x := s.ve k
    let i := veInst k
    let v := veNum k
    let m := x.cur.G f.r2
    let y := s.inst i
    let q := pointOf s k
    let me (a : Arrival) : Bool := a.ve == v && a.mask == m && a.csn == q.1 && a.icount == q.2
    let others := (maskVes m).any fun w => y.arrivals.any fun a => a.ve == w && a.mask != m
    if f.r1 != 0 || f.r3 != 0 || f.fn.toNat % 256 != 0 || !m.getLsbD v || !(maskVes m).all (s.placed i) then
      .error (.exc 0x104 none)
    else if y.releases.any me then .ok { s := s }
    else if others then .error (.exc 0x104 none)
    else
      let y' := if y.arrivals.any me then y
        else { y with arrivals := y.arrivals.filter (fun a => a.ve != v) ++ [{ ve := v, mask := m, csn := q.1, icount := q.2 }] }
      let s := (clearRp (s.setInst i y') k).updVe k fun e => { e with barrier := some m }
      .ok { s := completeBarrier s i m (f.fn.getLsbD 8), moved := true }

/-! ## Maintenance of lines (R212 to R215) -/

/-- The line that a maintenance instruction names, with its base update: `none` for an address in a window, which is ignored. -/
def maintLine (s : State) (p k : Nat) (acc : Access) (a : Word) : Except Stop (Option Nat × State) := do
  let (ph, s) ← translate s p k acc a
  match ph with
  | .mem x => .ok (some (x / 64), s)
  | _ => .ok (none, s)

/-- An F-B maintenance instruction: R1 zero, the body on its address. -/
def maintInstr (p : Nat) (f : FB) (s : State) (priv : Bool) (body : State → Nat → Word → Except Stop State) : Res :=
  instr s p 4 priv fun s k =>
    match eaFB (s.ctx k) f 64 false false with
    | none => .error (.exc 0x104 none)
    | some (a, u) =>
      if f.r1 != 0 then .error (.exc 0x104 none)
      else do
        let s ← body s k a
        .ok { s := s.setCtx k ((s.ctx k).setBase f.b u) }

/-- The engine's own commit before a maintenance operation goes on (R202, R212): complete inside the step, or waited for. -/
def ownCommit (s : State) (p k : Nat) : Except Stop State :=
  if (s.eng p).commit.isSome then .error (.wait s)
  else if s.twinned (veInst k) then .error (.wait (takeCommit s p k [] true true false))
  else .ok (commitNow s p k [] false)

/-- Every holder of an uncommitted line of the list commits first: the others are asked, this engine does so now. -/
def settle (s : State) (p k : Nat) (ls : List Nat) : Except Stop State :=
  let os := ls.flatMap (ownersOf s)
  let others := os.filter (· != p)
  if others != [] then .error (.wait (askCommit s others))
  else if os.contains p then ownCommit s p k
  else .ok s

def execPfetch (p : Nat) (f : FB) (s : State) : Res :=
  maintInstr p f s false fun s k a =>
    match maintLine s p k .load a with
    | .ok (some l, s') =>
      if otherOwners s' p l != [] || (s'.eng p).l1d.any (·.line == l) || (s'.eng p).holdsD l then .ok s'
      else .ok (addFill s' p l .prefetch)
    | .ok (none, s') => .ok s'
    | .error _ => .ok s

def execClnl (p : Nat) (f : FB) (s : State) : Res :=
  maintInstr p f s false fun s k a => do
    let (l, s) ← maintLine s p k .load a
    match l with
    | none => .ok s
    | some l => do
      let s ← settle s p k [l]
      .ok (writeBack s l)

def execFlsl (p : Nat) (f : FB) (s : State) : Res :=
  maintInstr p f s false fun s k a => do
    let (l, s) ← maintLine s p k .load a
    match l with
    | none => .ok s
    | some l => do
      let s ← settle s p k [l]
      .ok (dropDomes (writeBack s l) l fun _ => true)

def execIinvl (p : Nat) (f : FB) (s : State) : Res :=
  maintInstr p f s false fun s k a => do
    let (l, s) ← maintLine s p k .load a
    match l with
    | none => .ok s
    | some l => .ok (s.updEng p fun e =>
        { e with l1i := e.l1i.filter (· != l)
                 fills := e.fills.map fun x => if x.line == l && x.kind == .fetch then { x with drop := true } else x })

/-- INVL: this engine commits in any case; the line goes without write-back. -/
def execInvl (p : Nat) (f : FB) (s : State) : Res :=
  maintInstr p f s true fun s k a => do
    let (ph, _) ← translate s p k .load a
    match ph with
    | .mem _ =>
      let (l, s) ← maintLine s p k .store a
      match l with
      | none => .ok s
      | some l =>
        let others := otherOwners s p l
        if others != [] then .error (.wait (askCommit s others))
        else if (s.ve k).opened then
          .ok ((dropDomes s l fun _ => true).updVe k fun e => { e with opened := false })
        else do
          let s ← ownCommit s p k
          .ok (dropDomes s l fun _ => true)
    | _ => .error (.exc 0x104 none)

/-- The absolute lines of a real range that lies wholly in one region of instance `i`, or the first real address that does not. -/
def realLines (s : State) (i r n : Nat) : Except Nat (List Nat) :=
  let main := decide (r < 0x1000000000)
  let top := if main then (s.inst i).main.length * 65536 else 0x1000000000 + (s.inst i).bulk.length * 2097152
  if (absOf s i r).isNone then .error r
  else if r + n > top then .error top
  else .ok (((List.range ((r + n - 1) / 64 - r / 64 + 1)).filterMap fun j => absOf s i ((r / 64 + j) * 64)).map (· / 64))

def execInvr (p : Nat) (f : FA) (s : State) : Res :=
  instr s p 4 true fun s k =>
    let c := s.ctx k
    let r := (c.G f.r2).toNat
    let n := (c.G f.r3).toNat
    if f.r1 != 0 || f.fn != 0 || n < 1 || n > 1048576 then .error (.exc 0x104 none)
    else match realLines s (veInst k) r n with
      | .error a => .error (.exc 0x303 (some (BitVec.ofNat 64 a)))
      | .ok ls => do
        let s ← settle s p k ls
        .ok { s := ls.foldl (fun s l => dropDomes (writeBack s l) l fun _ => true) s }

/-! ## Way locking (R208 to R211) -/

/-- The physical way of handle `h` of instance `i` on tower `t`. -/
def wayOf (s : State) (t i h : Nat) : Option (Nat × WayLock) :=
  (s.dome t).locks.find? fun w => w.2.inst == i && w.2.handle == h

/-- LKST (R210). -/
def lkst (w : Nat) (x : WayLock) : Nat :=
  b2n x.locked * 2 ^ 63 + b2n (x.locked && x.held == 0) * 2 ^ 62 + x.held * 2 ^ 32 + w * 65536 + x.removed

/-- Line `l`, which the dome holds, in way `w` and counted under its lock. One that was locked in another way leaves that way's count
(R208 step 2; assumption log 104). -/
def markLocked (s : State) (t w l : Nat) : State :=
  s.updDome t fun d =>
    match d.lines.find? (·.line == l) with
    | some x =>
      if x.locked && x.way == w then d
      else
        let less (k : WayLock) : WayLock := if x.locked then { k with held := k.held - 1 } else k
        let more (k : WayLock) : WayLock := { k with held := k.held + 1 }
        { d with lines := d.lines.map (fun y => if y.line == l then { y with way := w, locked := true } else y)
                 locks := kvMap (fun v k => if v == w then more k else if v == x.way then less k else k) d.locks }
    | none => d

/-- Line `l` placed in way `w` of its set in dome `t` (R208 step 2): whether it lies there at the end. -/
def placeLine (s : State) (p t w l : Nat) : Except Stop (Bool × State) :=
  let d := s.dome t
  let inWay := d.lines.find? fun x => x.line % 8192 == l % 8192 && x.way == w
  match inWay with
  | some x =>
    if x.line == l then .ok (true, markLocked s t w l)
    else if x.locked then .ok (false, s)
    else
      -- an ordinary line leaves the way; one that is uncommitted waits for its owner
      let os := ownersOf s x.line
      if os != [] then .error (.wait (askCommit s os))
      else
        let s := dropL1 (writeBack s x.line) x.line (fun q => towerOf q == t) true
        let s := s.updDome t fun d => { d with lines := d.lines.filter (·.line != x.line) }
        enter s t
  | none => enter s t
where
  enter (s : State) (t : Nat) : Except Stop (Bool × State) :=
    match domeFind (s.dome t) l with
    | some _ => .ok (true, markLocked s t w l)
    | none =>
      let others := otherOwners s p l
      if others != [] then .error (.wait (askCommit s others))
      else
        let s := writeBack s l
        let shared := s.domes.any fun d => d.1 != t && (domeFind d.2 l).isSome
        let s := if shared then
            { s with domes := kvMap (fun _ d => { d with lines := d.lines.map fun y =>
                if y.line == l && y.st == .E then { y with st := .S } else y }) s.domes }
          else s
        let s := s.updDome t fun d => { d with lines := d.lines ++ [{ line := l, st := if shared then .S else .E, way := w }] }
        .ok (true, markLocked s t w l)

/-- The lines of a range placed in ascending order, with the number that end in the way. -/
def placeLines (s : State) (p t w : Nat) : List Nat → Except Stop (Nat × State)
  | [] => .ok (0, s)
  | l :: r => do
    let (b, s) ← placeLine s p t w l
    let (n, s) ← placeLines s p t w r
    .ok (n + b2n b, s)

def execLockw (p : Nat) (f : FA) (s : State) : Res :=
  instr s p 4 true fun s k =>
    let c := s.ctx k
    let t := towerOf p
    let i := veInst k
    let q := f.fn.getLsbD 8
    let a := c.G f.r2
    let n := (c.G f.r3).toNat
    match wayOf s t i (f.fn.toNat % 4) with
    | none => .error (.exc 0x104 none)
    | some (w, x) =>
      if f.fn.toNat % 256 / 4 != 0 then .error (.exc 0x104 none)
      else if q then
        if f.r2 != 0 || f.r3 != 0 then .error (.exc 0x104 none)
        else .ok { s := s.setCtx k (c.setG f.r1 (BitVec.ofNat 64 (lkst w x))) }
      else if n < 1 || n > 4096 || a.toNat % 4096 + n > 4096 then .error (.exc 0x104 none)
      else do
        let (ph, s) ← translate s p k .load a
        match ph with
        | .mem m =>
          let s := if x.locked then s
            else s.updDome t fun d => { d with locks := kvSet d.locks w { x with locked := true, held := 0, removed := 0 } }
          let ls := linesOf m n
          let (g, s) ← placeLines s p t w ls
          .ok { s := s.setCtx k (((s.ctx k).setG f.r1 (BitVec.ofNat 64 g)).setSb bZ (g == ls.length)) }
        | _ => .error (.exc 0x104 none)

def execUnlkw (p : Nat) (f : FA) (s : State) : Res :=
  instr s p 4 true fun s k =>
    let t := towerOf p
    match wayOf s t (veInst k) (f.fn.toNat % 4) with
    | none => .error (.exc 0x104 none)
    | some (w, x) =>
      if f.r1 != 0 || f.r2 != 0 || f.r3 != 0 || f.fn.toNat / 4 != 0 then .error (.exc 0x104 none)
      else .ok { s := s.updDome t fun d =>
        { d with locks := kvSet d.locks w { x with locked := false, held := 0, removed := 0 }
                 lines := d.lines.map fun y => if y.way == w then { y with locked := false } else y } }

end Sys2Proof.Machine
end

