-- ==== Sys2Proof/Machine/System.lean ====
section
/-! DEFINITION. The privileged instructions on control registers, status and translation (R102, R113, R115, R122, R138, R147), and
undefined opcodes (R111). -/

namespace Sys2Proof.Machine

open Sys2Proof

/-! ## Control registers (R102) -/

/-- K[n] as MFK reads it: K9 names the virtual engine. -/
def readK (c : Ctx) (k n : Nat) : Word :=
  if n == 9 then BitVec.ofNat 64 (veInst k * 65536 + veNum k) else c.K n

/-- The writable bits of K[n] (R102). -/
def kMask (n : Nat) : Word :=
  match n with
  | 0 => 0x00000FFFFFFFE000
  | 1 => 0xFFFF
  | 2 => 0x00000FFFFFFFF000
  | 3 => 0xFFFFFFFFFFFFFFFF
  | 4 => 0xFFFFFFFFFFFFFFFF
  | 5 => 0x1F
  | 8 => 0x00000FFFFFFFFF00
  | 10 => 0xFFFFFFFFFFFFFFFF
  | 11 => 0xFFFFFFFFFFFFFFFF
  | _ => 0

/-- K[n] written: read-only bits keep their value, RZ bits stay zero. -/
def Ctx.writeK (c : Ctx) (n : Nat) (v : Word) : Ctx :=
  c.setK n ((c.K n &&& ~~~(kMask n)) ||| (v &&& kMask n))

def execMfk (p : Nat) (f : FA) (s : State) : Res :=
  instr s p 4 true fun s k =>
    if f.fn != 0 || f.r2.toNat > 15 then .error (.exc 0x104 none)
    else .ok { s := s.setCtx k ((s.ctx k).setG f.r1 (readK (s.ctx k) k f.r2.toNat)) }

def execMtk (p : Nat) (f : FA) (s : State) : Res :=
  instr s p 4 true fun s k =>
    if f.fn != 0 || f.r1.toNat > 15 then .error (.exc 0x104 none)
    else .ok { s := s.setCtx k ((s.ctx k).writeK f.r1.toNat ((s.ctx k).G f.r2)) }

/-! ## WAIT and RFI (R138, R147) -/

def execWait (p : Nat) (f : FA) (s : State) : Res :=
  instr s p 4 true fun s k =>
    if f.fn != 0 then .error (.exc 0x104 none)
    else .ok { s := s.setCtx k ((s.ctx k).setSb bWT true) }

/-- The real address of the save frame of class `c` (R144). -/
def frameReal (c : Ctx) (cls : Nat) : Nat := (c.K 2).toNat + 0x80 + 0x40 * cls

/-- RFI: the whole ESW from the frame, read as a load at its instance-real address (assumption log 12). -/
def execRfi (p : Nat) (f : FA) (s : State) : Res :=
  instr s p 4 true fun s k =>
    let cls := f.fn.toNat / 64
    if f.r1 != 0 || f.r2 != 0 || f.r3 != 0 || f.fn.toNat % 64 != 0 || cls > 4 then .error (.exc 0x104 none)
    else
      let r := frameReal (s.ctx k) cls
      match absOf s (veInst k) r with
      | none => .error (.exc 0x303 (some (BitVec.ofNat 64 r)))
      | some a => do
        let (d, s) ← loadLine s p a 16 (BitVec.ofNat 64 r)
        let ia : Word := BitVec.ofNat 64 (fieldBE d 0 8)
        if ia.toNat % 4 != 0 then .error (.exc 0x104 none)
        else .ok { s := s.updVe k fun x =>
                     { x with cur := { x.cur with ia := ia, psw := BitVec.ofNat 64 (fieldBE d 8 8) &&& pswMask }
                              icount := x.icount + 1, opened := false, check := true }
                   moved := true }

/-! ## Translation (R115, R122) -/

/-- The instance-real address of `va`, permissions not checked; `none` where LRA reports failure. -/
def lraReal (s : State) (p k : Nat) (va : Word) : Except Stop (Option Nat × State) :=
  let i := veInst k
  let backed (s : State) (r : Nat) : Option Nat × State := ((resolve s i r).map fun _ => r, s)
  if (s.ctx k).sb bTE then
    if !canonical va then .ok (none, s)
    else
      match xlatVa s p k va with
      | .ok (x, s) => .ok (backed s (x.frame + (va.toNat - x.vbase)))
      | .error (.exc _ _) => .ok (none, s)
      | .error e => .error e
  else .ok (if va.toNat < 2 ^ 44 then backed s va.toNat else (none, s))

def execLra (p : Nat) (f : FB) (s : State) : Res :=
  instr s p 4 true fun s k =>
    match eaFB (s.ctx k) f 8 true false with
    | none => .error (.exc 0x104 none)
    | some (a, u) => do
      let (r, s) ← lraReal s p k a
      let c := (s.ctx k).setBase f.b u
      let c := match r with
        | some r => (c.setG f.r1 (BitVec.ofNat 64 r)).setSb bZ false
        | none => c.setSb bZ true
      .ok { s := s.setCtx k c }

/-- The TLB entries that `q` selects leave every engine. -/
def dropTlb (s : State) (q : TlbEntry → Bool) : State :=
  { s with engines := kvMap (fun _ e => { e with tlb := e.tlb.filter fun t => !q t }) s.engines }

def execTlbi (p : Nat) (f : FA) (s : State) : Res :=
  instr s p 4 true fun s k =>
    if f.fn != 0 then .error (.exc 0x104 none)
    else
      let c := s.ctx k
      let va := (c.G f.r2).toNat
      .ok { s := dropTlb s fun t =>
        t.inst == veInst k && t.asid == (c.K 1).setWidth 16 && t.vbase ≤ va && va < t.vbase + t.size }

def execTlbia (p : Nat) (f : FA) (s : State) : Res :=
  instr s p 4 true fun s k =>
    if f.fn != 0 then .error (.exc 0x104 none) else .ok { s := dropTlb s fun t => t.inst == veInst k }

/-! ## Undefined opcodes (R106, R111) -/

/-- Is the major opcode defined (R111)? -/
def opDefined (op : Byte) : Bool :=
  let n := op.toNat % 16
  match op.toNat / 16 with
  | 0 => (1 ≤ n && n ≤ 5) || (7 ≤ n && n ≤ 12)
  | 1 => n ≤ 4
  | 2 => n ≤ 12
  | 3 => n ≤ 13
  | 4 => n ≤ 9
  | 5 => n ≤ 14
  | 6 => n ≤ 7
  | 7 => true
  | 8 => n ≤ 5
  | 9 => n ≤ 9
  | 10 => n ≤ 4
  | 12 => n ≤ 7
  | 14 => n ≤ 9
  | _ => false

/-- An undefined major opcode raises the operation exception; its ILEN is 4 (R106). A defined opcode is another command's. -/
def execUndefinedOpcode (p : Nat) (op : Byte) (s : State) : Res :=
  if opDefined op then .next s.quiet
  else instr s p 4 false fun _ _ => .error (.exc 0x101 none)

end Sys2Proof.Machine
end

