-- ==== Sys2Proof/Machine/Interrupt.lean ====
section
/-! DEFINITION. Interruptions (R137, R141 to R149), commit points on request and dispatch (R80, R202, R320, R321). -/

namespace Sys2Proof.Machine

open Sys2Proof

/-! ## The micro-trap (R151, R187, R188) -/

/-- The instructions of the micro-routine row of R149, by major opcode. -/
def microRow (op : Byte) : Bool :=
  [0x27, 0x28, 0x29, 0x2A, 0x73, 0x74, 0x92, 0x93, 0x96, 0x97, 0x98].contains op.toNat

/-- The micro-save area written at a trap from the working registers, which the command gives as the routine left them. A routine that resumed from the area keeps the operand values it had read (R151). -/
def microTrap (s : State) (p k : Nat) (m : MicroTrap) : State :=
  if !microRow m.op then s
  else
    let c := s.ctx k
    let again := c.resumes m.op
    let pat : List Byte :=
      match (if again then none else m.edit) with
      | some f =>
        match loadOp s p k (c.G f.rs) (c.G f.rc).toNat with
        | .ok (d, _) => if (c.G f.rc).toNat ≤ 64 then d else []
        | .error _ => []
      | none => []
    let s := s.updEng p fun e => { e with work := { e.work with
      mpc := m.mpc, mt := m.mt, count := m.count, flags := m.uflags, stack := (m.stack.take 4).map (·.setWidth 13) } }
    s.setCtx k { c with micro := {
      ia := c.ia, op := m.op, valid := true, depth := min 4 m.stack.length, mpc := m.mpc, uflags := m.uflags, count := m.count
      stack := m.stack.take 4, msid := s.msid, mt := m.mt
      src := if again then c.micro.src else m.regs.map fun r => (r.toNat, c.source m.op r.toNat)
      pattern := if again then c.micro.pattern else pat } }

/-! ## Presenting (R144, R145, R148, R336) -/

/-- Big-endian bytes of a word. -/
def wordBytes (w : Word) : List Byte := toBE 8 w.toNat

/-- The 16 bytes of an ESW. -/
def eswBytes (c : Ctx) : List Byte := wordBytes c.ia ++ wordBytes c.psw

/-- The class's parameters, from byte 16 of the frame (R144). -/
def frameParams (s : State) (k : Nat) : Intr → List Byte
  | .restart => []
  | .prog e => toBE 2 e.code ++ toBE 1 e.ilen ++ zeros 1 ++ toBE 1 e.fpFlags ++ zeros 3
      ++ wordBytes (match e.tea with | some a => a | none => (s.ctx k).K 7)
  | .io n => toBE 2 n ++ toBE 1 (s.sub (veInst k) n).fstatus ++ zeros 1 ++ toBE 6 (s.sub (veInst k) n).endJsn
  | .clock => toBE 2 2
  | .timer => toBE 2 3
  | .signal v w => toBE 2 4 ++ toBE 1 v ++ zeros 5 ++ wordBytes w
  | .message q =>
    let ring := match s.req? (veInst k + 1) q with | some r => r.k | none => 0
    toBE 2 1 ++ zeros 1 ++ toBE 1 ring ++ toBE 4 q
  | .accel a => toBE 2 5 ++ zeros 6 ++ wordBytes a
  | .machine m => toBE 2 m.code ++ zeros 6 ++ toBE 8 m.eseq
  | .deferred m => toBE 2 m.code ++ zeros 6 ++ toBE 8 m.eseq

/-- The machine-check information area (R336). -/
def mcArea (m : McInfo) : List Byte :=
  let imm := m.code != 0x10
  padTo 256 (toBE 2 m.code
    ++ [BitVec.ofNat 8 (b2n imm * 128 + b2n (imm && m.nullified) * 64 + b2n m.va.isSome * 32 + b2n m.multiple * 16)]
    ++ toBE 1 m.access ++ toBE 1 m.ilen ++ zeros 3 ++ toBE 8 (m.va.getD 0).toNat ++ toBE 8 m.line ++ toBE 8 m.eseq
    ++ toBE 8 m.tb ++ toBE 1 m.source ++ zeros 1 ++ toBE 2 m.unit ++ toBE 4 m.left)

/-- A whole aligned line stored by the interruption at real address `r`, its poison gone (R148). It is a store of the engine, which leaves
no-allocate mode for it (R205, assumption log 94). -/
def storeReal (s : State) (p i r : Nat) (d : List Byte) : Except Stop State :=
  match absOf s i r with
  | none => .ok s
  | some a =>
    let others := otherOwners s p (a / 64)
    if others != [] then .error (.wait (askCommit s others))
    else do
      let s := engineZone s p i r
      let s ← if (s.eng p).stream.active then leaveStream s p else .ok s
      let s ← makeDirty s p (a / 64) (padTo 64 d)
      .ok (s.updEng p fun e => { e with stream := e.stream.after a 64 })

/-- The lines that the interruption writes: real address and content (R144, R336). -/
def intrLines (s : State) (k : Nat) (x : Intr) : List (Nat × List Byte) :=
  let c := s.ctx k
  let c' := c.setSb bWT false
  let iao := (c.K 2).toNat
  let area : List (Nat × List Byte) :=
    match x with
    | .machine m => lines4 (c.K 8).toNat (mcArea m)
    | .deferred m => lines4 (c.K 8).toNat (mcArea m)
    | .message q => [(iao + 0x1C0, match s.req? (veInst k + 1) q with | some r => r.entry | none => [])]
    | _ => []
  area ++ [(iao + 0x80 + 0x40 * x.cls, eswBytes c' ++ frameParams s k x)]
where
  lines4 (r : Nat) (d : List Byte) : List (Nat × List Byte) :=
    [(r, slice d 0 64), (r + 64, slice d 64 64), (r + 128, slice d 128 64), (r + 192, slice d 192 64)]

/-- Does the real range of `n` bytes at `r` lie in the instance's main-store granules? -/
def inMain (s : State) (i r n : Nat) : Bool := r + n ≤ (s.inst i).main.length * 65536

/-- The entry's rules (R144): HIA word aligned, HSTATE [8:0] and bytes 10 to 15 zero. -/
def entryWordOk (e : List Byte) : Bool :=
  fieldBE e 0 8 % 4 == 0 && fieldBE e 8 2 % 512 == 0 && fieldBE e 10 6 == 0

/-- The ESW that an entry gives (R145 step 5). -/
def entryPsw (e : List Byte) : Word :=
  let h := fieldBE e 8 2
  BitVec.ofNat 64 (b2n (bit h 15) * 2 ^ bMCM + b2n (bit h 14) * 2 ^ bIOM + b2n (bit h 13) * 2 ^ bEXM + b2n (bit h 12) * 2 ^ bFXM
    + b2n (bit h 11) * 2 ^ bDOM + b2n (bit h 10) * 2 ^ bPS + b2n (bit h 9) * 2 ^ bTE)

/-- An interruption that cannot be presented stops the virtual engine and is logged; it stays held, nothing of it consumed (R148). -/
def notPresented (s : State) (p k cls : Nat) : State :=
  let s := s.updVe k fun x => { x with stopped := true, desc := none, opened := false }
  logEvent s { s.entry 0x41 0 0x01 (engineUnit p) with inst := veInst k, ve := veNum k, param := cls * 2 ^ 56 }

/-- The virtual engine in its handler (R145 steps 4 and 5): K6 and K7 of a program interruption, what is taken recorded until its
consumption (R323). -/
def enterHandler (x : VE) (t : Intr) (e : List Byte) : VE :=
  let c := x.cur
  let c := match t with
    | .prog pe =>
      let c := c.setK 6 (BitVec.ofNat 64 pe.code)
      match pe.tea with | some a => c.setK 7 a | none => c
    | _ => c
  let c := { c with ia := BitVec.ofNat 64 (fieldBE e 0 8), psw := entryPsw e }
  let x := { x with cur := c, desc := none, opened := false, barrier := none, waitBme := false, stopped := false, check := true }
  match t with
  | .restart => { x with taken := x.taken ++ [.restart], mcHeld := false }
  | .prog _ => { x with prog := none }
  | .io n => { x with taken := x.taken ++ [.io n] }
  | .signal v _ => { x with taken := x.taken ++ [.signal v] }
  | .message q => { x with taken := x.taken ++ [.message q] }
  | .accel a => { x with taken := x.taken ++ [.accel a] }
  | .machine _ => { x with mc := none, mcHeld := false }
  | .deferred m => { x with taken := x.taken ++ [.deferred m] }
  | .clock => x
  | .timer => x

/-- The arrival of a virtual engine withdrawn (R139). -/
def withdrawArrival (s : State) (k : Nat) : State :=
  s.updInst (veInst k) fun y => { y with arrivals := y.arrivals.filter fun a => a.ve != veNum k }

/-- Virtual engine `k` on engine `p` takes interruption `t` (R145). -/
def takeIntr (s : State) (p k : Nat) (t : Intr) : State :=
  let i := veInst k
  let c := s.ctx k
  let iao := (c.K 2).toNat
  let waiting := (s.ve k).barrier.isSome
  let s1 := takeCommit s p k [] false false false
  let s1 := if waiting then withdrawArrival s1 k else s1
  let mcOk := match t with
    | .machine _ => inMain s i (c.K 8).toNat 256
    | .deferred _ => inMain s i (c.K 8).toNat 256
    | _ => true
  if !inMain s i iao 4096 || !mcOk then notPresented s1 p k t.cls
  else
    match absOf s i (iao + 0x10 * t.cls) with
    | none => notPresented s1 p k t.cls
    | some a =>
      let l := a / 64
      let others := otherOwners s p l
      let (d, bad) := ownView s p l
      let e := slice d (a % 64) 16
      if others != [] then askCommit s others
      else if bad || !entryWordOk e then notPresented s1 p k t.cls
      else
        match (intrLines s k t).foldlM (fun s w => storeReal s p i w.1 w.2) s1 with
        | .error (.wait s') => withSteals s s'
        | .error _ => s
        | .ok s' => s'.setVe k (enterHandler (s'.ve k) t e)

/-- May engine `p` reach an interruption point: clocks running, in service, no commit point in progress (R321)? -/
def atPoint (s : State) (p : Nat) : Option Nat :=
  let e := s.eng p
  if s.live && !e.fenced && e.phase == .run && e.commit.isNone then
    match e.ve with
    | some k => if (s.ve k).on == some p then some k else none
    | none => none
  else none

/-- RP of a routine caught at a trap-enabled word (R149). -/
def setRp (s : State) (k : Nat) : State := s.updVe k fun x => { x with cur := x.cur.setSb bRP true }

def execInterruptionTake (p : Nat) (mt : Option MicroTrap) (s : State) : Res :=
  let s := s.quiet
  match atPoint s p with
  | none => .next s
  | some k =>
    match nextIntr s k with
    | none => .next s
    | some t =>
      let s := match mt, t with
        | _, .prog _ => s
        | _, .machine _ => s
        | some m, _ => if microRow m.op then setRp (microTrap s p k m) k else s
        | none, _ => s
      .next (takeIntr s p k t)

/-! ## Timer conditions (R137) -/

/-- The timebase reaches K3. -/
def execClockComparator (i v : Nat) (s : State) : Res :=
  let s := s.quiet
  if s.live && (s.ve (veKey i v)).hasCtx then .next (passUntil s ((s.ctx (veKey i v)).K 3).toNat) else .next s

/-- K4 of a dispatched virtual engine that does not wait falls below zero. -/
def execEngineTimer (i v : Nat) (s : State) : Res :=
  let s := s.quiet
  let x := s.ve (veKey i v)
  if s.live && x.on.isSome && !x.stopped && !x.cur.sb bWT && !timerHolds x.cur then .next (tick s ((x.cur.K 4).toNat + 1))
  else .next s

/-! ## Commit points (R202, R320, R321) -/

/-- A commit point inside a long routine records RP = 1 and the micro-save area; the routine itself goes on (R187). -/
def commitAt (s : State) (p k : Nat) (mt : Option MicroTrap) (wait : Bool) : State :=
  match mt with
  | some m =>
    if microRow m.op then
      let s := microTrap s p k m
      let rp := (s.ctx k).sb bRP
      let s := takeCommit (setRp s k) p k [] false wait false
      s.updVe k fun x => { x with cur := x.cur.setSb bRP rp }
    else takeCommit s p k [] false wait false
  | none => takeCommit s p k [] false wait false

/-- Is a program exception or an enabled machine check at hand, which comes before any other event of its engine? -/
def exceptionFirst (x : VE) : Bool := !x.stopped && (x.prog.isSome || (x.mc.isSome && x.cur.sb bMCM))

/-- 65,536 instructions, or else 20 microseconds, have passed (R320). -/
def execAutoCommit (p : Nat) (mt : Option MicroTrap) (s : State) : Res :=
  let s := s.quiet
  match atPoint s p with
  | none => .next s
  | some k =>
    if exceptionFirst (s.ve k) then .next s
    else
      let s := if (s.ve k).icount ≥ 65536 then s else passUntil s ((s.ve k).tbCommit + 2000)
      .next (commitAt s p k mt false)

/-- A commit-on-steal: the engine has been asked for a line it holds uncommitted (R202). -/
def execCommitOnSteal (p : Nat) (mt : Option MicroTrap) (s : State) : Res :=
  let s := s.quiet
  match atPoint s p with
  | none => .next s
  | some k =>
    if exceptionFirst (s.ve k) || !(s.eng p).steal then .next s else .next (commitAt s p k mt false)

/-! ## Dispatch (R68, R80) -/

/-- Can virtual engine `k` use an engine now: instance RUNNING, and it has something to execute or an enabled interruption to take? -/
def runnable (s : State) (k : Nat) : Bool :=
  let x := s.ve k
  let i := veInst k
  let held := x.cur.sb bWT || x.barrier.isSome || (x.waitBme && !(s.fn (i + 1)).bme) || x.stopped
  (s.inst i).st == .running && (kvFind s.twin.handing i).isNone && x.placed && x.hasCtx && x.on.isNone && (!held || (nextIntr s k).isSome)

/-- May engine `p` run virtual engines: in service, free, dispatchable or standing in for an engine under test (R331, R443)? -/
def engineFree (s : State) (p : Nat) : Bool :=
  let e := s.eng p
  let role : Role := if p < 128 then
      (if e.standFor.isSome then .dispatch else if e.role == .dispatch || e.role == .spare then e.role else .disabled)
    else e.role
  s.live && !e.fenced && e.phase == .run && e.ve.isNone && e.commit.isNone && role == .dispatch && !(s.dome (towerOf p)).stopped
    && decide (towerOf p < s.variant.towers)
    && decide (((enginesOf (towerOf p)).filter fun q => (s.eng q).ve.isSome).length < throttleEngines s)

/-- The instances with a virtual engine that could be dispatched on tower `t`. -/
def contenders (s : State) (t : Nat) : List Nat :=
  ((s.ves.filter fun e => e.2.tower == t && runnable s e.1).map fun e => veInst e.1).dedup

/-- May the dispatcher of tower `t` give instance `i` an engine now (R80, R81)? Its entitlement comes first. Spare time goes to it only
while entitlements are not scaled, no instance that still has its own to take could use the engine, its cap is not reached, and no other
instance has taken less spare time for its entitlement. -/
def mayDispatch (s : State) (i t : Nat) : Bool :=
  let others := (contenders s t).filter (· != i)
  short s i t
    || (!entScaled s t && !(others.any fun j => short s j t) && decide (spareTime s i t < spareCap s i t)
        && others.all fun j => decide (spareTime s j t ≥ spareCap s j t)
          || decide (spareTime s i t * entitled s j t ≤ spareTime s j t * entitled s i t))

def execVeDispatch (p i v : Nat) (s : State) : Res :=
  let s := rollWindow s.quiet (towerOf p)
  let k := veKey i v
  if v < 64 && i < 512 && engineFree s p && runnable s k && (s.ve k).tower == towerOf p && mayDispatch s i (towerOf p) then
    .next ((s.updVe k fun x => { x with on := some p, waitBme := false, since := s.clk.tb, check := true }).updEng p fun e =>
      { e with ve := some k })
  else .next s

/-- The end of a time slice: a commit point, and the virtual engine leaves (R80). -/
def execTimeSliceEnd (p : Nat) (mt : Option MicroTrap) (s : State) : Res :=
  let s := s.quiet
  match atPoint s p with
  | none => .next s
  | some k =>
    if exceptionFirst (s.ve k) then .next s
    else
      let s := match mt with
        | some m => if microRow m.op then setRp (microTrap s p k m) k else s
        | none => s
      .next (commitWait s p k true)

/-! ## Fills (R198, R205, R214) -/

/-- The lines of an L1I after room has been made for another of its set: four ways, 256 sets (R195); which line goes is a free choice. -/
def l1iRoom (n : Nat) (l : List Nat) (line : Nat) : List Nat :=
  let set := l.filter (· % 256 == line % 256)
  if set.length < 4 then l
  else match pickFrom n set with
    | some v => l.filter (· != v)
    | none => l

/-- Line `l` shared: an E copy in any L1D becomes S (R198). -/
def shareLine (s : State) (l : Nat) : State :=
  { s with engines := kvMap (fun _ q => { q with l1d := q.l1d.map fun x =>
      if x.line == l && x.st == .E then { x with st := .S } else x }) s.engines }

/-- Is engine `p`'s copy of line `l`, present in its dome, the only one in any L1, so that it may be E (R198)? -/
def aloneIn (s : State) (p l : Nat) : Bool :=
  match domeFind (s.dome (towerOf p)) l with
  | some x => x.st != .S && !(s.engines.any fun q => q.2.l1d.any (·.line == l) || q.2.l1i.contains l)
  | none => false

/-- A fill of `line` by engine `p` installed in the L1 its kind names, the dome holding the line; `none` when the L1D set is all D
(R200). -/
def install (s : State) (p line : Nat) (k : FillKind) : Option State :=
  match k with
  | .fetch =>
    let (n, s) := (shareLine s line).fresh
    some (s.updEng p fun e => { e with l1i := if e.l1i.contains line then e.l1i else l1iRoom n e.l1i line ++ [line] })
  | _ =>
    if (s.eng p).l1d.any (·.line == line) then some s
    else (l1Room s p line).map fun s =>
      l1Put (shareLine s line) p { line := line, st := if aloneIn s p line then .E else .S }

/-- A fill ends: installed in the L1 as its line allows, or delivered only. One that finds only D lines to replace waits for their
owner's commit (R200); a prefetch forces none and simply ends (R202). -/
def execLineFillComplete (p line : Nat) (s : State) : Res :=
  let s := s.quiet
  let e := s.eng p
  match e.fills.find? (·.line == line) with
  | none => .next s
  | some f =>
    -- a line that arrives from a main-store port is a good access there (R224)
    let s := if line < bulkLine then { s with mem := { s.mem with parity := kvDel s.mem.parity (portOf line) } } else s
    let gone := s.setEng p { e with fills := e.fills.filter fun x => x != f }
    let blocked (q : Nat) : Res := .next (if f.kind == .prefetch then gone else askCommit s [q])
    if f.drop || otherOwners s p line != [] || (ownersOf s line).contains p then .next gone
    else
      match domeHave gone (towerOf p) line false with
      | .inl (.inl q) => blocked q
      | .inl (.inr ()) => .next gone
      | .inr s' =>
        match install s' p line f.kind with
        | some s'' => .next s''
        | none => blocked p

end Sys2Proof.Machine
end

