-- ==== Sys2Proof/Machine/ContextSlot.lean ====
section
/-! DEFINITION. Context slots (R188, R325), and the completion of a commit point, which mirrors one (R321, R357, R360). -/

namespace Sys2Proof.Machine

open Sys2Proof

/-! ## Context slots (R188, R325) -/

def microBytes (m : MicroSave) : List Byte :=
  toBE 8 m.ia.toNat ++ [m.op] ++ [BitVec.ofNat 8 (b2n m.valid * 128 + m.depth % 8)] ++ toBE 2 m.mpc.toNat ++ toBE 2 m.uflags.toNat
    ++ toBE 2 m.count.toNat ++ padTo 8 (m.stack.flatMap fun x => toBE 2 x.toNat) ++ toBE 4 m.msid ++ zeros 4
    ++ (m.mt.toList.flatMap wordBytes) ++ zeros 32

/-- External subclasses pending, in K5 bit order (R325). -/
def heldExternal (s : State) (k : Nat) : Nat :=
  let x := s.ve k
  b2n (messagePending s k).isSome + b2n (clockHolds s x.cur) * 2 + b2n (timerHolds x.cur) * 4 + b2n (signalPending x).isSome * 8
    + b2n (accelPending x).isSome * 16

/-- The model's use of the dispatcher state: placement, and the operand values that a routine of the micro-save area has read, a register
number with 16 bytes of value each (assumption log 15). -/
def dispatcherBytes (x : VE) (m : MicroSave) : List Byte :=
  padTo 40 (BitVec.ofNat 8 (b2n x.placed * 128 + b2n x.opened * 64 + b2n x.waitBme * 8 + x.tower % 8)
    :: BitVec.ofNat 8 (min 2 m.src.length) :: (m.src.take 2).flatMap fun e => toBE 1 e.1 ++ toBE 16 e.2.toNat)

/-- The 1,024 bytes of the context slot of virtual engine `k` with registers `c` and commit sequence number `csn` (R325). -/
def contextBytes (s : State) (k : Nat) (c : Ctx) (csn : Nat) : List Byte :=
  let x := s.ve k
  let flags := 128 + b2n (c.sb bWT) * 64 + b2n x.stopped * 32 + b2n (x.mc.isSome && x.mcHeld) * 16 + b2n x.barrier.isSome * 8
  let held := heldExternal s k + b2n x.restart * 256 + b2n x.deferred.isSome * 512
  padTo 0x380 (toBE 8 csn ++ toBE 2 (veInst k) ++ toBE 1 (veNum k) ++ [BitVec.ofNat 8 flags] ++ zeros 4 ++ toBE 8 x.tbCommit
    ++ dispatcherBytes x c.micro ++ c.g.toList.flatMap wordBytes ++ c.f.toList.flatMap wordBytes
    ++ (c.da.toList.flatMap fun d => toBE 16 d.toNat) ++ eswBytes c ++ c.k.toList.flatMap wordBytes ++ toBE 4 c.fpcr.toNat
    ++ toBE 4 held ++ toBE 8 ((x.signals.map fun g => 2 ^ g.1).sum)) ++ microBytes c.micro

def word64At (l : List Byte) (off : Nat) : Word := BitVec.ofNat 64 (fieldBE l off 8)

/-- The micro-save area of a context slot, `d` its dispatcher state. -/
def microOf (l d : List Byte) : MicroSave :=
  let depth := bits (fieldBE l 9 1) 2 0
  { ia := word64At l 0, op := l.getD 8 0, valid := bit (fieldBE l 9 1) 7, depth := depth
    mpc := BitVec.ofNat 13 (fieldBE l 10 2), uflags := BitVec.ofNat 16 (fieldBE l 12 2), count := BitVec.ofNat 16 (fieldBE l 14 2)
    stack := (List.range (min 4 depth)).map fun j => BitVec.ofNat 16 (fieldBE l (16 + 2 * j) 2)
    msid := fieldBE l 24 4, mt := Vector.ofFn fun j => word64At l (32 + 8 * j.val)
    src := (List.range (min 2 (fieldBE d 1 1))).map fun j => (fieldBE d (2 + 17 * j) 1, BitVec.ofNat 128 (fieldBE d (3 + 17 * j) 16)) }

def ctxOf (l : List Byte) : Ctx :=
  { g := Vector.ofFn fun j => word64At l (0x40 + 8 * j.val)
    f := Vector.ofFn fun j => word64At l (0x140 + 8 * j.val)
    da := Vector.ofFn fun j => BitVec.ofNat 128 (fieldBE l (0x240 + 16 * j.val) 16)
    ia := word64At l 0x2C0, psw := word64At l 0x2C8
    k := Vector.ofFn fun j => word64At l (0x2D0 + 8 * j.val)
    fpcr := BitVec.ofNat 32 (fieldBE l 0x330 4)
    micro := microOf (l.drop 0x380) (slice l 0x18 40) }

/-- The report of a machine check of which a context slot records only that it is held: what it says has no place there, and is a free
value (assumption log 103). -/
def freeCheck (n : Nat) (code : Nat) : McInfo :=
  let x (j : Nat) : Nat := Config.pickAt n j
  { code := code, nullified := x 1 % 2 == 1, access := x 2 % 256, ilen := x 3 % 256, va := if x 4 % 2 == 1 then some (BitVec.ofNat 64 (x 5)) else none
    line := x 6 % 2 ^ 64, eseq := x 7 % 2 ^ 64, tb := x 8 % 2 ^ 64, source := x 9 % 256, unit := x 10 % 65536, left := x 11 % 2 ^ 32
    multiple := x 12 % 2 == 1 }

/-- The virtual engine that a context slot records, `n` being the free counter; the parameters of its held signals come from elsewhere. A
MOVB that goes on decides its direction afresh (R129). A held machine check's report and a pending completion's area are free values. -/
def veOf (n : Nat) (l : List Byte) : VE :=
  let d := fieldBE l 0x18 1
  let c := ctxOf l
  { hasCtx := true, tower := d % 8, placed := bit d 7, stopped := bit (fieldBE l 11 1) 5, mcHeld := bit (fieldBE l 11 1) 4
    waitBme := bit d 3, cur := c, ckpt := c, csn := fieldBE l 0 8, tbCommit := fieldBE l 0x10 8, restart := bit (fieldBE l 0x334 4) 8
    opened := bit d 6
    mc := if bit (fieldBE l 11 1) 4 then some (freeCheck n (Config.pickAt n 0 % 65536)) else none
    deferred := if bit (fieldBE l 0x334 4) 9 then some (freeCheck n 0x10) else none
    accel := if bit (fieldBE l 0x334 4) 4 then [BitVec.ofNat 64 (Config.pickAt n 13)] else [] }

/-- First line of the partner's context slot of virtual engine `k` in the twin area (R356). -/
def twinLine (k : Nat) : Nat := (0x1000000000 + 42976 * 2097152 + k * 1024) / 64

/-- The lines of a commit point that lie in mirrored granules, as LINE slots carry them. -/
def commitLines (s : State) (p : Nat) : List MLine :=
  ((s.dome (towerOf p)).lines.filter fun x => x.st == .P && x.owner == p && x.taken).filterMap fun x =>
    match lineOwner s x.line with
    | some (_, true) => some { line := x.line, data := x.data, poison := x.poison }
    | _ => none

/-- The sixteen lines of the partner's context slot for virtual engine `k` (R356, R357). -/
def slotLines (s : State) (k : Nat) (b : CommitBuf) : List MLine :=
  let d := contextBytes s k b.ctx ((s.ve k).csn + 1)
  (List.range 16).map fun j => { line := twinLine k + j, data := slice d (j * 64) 64, poison := false }

/-- Completion of the commit point in progress (R321); in twin mode its group closes, and the slot-map step waits for the
acknowledgement (R360). Channel operations that waited for a line or for journal space go on. -/
def execCommitPointComplete (p : Nat) (s : State) : Res :=
  let s := s.quiet
  let e := s.eng p
  match e.commit, e.ve with
  | some b, some k =>
    if !s.live || e.fenced || e.phase != .run then .next s
    else if s.twinned (veInst k) then
      let others := (b.effects.flatMap fun
        | .areaWrite i _ area d _ => instOwners s i area d.length
        | _ => []).filter (· != p)
      if b.closing then .next s
      else if others != [] then .next (askCommit s others)
      else .next (closeGroup (s.updEng p fun e => { e with commit := some { b with closing := true } }) (veInst k) 0x01
        (commitLines s p ++ slotLines s k b) (.commit p k))
    else .next (resumeOps (finishCommit s p k b))
  | _, _ => .next s

end Sys2Proof.Machine
end

