-- ==== Sys2Proof/Machine/Instances.lean ====
section
/-! DEFINITION. Instances and their resources (R68 to R90, R246, R247, R324): the manager commands that create, place, resize, stop and
destroy them. -/

namespace Sys2Proof.Machine

open Sys2Proof

/-! ## Legality (R69) -/

/-- Is a manager command legal in the state of its instance? What depends on more than the state is judged beside it. -/
def legalIn (op : Nat) (x : Inst) : Bool :=
  match op with
  | 0x40 => x.st == .free
  | 0x41 => x.st == .defined
  | 0x42 => x.st == .running
  | 0x43 => x.st == .quiesced || x.st == .exported
  | 0x44 => x.st == .quiesced || x.st == .faulted
  | 0x45 => x.st == .defined || x.st == .quiesced || x.st == .faulted || x.st == .exported
  | 0x46 => true
  | 0x50 => x.st == .defined || x.st == .quiesced
  | 0x51 => x.st == .defined || x.st == .running || x.st == .quiesced
  | 0x52 => x.st == .defined || x.st == .quiesced
  | 0x60 => x.st == .quiesced || x.st == .exported
  | 0x61 => x.st == .defined
  | 0x62 => (x.st == .defined || x.st == .running || x.st == .quiesced) && x.log.isNone
  | 0x63 => x.st != .free && x.log.isSome
  | 0x64 => x.st != .free && x.log.isSome
  | _ => false

/-- The commands that an instance with an open import session accepts, and those a secondary copy accepts (R69, R362). -/
def importAllows (op : Nat) : Bool := op == 0x61 || op == 0x46 || op == 0x45
def secondaryAllows (op : Nat) : Bool := op == 0x46 || (0x62 ≤ op && op ≤ 0x64)

/-- Is command `op` accepted now? -/
def accepts (op : Nat) (x : Inst) : Bool :=
  legalIn op x && (x.importing.isNone || importAllows op) && (x.role != .secondary || secondaryAllows op)

/-- A manager command of an instance: its turn, fields that depend on the state (`early`), its legality, its body. -/
def instCommand (s : State) (seq : BitVec 32) (op : Nat) (early : State → Request → Option Nat)
    (body : State → Request → Nat → State) : Res :=
  let s := s.quiet
  match takeCmd s seq.toNat op with
  | none => .next s
  | some r =>
    let i := reqTarget r.entry
    match early s r with
    | some b => .next (answer s r .fieldInvalid b)
    | none =>
      if accepts op (s.inst i) then .next (body s r i) else .next (refuse s r i (s.inst i).st.code)

/-- A command whose fields depend on nothing. -/
def noEarly (_ : State) (_ : Request) : Option Nat := none

/-! ## CREATE, START, RESUME -/

/-- While an image pushed by the host waits to be tried, no instance is created (R391). -/
def execCreate (seq : BitVec 32) (s : State) : Res :=
  let s := s.quiet
  match takeCmd s seq.toNat 0x40 with
  | none => .next s
  | some r =>
    let i := reqTarget r.entry
    if s.spire.push.marker then .next (refuse s r i 0)
    else if accepts 0x40 (s.inst i) then
      .next (done (s.setInst i { st := .defined, vectors := par r.entry 36, label := fieldBE r.entry 40 8 }) r 0 [])
    else .next (refuse s r i (s.inst i).st.code)

def execStart (seq : BitVec 32) (s : State) : Res :=
  instCommand s seq 0x41 noEarly fun s r i =>
    done (wake (s.updInst i fun x => { x with st := .running })) r 0 []

/-- The subchannels of an instance whose operation is in state `st`, in the order of their END entries. -/
def subsIn (s : State) (i : Nat) (st : SubState → Bool) : List Nat :=
  ((s.css.subs.filter fun e => e.1 / 65536 == i && st e.2.st).mergeSort fun a b => !serialBefore 48 b.2.endJsn a.2.endJsn).map
    fun e => e.1 % 65536

/-- Held final statuses are written and presented (R256); one whose END entry the partner has not acknowledged follows at END_ENTRY_COMMIT
(R28). -/
def releaseHeld (s : State) (i : Nat) : State :=
  (subsIn s i (· == .held)).foldl (fun s n => if (s.sub i n).endWait.isNone then writeStatus s i n else s) s

def execResume (seq : BitVec 32) (s : State) : Res :=
  instCommand s seq 0x43 noEarly fun s r i =>
    let s := releaseHeld s i
    done (wake (s.updInst i fun x => { x with st := .running, exporting := none })) r 0 []

/-! ## QUIESCE (R87) -/

/-- The final status of an operation issued and not started (R256): an END entry with OP_JSN zero, held. -/
def holdSub (s : State) (i n : Nat) : State :=
  endWith .held (s.setSub i n { s.sub i n with opJsn := 0 }) i n .abortedQuiesce 0 0

/-- Virtual engine `k` on engine `p` committed and taken off; a pending exception is taken first, a commit point in progress completes
first. -/
def commitOff (s : State) (p k : Nat) : State :=
  if (s.eng p).commit.isSome || exceptionFirst (s.ve k) || (s.eng p).phase != .run then s else commitWait s p k true

/-- Engines that run virtual engines of instance `i`. -/
def enginesOn (s : State) (i : Nat) : List (Nat × Nat) :=
  s.engines.filterMap fun e => match e.2.ve with
    | some k => if veInst k == i then some (e.1, k) else none
    | none => none

/-- Every BARRIER arrival of the instance withdrawn (R139). -/
def withdrawAll (s : State) (i : Nat) : State :=
  let s := s.updInst i fun x => { x with arrivals := [] }
  { s with ves := kvMap (fun k v => if veInst k == i then { v with barrier := none } else v) s.ves }

/-- Requests for accelerators that have been fetched and not queued yet, ended (R87). -/
def abortArrived (s : State) (i : Nat) : State :=
  (s.hp.reqs.filter fun r => r.fn == i + 1 && r.stage == .arrived && !r.closing && 0x10 ≤ reqOp r.entry && reqOp r.entry ≤ 0x21).foldl
    (fun s r => answer s r .abortedQuiesce 0) s

def execQuiesce (seq : BitVec 32) (s : State) : Res :=
  instCommand s seq 0x42 noEarly fun s r i =>
    let s := stopFetch ((s.updInst i fun x => { x with st := .quiescing }).setStage 0 r.seq .running) (i + 1)
    let s := withdrawAll s i
    let s := (enginesOn s i).foldl (fun s e => commitOff s e.1 e.2) s
    let s := abortArrived (abortQueued (abortQueued s false i) true i) i
    (subsIn s i (· == .issued)).foldl (fun s n => holdSub s i n) s

/-- A started operation that has not reached its status. -/
def SubState.started (x : SubState) : Bool := x == .validating || x == .active || x == .reissuing || x == .ending

/-- Nothing of the instance is still under way (R87). -/
def quietInst (s : State) (i : Nat) : Bool :=
  (enginesOn s i).isEmpty && !(s.xce.jobs ++ s.cze.jobs).any (fun j => j.inst == i) && (subsIn s i SubState.started).isEmpty
    && !s.hp.reqs.any fun r => r.fn == i + 1 && (r.stage == .running || r.stage == .staging)

/-- The manager command with code `op` in progress on instance `i`. -/
def commandOn (s : State) (i op : Nat) : Option Request :=
  s.hp.reqs.find? fun r => r.fn == 0 && reqOp r.entry == op && reqTarget r.entry == i && r.stage == .running

def execQuiesceComplete (i : Nat) (s : State) : Res :=
  let s := s.quiet
  match commandOn s i 0x42 with
  | none => .next s
  | some r =>
    if s.live && (s.inst i).st == .quiescing && quietInst s i then
      .next (done (s.updInst i fun x => { x with st := .quiesced }) r 0 [])
    else .next s

/-! ## RESET (R89, R278) -/

/-- PENDING and HELD statuses discarded. -/
def discardStatuses (s : State) (i : Nat) : State :=
  (subsIn s i fun x => x == .pending || x == .held).foldl (fun s n => presentSub s i n true) s

/-- A virtual engine in the start state (R104): a placed one keeps its slot and its commit sequence number. -/
def VE.restartState (v : VE) : VE :=
  if v.placed then { hasCtx := true, tower := v.tower, placed := true, slot := v.slot, csn := v.csn } else {}

/-- Requests of the instance that no program has taken. -/
def untaken (s : State) (i : Nat) : List Request :=
  s.hp.reqs.filter fun r => r.fn == i + 1 && !r.closing && (r.stage == .arrived || r.stage == .queued || r.stage == .pending)

/-- Every request of function `n` in hand dropped without a completion; its dispatch slots return to their pools. -/
def dropRequests (s : State) (n : Nat) : State :=
  let s := (s.hp.reqs.filter fun r => r.fn == n).foldl freeDispatch s
  s.setReqs (s.hp.reqs.filter fun r => r.fn != n)

def resetInst (s : State) (i : Nat) : State :=
  let s := (untaken s i).foldl (fun s r => answer (freeDispatch s r) r .abortedQuiesce 0) s
  let s := discardStatuses s i
  let s := (subsIn s i (· == .issued)).foldl (fun s n => releaseGroup (s.setSub i n {}) i n) s
  let s := { s with ves := kvMap (fun k v => if veInst k == i then v.restartState else v) s.ves }
  s.updInst i fun x => { x with st := .defined, arrivals := [], releases := [], exporting := none }

/-- Started operations of the instance without their END entry. -/
def unended (s : State) (i : Nat) : Bool := !(subsIn s i SubState.started).isEmpty

/-- A command that waits for the instance's started channel operations (R89, R90) is made again when they have ended. -/
def afterOps (s : State) (seq : BitVec 32) (op : Nat) (body : State → Request → Nat → State) : Res :=
  let s := s.quiet
  match takeCmd s seq.toNat op with
  | none => .next s
  | some r =>
    if accepts op (s.inst (reqTarget r.entry)) && unended s (reqTarget r.entry) then .next s
    else instCommand s seq op noEarly body

def execReset (seq : BitVec 32) (s : State) : Res :=
  afterOps s seq 0x44 fun s r i => done (resetInst s i) r 0 []

/-! ## Granted units (R76, R86, R208, R210, R229, R232, R282) -/

/-- Is granule `g` of the right kind, mirrored for a twinned instance only (R356), and held by no instance? A fenced stack gives none. -/
def granuleUnheld (s : State) (bulk mir : Bool) (g : Nat) : Bool :=
  let first := if bulk then s.img.bsMirFirst else s.img.msMirFirst
  let count := if bulk then s.img.bsMirCount else s.img.msMirCount
  let inMir := decide (first ≤ g) && decide (g < first + count)
  let held := s.insts.any fun e => (if bulk then e.2.bulk else e.2.main).any (·.num == g)
  let stack := bulk && s.tst.fenced.any fun u => u.source == 6 && u.unit == g / 10752
  inMir == mir && !held && !stack

/-- May granule `g` be granted: unheld, and no zeroing occupies it (R76, R243)? -/
def granuleFree (s : State) (bulk mir : Bool) (g : Nat) : Bool := granuleUnheld s bulk mir g && !s.zeroing.contains (bulk, g)

/-- The `n` lowest-numbered granules that may be granted. -/
def pickGranules (s : State) (bulk mir : Bool) (n : Nat) : List Nat :=
  ((List.range (if bulk then s.bulkPool else s.mainPool)).filter (granuleFree s bulk mir)).take n

/-- Do granules that the pool still owes wait for their zeroing? -/
def granulesOwed (s : State) (bulk mir : Bool) : Nat :=
  (s.zeroing.filter fun z => z.1 == bulk && granuleUnheld s bulk mir z.2).length

/-- Every TLB entry and every zone-cache entry of the instance invalidated, in every engine and in the hub (R232). -/
def dropInstTlb (s : State) (i : Nat) : State :=
  let s := dropTlb s fun e => e.inst == i
  { s with hubZones := s.hubZones.filter (·.inst != i)
           engines := kvMap (fun _ e => { e with zones := e.zones.filter (·.inst != i) }) s.engines }

/-- Granules returned to their pool, their zeroing started (R76). -/
def freeGranules (s : State) (bulk : Bool) (l : List Granule) : State :=
  { s with zeroing := s.zeroing ++ l.map fun g => (bulk, g.num) }

/-- Key pages erased and returned. -/
def freePages (s : State) (l : List Nat) : State := l.foldl (fun s pg => s.setPage pg {}) s

/-- Lock ways of instance `i` on tower `t` from handle `h` up returned, unlocked. -/
def freeWays (s : State) (i t h : Nat) : State :=
  s.updDome t fun d =>
    let gone := (d.locks.filter fun w => w.2.inst == i && h ≤ w.2.handle).map Prod.fst
    { d with locks := d.locks.filter fun w => !gone.contains w.1
             lines := d.lines.map fun x => if gone.contains x.way then { x with locked := false } else x }

/-- Lockable ways of a dome that no instance holds (R196). -/
def idleWays (s : State) (t : Nat) : List Nat :=
  (s.lockable t).filter fun w =>
    (kvFind (s.dome t).locks w).isNone

/-- Ring pairs `k` and above return, their registers at reset (R86). -/
def freeRings (s : State) (i k : Nat) : State :=
  s.updFn (i + 1) fun f => { f with rings := f.rings.filter fun r => decide (r.1 < k) }

/-! ## RESIZE -/

/-- The per-instance limit of a pool (R75, R382); ENTITLEMENT has its own rule. -/
def poolLimit (s : State) (pool : Nat) : Nat :=
  let l := match pool with
    | 2 => 3584 | 3 => 43008 | 4 => 1024 | 5 => 16 | 6 => 8 | 7 => 4 | 8 => 8192 | 9 => 1024 | 10 => 512 | 11 => 896 | _ => 0
  match kvGet 0 s.img.limits pool with
  | 0 => l
  | m => min m l

/-- The most that the guarantees of a pool may sum to (R75, R76). -/
def guaranteeCap (s : State) (pool t : Nat) : Nat := if pool == 11 then min 896 (poolTotal s 11 0) else poolTotal s pool t

/-- Does a share go past the total or the per-instance limit (R76)? -/
def overShare (s : State) (i pool t g c : Nat) : Bool :=
  let old := ((s.inst i).share pool t).guarantee
  let sum := poolGuaranteed s pool t - old + g
  let reach := if admission pool && pool != 11 then g + c else g
  decide (sum > guaranteeCap s pool t) || (pool != 1 && decide (reach > poolLimit s pool))
    || (pool == 11 && decide (g + c > poolTotal s 11 0))

/-- Does ring pair `k` of instance `i` still serve requests: slots reserved for requests fetched, or completions held (R54, R91)? -/
def ringBusy (s : State) (i k : Nat) : Bool :=
  (s.ring (i + 1) k).reserved != 0 || (s.ring (i + 1) k).held != [] || s.hp.reqs.any fun r => r.fn == i + 1 && r.k == k

/-- Is a virtual engine of instance `i` still in a time slice of tower `t` that began no later than `tb` (R86)? -/
def sliceRuns (s : State) (i t tb : Nat) : Bool :=
  (enginesOn s i).any fun e => towerOf e.1 == t && decide ((s.ve e.2).since ≤ tb)

/-- Is a shrink with share `g`, `c`, pending since `tb`, still waiting for its holders (R85, R86)? -/
def shrinkWaits (s : State) (i pool t g c tb : Nat) : Bool :=
  match pool with
  | 1 => sliceRuns s i t tb
  | 4 => (busyGroups s i).any fun b => g + c ≤ b
  | 6 => (List.range (s.inst i).ringPairs).any fun k => g ≤ k && ringBusy s i k
  | 8 => decide (poolHeld s i 8 t > g + c)
  | 9 => decide (poolHeld s i 9 t > g + c)
  | 10 => decide (poolHeld s i 10 t > g + c)
  | _ => false

/-- SHRINK_COMPLETE logged (R85, R470). -/
def logShrink (s : State) (i pool seq : Nat) : State :=
  logEvent s { s.entry 0x43 0 0x12 0xFFFF with inst := i, ref := seq, param := pool * 2 ^ 56 }

/-- The units of a granted pool brought to `g` (R76, R86, R229). `none`: granules that the pool owes are still being zeroed. -/
inductive Moved where
  | ok (s : State)
  | short
  | later

def moveUnits (s : State) (i pool t g : Nat) : Moved :=
  let x := s.inst i
  let mir := x.role != .local_
  match pool with
  | 2 =>
    if g ≤ x.main.length then
      .ok (dropInstTlb (freeGranules (s.setInst i { x with main := x.main.take g }) false (x.main.drop g)) i)
    else
      let new := pickGranules s false mir (g - x.main.length)
      if new.length + x.main.length == g then .ok (s.setInst i { x with main := x.main ++ new.map fun n => { num := n, mir := mir } })
      else if new.length + x.main.length + granulesOwed s false mir ≥ g then .later else .short
  | 3 =>
    if g ≤ x.bulk.length then
      .ok (dropInstTlb (freeGranules (s.setInst i { x with bulk := x.bulk.take g }) true (x.bulk.drop g)) i)
    else
      let new := pickGranules s true mir (g - x.bulk.length)
      if new.length + x.bulk.length == g then .ok (s.setInst i { x with bulk := x.bulk ++ new.map fun n => { num := n, mir := mir } })
      else if new.length + x.bulk.length + granulesOwed s true mir ≥ g then .later else .short
  | 5 =>
    let n := x.keyPages.length
    if g ≤ n then .ok (freePages (s.setInst i { x with keyPages := x.keyPages.take g }) (x.keyPages.drop g))
    else
      let free := (List.range 1024).filter fun pg => (s.page pg).inst.isNone
      let new := free.take (g - n)
      let s := (new.zip (List.range new.length)).foldl (fun s e => s.setPage e.1 { inst := some i, handle := n + e.2 }) s
      .ok (s.setInst i { x with keyPages := x.keyPages ++ new, kek := true })
  | 6 =>
    -- a pair whose requests have not finished stays until they have (R85)
    let stay := (List.range x.ringPairs).foldl (fun m k => if g ≤ k && ringBusy s i k then k + 1 else m) g
    .ok (freeRings (s.setInst i { x with ringPairs := stay }) i stay)
  | 7 =>
    let old := (x.share 7 t).guarantee
    if g ≤ old then .ok (freeWays s i t g)
    else
      let new := (idleWays s t).take (g - old)
      if new.length + old == g then
        .ok (s.updDome t fun d => { d with
          locks := (new.zip (List.range new.length)).foldl
            (fun l e => kvSet l e.1 { inst := i, handle := old + e.2 }) d.locks })
      else .short
  | _ => .ok s

/-- Shared subchannel groups in use after a change of the guarantee (R246): acquisition times kept for the shared ones only. -/
def regroup (s : State) (i g : Nat) : State :=
  let busy := (busyGroups s i).filter (g ≤ ·)
  s.updInst i fun x => { x with groupTb := busy.foldl (fun l b => kvSet l b (kvGet s.clk.tb x.groupTb b)) [] }

/-- A twinned instance holds every unit on both modules; whether the partner has them is not known here (R356). -/
def partnerRefuses (s : State) (i : Nat) (grows : Bool) : Bool × State :=
  if s.twin.st == .paired && (s.inst i).role != .local_ && grows then
    let (n, s) := s.fresh
    (Config.pick n % 2 == 1, s)
  else (false, s)

/-- The share of a pool set, its units moved, pending shrinks judged (R85, R86). -/
def applyShare (s : State) (r : Request) (i pool t g c : Nat) : State :=
  let old := ((s.inst i).share pool t).guarantee
  let s := s.updInst i fun x => x.setShare pool t { guarantee := g, cap := c }
  let s := if pool == 4 then regroup s i g else s
  let earlier := (s.inst i).shrinks.find? fun k => k.pool == pool && k.tower == t
  let s := s.updInst i fun x => { x with shrinks := x.shrinks.filter fun k => !(k.pool == pool && k.tower == t) }
  let since := match earlier with | some k => k.tb | none => s.clk.tb
  let tb := if g < old then s.clk.tb else since
  if (pool != 1 || g < old || earlier.isSome) && shrinkWaits s i pool t g c tb then
    done (s.updInst i fun x => { x with shrinks := x.shrinks ++ [⟨pool, t, r.seq, tb⟩] }) r 0 (1 :: zeros 15)
  else
    let s := if earlier.isSome then logShrink s i pool r.seq else s
    done s r 0 []

/-- What RESIZE asks of its entry: the state after it, or none while granules are still being zeroed. -/
def resize (s : State) (r : Request) (i : Nat) : State :=
  let e := r.entry
  let pool := par e 36
  let t := par e 37
  let g := fieldBE e 40 4
  let c := fieldBE e 44 4
  let old := ((s.inst i).share pool t).guarantee
  if !admission pool && pool != 1 && g < old && (s.inst i).st == .running then refuse s r i (s.inst i).st.code
  else if overShare s i pool t g c then answer s r .resourceLimit pool
  else if pool == 5 && g != 0 && !(s.inst i).kek && s.spire.stopped then answer s r .deviceError 0
  else
    let (no, s) := partnerRefuses s i (g > old)
    if no then answer s r .resourceLimit pool
    else
      match moveUnits s i pool t g with
      | .ok s => applyShare s r i pool t g c
      | .short => answer s r .resourceLimit pool
      | .later => s

def execResize (seq : BitVec 32) (s : State) : Res := instCommand s seq 0x51 (fun s r => stateFields s r.entry) resize

/-- SHRINK_COMPLETE: the holdings of a pool with a pending shrink have reached the new share (R85). -/
def execShrinkComplete (i : Nat) (s : State) : Res :=
  let s := s.quiet
  let x := s.inst i
  let met (k : Shrink) : Bool :=
    let sh := x.share k.pool k.tower
    !shrinkWaits s i k.pool k.tower sh.guarantee sh.cap k.tb
  match x.shrinks.find? met with
  | none => .next s
  | some k =>
    if s.live then
      let g := (x.share 6 0).guarantee
      let s := s.setInst i { x with shrinks := x.shrinks.erase k, ringPairs := if k.pool == 6 then g else x.ringPairs }
      let s := if k.pool == 6 then freeRings s i g else s
      .next (logShrink s i k.pool k.seq)
    else .next s

/-! ## SET_ENGINES (R79, R260, R324) -/

/-- Contexts that tower `t` keeps besides those of virtual engines `[f, f + n)` of instance `i`. -/
def slotsKept (s : State) (i t f n : Nat) : Nat :=
  (s.ves.filter fun e => e.2.hasCtx && e.2.tower == t && !(veInst e.1 == i && f ≤ veNum e.1 && veNum e.1 < f + n)).length

/-- Good free slots of a tower's dome (R326). -/
def goodFree (s : State) (t : Nat) : Nat :=
  let used := (s.ves.filter fun e => e.2.hasCtx && e.2.tower == t).map fun e => e.2.slot
  ((List.range 512).filter fun k => !used.contains k && !(s.dome t).badSlots.contains k).length

/-- Statuses of removed virtual engines pass to the lowest-numbered one placed; with none placed before (`waited`), all of them have waited
and pass (R260). -/
def passStatuses (s : State) (i : Nat) (waited : Bool) : State :=
  let isPlaced (v : Nat) : Bool := (s.ve (veKey i v)).placed
  match (List.range 64).find? isPlaced with
  | none => s
  | some low =>
    { s with css := { s.css with subs := kvMap (fun k x =>
        if k / 65536 == i && (x.st == .pending || x.st == .held) && (waited || !isPlaced x.ve) then { x with ve := low } else x) s.css.subs } }

/-- Virtual engine `k` placed on tower `t`, its context there (R79). -/
def placeVe (s : State) (t k : Nat) : State :=
  let x := s.ve k
  if x.hasCtx && x.tower == t then s.setVe k { x with placed := true }
  else
    let slot := freeSlot s t
    s.setVe k { x with hasCtx := true, tower := t, placed := true, slot := slot }

def setEngines (s : State) (r : Request) (i : Nat) : State :=
  let e := r.entry
  let t := par e 36
  let f := par e 37
  let n := par e 38
  let g := fieldBE e 40 2
  let old := (s.inst i).share 1 t
  let inRange (k : Nat) : Bool := veInst k == i && f ≤ veNum k && veNum k < f + n
  let fresh := (List.range n).any fun j => !(s.ve (veKey i (f + j))).placed
  let none_ := !(List.range 64).any fun v => (s.ve (veKey i v)).placed
  if poolGuaranteed s 1 t - old.guarantee + g > poolTotal s 1 t || slotsKept s i t f n + n > 480 || (fresh && goodFree s t < 17) then
    answer s r .resourceLimit 1
  else
    let s := { s with ves := kvMap (fun k v => if veInst k == i && v.placed && v.tower == t && !inRange k then { v with placed := false } else v) s.ves }
    let s := (List.range n).foldl (fun s j => placeVe s t (veKey i (f + j))) s
    let s := s.updInst i fun x => x.setShare 1 t { old with guarantee := g }
    done (passStatuses s i none_) r 0 []

def execSetEngines (seq : BitVec 32) (s : State) : Res := instCommand s seq 0x50 (fun s r => stateFields s r.entry) setEngines

/-! ## SET_WINDOW, QUERY, POOL_QUERY -/

def execSetWindow (seq : BitVec 32) (s : State) : Res :=
  instCommand s seq 0x52 noEarly fun s r i =>
    let e := r.entry
    let n := fieldBE e 48 4
    let w : Window := { write := bit (par e 37) 0, busBase := fieldBE e 40 8, pages := n }
    let s := s.updInst i fun x => { x with windows := if n == 0 then kvDel x.windows (par e 36) else kvSet x.windows (par e 36) w }
    done s r 0 []

/-- RESULT of QUERY (R72). -/
def queryResult (s : State) (i : Nat) : List Byte :=
  let x := s.inst i
  let count := (s.ves.filter fun e => veInst e.1 == i && e.2.placed).length
  [BitVec.ofNat 8 x.st.code,
   BitVec.ofNat 8 (b2n x.importing.isSome * 4 + b2n (x.shrinks != []) * 2 + b2n x.log.isSome),
   BitVec.ofNat 8 count, 0] ++ toBE 4 (subsIn s i SubState.started).length ++ toBE 8 x.label

def execQuery (seq : BitVec 32) (s : State) : Res :=
  instCommand s seq 0x46 noEarly fun s r i => done s r 0 (queryResult s i)

/-- RESULT of POOL_QUERY (R72, R77). -/
def poolResult (s : State) (pool t : Nat) : List Byte :=
  let total := poolTotal s pool t
  let g := poolGuaranteed s pool t
  let u := if admission pool then sharedInUse s pool t else 0
  toBE 4 total ++ toBE 4 g ++ toBE 4 u ++ toBE 4 (total - g - u)

def execPoolQuery (seq : BitVec 32) (s : State) : Res :=
  let s := s.quiet
  match takeCmd s seq.toNat 0x53 with
  | none => .next s
  | some r => .next (done s r 0 (poolResult s (par r.entry 36) (par r.entry 37)))

/-! ## DESTROY (R90) -/

/-- Everything an instance holds returned to its pools. -/
def destroyInst (s : State) (i : Nat) : State :=
  let x := s.inst i
  let s := discardStatuses s i
  let s := freeGranules (freeGranules s false x.main) true x.bulk
  let s := dropInstTlb (freePages s x.keyPages) i
  let s := (List.range 8).foldl (fun s t => freeWays s i t 0) s
  let s := freeRings s i 0
  let s := dropRequests s (i + 1)
  let s := { s with
             ves := s.ves.filter fun e => veInst e.1 != i
             css := { s.css with subs := s.css.subs.filter fun e => e.1 / 65536 != i }
             twin := { s.twin with
                       notes := kvDel s.twin.notes i
                       keyNotes := kvDel s.twin.keyNotes i
                       buckets := kvDel s.twin.buckets i
                       lastAck := kvDel s.twin.lastAck i } }
  s.setInst i {}

def execDestroy (seq : BitVec 32) (s : State) : Res :=
  afterOps s seq 0x45 fun s r i =>
    let t := s.twinned i
    let s := done (destroyInst s i) r 0 []
    if t then closeGroup s i 0x12 [] .nothing else s

/-! ## The dirty-page log (R65 to R67, R92) -/

def execLogEnable (seq : BitVec 32) (s : State) : Res :=
  instCommand s seq 0x62 noEarly fun s r i =>
    done (s.updInst i fun x => { x with log := some { tbStart := s.clk.tb } }) r 0 []

def execLogDisable (seq : BitVec 32) (s : State) : Res :=
  instCommand s seq 0x64 noEarly fun s r i => done (s.updInst i fun x => { x with log := none }) r 0 []

/-- The bitmap of the region of `n` pages from page `b`. -/
def bitmap (d : DirtyLog) (b n : Nat) : List Byte :=
  (List.range ((n + 511) / 512 * 64)).map fun j =>
    BitVec.ofNat 8 (((List.range 8).map fun k => if j * 8 + k < n && d.dirty.contains (b + j * 8 + k) then 2 ^ k else 0).sum)

/-- Region descriptors with the offsets of their bitmaps, from `off` on. -/
def regionDescs (off : Nat) : List (Nat × Nat) → List Byte
  | [] => []
  | (b, n) :: r => toBE 8 (b * 4096) ++ toBE 4 n ++ toBE 4 off ++ regionDescs (off + (n + 511) / 512 * 64) r

/-- The harvest buffer (R67). -/
def harvestBytes (s : State) (i : Nat) (d : DirtyLog) : List Byte :=
  let regs := logRegions s i
  let first := roundUp (64 + 16 * (regs.length + d.extents.length)) 64
  let maps := regs.flatMap fun r => bitmap d r.1 r.2
  let dirty := (regs.map fun r => (d.dirty.filter fun p => r.1 ≤ p && p < r.1 + r.2).length).sum
  let head := toBE 4 1 ++ toBE 2 i ++ toBE 2 regs.length ++ toBE 8 d.interval ++ toBE 8 d.tbStart ++ toBE 8 s.clk.tb ++ toBE 8 dirty
    ++ toBE 2 d.extents.length ++ zeros 22
  let exts := d.extents.flatMap fun x => toBE 8 (x.1 * 4096) ++ toBE 4 x.2 ++ zeros 4
  padTo first (head ++ regionDescs first regs ++ exts) ++ maps

/-- The switch point comes with the command; HOST_TRANSFER_DONE writes the buffer and completes (R66). -/
def execLogHarvest (seq : BitVec 32) (s : State) : Res :=
  instCommand s seq 0x63 noEarly fun s r i =>
    match (s.inst i).log with
    | none => s
    | some d =>
      let d := d.settled (logRegions s i)
      let b := harvestBytes s i d
      if reqDstLen r.entry < b.length then answer s r .resourceLimit 0
      else
        let s := s.updInst i fun x => { x with log := some { interval := d.interval + 1, tbStart := s.clk.tb } }
        s.putReq { r with stage := .running, data := b }

/-! ## The event-log commands (R343, R344) -/

/-- The 64 bytes of an event-log entry (R338). -/
def logBytes (e : LogEntry) : List Byte :=
  toBE 8 e.eseq ++ toBE 8 e.tb ++ toBE 2 e.event ++ toBE 1 e.cls ++ toBE 1 e.source ++ toBE 2 e.unit ++ toBE 2 e.inst ++ toBE 1 e.ve
    ++ toBE 1 e.ladder ++ toBE 2 e.detail ++ toBE 4 e.count ++ toBE 8 e.addr ++ toBE 8 e.ref ++ toBE 8 e.param ++ zeros 8

/-- The entries a LOG_READ returns from `start`, at most `n`. -/
def logFrom (b : Belfry) (start n : Nat) : List LogEntry := (b.log.filter fun e => start ≤ e.eseq).take n

def execLogRead (seq : BitVec 32) (s : State) : Res :=
  let s := s.quiet
  match takeCmd s seq.toNat 0x68 with
  | none => .next s
  | some r =>
    if s.bel.stopped then .next (answer s r .deviceError 0)
    else
      let start := fieldBE r.entry 40 8
      let l := logFrom s.bel start (reqDstLen r.entry / 64)
      let oldest := match s.bel.log with | e :: _ => e.eseq | [] => s.bel.eseq
      let lost := b2n (start != 0 && decide (start < oldest))
      let data := l.flatMap logBytes
      let (n, s) := s.fresh
      -- with no entry to return, the spec gives the two numbers no value: a free value
      let result := match l, l.getLast? with
        | e :: _, some z => toBE 8 e.eseq ++ toBE 8 (z.eseq + 1)
        | _, _ => Config.bytes n 16
      let read := match s.bel.outstanding with | some q => l.any (fun e => decide (q ≤ e.eseq)) | none => false
      let s := if read then { s with bel := { s.bel with outstanding := none } } else s
      let s := hostWrite s 0 (reqDst r.entry) data
      .next (complete s 0 r.seq 0 lost data.length result)

def execLogNotify (seq : BitVec 32) (s : State) : Res :=
  let s := s.quiet
  match takeCmd s seq.toNat 0x69 with
  | none => .next s
  | some r =>
    if s.bel.stopped then .next (answer s r .deviceError 0)
    else .next (done { s with bel := { s.bel with minClass := par r.entry 36 } } r 0 [])

end Sys2Proof.Machine
end

