-- ==== Sys2Proof/Machine/Messaging.lean ====
section
/-! DEFINITION. The messaging requests (R140, R230, R238 to R241) and what the ends of host transfers do for them and for KEY_WRAP. -/

namespace Sys2Proof.Machine

open Sys2Proof

/-- The instance-real address of STORE_WRITE and STORE_READ (R140). -/
def storeAddr (e : List Byte) : Nat := fieldBE e 40 8

def execMsg (fn : Nat) (seq : BitVec 32) (s : State) : Res :=
  let s := s.quiet
  match takeReq s fn seq.toNat 1 with
  | none => .next s
  | some r =>
    let i := fn - 1
    let v := s.ve (veKey i (reqTarget r.entry))
    if !v.placed then .next (answer s r .accessDenied 0)
    else
      match takeUnit s i poolDisp v.tower with
      | .no => .next (complete s fn r.seq Status.busy.code 0 0 (toBE 8 (retryAfter s poolDisp v.tower) ++ zeros 8))
      | a => .next (s.putReq { r with stage := .queued, tb := s.clk.tb, shared := a == .shared })

def execStoreWrite (fn : Nat) (seq : BitVec 32) (s : State) : Res :=
  let s := s.quiet
  match takeReq s fn seq.toNat 2 with
  | none => .next s
  | some r =>
    if !rangeBacked s (fn - 1) (storeAddr r.entry) (reqSrcLen r.entry) then .next (answer s r .accessDenied 0)
    else if !(s.fn fn).bme then .next s
    else if stagedBytes r.entry != 0 && !stagingFits s r.entry then .next (s.setStage fn r.seq .staging)
    else .next ((s.setStage fn r.seq .running).emit (.hostRead fn (reqSrc r.entry) (reqSrcLen r.entry)))

def execStoreRead (fn : Nat) (seq : BitVec 32) (s : State) : Res :=
  let s := s.quiet
  match takeReq s fn seq.toNat 3 with
  | none => .next s
  | some r =>
    if !rangeBacked s (fn - 1) (storeAddr r.entry) (reqDstLen r.entry) then .next (answer s r .accessDenied 0)
    else if !(s.fn fn).bme then .next s
    else .next (s.setStage fn r.seq .running)

/-- A restart is made pending at its target; one that pends already takes the request in (R140). -/
def execRestart (fn : Nat) (seq : BitVec 32) (s : State) : Res :=
  let s := s.quiet
  match takeReq s fn seq.toNat 4 with
  | none => .next s
  | some r =>
    let k := veKey (fn - 1) (reqTarget r.entry)
    if !(s.ve k).placed then .next (answer s r .accessDenied 0)
    else .next ((s.setStage fn r.seq .pending).updVe k fun x => { x with restart := true })

/-! ## Ends of transfers -/

/-- The end that a failed transfer gives (R58, R62, R236): status and DETAIL. -/
def faultEnd : JobFault → Status × Nat
  | .hostReadFailed => (.deviceError, 0x101)
  | .hostPoisoned => (.deviceError, 0x100)
  | .lineTag _ => (.tagMismatch, 0)
  | .other => (.deviceError, 0)

/-- A request ended by a failed transfer. -/
def endFault (s : State) (r : Request) (f : JobFault) : State :=
  let s := match f with
    | .hostPoisoned => poisonIn s r.fn
    | _ => s
  answer s r (faultEnd f).1 (faultEnd f).2

/-- Owners of lines that a range holds up, asked to commit; none if there are none. -/
def holdRange (s : State) (i a n : Nat) : Option State :=
  let o := instOwners s i a n
  if o.isEmpty then none else some (askCommit s o)

/-- The first and last lines of a range, where it covers them in part only. -/
def partialEnds (s : State) (i a n : Nat) : List Nat :=
  let l := instLines s i a n
  let front := if a % 64 == 0 then [] else l.take 1
  let back := if (a + n) % 64 == 0 then [] else l.drop (l.length - 1)
  front ++ back

/-- STORE_WRITE with its data (R140, R238, R239, R241). Without CHK its lines are written as they arrive, so a source line whose
tag fails leaves some of those before it written, how many being open (R60). -/
def storeWriteDone (s : State) (r : Request) (data : List Byte) (fault : Option JobFault) : State :=
  let i := r.fn - 1
  let a := storeAddr r.entry
  let n := reqSrcLen r.entry
  match holdRange s i a n with
  | some w => w
  | none =>
    match (partialEnds s i a n).find? fun l => (committed s l).2 with
    | some l => answer (logPoison s i l 1 r.seq) r .tagMismatch 0
    | none =>
      match fault with
      | some f =>
        let s := match f with
          | .lineTag k =>
            if reqChk r.entry then s
            else
              let (x, s) := s.fresh
              let most := (a + min k n) / 64 * 64 - a
              let part := Config.pick x % (most / 64 + 1) * 64
              instWrite s i a (data.take (min most (if part == 0 then 0 else part - a % 64)))
          | _ => s
        endFault s r f
      | none =>
        let d := padTo n data
        if !chkOk r.entry d then answer s r .tagMismatch 1 else done (instWrite s i a d) r n []

/-- STORE_READ: the bytes before a poisoned line leave, no byte of it does (R238). A tag that fails in a line of a store is read again or
poisons the line (CACHE_ERROR, STORE_READ_ERROR); here the poison decides. -/
def storeReadDone (s : State) (r : Request) (fault : Option JobFault) : State :=
  let i := r.fn - 1
  let a := storeAddr r.entry
  let n := reqDstLen r.entry
  match holdRange s i a n with
  | some w => w
  | none =>
    let out (s : State) (k : Nat) : State := hostWrite (hubUse s i a n) r.fn (reqDst r.entry) ((instRead s i a n).take k)
    match instPoison s i a n, fault with
    | some l, _ =>
      let k := bytesBefore s a n (instLines s i a n)
      complete (out (logPoison s i l 1 r.seq) k) r.fn r.seq Status.tagMismatch.code 0 k []
    | none, some .hostReadFailed => endFault s r .hostReadFailed
    | none, some .hostPoisoned => endFault s r .hostPoisoned
    | none, some .other => endFault s r .other
    | none, _ => done (out s n) r n []

/-- KEY_WRAP: the wrapped key that waits is written (R290). -/
def keyWrapDone (s : State) (r : Request) (fault : Option JobFault) : State :=
  match fault with
  | some f => endFault s r f
  | none => done (hostWrite s r.fn (reqDst r.entry) r.data) r r.data.length []

/-- LOG_HARVEST: the buffer is written before the completion, which carries the interval just closed (R66, R72). A buffer that cannot be
written ends it DEVICE_ERROR, the interval closed all the same (assumption log 127). -/
def harvestDone (s : State) (r : Request) (fault : Option JobFault) : State :=
  match fault with
  | some f => endFault s r f
  | none => done (hostWrite s 0 (reqDst r.entry) r.data) r r.data.length (slice r.data 8 8 ++ zeros 8)

end Sys2Proof.Machine
end

