-- ==== Sys2Proof/Machine/Migration.lean ====
section
/-! DEFINITION. The export stream (R93 to R95, R238, R400): EXPORT, IMPORT, and the end of every host
transfer. Where the spec names a part of the stream and gives its bytes no layout, the layout is the model's (assumption log 15). -/

namespace Sys2Proof.Machine

open Sys2Proof

/-! ## Sections of the stream (R94) -/

/-- The 64-byte section header: type, numbers of 64-, 32- and 16-byte records where a section mixes them, payload length. -/
def sectionOf (type n64 n32 n16 : Nat) (payload : List Byte) : List Byte :=
  if payload.isEmpty then []
  else padTo 64 (toBE 1 type ++ zeros 3 ++ toBE 4 n64 ++ toBE 4 n32 ++ toBE 4 n16 ++ toBE 8 payload.length)
    ++ padTo (roundUp payload.length 64) payload

/-- The virtual engines of an instance that have a context. -/
def contextKeys (s : State) (i : Nat) : List Nat :=
  (s.ves.filter fun e => veInst e.1 == i && e.2.hasCtx).map Prod.fst

def contextSection (s : State) (i : Nat) : List Byte :=
  sectionOf 1 0 0 0 ((contextKeys s i).flatMap fun k => contextBytes s k (s.ve k).cur (s.ve k).csn)

/-- The operation block (R255). -/
def opBlock (i n : Nat) (x : Sub) : List Byte :=
  toBE 1 x.st.code ++ toBE 1 (b2n x.reissued * 128 + b2n x.onceOpen * 64 + x.prio % 4 * 4 + x.path % 4) ++ toBE 2 i ++ toBE 1 x.ve
    ++ toBE 1 x.che ++ toBE 2 x.device ++ toBE 6 x.opJsn ++ toBE 2 x.cce ++ toBE 8 x.program ++ toBE 8 x.status ++ toBE 8 x.user
    ++ toBE 8 x.position ++ toBE 4 x.moved ++ toBE 1 x.fstatus ++ zeros 1 ++ toBE 2 x.detail
    ++ toBE 4 x.devstat ++ toBE 2 (min 0xFFFF x.reissues) ++ toBE 2 n

/-- The groups an instance holds: its guarantee, and the shared ones in use (R246). -/
def heldGroups (s : State) (i : Nat) : List Nat :=
  let g := ((s.inst i).share 4 0).guarantee
  List.range g ++ ((busyGroups s i).filter (g ≤ ·)).mergeSort (· ≤ ·)

def opSection (s : State) (i : Nat) : List Byte :=
  sectionOf 2 0 0 0 ((heldGroups s i).flatMap fun g => (List.range 64).flatMap fun j => opBlock i (g * 64 + j) (s.sub i (g * 64 + j)))

def keySection (s : State) (i : Nat) (wrap : List Byte) : List Byte :=
  sectionOf 3 0 0 0 ((s.inst i).keyPages.flatMap fun pg => zeros 64 ++ (List.range 8).flatMap fun n => slotRecord wrap (s.slot pg n))

/-- A request in hand as a 64-byte record: its entry, with the ring in the reserved FLAGS bits, the stage in CHK where CHK is not
allowed, and the SEQ in CHECK, or in bytes 60 to 63 of a STORE_WRITE with CHK. -/
def requestRecord (r : Request) : List Byte :=
  let e := r.entry
  let late := r.stage == .taken || r.stage == .pending
  let flags := reqFlags e + r.k % 8 + (if late && !reqChk e then 128 else 0)
  patch (patch e 1 (toBE 1 flags)) (if reqChk e then 60 else 32) (toBE 4 r.seq)

/-- A completion that waits for its ring, its NOINT in the lowest reserved bit. -/
def heldRecord (c : Completion) : List Byte :=
  let b := completionBytes c false
  patch b 1 [(b.getD 1 0) ||| BitVec.ofNat 8 (b2n c.noint)]

/-- A held signal (R94). -/
def signalRecord (v sender : Nat) (w : Word) : List Byte := toBE 2 v ++ toBE 1 sender ++ zeros 5 ++ wordBytes w

def queueSection (s : State) (i : Nat) : List Byte :=
  let reqs := (s.hp.reqs.filter fun r => r.fn == i + 1).map requestRecord
  let ks := contextKeys s i
  let held := ((List.range 8).flatMap fun k => (s.ring (i + 1) k).held).map heldRecord
  let signals := ks.flatMap fun k => (s.ve k).signals.map fun g => signalRecord (veNum k) g.1 g.2
  sectionOf 4 reqs.length held.length signals.length (reqs.flatten ++ held.flatten ++ signals.flatten)

/-- The granule's data, then its line tags, a poisoned line's complemented (R94, R238). -/
def granuleBytes (s : State) (first lines : Nat) : List Byte :=
  let ls := (List.range lines).map fun j => committed s (first + j)
  (ls.flatMap Prod.fst) ++ ls.flatMap fun l => let t := crc32c l.1; toBE 4 (if l.2 then ~~~t else t).toNat

def mainSection (s : State) (i : Nat) : List Byte :=
  sectionOf 5 0 0 0 ((s.inst i).main.flatMap fun g => granuleBytes s ((s.poolBase + g.num * 65536) / 64) 1024)

def bulkSection (s : State) (i : Nat) : List Byte :=
  sectionOf 6 0 0 0 ((s.inst i).bulk.flatMap fun g => granuleBytes s ((0x1000000000 + g.num * 2097152) / 64) 32768)

/-- INS_SEQ and the ring indices. -/
def seqSection (s : State) (i : Nat) : List Byte :=
  sectionOf 7 0 0 0 (padTo 64 (toBE 4 (s.inst i).seq ++ (List.range 8).flatMap fun k =>
    let r := s.ring (i + 1) k
    toBE 2 r.rqHead ++ toBE 2 r.cqTail ++ toBE 2 r.cqHead ++ toBE 1 (b2n r.phase)))

/-- Numbers packed into one, each in its width in bits, the first the most significant. -/
def packBits (l : List (Nat × Nat)) : Nat := l.foldl (fun a e => a * 2 ^ e.1 + e.2 % 2 ^ e.1) 0

/-- The holdings of an instance, pool by pool in code order, with the width of each figure in bits: guarantee, then cap where it
can be other than zero. -/
def holdings (x : Inst) : List (Nat × Nat × Nat) :=
  let ts := List.range 8
  let both (p wg wc t : Nat) : List (Nat × Nat × Nat) := [(p, wg, (x.share p t).guarantee), (p, wc, (x.share p t).cap)]
  let own (p w t : Nat) : Nat × Nat × Nat := (p, w, (x.share p t).guarantee)
  ts.flatMap (both 1 13 32) ++ [own 2 12 0, own 3 16 0] ++ both 4 11 11 0 ++ [own 5 5 0, own 6 4 0] ++ ts.map (own 7 3)
    ++ ts.flatMap (both 8 14 14) ++ both 9 11 11 0 ++ both 10 10 10 0 ++ both 11 11 11 0

/-- The packed part of the header, bytes 10 to 231: placement, 4 bits to a virtual engine; windows, 82 bits each (bus page, WRITE,
pages); holdings. -/
def packedBytes : Nat := 222
def placeBits : Nat := 64 * 4
def windowBits : Nat := 8 * 82

/-- The field of `w` bits at bit `off` of the packed part, counted from its most significant bit. -/
def packedField (h : List Byte) (off w : Nat) : Nat := beNat (slice h 10 packedBytes) / 2 ^ (packedBytes * 8 - off - w) % 2 ^ w

/-- The 256-byte header: format, TOTAL, the packed part, SALT in bytes 232 to 255 (R94, R400). -/
def streamHeader (s : State) (i total : Nat) (salt : List Byte) : List Byte :=
  let x := s.inst i
  let place := (List.range 64).map fun v => let e := s.ve (veKey i v); (4, b2n e.placed * 8 + e.tower % 8)
  let win := (List.range 8).flatMap fun w =>
    let e := kvGet {} x.windows w
    [(52, e.busBase / 4096), (1, b2n e.write), (29, e.pages)]
  let l := place ++ win ++ (holdings x).map Prod.snd
  toBE 2 1 ++ toBE 8 total ++ toBE packedBytes (packBits l * 2 ^ (packedBytes * 8 - (l.map Prod.fst).sum)) ++ padTo 24 salt

/-- Content bytes of a whole frame (R93). -/
def frameBody : Nat := 1048560

/-- Stream length of content of `n` bytes. -/
def streamTotal (n : Nat) : Nat := n + (n + frameBody - 1) / frameBody * 16

/-- The content of the stream. -/
def streamContent (s : State) (i : Nat) (salt wrap : List Byte) : List Byte :=
  let sections := contextSection s i ++ opSection s i ++ keySection s i wrap ++ queueSection s i ++ mainSection s i ++ bulkSection s i
    ++ seqSection s i
  streamHeader s i (streamTotal (256 + sections.length)) salt ++ sections

/-- The tag of frame `f` (R93, R400): GMAC over the frame and the previous tag. -/
def frameTag (key : List Byte) (f : Nat) (frame prev : List Byte) : List Byte :=
  (gcmTag key (zeros 4 ++ toBE 8 f) (frame ++ prev) []).take 16

/-- Frames with their tags, from frame `f` on. -/
def framesOf (key : List Byte) : Nat → Nat → List Byte → List Byte → List (List Byte)
  | 0, _, _, _ => []
  | fuel + 1, f, prev, c =>
    if c.isEmpty then []
    else
      let b := c.take frameBody
      let t := frameTag key f b prev
      (b ++ t) :: framesOf key fuel (f + 1) t (c.drop frameBody)

def allFrames (key c : List Byte) : List (List Byte) := framesOf key (c.length / frameBody + 1) 0 [] c

/-! ## EXPORT (R93, R400) -/

/-- Domain key slot `d`, if it holds a key. -/
def dkeyOf (s : State) (d : Nat) : Option (List Byte) := (s.spire.dkeys[d]?).getD none

/-- The SALT of the session that opens now. -/
def saltOf (s : State) (i : Nat) : List Byte :=
  toBE 4 s.spire.modid ++ toBE 8 s.spire.boot ++ toBE 8 s.spire.exportNo ++ toBE 2 i ++ zeros 2

/-- Whole frames that fit in `room` bytes. -/
def fitFrames (room : Nat) : List (List Byte) → List (List Byte)
  | [] => []
  | f :: r => if f.length ≤ room then f :: fitFrames (room - f.length) r else []

/-- The session's next segment made ready in the request. OFFSET must be where a frame starts. -/
def exportSegment (s : State) (r : Request) (i : Nat) (x : Session) : State :=
  let off := fieldBE r.entry 40 8
  let fs := allFrames (kdf ((dkeyOf s x.dkey).getD []) "KG9 MIG TAG" x.salt 32) x.stream
  if off % 1048576 != 0 || off ≥ streamTotal x.stream.length then answer s r .fieldInvalid 40
  else
    let seg := (fitFrames (reqDstLen r.entry) (fs.drop (off / 1048576))).flatten
    (s.updInst i fun y => { y with exporting := some x }).putReq { r with stage := .running, data := seg }

def execExportInst (seq : BitVec 32) (s : State) : Res :=
  instCommand s seq 0x60 noEarly fun s r i =>
    let d := par r.entry 37
    let off := fieldBE r.entry 40 8
    if off != 0 && (s.inst i).exporting.isNone then refuse s r i (s.inst i).st.code
    else
    match dkeyOf s d with
    | none => answer s r .keyAbsent 0
    | some key =>
      if s.spire.stopped then answer s r .deviceError 0
      else if off == 0 then
        let s := { s with spire := { s.spire with exportNo := s.spire.exportNo + 1 } }
        let salt := saltOf s i
        exportSegment s r i { dkey := d, salt := salt, stream := streamContent s i salt (kdf key "KG9 MIG WRAP" salt 32) }
      else
        match (s.inst i).exporting with
        | none => s
        | some x => if x.dkey != d then answer s r .fieldInvalid 37 else exportSegment s r i x

/-- EXPORT's segment is in host memory: the instance is EXPORTED, or stays as it is with KEEP. After a failure what the buffer holds
is open (R93). -/
def exportDone (s : State) (r : Request) (fault : Option JobFault) : State :=
  let i := reqTarget r.entry
  -- a line whose tag fails is CACHE_ERROR's or STORE_READ_ERROR's; the stream carries it as poisoned (R238)
  match (match fault with | some (.lineTag _) => none | f => f) with
  | some _ =>
    let (n, s) := s.fresh
    answer (hostWrite s 0 (reqDst r.entry) (Config.bytes n (reqDstLen r.entry))) r .deviceError 0
  | none =>
    let x := ((s.inst i).exporting).getD {}
    let next := fieldBE r.entry 40 8 + r.data.length
    let s := hostWrite s 0 (reqDst r.entry) r.data
    let s := if bit (par r.entry 36) 0 then s else s.updInst i fun y => { y with st := .exported }
    done s r r.data.length (toBE 8 (streamTotal x.stream.length) ++ toBE 8 next)

/-! ## IMPORT (R95) -/

/-- The whole frames at the start of `d`, at most `n` of them, of a stream with `left` bytes still to come. -/
def takeFrames : Nat → Nat → List Byte → List (List Byte)
  | 0, _, _ => []
  | n + 1, left, d =>
    let m := min 1048576 left
    if m == 0 || d.length < m then [] else d.take m :: takeFrames n (left - m) (d.drop m)

/-- Do the tags of frames `f` on verify, and which is the last? -/
def checkFrames (key : List Byte) : Nat → List Byte → List (List Byte) → Option (List Byte)
  | _, prev, [] => some prev
  | f, prev, x :: r =>
    let body := x.take (x.length - 16)
    let tag := x.drop (x.length - 16)
    if frameTag key f body prev == tag then checkFrames key (f + 1) tag r else none

/-- The first pool whose holding differs from the stream header's, the figures standing from bit `off` of its packed part on. -/
def shortPool (h : List Byte) : Nat → List (Nat × Nat × Nat) → Option Nat
  | _, [] => none
  | off, (p, w, v) :: r => if packedField h off w == v then shortPool h (off + w) r else some p

/-- The sections of a stream: type, record counts and payload. -/
def parseSections : Nat → List Byte → List (Nat × Nat × Nat × Nat × List Byte)
  | 0, _ => []
  | fuel + 1, d =>
    if d.length < 64 then []
    else
      let n := fieldBE d 16 8
      (fieldBE d 0 1, fieldBE d 4 4, fieldBE d 8 4, fieldBE d 12 4, slice d 64 n) :: parseSections fuel (d.drop (64 + roundUp n 64))

/-- Records of `n` bytes. -/
def records (n : Nat) (d : List Byte) : List (List Byte) := (blocks n d).filter fun b => b.length == n

def importContexts (s : State) (i : Nat) (d : List Byte) : State :=
  (records 1024 d).foldl (fun s l =>
    let (n, s) := s.fresh
    let x := veOf n l
    let k := veKey i (fieldBE l 10 1)
    let slot := freeSlot s x.tower
    s.setVe k { x with slot := slot }) s

def subStateOf (n : Nat) : SubState := if n == 6 then .pending else if n == 7 then .held else .idle

/-- The operation blocks brought in (R256): of an ended one the block holds no END_JSN, so its number here is a free value (assumption log
15). -/
def importOps (s : State) (i : Nat) (d : List Byte) : State :=
  (records 64 d).foldl (fun s l =>
    let st := subStateOf (fieldBE l 0 1)
    if st == .idle then s
    else
      let (k, s) := s.fresh
      let n := fieldBE l 62 2
      takeGroup (s.setSub i n {
      st := st, reissued := bit (fieldBE l 1 1) 7, onceOpen := bit (fieldBE l 1 1) 6, prio := bits (fieldBE l 1 1) 3 2, path := bits (fieldBE l 1 1) 1 0
      ve := fieldBE l 4 1, che := fieldBE l 5 1, device := fieldBE l 6 2, opJsn := fieldBE l 8 6, cce := fieldBE l 14 2
      program := fieldBE l 16 8, status := fieldBE l 24 8, user := fieldBE l 32 8, position := fieldBE l 40 8, count := fieldBE l 48 4
      endJsn := Config.pick k % 2 ^ 48, fstatus := fieldBE l 52 1, detail := fieldBE l 54 2, devstat := fieldBE l 56 4
      reissues := fieldBE l 60 2 }) i n) s

/-- The key slot of a record; a key that does not unwrap leaves the slot empty. -/
def slotOf (wrap l : List Byte) : Slot :=
  let f := fieldBE l 3 1
  if fieldBE l 2 1 == 0 then {}
  else
    match keyUnwrap wrap (slice l 32 (fieldBE l 1 1 + 8)) with
    | none => {}
    | some key =>
      { alg := fieldBE l 0 1, keylen := fieldBE l 1 1, state := fieldBE l 2 1, exportable := bit f 2, plain := bit f 1, unit := bit f 0
        used := fieldBE l 8 8, limit := fieldBE l 16 8, key := key, kcv := fieldBE l 24 4 }

def importKeys (s : State) (i : Nat) (wrap d : List Byte) : State :=
  ((records 4160 d).zip (s.inst i).keyPages).foldl (fun s e =>
    ((records 512 (e.1.drop 64)).zip (List.range 8)).foldl (fun s x => s.setSlot e.2 x.2 (slotOf wrap x.1)) s) s

def importRequest (s : State) (i : Nat) (l : List Byte) : State :=
  let v := veKey i (reqTarget l)
  let op := reqOp l
  let chk := op == 2 && bit (reqFlags l) 7
  let at_ := if chk then 60 else 32
  let late := op != 2 && bit (reqFlags l) 7
  let flags := bits (reqFlags l) 6 3 * 8 + (if chk then 128 else 0)
  let e := patch (patch l 1 (toBE 1 flags)) at_ (zeros 4)
  let st : Stage := if op == 1 then (if late then .taken else .queued) else if op == 4 && late then .pending else .arrived
  let st := if op == 1 && !late && !(s.ve v).placed then .arrived else st
  s.setReqs (s.hp.reqs ++ [{ fn := i + 1, k := reqFlags l % 8, seq := fieldBE l at_ 4, entry := e, stage := st, tb := s.clk.tb }])

def importHeld (s : State) (i : Nat) (l : List Byte) : State :=
  let k := bits (fieldBE l 1 1) 6 4
  let g := s.ring (i + 1) k
  s.setRing (i + 1) k { g with held := g.held ++ [{
    status := fieldBE l 0 1, detail := fieldBE l 2 2, k := k, seq := fieldBE l 4 4, tag := fieldBE l 8 4, count := fieldBE l 12 4
    result := slice l 16 16, noint := bit (fieldBE l 1 1) 0 }] }

def importSignal (s : State) (i : Nat) (l : List Byte) : State :=
  s.updVe (veKey i (fieldBE l 0 2)) fun x => { x with signals := kvSet x.signals (fieldBE l 2 1) (word64At l 8) }

def importQueues (s : State) (i n64 n32 n16 : Nat) (d : List Byte) : State :=
  let a := records 64 (d.take (n64 * 64))
  let b := records 32 (slice d (n64 * 64) (n32 * 32))
  let c := records 16 (slice d (n64 * 64 + n32 * 32) (n16 * 16))
  let s := a.foldl (fun s l => importRequest s i l) s
  let s := b.foldl (fun s l => importHeld s i l) s
  c.foldl (fun s l => importSignal s i l) s

/-- Lines of granules of `n` lines each, no dome or L1 copy staying (R199): a line whose tag does not match is installed poisoned (R238). -/
def importGranules (s : State) (firsts : List Nat) (n : Nat) (d : List Byte) : State :=
  (firsts.zip (records (n * 68) d)).foldl (fun s e =>
    (List.range n).foldl (fun s j =>
      let l := slice e.2 (j * 64) 64
      let bad := fieldBE e.2 (n * 64 + j * 4) 4 != (crc32c l).toNat
      let s := dropDomes s (e.1 + j) (fun _ => true)
      { s with mem := s.mem.setLine s.clk.tb (e.1 + j) l bad }) s) s

def importSeq (s : State) (i : Nat) (d : List Byte) : State :=
  let s := s.updInst i fun x => { x with seq := fieldBE d 0 4 }
  (List.range (s.inst i).ringPairs).foldl (fun s k =>
    let o := 4 + 7 * k
    s.setRing (i + 1) k { s.ring (i + 1) k with
      rqHead := fieldBE d o 2, cqTail := fieldBE d (o + 2) 2, cqHead := fieldBE d (o + 4) 2, phase := bit (fieldBE d (o + 6) 1) 0 }) s

/-- Completion slots that the requests and held completions brought in have reserved (R54). -/
def reserveRings (s : State) (i : Nat) : State :=
  (List.range 8).foldl (fun s k =>
    let n := (s.hp.reqs.filter fun r => r.fn == i + 1 && r.k == k).length + (s.ring (i + 1) k).held.length
    if n == 0 then s else s.setRing (i + 1) k { s.ring (i + 1) k with reserved := n }) s

/-- The windows of the header. -/
def importWindows (s : State) (i : Nat) (h : List Byte) : State :=
  (List.range 8).foldl (fun s w =>
    let o := placeBits + 82 * w
    let n := packedField h (o + 53) 29
    if n == 0 then s
    else s.updInst i fun x => { x with
      windows := kvSet x.windows w { write := packedField h (o + 52) 1 == 1, busBase := packedField h o 52 * 4096, pages := n } }) s

/-- The ways of instance `i` unlocked: after IMPORT every handle reads LOCKED = 0 (R210). -/
def unlockWays (s : State) (i : Nat) : State :=
  { s with domes := kvMap (fun _ d =>
      let mine := (d.locks.filter fun w => w.2.inst == i).map Prod.fst
      { d with locks := kvMap (fun _ w => if w.inst == i then { w with locked := false, held := 0, removed := 0 } else w) d.locks
               lines := d.lines.map fun x => if mine.contains x.way then { x with locked := false } else x }) s.domes }

/-- The stream applied; the statuses it holds are written when the IMPORT completes (R95, R232, R256). -/
def applyStream (s : State) (i : Nat) (wrap d : List Byte) : State :=
  let s := unlockWays (dropInstTlb s i) i
  let s := importWindows s i d
  let mains := (s.inst i).main.map fun g => (s.poolBase + g.num * 65536) / 64
  let bulks := (s.inst i).bulk.map fun g => (0x1000000000 + g.num * 2097152) / 64
  let s := { s with ves := s.ves.filter fun e => veInst e.1 != i }
  let s := (parseSections 7 (d.drop 256)).foldl (fun s x =>
    match x with
    | (1, _, _, _, p) => importContexts s i p
    | (2, _, _, _, p) => importOps s i p
    | (3, _, _, _, p) => importKeys s i wrap p
    | (4, a, b, c, p) => importQueues s i a b c p
    | (5, _, _, _, p) => importGranules s mains 1024 p
    | (6, _, _, _, p) => importGranules s bulks 32768 p
    | (7, _, _, _, p) => importSeq s i p
    | _ => s) s
  releaseHeld (reserveRings (s.updInst i fun x => { x with st := .quiesced, importing := none }) i) i

/-- IMPORT starts: the offset must follow what has been taken; the frames are then read. -/
def execImportInst (seq : BitVec 32) (s : State) : Res :=
  instCommand s seq 0x61 noEarly fun s r i =>
    let off := fieldBE r.entry 40 8
    let at_ := match (s.inst i).importing with | some x => x.offset | none => 0
    match dkeyOf s (par r.entry 37) with
    | none => answer s r .keyAbsent 0
    | some _ =>
      if s.spire.stopped then answer s r .deviceError 0
      else if off != at_ then answer s r .fieldInvalid 40
      else (s.putReq { r with stage := .running }).emit (.hostRead 0 (reqSrc r.entry) (reqSrcLen r.entry))

/-- The frames of an IMPORT are here: checked, then taken; the last one applies the stream. -/
def importDone (s : State) (r : Request) (data : List Byte) (fault : Option JobFault) : State :=
  let i := reqTarget r.entry
  match fault with
  | some f => endFault s r f
  | none =>
    let d := padTo (reqSrcLen r.entry) data
    let x := ((s.inst i).importing).getD {}
    let head := x.stream ++ d
    let total := fieldBE head 2 8
    let salt := slice head 232 24
    let dk := (dkeyOf s (par r.entry 37)).getD []
    let fs := takeFrames 16 (total - x.offset) d
    if fs.isEmpty then (if x.offset == 0 then answer s r .authFailed 0 else answer s r .fieldInvalid 24)
    else
      match checkFrames (kdf dk "KG9 MIG TAG" salt 32) (x.offset / 1048576) x.tag fs with
      | none => answer s r .authFailed 0
      | some tag =>
        match shortPool head (placeBits + windowBits) (holdings (s.inst i)) with
        | some p => answer s r .resourceLimit p
        | none =>
          let next := x.offset + (fs.map List.length).sum
          let stream := x.stream ++ fs.flatMap fun f => f.take (f.length - 16)
          let s :=
            if next ≥ total then applyStream s i (kdf dk "KG9 MIG WRAP" salt 32) stream
            else s.updInst i fun y => { y with importing := some { offset := next, tag := tag, dkey := par r.entry 37, salt := salt, stream := stream } }
          done s r (next - x.offset) (zeros 8 ++ toBE 8 next)

/-! ## HOST_TRANSFER_DONE -/

/-- The transfer of a running request has ended (R58, R91, R140). -/
def execHostTransferDone (fn : Nat) (seq : BitVec 32) (data : List Byte) (fault : Option JobFault) (s : State) : Res :=
  let s := s.quiet
  match s.req? fn seq.toNat with
  | none => .next s
  | some r =>
    if !s.live || s.hp.stopped || s.bel.fatal || r.stage != .running || r.closing || (fn != 0 && !(s.fn fn).bme) then .next s
    else
      match fn, reqOp r.entry with
      | 0, 0x60 => .next (exportDone s r fault)
      | 0, 0x61 => .next (importDone s r data fault)
      | 0, 0x63 => .next (harvestDone s r fault)
      | 0, _ => .next s
      | _, 2 => .next (storeWriteDone s r data fault)
      | _, 3 => .next (storeReadDone s r fault)
      | _, 0x31 => .next (keyWrapDone s r fault)
      | _, _ => .next s

end Sys2Proof.Machine
end

