-- ==== Sys2Proof/Machine/Fail.lean ====
section
/-! DEFINITION. What a fault does to instances and to the module (R32, R71, R237, R334, R335, R368): the shared operations of the events
that follow from one. -/

namespace Sys2Proof.Machine

open Sys2Proof

/-- Field of PARAM: `v` in the bytes that begin at byte `b` (48 to 55), `n` of them. -/
def paramAt (b n v : Nat) : Nat := v * 2 ^ (8 * (56 - b - n))

/-! ## An instance leaves its engines -/

/-- Every virtual engine of instance `i` at its last checkpoint, off its engine; a BARRIER arrival goes with it. -/
def stopInst (s : State) (i : Nat) : State :=
  let s := (enginesOn s i).foldl (fun s e => leaveEngine (rollback s e.1) e.1 e.2) s
  let s := withdrawAll s i
  { s with ves := kvMap (fun k v => if veInst k == i then { v with cur := v.ckpt, taken := [], prog := v.ckProg, mc := if v.mcHeld then v.mc else v.ckMc } else v) s.ves }

/-- The jobs of an instance removed, their slots returned (R83); the key slots they ran on count none of them. -/
def dropJobs (s : State) (i : Nat) : State :=
  let free (cz : Bool) (s : State) : State :=
    ((s.accel cz).jobs.filter fun j => j.inst == i && j.shared).foldl (fun s j => pushHold s (accelPool cz) 0 (s.clk.tb - j.tb)) s
  let s := free true (free false s)
  let s := s.setJobs false (s.xce.jobs.filter (·.inst != i))
  let s := s.setJobs true (s.cze.jobs.filter (·.inst != i))
  (s.inst i).keyPages.foldl (fun s pg =>
    { s with pages := kvUpd {} s.pages pg fun p => { p with slots := kvMap (fun _ x => { x with running := 0, reserved := 0 }) p.slots } }) s

/-- Every request of function `n` in hand completes DEVICE_ERROR (R71). -/
def failRequests (s : State) (n : Nat) : State :=
  (s.hp.reqs.filter fun r => r.fn == n).foldl (fun s r => completeNow (freeDispatch s r) n r.seq Status.deviceError.code 0 0 []) s

/-- A QUIESCE, EXPORT or IMPORT in progress on instance `i` completes DEVICE_ERROR. -/
def failCommands (s : State) (i : Nat) : State :=
  [0x42, 0x60, 0x61].foldl (fun s op =>
    match commandOn s i op with
    | some r => answer s r .deviceError 0
    | none => s) s

/-- What FAULTED does to an instance (R71). -/
def faultNow (s : State) (i : Nat) : State :=
  let x := s.inst i
  if x.st == .free || x.st == .faulted then s
  else
    let s := stopFetch (stopInst s i) (i + 1)
    let s := dropJobs (failRequests s (i + 1)) i
    let s := failCommands s i
    s.updInst i fun x => { x with st := .faulted, exporting := none, importing := none }

/-- An instance-fatal fault on a single module: the instance FAULTED, and the entry that says so (R71, R339, R470). `cause` is the
entry that has been logged for the fault. -/
def faultInst (s : State) (i : Nat) (cause : LogEntry) : State :=
  let x := s.inst i
  if x.st == .free || x.st == .faulted then s
  else logEvent (faultNow s i) { s.entry 0x40 5 cause.source cause.unit with inst := i, ref := cause.eseq }

/-! ## Surrender (R368) -/

/-- A CONTROL message sent (R350). -/
def sendControl (s : State) (kind : Nat) (fields : List Nat) : State :=
  sendSlots s [slotBytes 4 false 0 0 0 (Config.message kind fields)]

/-- Kinds of CONTROL messages, in the order R350 lists them. -/
def ctlIdent : Nat := 0
def ctlPair : Nat := 1
def ctlProtect : Nat := 2
def ctlCopyDone : Nat := 3
def ctlSurrender : Nat := 4
def ctlHandover : Nat := 5

/-- The instance leaves this module for the partner: its egress closed, its running work dropped without completions, its copy here
marked FAULTED (assumption log 17). -/
def leaveModule (s : State) (i : Nat) : State :=
  let s := stopFetch (stopInst s i) (i + 1)
  let s := dropJobs s i
  let s := dropRequests s (i + 1)
  let s := { s with
             css := { s.css with subs := s.css.subs.filter fun e => e.1 / 65536 != i }
             twin := { s.twin with groups := s.twin.groups.filter (·.inst != i), notes := kvDel s.twin.notes i, keyNotes := kvDel s.twin.keyNotes i } }
  let s := failCommands s i
  s.updInst i fun x => { x with st := .faulted, role := .local_, exporting := none, importing := none }

/-- Instance `i` surrendered: the message with the JSN of its last acknowledged group, and the entry with the class of the cause. -/
def surrender (s : State) (i cls : Nat) : State :=
  let j := kvGet 0 s.twin.lastAck i
  let s := leaveModule s i
  let s := if s.twin.link ≥ 2 then sendControl s ctlSurrender [i, j] else s
  logEvent s { s.entry 0x75 cls 0x0C 0 with inst := i, ref := j }

/-- Committed state of instance `i` is lost here: its partner carries it on, or it is FAULTED (R32). -/
def loseInst (s : State) (i : Nat) (cause : LogEntry) : State :=
  if s.covered i then surrender s i 5 else faultInst s i cause

/-! ## Module-wide -/

/-- An entry logged, and the entry as it stands in the log. -/
def logged (s : State) (e : LogEntry) : State × LogEntry := (logEvent s e, { e with eseq := s.bel.eseq })

/-- The class by which every instance is lost (R32, R334): twinned ones go to the partner, the others are FAULTED, each without an
entry of its own. -/
def deviceFatal (s : State) (detail source unit : Nat) : State :=
  let s := logEvent s { s.entry 0x50 6 source unit with detail := detail }
  let s := { s with bel := { s.bel with fatal := true } }
  (kvKeys s.insts).foldl (fun s i => if s.covered i && s.twin.link ≥ 2 then surrender s i 6 else faultNow s i) s

/-- A unit out of service, recorded by its codes (R339). -/
def fenceUnit (s : State) (u : UnitId) : State :=
  { s with tst := { s.tst with fenced := if s.tst.fenced.contains u then s.tst.fenced else s.tst.fenced ++ [u] } }

/-- UNIT_FENCED with the number of like units still in service (R339). -/
def unitFenced (s : State) (cls source unit left : Nat) : State × LogEntry :=
  logged s { s.entry 0x31 cls source unit with param := paramAt 48 2 left }

/-- The lowest-numbered virtual engine of instance `i` that `q` selects. -/
def lowestVe (s : State) (i : Nat) (q : VE → Bool) : Option Nat :=
  (List.range 64).find? fun v => let x := s.ve (veKey i v); x.placed && q x

/-- A deferrable machine check for instance `i` (R335). -/
def raiseDeferred (s : State) (i : Nat) (q : VE → Bool) (e : LogEntry) (left : Nat) : State :=
  match lowestVe s i q with
  | none => s
  | some v =>
    s.updVe (veKey i v) fun x => { x with
      deferred := some { code := 0x10, nullified := false, eseq := e.eseq, tb := s.clk.tb, source := e.source, unit := e.unit, left := left,
                         multiple := x.deferred.isSome } }

/-! ## Lost lines (R237) -/

/-- The store unit that holds a line: main-store channel or stack (R217, R219). -/
def storeUnit (l : Nat) : Nat × Nat :=
  if l < bulkLine then (5, channelOf l) else (6, stackOf l)

/-- A line with no good copy: poisoned, DATA_LOST, its owner lost (R237). `unit` poisoned it. -/
def loseLine (s : State) (l : Nat) (unit : Nat × Nat) : State :=
  let (d, _) := committed s l
  let s := dropDomes s l (fun _ => true)
  let s := { s with mem := s.mem.setLine s.clk.tb l d true }
  let owner : Option Nat := match lineOwner s l, systemBlock (l * 64) with
    | some (i, _), _ => some i
    | none, some (.control i) => if (s.inst i).st == .free then none else some i
    | none, _ => none
  let (s, e) := logged s { s.entry 0x12 5 unit.1 unit.2 with addr := l * 64, inst := owner.getD 0xFFFF }
  match owner with
  | some i => loseInst s i e
  | none => s

end Sys2Proof.Machine
end

