-- ==== Sys2Proof/Machine/Recovery.lean ====
section
/-! DEFINITION. Engine faults and the recovery ladder (R22, R327 to R333), cache and store errors (R216, R224, R237, R244, R326), granule
zeroing (R243), and the end of a second's merging (R340). -/

namespace Sys2Proof.Machine

open Sys2Proof

/-! ## Runtime tests cut short (R437, R446) -/

/-- RESULT of SELFTEST_RUN (R447). -/
def testResult (res repair detail got want : Nat) : List Byte :=
  toBE 1 res ++ toBE 1 repair ++ toBE 2 detail ++ toBE 4 got ++ toBE 4 want ++ zeros 4

/-- The commands that wait for a test complete. -/
def answerTest (s : State) (t : TestRun) (result : List Byte) : State :=
  t.waiters.foldl (fun s q => complete s 0 q 0 0 0 result) s

/-- A runtime test reads INCOMPLETE: counted, logged, its unit back in service unchanged. -/
def cutTest (s : State) (t : TestRun) (cause got want : Nat) : State :=
  let s := { s with tst := { s.tst with
    running := s.tst.running.filter (·.unit != t.unit), incomplete := s.tst.incomplete + 1 } }
  let s := match t.unit.source, t.standIn with
    | 1, some p => s.updEng p fun e => { e with standFor := none }
    | _, _ => s
  let s := if t.unit.source == 1 then
      let p := engineOfUnit t.unit.unit
      (walkL1 s p).updEng p fun e => { e with phase := if e.phase == .test then .run else e.phase }
    else if t.unit.source == 2 then
      s.updDome t.unit.unit fun d => { d with waysOut := d.waysOut.filter (· != t.unit.way) }
    else s
  let s := logEvent s { s.entry 0x81 0 t.unit.source t.unit.unit with
    detail := cause, param := paramAt 48 4 got + paramAt 52 4 want }
  answerTest s t (testResult 2 0 cause got want)

/-- A test cut where nothing says how far it had come: the count of patterns done is a free value. The engine test has 12,800
patterns; how many the others have is not in the spec. -/
def cutFree (s : State) (t : TestRun) (cause : Nat) : State :=
  let (n, s) := s.fresh
  let (m, s) := s.fresh
  let want := if t.unit.source == 1 then 12800 else Config.pick m % 2 ^ 32
  cutTest s t cause (Config.pick n % max 1 want) want

/-! ## Fuse repair (R441) -/

/-- A repair scheduled for the next cold start, where the image permits it and an operation is left. A reserve whose placement is pending
counts as taken (assumption log 124). -/
def scheduleFuse (s : State) (u : UnitId) (kind : Nat) : State :=
  if !s.img.fuseRepair then s
  else if s.tst.repairs.contains ⟨u, kind⟩ then s
  else if s.tst.fuseUsed + s.tst.repairs.length ≥ 8 || (kind == 1 && ((kvFind s.tst.reserveFused (towerOf (engineOfUnit u.unit))).isSome
      || s.tst.repairs.any fun x => x.kind == 1 && towerOf (engineOfUnit x.unit.unit) == towerOf (engineOfUnit u.unit))) then
    logEvent s (s.entry 0x84 0 u.source u.unit)
  else
    let s := { s with tst := { s.tst with repairs := s.tst.repairs ++ [⟨u, kind⟩] } }
    logEvent s { s.entry 0x82 0 u.source u.unit with param := paramAt 48 1 kind }

/-! ## Sparing (R331) -/

def causeCode : EngineCause → Nat
  | .residue => 1 | .registerParity => 2 | .l1dParity => 3 | .microcode => 4 | .duplicated => 5 | .watchdog => 6 | .quickCheck => 7

/-- A structural spare in service, standing in for no engine. -/
def idleSpare (s : State) (t : Nat) : Option Nat :=
  (enginesOf t).find? fun p =>
    let e := s.eng p
    e.role == .spare && !e.fenced && e.phase == .run && e.standFor.isNone && e.ve.isNone

/-- A structural spare that stands in for an engine under test, and that engine. -/
def borrowedSpare (s : State) (t : Nat) : Option (Nat × Nat) :=
  (enginesOf t).findSome? fun p =>
    let e := s.eng p
    if e.role == .spare && !e.fenced && e.phase == .run then e.standFor.map fun q => (p, q) else none

/-- The fuse reserve of a tower, unused and in service. -/
def freeReserve (s : State) (t : Nat) : Option Nat :=
  let e := s.eng (128 + t)
  if e.role == .reserve && !e.fenced && e.phase == .run then some (128 + t) else none

/-- ROLLING_SKIPPED, once each time a tower loses its last structural spare (R442). -/
def noteSpares (s : State) (t : Nat) : State :=
  let has := (enginesOf t).any fun p => (s.eng p).role == .spare && !(s.eng p).fenced
  if has then { s with tst := { s.tst with skipped := s.tst.skipped.filter (· != t) } }
  else if s.tst.skipped.contains t then s
  else
    let s := { s with tst := { s.tst with skipped := s.tst.skipped ++ [t] } }
    logEvent s (s.entry 0x85 0 1 t)

/-- What an engine entry says of its virtual engine: instance, number, the CSN resumed. -/
def engineEntry (s : State) (event cls p ladder : Nat) (r : Recovery) : LogEntry :=
  let e := { s.entry event cls 1 (engineUnit p) with tb := r.tb, detail := r.cause, ladder := ladder }
  match r.ve with
  | some k => { e with inst := veInst k, ve := veNum k, ref := (s.ve k).csn }
  | none => e

/-- Microseconds since detection, rounded up. -/
def delayUs (s : State) (r : Recovery) : Nat := (s.clk.tb - r.tb + 99) / 100

/-- Virtual engine of engine `p`, if any, moved to engine `q`, at its checkpoint; it stays off while its instance quiesces. -/
def moveVe (s : State) (p q : Nat) : State :=
  match (s.eng p).ve with
  | none => s
  | some k =>
    let s := s.updEng p fun e => { e with ve := none }
    if (s.inst (veInst k)).st == .quiescing then leaveEngine s p k
    else (s.updVe k fun x => { x with on := some q }).updEng q fun e => { e with ve := some k }

/-- Spare `q` takes the place of failed engine `p` after its walks (R207); the entry SPARE, and the repair that would make it last. -/
def takePlace (s : State) (p q : Nat) (kind : Nat) (r : Recovery) : State :=
  let s := (walkL1 s q).updEng q fun e => { e with role := .dispatch, phase := .run, standFor := none }
  let s := moveVe s p q
  let s := logEvent s { engineEntry s 3 3 p 3 r with
    param := paramAt 48 2 (engineUnit q) + paramAt 50 1 kind + paramAt 52 4 (delayUs s r) }
  let s := scheduleFuse s ⟨1, engineUnit p, 0⟩ 1
  noteSpares s (towerOf p)

/-- No spare engine is left: the virtual engine waits for dispatch, and the tower's instances learn of it (R331, R335). -/
def noSpare (s : State) (p : Nat) (r : Recovery) : State :=
  let t := towerOf p
  let s := match (s.eng p).ve with
    | some k => leaveEngine s p k
    | none => s
  let left := dispatchable s t
  let (s, e) := logged s { engineEntry s 4 4 p 3 r with ref := 0, param := paramAt 48 2 left }
  let on (x : VE) : Bool := x.tower == t
  let hit := (kvKeys s.insts).filter fun i => placedOn s i t != 0
  hit.foldl (fun s i => raiseDeferred s i on e left) s

/-- The commit point that was closing in twin mode is given up with its group. -/
def dropCommitGroup (s : State) (p : Nat) : State :=
  { s with twin := { s.twin with groups := s.twin.groups.filter fun g => match g.act with | .commit q _ => q != p | _ => true } }

/-- Engine `p` fails for good: fenced, the next candidate of R331 takes its work. -/
def spareEngine (s : State) (p : Nat) : State :=
  let t := towerOf p
  let r := (s.eng p).recovery
  let s := s.updEng p fun e => { e with fenced := true, phase := .run, standFor := none }
  match idleSpare s t with
  | some q => takePlace s p q 0 r
  | none =>
    match borrowedSpare s t with
    | some (q, tested) =>
      let s := match s.tst.running.find? fun x => x.unit.source == 1 && x.unit.unit == engineUnit tested with
        | some x => cutFree s x 1
        | none => s
      -- the tested engine takes its own work back: at a commit point, or where that is not complete at once at the checkpoint
      let s := match (s.eng q).ve with
        | some k =>
          if (s.eng q).commit.isSome || s.twinned (veInst k) then dropCommitGroup (rollback s q) q else commitNow s q k [] false
        | none => s
      let s := moveVe (s.updEng tested fun e => { e with phase := .run }) q tested
      takePlace s p q 0 r
    | none =>
      match freeReserve s t with
      | some q => s.updEng q fun e => { e with phase := .bringUp p, recovery := { r with since := s.clk.tb } }
      | none => noSpare s p r

/-- A fault of cause `detail` in an idle spare or reserve fences it (R339); the engine for which a reserve was being brought up takes the
next candidate (R331). -/
def loseSpare (s : State) (p detail : Nat) : State :=
  let t := towerOf p
  let phase := (s.eng p).phase
  let s := s.updEng p fun e => { e with fenced := true, phase := .run }
  let more := (enginesOf t).any fun q => !(s.eng q).fenced && ((s.eng q).role == .spare || (s.eng q).role == .reserve)
  let s := noteSpares (logEvent s { s.entry 5 (if more then 1 else 4) 1 (engineUnit p) with detail := detail }) t
  match phase with
  | .bringUp failed => spareEngine s failed
  | _ => s

/-! ## Checkstop (R330, R333) -/

/-- Does the checkpoint of virtual engine `k` lie in a damaged slot (R326)? -/
def damaged (s : State) (k : Nat) : Bool := (s.ve k).hasCtx && (s.dome (s.ve k).tower).badSlots.contains (s.ve k).slot

/-- The checkpoint of virtual engine `k` in dome `t` is lost (R326). -/
def loseCheckpoint (s : State) (t k : Nat) : State :=
  let (s, c) := logged s { s.entry 0x12 5 2 t with inst := veInst k }
  loseInst s (veInst k) c

/-- An engine checkstop: back to the checkpoint, then the quick check, or sparing at once after a second one within a second. -/
def checkstop (s : State) (p : Nat) (cause : EngineCause) : State :=
  let e := s.eng p
  if e.fenced || e.phase == .quickCheck then s
  else if e.ve.isNone && (e.role == .spare || e.role == .reserve) && e.standFor.isNone then loseSpare s p (causeCode cause)
  else
    let again := match e.lastStop with | some t => decide (s.clk.tb < t + 100000000) | none => false
    let s := dropCommitGroup (rollback s p) p
    let s := s.updEng p fun e => { e with
      lastStop := some s.clk.tb, phase := .quickCheck
      recovery := { cause := causeCode cause, tb := s.clk.tb, since := s.clk.tb, ve := e.ve } }
    let s := if again then spareEngine s p else s
    match e.ve with
    | some k => if damaged s k then loseCheckpoint s (towerOf p) k else s
    | none => s

/-- A fault that an instruction retry clears (R329). -/
def execEngineFaultDetected (p : Nat) (cause : EngineCause) (attempts : Nat) (s : State) : Res :=
  let s := s.quiet
  let e := s.eng p
  let retried := match cause with | .residue => true | .registerParity => true | .microcode => true | _ => false
  if !s.live || e.fenced || e.phase != .run || !retried || attempts == 0 || attempts > 2 then .next s
  else
    let s := if cause matches .microcode then s.updEng p fun e => { e with cs := reloaded s e.cs false } else s
    .next (logEvent s { engineEntry s 1 1 p 1 { cause := causeCode cause, tb := s.clk.tb, ve := e.ve } with ref := 0 })

def execEngineCheckstop (p : Nat) (cause : EngineCause) (s : State) : Res :=
  let s := s.quiet
  .next (if s.live && p < 136 && towerOf p < s.variant.towers then checkstop s p cause else s)

/-- The quick check ends 31 microseconds after the checkstop: the engine goes on from the checkpoint, or sparing begins. -/
def execQuickCheckEnd (p : Nat) (pass : Bool) (s : State) : Res :=
  let s := s.quiet
  let e := s.eng p
  if !s.live || e.fenced || e.phase != .quickCheck then .next s
  else
    let s := passUntil s (e.recovery.since + 3100)
    if pass then
      let s := s.updEng p fun e => { e with phase := .run, cs := reloaded s e.cs false }
      let s := match e.ve with
        | some k => if (s.inst (veInst k)).st == .quiescing then leaveEngine s p k else s
        | none => s
      .next (logEvent s { engineEntry s 2 2 p 2 e.recovery with param := paramAt 52 4 (delayUs s e.recovery) })
    else .next (spareEngine s p)

/-- The fuse reserve of tower `t` is up 40 microseconds after sparing turned to it. -/
def execFuseReserveUp (t : Nat) (s : State) : Res :=
  let s := s.quiet
  let e := s.eng (128 + t)
  match e.phase with
  | .bringUp p =>
    if s.live && !e.fenced then .next (takePlace (passUntil s (e.recovery.since + 4000)) p (128 + t) 1 e.recovery) else .next s
  | _ => .next s

/-! ## Cache errors (R216) -/

/-- CACHE_CORRECTED. -/
def logCache (s : State) (source unit detail : Nat) : State := logEvent s { s.entry 0x10 1 source unit with detail := detail }

/-- A dome line whose code is uncorrectable, by its state. One in S or E is read again from the store; it stays where an engine has
written over it in its L1D. -/
def domeLost (s : State) (t l : Nat) : State :=
  match domeFind (s.dome t) l with
  | none => s
  | some x =>
    match x.st with
    | .P => checkstop s x.owner .l1dParity
    | .M => loseLine s l (2, t)
    | _ => logCache (if (enginesOf t).any fun p => (s.eng p).holdsD l then s else dropDomes s l (· == t)) 2 t 4

/-- What the dome finds in a line. -/
def domeError (s : State) (t l : Nat) (e : LineError) : State :=
  if (domeFind (s.dome t) l).isNone then s
  else
    match e with
    | .clean => s
    | .correctable => logCache s 2 t 3
    | .uncorrectable => domeLost s t l
    | .tagOne => logCache s 2 t 5
    | .tagTwo => logCache s 2 t 5

def execDomeScrub (t line : Nat) (err : LineError) (s : State) : Res :=
  let s := s.quiet
  .next (if s.live && !(s.dome t).stopped then domeError s t line err else s)

/-- Is there a line `l` in the stores of this variant (R217)? -/
def lineExists (s : State) (l : Nat) : Bool :=
  decide (l * 64 < 0x10000000) || (s.variant.bulk && decide (bulkLine ≤ l) && decide (l < bulkLine + 4 * stackLines))

/-- A store line that cannot be read (R237): a dome copy in S or E, or the partner's copy of a mirrored line, mends it; a line whose
newest content a dome holds in M loses nothing. -/
def storeFail (s : State) (l : Nat) : State :=
  let (src, unit) := storeUnit l
  let fixed (d : Nat) : State := logEvent s { s.entry 0x11 1 src unit with addr := l * 64, detail := d }
  let held (q : DomeState → Bool) : Bool := s.domes.any fun d => d.2.lines.any fun x => x.line == l && q x.st
  if !lineExists s l || s.mem.poison.contains l || held (· == .M) then s
  else if held fun x => x == .S || x == .E then fixed 3
  else
    match lineOwner s l with
    | some (_, true) => if s.twin.st == .paired then fixed 1 else loseLine s l (src, unit)
    | _ => loseLine s l (src, unit)

/-- A line tag that fails on its way between units: read again from the copy it was read from, and if that fails too the copy is treated
as an uncorrectable one (R216, R237). -/
def tagFail (s : State) (l : Nat) (good : Bool) : State :=
  match (s.domes.find? fun d => d.2.lines.any fun x => x.line == l) with
  | some (t, _) =>
    if good then logCache s 2 t 4 else domeLost s t l
  | none =>
    let (src, unit) := storeUnit l
    if good then logEvent s { s.entry 0x11 1 src unit with addr := l * 64, detail := 1 } else storeFail s l

def execCacheError (c : CacheFault) (s : State) : Res :=
  let s := s.quiet
  if !s.live then .next s
  else
    match c with
    | .l1iLine p l =>
      if (s.eng p).l1i.contains l then
        .next (logCache (s.updEng p fun e => { e with l1i := e.l1i.filter (· != l) }) 1 (engineUnit p) 1)
      else .next s
    | .l1iTag p set => .next (logCache (s.updEng p fun e => { e with l1i := e.l1i.filter (· % 256 != set) }) 1 (engineUnit p) 1)
    | .l1dLine p l =>
      match l1Find (s.eng p) l with
      | none => .next s
      | some x =>
        if x.st == .D then .next (checkstop s p .l1dParity)
        else .next (logCache (s.updEng p fun e => { e with l1d := e.l1d.filter (·.line != l) }) 1 (engineUnit p) 2)
    | .l1dTag p set =>
      if (s.eng p).l1d.any (fun x => x.line % 128 == set && x.st == .D) then .next (checkstop s p .l1dParity)
      else .next (logCache (s.updEng p fun e => { e with l1d := e.l1d.filter (·.line % 128 != set) }) 1 (engineUnit p) 2)
    | .domeCode t l ok => .next (domeError s t l (if ok then .correctable else .uncorrectable))
    | .domeTag t l two => .next (domeError s t l (if two then .tagTwo else .tagOne))
    | .lineTag l good => .next (tagFail s l good)

/-! ## Checkpoint slots (R326) -/

def execCheckpointScrub (t slot : Nat) (err : LineError) (s : State) : Res :=
  let s := s.quiet
  if !s.live || (s.dome t).stopped || slot ≥ 512 || (s.dome t).badSlots.contains slot then .next s
  else
    match err with
    | .clean => .next s
    | .correctable => .next (logCache s 2 t 3)
    | .tagOne => .next (logCache s 2 t 5)
    | .tagTwo => .next (logCache s 2 t 5)
    | .uncorrectable =>
      let bad (s : State) : State := s.updDome t fun d => { d with badSlots := d.badSlots ++ [slot] }
      match s.ves.find? fun e => e.2.hasCtx && e.2.tower == t && e.2.slot == slot with
      | none => .next (bad s)
      | some (k, v) =>
        match v.on with
        | some p =>
          let e := s.eng p
          if e.phase == .run && !e.fenced then
            -- the engine commits to a good slot at once
            let s := logCache (bad s) 2 t 4
            if e.commit.isSome then .next s else .next (commitWait s p k false)
          else .next (loseCheckpoint (bad s) t k)
        | none => .next (loseCheckpoint (bad s) t k)

/-! ## Store errors (R224, R227, R237, R244) -/

/-- The scrubber leaves a poisoned line as it is and logs that it has met it (R238; the entry, assumption log 107). -/
def logPoisoned (s : State) (l : Nat) : State :=
  logEvent s { s.entry 0x13 0 0x11 3 with inst := ((lineOwner s l).map Prod.fst).getD 0xFFFF, addr := l * 64 }

def execStoreScrub (line : Nat) (err : LineError) (s : State) : Res :=
  let s := s.quiet
  if !s.live || !lineExists s line then .next s
  else if s.mem.poison.contains line then .next (logPoisoned s line)
  else
    match err with
    | .clean => .next s
    | .correctable =>
      let (src, unit) := storeUnit line
      .next (logEvent s { s.entry 0x11 1 src unit with addr := line * 64, detail := 1 })
    | _ => .next (storeFail s line)

def execStoreReadError (line : Nat) (s : State) : Res :=
  let s := s.quiet
  .next (if s.live then storeFail s line else s)

/-- An address parity error: the window is repeated in the port's next window, 8 ns later, and the fourth consecutive error stops the
channel (R224). Two errors on one line are consecutive in one timebase unit of 10 ns; in neighbouring units a good window may lie between
them or not, which is left open (assumption log 108). -/
def execAddressParityError (port line : Nat) (s : State) : Res :=
  let s := s.quiet
  if !s.live || port ≥ 32 || line * 64 ≥ 0x10000000 || portOf line != port then .next s
  else
    let c := kvGet {} s.mem.parity port
    let (m, s) := s.fresh
    let next := c.line == line && (c.tb == s.clk.tb || (c.tb + 1 == s.clk.tb && Config.pick m % 2 == 0))
    let n := if next then c.count + 1 else 1
    let s := { s with mem := { s.mem with parity := kvSet s.mem.parity port { line := line, tb := s.clk.tb, count := n } } }
    if n ≥ 4 then .next (deviceFatal s 3 5 (port / 2))
    else .next (logEvent s { s.entry 0x11 1 5 (port / 2) with addr := line * 64, detail := 2 })

/-- A check line that has changed is written to its stack, 2 microseconds after its first change at the latest (R227). -/
def execCheckLineWriteback (stack block : Nat) (s : State) : Res :=
  let s := s.quiet
  match (s.mem.checks.find stack block).bind (·.changed) with
  | some tb =>
    if s.live then
      let s := passUntil s (tb + 200)
      .next { s with mem := { s.mem with checks := s.mem.checks.flush stack block } }
    else .next s
  | none => .next s

/-- The bytes of `[a, a + n)` zero again, with good tags. -/
def zeroRange (s : State) (a n : Nat) : State :=
  let inside (l : Nat) : Bool := decide (a ≤ l * 64) && decide (l * 64 < a + n)
  { s with
    mem := { s.mem with
      store := s.mem.store.filter fun c => !(decide (a ≤ c.1) && decide (c.1 < a + n))
      poison := s.mem.poison.filter fun l => !inside l
      checks := s.mem.checks.zero inside }
    domes := kvMap (fun _ d => { d with lines := d.lines.filter fun x => !inside x.line }) s.domes
    engines := kvMap (fun _ e => { e with
      l1d := e.l1d.filter fun x => !inside x.line
      l1i := e.l1i.filter fun l => !inside l }) s.engines }

def execGranuleZeroDone (bulk : Bool) (gran : Nat) (s : State) : Res :=
  let s := s.quiet
  if s.live && s.zeroing.contains (bulk, gran) then
    let s := { s with zeroing := s.zeroing.filter (· != (bulk, gran)) }
    .next (if bulk then zeroRange s (0x1000000000 + gran * 2097152) 2097152 else zeroRange s (s.poolBase + gran * 65536) 65536)
  else .next s

/-! ## Merged entries (R340) -/

def execEventMergeFlush (event source unit : Nat) (s : State) : Res :=
  let s := s.quiet
  match s.bel.merges.find? fun m => m.event == event && m.source == source && m.unit == unit with
  | some m => if s.live && !s.bel.stopped then .next (flushMerge (passUntil s (m.tb0 + 100000000)) m) else .next s
  | none => .next s

end Sys2Proof.Machine
end

