-- ==== Sys2Proof/Machine/BlockFail.lean ====
section
/-! DEFINITION. Blocks that stop (R21, R32, R279, R302, R317). -/

namespace Sys2Proof.Machine

open Sys2Proof

/-! ## Towers -/

/-- Die-to-die modules of compute die `cd` that are in service. -/
def modulesLeft (s : State) (cd : Nat) : Nat :=
  ((List.range 6).filter fun m => !s.tst.fenced.contains ⟨4, cd * 6 + m, 0⟩).length

def execD2dModuleFail (cd m : Nat) (s : State) : Res :=
  let s := s.quiet
  let u : UnitId := ⟨4, cd * 6 + m, 0⟩
  if !s.live || m ≥ 6 || cd * 2 ≥ s.variant.towers || s.tst.fenced.contains u then .next s
  else
    let s := fenceUnit s u
    .next (unitFenced s 4 4 u.unit (modulesLeft s cd)).1

/-- Towers whose dome and dispatcher run. -/
def towersLeft (s : State) : Nat := ((List.range s.variant.towers).filter fun t => !(s.dome t).stopped).length

/-- Tower `t` stops: its engines, checkpoint slots and caches go, each instance with a virtual engine there is lost, and so is each
committed line of which its dome had the newest copy. -/
def stopTower (s : State) (t source : Nat) : State :=
  if (s.dome t).stopped || t ≥ s.variant.towers then s
  else
    let newest := ((s.dome t).lines.filter (·.st == .M)).map (·.line)
    let s := s.updDome t fun d => { d with stopped := true }
    let (s, e) := unitFenced s 5 source t (towersLeft s)
    let hit := (kvKeys s.insts).filter fun i => placedOn s i t != 0
    let s := hit.foldl (fun s i => loseInst s i e) s
    let s := newest.foldl (fun s l => loseLine s l (2, t)) s
    let s := (enginesOf t).foldl (fun s p =>
      s.updEng p fun x => { x with ve := none, commit := none, l1d := [], l1i := [], fills := [], stream := {}, steal := false }) s
    s.updDome t fun d => { d with lines := [] }

def execDomeFail (t : Nat) (w : TowerBlock) (s : State) : Res :=
  let s := s.quiet
  if !s.live then .next s
  else
    match w with
    | .dome => .next (stopTower s t 2)
    | .dispatcher => .next (stopTower s t 3)
    | .computeDie => .next (stopTower (stopTower s (t / 2 * 2) 2) (t / 2 * 2 + 1) 2)

/-! ## The stores -/

def execMainStoreChannelFail (c : Nat) (s : State) : Res :=
  let s := s.quiet
  .next (if s.live && c < 16 then deviceFatal s 3 5 c else s)

/-- A stack stops: its lines read poisoned from then on (`stackDead`), and each instance with a granule there is lost. -/
def execHbmStackFail (st : Nat) (s : State) : Res :=
  let s := s.quiet
  let u : UnitId := ⟨6, st, 0⟩
  if !s.live || st ≥ s.variant.stacks || s.tst.fenced.contains u then .next s
  else
    let s := fenceUnit s u
    let left := s.variant.stacks - (s.tst.fenced.filter (·.source == 6)).length
    let (s, e) := unitFenced s 4 6 st left
    let hit := s.insts.filter fun x => x.2.bulk.any fun g => g.num / 10752 == st
    .next ((hit.map Prod.fst).foldl (fun s i => loseInst s i e) s)

/-! ## The hub -/

/-- SOURCE and UNIT of a hub block that is not replicated (R339). -/
def hubUnit : HubBlock → Nat × Nat
  | .fabric => (0x11, 0) | .instanceUnit => (0x11, 1) | .datamover => (0x11, 2) | .lineIntegrity => (0x11, 3)
  | .channelSubsystem => (0x11, 4) | .hostPort => (0x0B, 0)

def execHubBlockFail (b : HubBlock) (s : State) : Res :=
  let s := s.quiet
  if !s.live then .next s
  else
    let s := match b with
      | .channelSubsystem => { s with css := { s.css with stopped := true } }
      | .hostPort => { s with hp := { s.hp with stopped := true } }
      | _ => s
    .next (deviceFatal s 4 (hubUnit b).1 (hubUnit b).2)

/-- The Belfry stops: device-fatal, and no log to say so. -/
def execBelfryStop (s : State) : Res :=
  let s := s.quiet
  if !s.live || s.bel.stopped then .next s
  else
    let s := { s with bel := { s.bel with stopped := true, fatal := true } }
    .next ((kvKeys s.insts).foldl (fun s i => if s.covered i && s.twin.link ≥ 2 then surrender s i 6 else faultNow s i) s)

/-- The other two counters outvote the third: nothing is seen. -/
def execTimebaseCounterFail (n : Nat) (s : State) : Res :=
  let s := s.quiet
  .next (if n < 3 && !s.clk.badCounters.contains n then { s with clk := { s.clk with badCounters := s.clk.badCounters ++ [n] } } else s)

/-! ## Engines of the hub -/

/-- The operations of channel engine `c` go on with others, from their operation blocks; which takes which is a free choice. -/
def moveOps (s : State) (c : Nat) (others : List Nat) : State :=
  let (n, s) := s.fresh
  { s with css := { s.css with subs := kvMap (fun k x =>
    if x.che == c && x.st != .idle then { x with che := others.getD (Config.pickAt n k % others.length) 0 } else x) s.css.subs } }

/-- A channel engine stops (R279). -/
def stopChe (s : State) (c : Nat) : State :=
  if s.css.stopped || c ≥ 32 || s.css.chesStopped.contains c then s
  else
    let moved := cheLoad s c
    let s := { s with css := { s.css with chesStopped := s.css.chesStopped ++ [c] } }
    let others := (List.range 32).filter fun k => !s.css.chesStopped.contains k
    if others.isEmpty then deviceFatal { s with css := { s.css with stopped := true } } 4 7 c
    else
      let s := moveOps s c others
      let s := logEvent s { s.entry 0x23 2 7 c with param := paramAt 48 4 moved }
      (unitFenced s 2 7 c others.length).1

def execCheStop (c : Nat) (s : State) : Res :=
  let s := s.quiet
  .next (if s.live then stopChe s c else s)

/-- Does instance `i` use the accelerators of a kind (R335)? -/
def usesAccel (s : State) (cz : Bool) (i : Nat) : Bool :=
  let x := s.inst i
  ((x.share (accelPool cz) 0).guarantee != 0 || poolHeld s i (accelPool cz) 0 != 0 || (!cz && !x.keyPages.isEmpty))

/-- An accelerator engine stops. The job it runs restarts from its beginning on another of its group; with none left, the group's jobs
end DEVICE_ERROR, and the instances that use it learn of it (R302, R317, R335). -/
def stopAccel (s : State) (cz : Bool) (e : Nat) : State :=
  let src := if cz then 0x0A else 0x09
  let a := s.accel cz
  if e ≥ accelCount s cz || a.fenced.contains e then s
  else
    let job := jobOn s cz e
    let s := s.setAccel cz { a with fenced := a.fenced ++ [e] }
    let s := match job with
      | some j =>
        let s := s.putJob cz { j with st := .queued }
        if (groupEngines s cz j.inst).isEmpty then s
        else logEvent s { s.entry 0x30 2 src e with inst := j.inst, ref := j.seq }
      | none => s
    let lost (i : Nat) : Bool := bit (groupMask s cz i) e && (groupEngines s cz i).isEmpty
    let masks := if cz then [s.img.czeIn] else s.img.groups
    let none_ := masks.any fun m => bit m e && !((List.range (accelCount s cz)).any fun k => bit m k && !(s.accel cz).fenced.contains k)
    let left := accelCount s cz - (s.accel cz).fenced.length
    let hit := (kvKeys s.insts).filter fun i => lost i && usesAccel s cz i
    let gone := (s.accel cz).jobs.filter fun j => lost j.inst
    let (s, entry) := unitFenced s (if none_ then 4 else 2) src e left
    let s := gone.foldl (fun s j => endJob s cz j Status.deviceError.code 0 0 []) s
    hit.foldl (fun s i => raiseDeferred s i (fun _ => true) entry 0) s

def execCipherEngineStop (e : Nat) (s : State) : Res :=
  let s := s.quiet
  .next (if s.live then stopAccel s false e else s)

def execCompressionEngineStop (e : Nat) (s : State) : Res :=
  let s := s.quiet
  .next (if s.live then stopAccel s true e else s)

end Sys2Proof.Machine
end

