-- ==== Sys2Proof/Machine/ImageCheck.lean ====
section
/-! DEFINITION. The structure image: its layout, the validation of R388, and the values its sections give (R374 to R387). -/

namespace Sys2Proof.Machine

open Sys2Proof

/-! ## The header and the section table (R374 to R376) -/

def imgSections (m : List Byte) : Nat := fieldBE m 6 2
def imgBundle (m : List Byte) : Nat := fieldBE m 96 4
def imgBundleLen (m : List Byte) : Nat := fieldBE m 100 4
def imgVsig (m : List Byte) : Nat := fieldBE m 104 4
def imgOsig (m : List Byte) : Nat := fieldBE m 108 4
def imgVersion (m : List Byte) : Nat := fieldBE m 16 8
def imgLabel (m : List Byte) : List Byte := padTo 16 (slice m 112 16)
def imgStructHash (m : List Byte) : List Byte := padTo 32 (slice m 32 32)
def imgUcodeHash (m : List Byte) : List Byte := padTo 32 (slice m 64 32)
def imgRelease (m : List Byte) : Nat := fieldBE m (imgBundle m + 8) 8

/-- Bytes of a signature block (R378). -/
def sigSize : Nat := 7936

/-- A section-table entry: where it stands, TYPE, OFFSET, LENGTH. -/
structure SectionRow where
  at_ : Nat
  type : Nat
  off : Nat
  len : Nat
  deriving DecidableEq, Repr

def sectionRows (m : List Byte) : List SectionRow :=
  (List.range (imgSections m)).map fun k =>
    let a := 256 + 16 * k
    { at_ := a, type := fieldBE m a 1, off := fieldBE m (a + 4) 4, len := fieldBE m (a + 8) 4 }

/-- The section of a type: its offset and bytes, if present. -/
def sectionAt (m : List Byte) (type : Nat) : Option (Nat × List Byte) :=
  ((sectionRows m).find? (·.type == type)).map fun r => (r.off, padTo r.len (slice m r.off r.len))

/-- Is a section LENGTH the one of R376? -/
def lengthOk (type len : Nat) : Bool :=
  match type with
  | 1 => len == 144 | 2 => len == 16 | 3 => len == 64 | 4 => len == 64 | 5 => len == 576 | 6 => len == 64
  | 7 => 16 ≤ len && (len - 16) % 64 == 0 && len ≤ 16 + 64 * 4096
  | 8 => len == 262144
  | _ => false

/-- The table walked: the byte of the first row that breaks R376. `next` is where the next section begins. -/
def tableFault (bundle : Nat) : List SectionRow → Nat → Nat → Option Nat
  | [], _, next => if next == bundle then none else some 96
  | r :: l, last, next =>
    if r.type == 0 || r.type > 8 || r.type ≤ last then some r.at_
    else if r.off != next then some (r.at_ + 4)
    else if !lengthOk r.type r.len || r.off + roundUp r.len 64 > bundle then some (r.at_ + 8)
    else tableFault bundle l r.type (r.off + roundUp r.len 64)

/-- The first of a list of offsets whose verdict is bad. -/
def firstOf (l : List (Nat × Bool)) : Option Nat := (l.find? Prod.snd).map Prod.fst

/-- The first byte of `[lo, hi)` that is not zero. -/
def nonzeroIn (m : List Byte) (lo hi : Nat) : Option Nat := firstNonzero m lo hi

/-- Checks 0x0001 to 0x0005. -/
def headerFault (code : Nat) (m : List Byte) : Option (Nat × Nat) :=
  let len := fieldBE m 8 4
  if fieldBE m 0 4 != 0x5A53494D then some (1, 0)
  else if fieldBE m 4 2 != 1 then some (1, 4)
  else if len != m.length || len > 1048576 then some (2, 8)
  else if imgBundle m % 64 != 0 || imgBundle m < 256 + 16 * imgSections m then some (2, 96)
  else if imgVsig m != roundUp (imgBundle m + imgBundleLen m) 64 then some (2, 104)
  else if imgOsig m != imgVsig m + sigSize then some (2, 108)
  else if len != imgOsig m + sigSize then some (2, 8)
  else if imgSections m < 4 || imgSections m > 8 then some (3, 6)
  else
    match tableFault (imgBundle m) (sectionRows m) 0 (roundUp (256 + 16 * imgSections m) 64) with
    | some o => some (3, o)
    | none =>
      if [1, 2, 3, 6].any fun t => (sectionAt m t).isNone then some (4, 0)
      else if !bit (fieldBE m 12 4) code then some (5, 12)
      else none

/-! ## Keys and signatures (R378) -/

/-- Is a signer acceptable as owner: the key of a programmed, unrevoked slot, or any key in slot 0 of an unowned module? -/
def ownerOk (owners : List (List Byte)) (revoke slot : Nat) (key : List Byte) : Bool :=
  if owners.all fun h => h.all (· == 0) then slot == 0
  else
    match owners[slot]? with
    | some h => !(h.all (· == 0)) && !bit revoke slot && sha256 key == h
    | none => false

/-- The public key and the signature of a signature block. -/
def sigKey (m : List Byte) (o : Nat) : List Byte := slice m (o + 8) 32
def sigBytes (m : List Byte) (o : Nat) : List Byte := slice m (o + 64) 7856

/-- Checks 0x0006 to 0x000B. -/
def integrityFault (s : State) (m : List Byte) : Option (Nat × Nat) :=
  let v := imgVsig m
  let o := imgOsig m
  if sha256 (slice m 256 (imgBundle m - 256)) != slice m 32 32 then some (6, 32)
  else if sha256 (slice m (imgBundle m) (imgBundleLen m)) != slice m 64 32 then some (7, 64)
  else if sha256 (sigKey m v) != s.spire.root then some (8, v + 8)
  else if !Config.slhVerify (sigKey m v) [] (slice m (imgBundle m) (imgBundleLen m)) (sigBytes m v) then some (9, v + 64)
  else if !ownerOk s.spire.owners s.spire.revoke (fieldBE m (o + 1) 1) (sigKey m o) then some (10, o + 1)
  else if !Config.slhVerify (sigKey m o) [] (m.take o) (sigBytes m o) then some (11, o + 64)
  else none

/-! ## Reserved fields and encodings (check 0x000C) -/

/-- Fields of a DEVICES entry at `a`. -/
def devKind (d : List Byte) (a : Nat) : Nat := fieldBE d a 1

/-- The lowest reserved field or encoding that one device entry breaks. -/
def deviceReserved (d : List Byte) (a : Nat) : Option Nat :=
  if devKind d a > 2 then some a
  else if fieldBE d (a + 1) 1 > 3 then some (a + 1)
  else
    match nonzeroIn d (a + 5) (a + 8) with
    | some o => some o
    | none =>
      match (List.range 4).find? fun k => bits (fieldBE d (a + 8 + k) 1) 6 3 != 0 with
      | some k => some (a + 8 + k)
      | none => (nonzeroIn d (a + 24) (a + 32)).or (nonzeroIn d (a + 48) (a + 64))

/-- The lowest reserved field or encoding of a section that is not as it must be. -/
def sectionReserved (type : Nat) (d : List Byte) : Option Nat :=
  match type with
  | 1 => (nonzeroIn d 3 16).or ((List.range 128).map (16 + ·) |>.find? fun o => fieldBE d o 1 > 2)
  | 2 => if fieldBE d 0 1 > 2 then some 0 else nonzeroIn d 2 16
  | 3 => if fieldBE d 0 1 > 3 then some 0 else (nonzeroIn d 1 4).or (nonzeroIn d 20 64)
  | 4 => (nonzeroIn d 0 4).or (nonzeroIn d 44 64)
  | 5 => (nonzeroIn d 1 2).or ((nonzeroIn d 4 16).or (nonzeroIn d 48 64))
  | 6 =>
    if fieldBE d 0 1 > 15 then some 0
    else (nonzeroIn d 1 8).or ((firstOf [(8, fieldBE d 8 4 ≥ 2 ^ 22), (12, fieldBE d 12 4 ≥ 2 ^ 22)]).or (nonzeroIn d 16 64))
  | 7 => (nonzeroIn d 2 16).or ((List.range ((d.length - 16) / 64)).findSome? fun k => deviceReserved d (16 + 64 * k))
  | _ => none

/-- Bytes outside the sections that must be zero: in the header, the table rows, the padding, and the signature blocks, whose KIND must be
right (R374 to R378). -/
def outsideReserved (m : List Byte) : Option Nat :=
  let block (o kind : Nat) : Option Nat :=
    if fieldBE m o 1 != kind then some o
    else if fieldBE m (o + 1) 1 > (if kind == 1 then 0 else 3) then some (o + 1)
    else (nonzeroIn m (o + 2) (o + 8)).or ((nonzeroIn m (o + 40) (o + 64)).or (nonzeroIn m (o + 7920) (o + 7936)))
  let rows := sectionRows m
  let tableEnd := 256 + 16 * imgSections m
  (firstOf [(12, bit (fieldBE m 12 4) 0 || fieldBE m 12 4 ≥ 32)]).or <|
  (nonzeroIn m 24 32).or <| (nonzeroIn m 128 256).or <|
  (rows.findSome? fun r => (nonzeroIn m (r.at_ + 1) (r.at_ + 4)).or (nonzeroIn m (r.at_ + 12) (r.at_ + 16))).or <|
  (nonzeroIn m tableEnd (roundUp tableEnd 64)).or <|
  (rows.findSome? fun r => nonzeroIn m (r.off + r.len) (r.off + roundUp r.len 64)).or <|
  (nonzeroIn m (imgBundle m + imgBundleLen m) (imgVsig m)).or <|
  (block (imgVsig m) 1).or (block (imgOsig m) 2)

/-- Offsets in the bundle of its two patch sets. -/
def cpeSet (m : List Byte) : Nat := imgBundle m + fieldBE m (imgBundle m + 16) 4
def cheSet (m : List Byte) : Nat := imgBundle m + fieldBE m (imgBundle m + 20) 4

/-- Does a patch set at `o` lie inside the bundle, with its KIND right? -/
def setOk (m : List Byte) (o kind : Nat) : Bool :=
  let e := imgBundle m + imgBundleLen m
  decide (o + 128 ≤ e) && fieldBE m o 1 == kind && fieldBE m (o + 2) 2 ≤ 2048 && decide (o + 128 + 20 * fieldBE m (o + 2) 2 ≤ e)

/-- The bundle header (R387), and the undefined bytes of the patch sets. -/
def bundleReserved (m : List Byte) : Option Nat :=
  let b := imgBundle m
  let holes (o : Nat) : Option Nat := (nonzeroIn m (o + 1) (o + 2)).or ((nonzeroIn m (o + 4) (o + 32)).or (nonzeroIn m (o + 96) (o + 128)))
  if imgBundleLen m < 64 || fieldBE m b 4 != 0x5A4D4342 then some b
  else if fieldBE m (b + 4) 4 != imgBundleLen m then some (b + 4)
  else if !setOk m (cpeSet m) 1 then some (b + 16)
  else if !setOk m (cheSet m) 2 then some (b + 20)
  else (nonzeroIn m (b + 24) (b + 64)).or ((holes (cpeSet m)).or (holes (cheSet m)))

def reservedFault (m : List Byte) : Option Nat :=
  (outsideReserved m).or <|
  ((sectionRows m).findSome? fun r => (sectionReserved r.type (padTo r.len (slice m r.off r.len))).map (r.off + ·)).or (bundleReserved m)

/-! ## The rules of the sections (checks 0x000D to 0x0015) -/

/-- An absent unit assigned, enabled or referenced (R6): the lowest byte in section order. A limit in POOLS assigns nothing, so that one
for a pool that the variant lacks is no fault (assumption log 126). -/
def absentFault (v : Variant) (type : Nat) (d : List Byte) : Option Nat :=
  match type with
  | 1 => nonzeroIn d (16 + 16 * v.towers) 144
  | 3 => if v.bulk then none else nonzeroIn d 12 20
  | 5 =>
    (firstOf [(2, fieldBE d 2 2 ≥ 2 ^ v.czes)]).or
      (((List.range 16).find? fun g => fieldBE d (16 + 2 * g) 2 ≥ 2 ^ v.xces).map (16 + 2 * ·))
  | 6 => if (bit (fieldBE d 0 1) 3 && v.czes == 0) || (bit (fieldBE d 0 1) 2 && !v.jlk) then some 0 else none
  | _ => none

/-- R379. -/
def towersFault (v : Variant) (d : List Byte) : Option Nat :=
  let n (t r : Nat) : Nat := ((List.range 16).filter fun e => fieldBE d (16 + 16 * t + e) 1 == r).length
  (firstOf [(0, fieldBE d 0 2 < 50 || fieldBE d 0 2 > 1000), (2, fieldBE d 2 1 > 4)]).or
    (((List.range v.towers).find? fun t => n t 1 == 0 || n t 2 > 4).map (16 + 16 * ·))

/-- Paths that a bifurcation mode provides (R265). -/
def modePaths (m : Nat) : Nat := if m == 0 then 8 else if m == 1 then 4 else 2

/-- R380. -/
def pathsFault (d : List Byte) : Option Nat := if fieldBE d 1 1 ≥ 2 ^ modePaths (fieldBE d 0 1) then some 1 else none

/-- Pool granules by journal size (R381). -/
def granulesOf (j : Nat) : Nat := (240 * 2 ^ 20 - 4 * 2 ^ 20 * 2 ^ j) / 2 ^ 16

/-- R381. -/
def storeFault (twin : Bool) (d : List Byte) : Option Nat :=
  let f (o : Nat) : Nat := fieldBE d o 4
  firstOf [
    (8, f 8 != 0 && (!twin || f 4 + f 8 > granulesOf (fieldBE d 0 1))),
    (16, f 16 != 0 && (!twin || f 12 + f 16 > 42976))]

/-- Per-instance limits of R75. -/
def limitOf (pool : Nat) : Nat :=
  match pool with
  | 2 => 3584 | 3 => 43008 | 4 => 1024 | 5 => 16 | 6 => 8 | 7 => 4 | 8 => 8192 | 9 => 1024 | 10 => 512 | 11 => 896 | _ => 0

/-- R382. -/
def poolsFault (d : List Byte) : Option Nat :=
  ((List.range 10).find? fun k => fieldBE d (4 * (k + 1)) 4 > limitOf (k + 2)).map fun k => 4 * (k + 1)

/-- R383. -/
def groupsFault (v : Variant) (d : List Byte) : Option Nat :=
  let n := fieldBE d 0 1
  let mask (g : Nat) : Nat := fieldBE d (16 + 2 * g) 2
  let below (g : Nat) : Nat := (List.range g).foldl (fun a k => a ||| mask k) 0
  let ci := fieldBE d 2 2
  if n == 0 || n > 16 then some 0
  else if v.czes != 0 && ci == 0 then some 2
  else
    match (List.range 16).find? fun g => if g < n then mask g == 0 || (mask g &&& below g) != 0 else mask g != 0 with
    | some g => some (16 + 2 * g)
    | none =>
      if below n != 2 ^ v.xces - 1 then some 16
      else ((List.range 512).find? fun i => fieldBE d (64 + i) 1 ≥ n).map (64 + ·)

/-- R384. -/
def policyFault (modid : Nat) (d : List Byte) : Option Nat :=
  let twin := bit (fieldBE d 0 1) 2
  let a := fieldBE d 8 4
  let b := fieldBE d 12 4
  if twin then
    if a == b then some 12 else if a != modid && b != modid then some 8 else none
  else firstOf [(8, a != 0), (12, b != 0)]

/-- R385, one entry: `ok` says whether the path of a PATH byte is in service. -/
def deviceFault (twin : Bool) (ok : Nat → Bool) (d : List Byte) (a : Nat) : Option Nat :=
  let f (o n : Nat) : Nat := fieldBE d (a + o) n
  let np := f 4 1
  let path (k : Nat) : Nat := f (8 + k) 1
  if f 0 1 == 0 then nonzeroIn d (a + 1) (a + 64)
  else
    let ns := f 0 1 == 1
    let prot := bit (f 1 1) 0
    let eui := bit (f 1 1) 1
    (firstOf [(1, (prot || eui) && !ns), (2, !prot && f 2 2 != 0), (4, np == 0 || np > 4)]).map (a + ·) |>.or <|
    (((List.range 4).find? fun k =>
      if k < np then !ok (path k % 8) || (path k ≥ 128 && !twin) || (List.range k).any fun j => path j == path k else path k != 0).map
        (a + 8 + ·)).or <|
    ((firstOf [(12, f 12 4 > 1000000), (16, f 16 4 > 600000), (20, f 20 4 > 600000)]).map (a + ·)).or <|
    if ns then (if eui then nonzeroIn d (a + 40) (a + 48) else none) else nonzeroIn d (a + 44) (a + 48)

/-- R385. -/
def devicesFault (twin : Bool) (ok : Nat → Bool) (d : List Byte) : Option Nat :=
  let n := fieldBE d 0 2
  if n > 4096 || d.length != 16 + 64 * n then some 0
  else (List.range n).findSome? fun k => deviceFault twin ok d (16 + 64 * k)

/-- R386. `devs` is the DEVICES section. -/
def devlistsFault (devs d : List Byte) : Option Nat :=
  let n := fieldBE devs 0 2
  ((List.range 131072).find? fun k =>
    let v := fieldBE d (2 * k) 2
    v != 0xFFFF && (v ≥ n || devKind devs (16 + 64 * v) == 0)).map (2 * ·)

/-! ## Patch sets (R179 to R181, R184, R192: checks 0x0016 to 0x0019) -/

/-- The words of the set at `o`: where each stands, its address, its content. -/
def setWords (m : List Byte) (o : Nat) : List (Nat × Nat × Nat) :=
  (List.range (fieldBE m (o + 2) 2)).map fun k =>
    let a := o + 128 + 20 * k
    (a, fieldBE m a 2, fieldBE m (a + 2) 18)

/-- Addresses outside the patch RAM, out of order, or a NEXT in its last word. -/
def addressFault : List (Nat × Nat × Nat) → Nat → Option Nat
  | [], _ => none
  | (p, a, w) :: l, next =>
    if a < next || a > 0x17FF then some p
    else if a == 0x17FF && Micro.seq w == 0 then some p
    else addressFault l (a + 1)

/-- The match registers of the set at `o`. -/
def setPtm (m : List Byte) (o : Nat) : List Nat := (List.range 8).map fun k => fieldBE m (o + 64 + 4 * k) 4

def ptmFault (m : List Byte) (o : Nat) : Option Nat :=
  let p := setPtm m o
  let words := (setWords m o).map fun w => w.2.1
  ((List.range 8).find? fun k => ptmBad words (p.take k) (p.getD k 0)).map fun k => o + 64 + 4 * k

/-- Checks 0x0016 to 0x0019 over both sets. -/
def patchFault (s : State) (m : List Byte) : Option (Nat × Nat) :=
  let sets := [(cpeSet m, 1), (cheSet m, 2)]
  let romBad := sets.find? fun x => slice m (x.1 + 32) 32 != Config.romHash s.stepping x.2
  let bad := sets.findSome? fun x => ((setWords m x.1).find? fun w => wordBad (x.2 == 2) w.2.2).map Prod.fst
  let addr := sets.findSome? fun x => addressFault (setWords m x.1) 0x1000
  let ptm := sets.findSome? fun x => ptmFault m x.1
  match romBad, bad, addr, ptm with
  | some x, _, _, _ => some (0x16, x.1 + 32)
  | none, some o, _, _ => some (0x17, o)
  | none, none, some o, _ => some (0x18, o)
  | none, none, none, some o => some (0x19, o)
  | none, none, none, none => none

/-- Checks 0x000C to 0x0015. -/
def contentFault (s : State) (m : List Byte) : Option (Nat × Nat) :=
  let v := s.variant
  let sec (t : Nat) (reason : Nat) (f : List Byte → Option Nat) : Option (Nat × Nat) :=
    match sectionAt m t with
    | some (o, d) => (f d).map fun x => (reason, o + x)
    | none => none
  let policy := ((sectionAt m 6).map Prod.snd).getD []
  let twin := bit (fieldBE policy 0 1) 2
  let paths := ((sectionAt m 2).map Prod.snd).getD []
  let ok (n : Nat) : Bool := bit (fieldBE paths 1 1) n
  let devs := ((sectionAt m 7).map Prod.snd).getD (zeros 16)
  ((reservedFault m).map fun o => (0xC, o)).or <|
  ((sectionRows m).findSome? fun r => sec r.type 0xD (absentFault v r.type)).or <|
  (sec 1 0xE (towersFault v)).or <|
  (sec 2 0xF pathsFault).or <|
  (sec 3 0x10 (storeFault twin)).or <|
  (sec 4 0x11 poolsFault).or <|
  (sec 5 0x12 (groupsFault v)).or <|
  (sec 6 0x13 (policyFault s.spire.modid)).or <|
  (sec 7 0x14 (devicesFault twin ok)).or <|
  (sec 8 0x15 (devlistsFault devs))

/-- The verdict on an image given as bytes: REASON and OFFSET of the first failing check, or none (R388). -/
def checkBytes (s : State) (m : List Byte) : Option (Nat × Nat) :=
  (headerFault s.variant.code m).or <| (integrityFault s m).or <| (contentFault s m).or (patchFault s m)

/-- The bytes of an image; the spec gives those of the factory image no content beyond its sections (R395). -/
def imageBytes (s : State) : NorImage → List Byte
  | .factory => Config.factoryImage s.variant.code
  | .bytes l => l

/-- The verdict on an image. The factory image passes every check but those of the owner's slots, which the fuses decide (R378, R395). -/
def checkImage (s : State) : NorImage → Option (Nat × Nat)
  | .factory => if ownerOk s.spire.owners s.spire.revoke 0 Config.factoryKey then none else some (10, 0)
  | .bytes l => checkBytes s l

/-- Classes of reasons (R388). -/
def integrityReason (r : Nat) : Bool := 6 ≤ r && r ≤ 11
def absentReason (r : Nat) : Bool := r == 13

/-! ## The values in force (R394) -/

def patchSetOf (m : List Byte) (o : Nat) : PatchSet :=
  { romHash := slice m (o + 32) 32, ptm := (setPtm m o).map (BitVec.ofNat 32), words := (setWords m o).map fun w => (w.2.1, BitVec.ofNat 144 w.2.2) }

def deviceOf (d : List Byte) (a : Nat) : DevEntry :=
  let f (o n : Nat) : Nat := fieldBE d (a + o) n
  let orElse (v dflt : Nat) : Nat := if v == 0 then dflt else v
  { kind := f 0 1, prot := bit (f 1 1) 0, eui := bit (f 1 1) 1, apptag := f 2 2
    paths := (List.range (f 4 1)).map fun k => f (8 + k) 1
    fence := orElse (f 12 4) 1000, pathWait := orElse (f 16 4) 5000 * 1000, timeout := orElse (f 20 4) 8000 * 1000
    identity := slice d (a + 32) 16 }

/-- The factory image's values on a variant (R395). -/
def factoryImg (s : State) : Img :=
  let v := s.variant
  let m := Config.factoryImage v.code
  { roles := (List.replicate v.towers (List.replicate 15 1 ++ [2])).flatten ++ List.replicate ((8 - v.towers) * 16) 0
    groups := [2 ^ v.xces - 1], czeIn := 2 ^ v.czes - 1, structHash := imgStructHash m, ucodeHash := imgUcodeHash m
    cpePatch := { romHash := Config.romHash s.stepping 1 }, chePatch := { romHash := Config.romHash s.stepping 2 } }

/-- The values of an image given as bytes. -/
def bytesImg (s : State) (m : List Byte) : Img :=
  let v := s.variant
  let sec (t : Nat) : List Byte := ((sectionAt m t).map Prod.snd).getD []
  let towers := sec 1
  let paths := sec 2
  let store := sec 3
  let pools := sec 4
  let groups := sec 5
  let policy := sec 6
  let devs := sec 7
  let lists := sec 8
  let flags := fieldBE policy 0 1
  let count := fieldBE devs 0 2
  { slice := fieldBE towers 0 2, lockways := fieldBE towers 2 1
    roles := (List.range 128).map fun k => fieldBE towers (16 + k) 1
    pathMode := fieldBE paths 0 1, pathEnable := fieldBE paths 1 1
    journal := fieldBE store 0 1, msMirFirst := fieldBE store 4 4, msMirCount := fieldBE store 8 4
    bsMirFirst := fieldBE store 12 4, bsMirCount := fieldBE store 16 4
    limits := ((List.range 10).map fun k => (k + 2, fieldBE pools (4 * (k + 1)) 4)).filter fun e => e.2 != 0
    groups := if groups.isEmpty then [2 ^ v.xces - 1] else (List.range (fieldBE groups 0 1)).map fun g => fieldBE groups (16 + 2 * g) 2
    instGroup := if groups.isEmpty then [] else ((List.range 512).map fun i => (i, fieldBE groups (64 + i) 1)).filter fun e => e.2 != 0
    czeIn := if groups.isEmpty then 2 ^ v.czes - 1 else fieldBE groups 2 2
    kg7 := bit flags 3, twin := bit flags 2, fuseRepair := bit flags 1, plainKeys := bit flags 0
    pair0 := fieldBE policy 8 4, pair1 := fieldBE policy 12 4
    devices := (List.range count).map fun k => deviceOf devs (16 + 64 * k)
    devlists := if lists.isEmpty then []
                else ((List.range 131072).map fun k => (k, fieldBE lists (2 * k) 2)).filter fun e => e.2 != 0xFFFF
    structHash := imgStructHash m, ucodeHash := imgUcodeHash m
    cpePatch := patchSetOf m (cpeSet m), chePatch := patchSetOf m (cheSet m) }

def imgOf (s : State) : NorImage → Img
  | .factory => factoryImg s
  | .bytes l => bytesImg s l

end Sys2Proof.Machine
end

