-- ==== Sys2Proof/Machine/Spire.lean ====
section
/-! DEFINITION. The Spire: measurement registers, image commands (R389 to R393), the boot record, attestation, owner key packages
(R396 to R413). -/

namespace Sys2Proof.Machine

open Sys2Proof

/-! ## Measurement and events (R401, R413) -/

/-- MREGn with a value extended into it. -/
def extendReg (s : State) (n : Nat) (v : List Byte) : State :=
  { s with spire := { s.spire with mreg := s.spire.mreg.modify n fun m => sha256 (m ++ v) } }

/-- A Spire event that extends MREG7 with the object hash `h`; a stopped Spire leaves MREG7 frozen (R412). -/
def spireEvent (s : State) (e : LogEntry) (h : List Byte) : State :=
  let eseq := s.bel.eseq
  let s := logEvent s e
  if s.spire.stopped then s
  else extendReg s 7 (padTo 32 (toBE 2 e.event ++ zeros 6 ++ toBE 8 eseq ++ h.take 16))

/-- The Spire stops (R412): an ATTEST, an image write or a package check in progress ends, its package reported as rejected for a REASON that
the spec does not give. -/
def execSpireStop (s : State) : Res :=
  let s := s.quiet
  if !s.live || s.spire.stopped then .next s
  else
    let waits := s.spire.doeNonce.isSome && s.hp.doe.busy
    let (n, s) := s.fresh
    let p := s.spire
    let writes := [p.slotA, p.slotB, p.push].filterMap (·.writing)
    let cut (r : Region) : Region := if r.writing.isSome then { r with writing := none, new := [] } else r
    let s := { s with spire := { p with
      stopped := true, doeNonce := none, smbNonce := none, slotA := cut p.slotA, slotB := cut p.slotB, push := cut p.push
      pkgState := if p.pkgState == 1 then 3 else p.pkgState, pkgReason := if p.pkgState == 1 then Config.pick n % 256 else p.pkgReason } }
    let s := logEvent s (s.entry 0xA6 4 0x0D 0)
    -- an image write in progress completes DEVICE_ERROR, its region left without a marker (R389, R412)
    let s := writes.foldl (fun s q => completeNow s 0 q Status.deviceError.code 0 0 []) s
    -- an ATTEST in progress is answered DEVICE_ERROR (R64, R412)
    let s := if waits then { s with hp := { s.hp with doe := { s.hp.doe with busy := false } } }.emit (.doe (toBE 1 14 ++ zeros 7)) else s
    .next (unitFenced s 4 0x0D 0 0).1

/-! ## Image regions (R389, R391) -/

/-- Regions: 0 slot A, 1 slot B, 2 the push region. -/
def region (s : State) (k : Nat) : Region := if k == 0 then s.spire.slotA else if k == 1 then s.spire.slotB else s.spire.push

def setRegion (s : State) (k : Nat) (r : Region) : State :=
  { s with spire := if k == 0 then { s.spire with slotA := r } else if k == 1 then { s.spire with slotB := r } else { s.spire with push := r } }

/-- STATE of a region: 0 EMPTY, 1 VALID, 2 REJECTED, 3 WRITING. A rejected region says so even without its marker (R390). -/
def regionState (r : Region) : Nat :=
  if r.writing.isSome then 3 else if r.reason != 0 then 2 else if r.marker && r.image.isSome then 1 else 0

/-- The header that a region shows: that of the image it holds. -/
def regionHeader (s : State) (r : Region) : List Byte :=
  match r.image with
  | some m => if regionState r == 0 || regionState r == 3 then [] else padTo 256 ((imageBytes s m).take 256)
  | none => []

/-- RESULT of IMAGE_QUERY for a region. -/
def regionResult (s : State) (k : Nat) (r : Region) : List Byte :=
  let flags := b2n (s.spire.inForce == k) + b2n (k < 2 && s.spire.preferred == k) * 2
  toBE 1 (regionState r) ++ toBE 1 flags ++ toBE 2 r.reason ++ toBE 4 r.offset ++ toBE 8 (imgVersion (regionHeader s r))

/-- RESULT for the image in force. -/
def inForceResult (s : State) : List Byte :=
  toBE 1 1 ++ toBE 1 (1 + b2n (s.spire.inForce == s.spire.preferred) * 2) ++ zeros 6 ++ toBE 8 (imgVersion (imageBytes s s.spire.image))

def execImageQuery (seq : BitVec 32) (s : State) : Res :=
  let s := s.quiet
  match takeCmd s seq.toNat 0x78 with
  | none => .next s
  | some r =>
    let k := par r.entry 36
    let result := if k == 3 then inForceResult s else regionResult s k (region s k)
    let header := if k == 3 then padTo 256 ((imageBytes s s.spire.image).take 256) else regionHeader s (region s k)
    if reqDstLen r.entry == 0 || header.isEmpty then .next (done s r 0 result)
    else .next (done (hostWrite s 0 (reqDst r.entry) header) r 256 result)

/-- The end of a command whose image is rejected (R392): RESULT carries REASON and OFFSET. -/
def rejectImage (s : State) (r : Request) (k reason offset : Nat) : State :=
  let x := region s k
  let result := (regionResult s k x).take 2 ++ toBE 2 reason ++ toBE 4 offset ++ (regionResult s k x).drop 8
  if integrityReason reason then complete s 0 r.seq Status.authFailed.code 0 0 result
  else if absentReason reason then complete s 0 r.seq Status.featureAbsent.code 0 0 result
  else complete s 0 r.seq Status.fieldInvalid.code 8 0 result

/-- An accepted image: its region's marker erased, the write to the NOR under way. -/
def writeRegion (s : State) (r : Request) (k : Nat) (data : List Byte) : State :=
  let s := setRegion s k { region s k with marker := false, writing := some r.seq, new := data, reason := 0, offset := 0 }
  s.setStage 0 r.seq .running

/-- IMAGE_WRITE: the whole image has been read into staging. The slot in force is never overwritten. -/
def execImageWrite (seq : BitVec 32) (data : List Byte) (s : State) : Res :=
  let s := s.quiet
  match takeCmd s seq.toNat 0x79 with
  | none => .next s
  | some r =>
    let k := par r.entry 36
    let m := padTo (reqSrcLen r.entry) data
    if s.spire.stopped then .next (answer s r .deviceError 0)
    else if s.spire.inForce == k then .next (refuse s r 0xFFFF 0)
    else
      match checkBytes s m with
      | some (reason, o) => .next (rejectImage s r k reason o)
      | none => .next (writeRegion s r k m)

def execImagePush (seq : BitVec 32) (data : List Byte) (s : State) : Res :=
  let s := s.quiet
  match takeCmd s seq.toNat 0x7A with
  | none => .next s
  | some r =>
    let m := padTo (reqSrcLen r.entry) data
    if s.spire.stopped then .next (answer s r .deviceError 0)
    else
      match s.insts.find? fun e => e.2.st != .free with
      | some (i, x) => .next (refuse s r i x.st.code)
      | none =>
        match checkBytes s m with
        | some (reason, o) => .next (rejectImage s r 2 reason o)
        | none => .next (writeRegion s r 2 m)

/-- The NOR write of an image ends: its marker is written last, and the command completes. -/
def execImageNorWriteDone (seq : BitVec 32) (s : State) : Res :=
  let s := s.quiet
  match (List.range 3).find? fun k => (region s k).writing == some seq.toNat, s.req? 0 seq.toNat with
  | some k, some r =>
    if !s.live || s.hp.stopped then .next s
    else
      let m := (region s k).new
      let s := setRegion s k { image := some (.bytes m), marker := true }
      let s := spireEvent s { s.entry 0xA1 0 0x0D 0 with detail := reqOp r.entry, param := paramAt 48 1 k } (imgStructHash m)
      .next (done s r 0 (regionResult s k (region s k)))
  | _, _ => .next s

def execImageSelect (seq : BitVec 32) (s : State) : Res :=
  let s := s.quiet
  match takeCmd s seq.toNat 0x7B with
  | none => .next s
  | some r =>
    let k := par r.entry 36
    if regionState (region s k) != 1 then .next (refuse s r 0xFFFF 0)
    else
      let s := { s with spire := { s.spire with preferred := k } }
      let s := if par r.entry 37 == 1 then { s with spire := { s.spire with push := { s.spire.push with marker := false } } } else s
      let s := spireEvent s { s.entry 0xA1 0 0x0D 0 with detail := 0x7B, param := paramAt 48 1 3 } []
      .next (done s r 0 [])

/-! ## The identity key and the boot record (R398, R404, R405) -/

/-- The three identity seeds (R397). -/
def identitySeeds (s : State) : List Byte := kdf s.spire.secret "KG9 IDENTITY" [] 48

/-- The ASCII bytes of a context string. -/
def ascii (t : String) : List Byte := t.toList.map fun c => BitVec.ofNat 8 c.toNat

/-- The entry with boot counter `b`, while the ring keeps it. -/
def bootEntry? (s : State) (b : Nat) : Option (List Byte) :=
  if b == 0 || b > s.spire.boot || b + 4096 ≤ s.spire.boot then none else kvFind s.spire.bootRing (b % 4096)

/-- The newest entry. -/
def headEntry (s : State) : List Byte := (bootEntry? s s.spire.boot).getD (zeros 256)

/-- The signature of the head. -/
def headSignature (s : State) : List Byte := padTo 17088 (Config.slhSign (identitySeeds s) (ascii "KG9 BOOT HEAD") (headEntry s))

/-- The oldest boot counter that the ring retains. -/
def oldestBoot (s : State) : Nat := max 1 (s.spire.boot - 4095)

/-- Entries from `first` upward, at most `n`. -/
def entriesFrom (s : State) (first n : Nat) : List Byte :=
  let lo := max first (oldestBoot s)
  ((List.range (min n (s.spire.boot + 1 - lo))).map fun k => (bootEntry? s (lo + k)).getD (zeros 256)).flatten

/-! ## Attestation (R409, R410) -/

/-- The first 448 bytes of a report. `tb` is the timebase at which signing began. -/
def reportBody (s : State) (lane : Nat) (nonce : List Byte) : List Byte :=
  toBE 4 0x5A415452 ++ toBE 2 1 ++ toBE 2 lane ++ toBE 4 s.spire.modid ++ zeros 4 ++ padTo 32 nonce ++ toBE 8 s.spire.boot ++ toBE 8 s.clk.tb
    ++ sha256 (headEntry s) ++ s.spire.mreg.flatten ++ padTo 32 (Config.slhPublic (identitySeeds s)) ++ toBE 8 s.feat0 ++ toBE 8 s.feat1
    ++ toBE 8 s.mgrStatus ++ toBE 8 (s.bel.eseq - 1) ++ zeros 32

def signReport (s : State) (body : List Byte) : List Byte :=
  body ++ padTo 17088 (Config.slhSign (identitySeeds s) (ascii "KG9 ATTEST") body)

/-- A report whose signing begins now, if it has not begun: its body, of the present time (R410). -/
def beginReport (s : State) (lane : Nat) : Report → List Byte
  | .asked nonce => reportBody s lane nonce
  | .signing b => b

/-- A report asked for: its signing begins at once when the identity key exists and the head is signed, else it waits (R409). -/
def askReport (s : State) (lane : Nat) (nonce : List Byte) : Report :=
  if s.spire.headSigned then .signing (reportBody s lane nonce) else .asked nonce

/-- The identity key exists and the head is signed, within 45 ms of tower release (R405): the reports that have waited for it begin. -/
def execHeadSigned (s : State) : Res :=
  let s := s.quiet
  if !s.live || s.spire.stopped || s.spire.headSigned then .next s
  else
    let s := { s with spire := { s.spire with
      headSigned := true, doeNonce := s.spire.doeNonce.map fun r => .signing (beginReport s 0 r)
      smbNonce := s.spire.smbNonce.map fun r => .signing (beginReport s 1 r) } }
    let s := if Config.slhPublic (identitySeeds s) == Config.certifiedKey s.spire.modid then s else logEvent s (s.entry 0xA5 4 0x0D 0)
    .next (logEvent s { s.entry 0xA0 0 0x0D 0 with ref := s.spire.boot })

/-! ## DOE (R64, R408) -/

/-- Is the mailbox reachable: the port answers and no object is in progress? -/
def doeReady (s : State) : Bool := s.live && !s.hp.stopped && !s.hp.doe.busy && !s.hp.doe.error

/-- The 8-byte status header. -/
def doeHeader (st : Status) (detail retry : Nat) : List Byte := toBE 1 st.code ++ zeros 1 ++ toBE 2 detail ++ toBE 4 retry

/-- A malformed request sets the Error bit. -/
def doeError (s : State) : State := { s with hp := { s.hp with doe := { s.hp.doe with error := true } } }

def doeAnswer (s : State) (st : Status) (detail retry : Nat) (body : List Byte) : State := s.emit (.doe (doeHeader st detail retry ++ body))

/-- The request header and body of `n` bytes; a request STATUS and its reserved header bytes are zero. -/
def doeBody (body : List Byte) (n : Nat) : Option (List Byte) := if body.length == 8 + n then some (body.drop 8) else none

/-- Discovery: the index-th supported type, and the next index, zero after the last. The layout, and the answer beyond the last, are the
base specification's (assumption log 18). -/
def execDoeDiscovery (vendor ty : Nat) (body : List Byte) (s : State) : Res :=
  let s := s.quiet
  if !doeReady s then .next s
  else if vendor != 1 || ty != 0 || body.length != 4 then .next (doeError s)
  else
    let k := (body.getD 0 0).toNat
    if k > 5 then .next (s.emit (.doe [0xFF, 0xFF, 0, 0]))
    else
      let vid := if k == 0 then [1, 0] else toLE 2 Config.vendorId.toNat
      .next (s.emit (.doe (vid ++ toBE 1 k ++ toBE 1 (if k == 5 then 0 else k + 1))))

def execBootHead (body : List Byte) (s : State) : Res :=
  let s := s.quiet
  if !doeReady s then .next s
  else if (doeBody body 0).isNone then .next (doeError s)
  else if s.spire.stopped then .next (doeAnswer s .deviceError 0 0 [])
  else if !s.spire.headSigned then .next (doeAnswer s .busy 0 (s.spire.releaseTb + 4500000 - s.clk.tb) [])
  else .next (doeAnswer s .done 0 0 (headEntry s ++ headSignature s))

def execBootEntries (body : List Byte) (s : State) : Res :=
  let s := s.quiet
  if !doeReady s then .next s
  else
    match doeBody body 16 with
    | none => .next (doeError s)
    | some b =>
      let first := fieldBE b 0 8
      let n := fieldBE b 8 1
      if s.spire.stopped then .next (doeAnswer s .deviceError 0 0 [])
      else if n == 0 || n > 64 then .next (doeAnswer s .fieldInvalid 8 0 [])
      else
        match nonzeroIn b 9 16 with
        | some o => .next (doeAnswer s .fieldInvalid o 0 [])
        | none => .next (doeAnswer s .done (b2n (first < oldestBoot s)) 0 (entriesFrom s first n))

/-- ATTEST over DOE: Busy until the DOE lane has signed. -/
def execAttest (body : List Byte) (s : State) : Res :=
  let s := s.quiet
  if !doeReady s then .next s
  else
    match doeBody body 32 with
    | none => .next (doeError s)
    | some nonce =>
      if s.spire.stopped then .next (doeAnswer s .deviceError 0 0 [])
      else
        .next { s with
                hp := { s.hp with doe := { s.hp.doe with busy := true } }
                spire := { s.spire with doeNonce := some (askReport s 0 nonce) } }

/-- A lane has signed the report that was in it. -/
def execAttestSigned (smbus : Bool) (s : State) : Res :=
  let s := s.quiet
  if !s.live || s.spire.stopped then .next s
  else if smbus then
    match s.spire.smbNonce with
    | none => .next s
    | some r =>
      -- the head's signature is ahead of it on this lane
      if !s.spire.headSigned then .next s
      else .next { s with spire := { s.spire with smbNonce := none, smbReport := some (signReport s (beginReport s 1 r)) } }
  else
    match s.spire.doeNonce with
    | none => .next s
    | some r =>
      let b := beginReport s 0 r
      let open_ := s.hp.doe.busy
      let s := { s with
                 hp := { s.hp with doe := { s.hp.doe with busy := false } }
                 spire := { s.spire with doeNonce := none } }
      -- a report whose mailbox has been aborted or reset is dropped
      .next (if open_ && !s.hp.stopped then doeAnswer s .done 0 0 (signReport s b) else s)

def execIdentityCert (body : List Byte) (s : State) : Res :=
  let s := s.quiet
  if !doeReady s then .next s
  else if (doeBody body 0).isNone then .next (doeError s)
  else if s.spire.stopped then .next (doeAnswer s .deviceError 0 0 [])
  else .next (doeAnswer s .done 0 0 (Config.certificate s.spire.modid))

/-- MEASURE answers from the HOST shadows, a stopped Spire notwithstanding. -/
def execMeasure (body : List Byte) (s : State) : Res :=
  let s := s.quiet
  if !doeReady s then .next s
  else if (doeBody body 0).isNone then .next (doeError s)
  else .next (doeAnswer s .done 0 0 s.spire.mreg.flatten)

/-! ## SMBus (R346, R411) -/

/-- Does the SMBus target answer (R346, R426, R431)? -/
def smbusUp (s : State) : Bool := s.live && !s.bel.stopped

/-- A read over SMBus. -/
def smbusRead (s : State) (data : State → List Byte) : Res :=
  let s := s.quiet
  .next (if smbusUp s then s.emit (.smbus (data s)) else s.emit .smbusNack)

/-- A write over SMBus. -/
def smbusWrite (s : State) (f : State → State) : Res :=
  let s := s.quiet
  .next (if smbusUp s then f s else s.emit .smbusNack)

/-- The object selected: its status and its bytes. A report that was never asked for has no status in the spec. -/
def smbusObject (s : State) : Option Status × List Byte :=
  let p := s.spire
  if p.objSel == 4 then (some .done, p.mreg.flatten)
  else if p.stopped then (some .deviceError, [])
  else if p.objSel == 0 then (if p.headSigned then (some .done, headEntry s ++ headSignature s) else (some .busy, []))
  else if p.objSel == 1 then
    match bootEntry? s p.objEntry with
    | some e => (some .done, e)
    | none => (some .fieldInvalid, [])
  else if p.objSel == 2 then
    if p.smbNonce.isSome then (some .busy, [])
    else match p.smbReport with
      | some r => (some .done, r)
      | none => (none, [])
  else (some .done, Config.certificate p.modid)

def execObjSelect (data : List Byte) (s : State) : Res :=
  smbusWrite s fun s =>
    let k := fieldBE data 0 1
    if data.length == 9 && k ≤ 4 then { s with spire := { s.spire with objSel := k, objEntry := fieldBE data 1 8, objOff := 0 } } else s

def execObjStatus (s : State) : Res :=
  let s := s.quiet
  if !smbusUp s then .next (s.emit .smbusNack)
  else
    let (n, s) := s.fresh
    let (st, d) := smbusObject s
    let code := match st with
      | some c => c.code
      | none => Config.pick n
    .next (s.emit (.smbus (toBE 1 code ++ toBE 3 d.length ++ zeros 4)))

/-- The next bytes of the object; zero bytes once it is exhausted. -/
def execObjRead (s : State) : Res :=
  let s := s.quiet
  if !smbusUp s then .next (s.emit .smbusNack)
  else
    let d := slice (smbusObject s).2 s.spire.objOff 240
    let s := { s with spire := { s.spire with objOff := s.spire.objOff + d.length } }
    .next (s.emit (.smbus (if d.isEmpty then zeros 240 else d)))

/-- A stopped Spire takes the nonce and signs nothing: object 2 reads DEVICE_ERROR (R412). -/
def execAttestStart (nonce : List Byte) (s : State) : Res :=
  smbusWrite s fun s =>
    if nonce.length != 32 || s.spire.smbNonce.isSome then s
    else { s with spire := { s.spire with smbNonce := some (askReport s 1 nonce), smbReport := none, objSel := 2, objOff := 0 } }

/-! ## Owner key packages (R406, R407) -/

/-- A write into the staging buffer; bytes beyond its end are dropped. -/
def execPkgWrite (data : List Byte) (s : State) : Res :=
  smbusWrite s fun s =>
    if data.length < 3 || data.length > 243 then s
    else { s with spire := { s.spire with pkgStaging := patch s.spire.pkgStaging (fieldBE data 0 3) (data.drop 3) } }

/-- How a package that a stopped Spire cannot check is reported: rejected; its REASON is not in the spec (R412). -/
def execPkgCommit (v : Byte) (s : State) : Res :=
  smbusWrite s fun s =>
    if v != 0xA5 then s
    else if s.spire.stopped then
      let (n, s) := s.fresh
      { s with spire := { s.spire with pkgState := 3, pkgReason := Config.pick n % 256 } }
    else { s with spire := { s.spire with pkgState := 1, pkgReason := 0 } }

/-- SEQUENCE of a package, 0 without one. -/
def pkgSequence (p : Option (List Byte)) : Nat := fieldBE (p.getD (zeros 24)) 16 8

def execPkgStatus (s : State) : Res :=
  smbusRead s fun s =>
    let p := s.spire
    toBE 1 p.pkgState ++ toBE 1 p.pkgReason ++ zeros 6
      ++ toBE 8 (pkgSequence (if p.pendingPkg.isSome then p.pendingPkg else p.package))

/-- The fuse operation of a package. -/
def fuseOpOf (b : List Byte) : FuseOp :=
  { program := if bit (fieldBE b 25 1) 2 then some (fieldBE b 25 1 % 4, slice b 192 32) else none, revoke := fieldBE b 26 1 % 16 }

/-- The owner slots and the revocations once fuse operations have been applied. A programmed slot never changes; a revoked one is never
programmed. -/
def applyFuses (x : List (List Byte) × Nat) (o : FuseOp) : List (List Byte) × Nat :=
  let owners := match o.program with
    | some (k, h) => if (x.1.getD k []).all (· == 0) && !bit x.2 k then x.1.set k h else x.1
    | none => x.1
  (owners, x.2 ||| o.revoke)

def fusesWith (s : State) (l : List FuseOp) : List (List Byte) × Nat := l.foldl applyFuses (s.spire.owners, s.spire.revoke)

/-- REASON of the first check of R407 that fails. -/
def pkgFault (s : State) (m : List Byte) : Option Nat :=
  let b := m.take 256
  let f (o n : Nat) : Nat := fieldBE b o n
  let op := f 24 1
  let blank (l : List Byte) : Bool := l.all (· == 0)
  let dkey (d : Nat) : List Byte := slice b (64 + 32 * d) 32
  let reserved := (nonzeroIn b 6 8).isSome || f 8 4 ≥ 2 ^ 22 || (nonzeroIn b 12 16).isSome || f 25 1 ≥ 8 || f 26 1 ≥ 16
    || (nonzeroIn b 27 32).isSome || (nonzeroIn b 224 256).isSome
    || (!bit (f 25 1) 2 && ((f 25 1) % 4 != 0 || !blank (slice b 192 32)))
    || fieldBE m 256 1 != 2 || fieldBE m 257 1 > 3 || (nonzeroIn m 258 264).isSome || (nonzeroIn m 296 320).isSome
    || (nonzeroIn m 8176 8192).isSome
    || (List.range 4).any fun d => (bit op d && bit op (4 + d)) || (bit op d && blank (dkey d)) || (!bit op d && !blank (dkey d))
  let slot := fieldBE m 257 1
  let key := sigKey m 256
  let fo := fuseOpOf b
  let (owners, revoke) := fusesWith s (s.spire.fuseOps ++ [fo])
  let badSlot := match fo.program with
    | some (k, _) => !blank (s.spire.owners.getD k []) || bit s.spire.revoke k
    | none => false
  let lockedOut := !(owners.all blank) && !(List.range 4).any fun k => !blank (owners.getD k []) && !bit revoke k
  if f 0 4 != 0x5A4F4B50 || f 4 2 != 1 || m.length != 8192 then some 1
  else if reserved then some 2
  else if f 8 4 != 0 && f 8 4 != s.spire.modid then some 3
  else if f 16 8 ≤ max (pkgSequence s.spire.package) (pkgSequence s.spire.pendingPkg) then some 4
  else if !ownerOk s.spire.owners s.spire.revoke slot key then some 5
  else if !Config.slhVerify key (ascii "KG9 OWNER KEYS") b (sigBytes m 256) then some 6
  else if badSlot || lockedOut then some 7
  else none

/-- The body of a package with its domain keys set to zero. -/
def pkgPublic (m : List Byte) : List Byte := m.take 64 ++ zeros 128 ++ slice m 192 64

/-- The check of a committed package ends: accepted, it waits for a reset. -/
def execPkgCheckDone (s : State) : Res :=
  let s := s.quiet
  if !smbusUp s || s.spire.stopped || s.spire.pkgState != 1 then .next s
  else
    let m := s.spire.pkgStaging
    match pkgFault s m with
    | some reason =>
      let s := { s with spire := { s.spire with pkgState := 3, pkgReason := reason } }
      .next (logEvent s { s.entry 0xA3 0 0x0D 0 with detail := reason })
    | none =>
      let s := { s with spire := { s.spire with pkgState := 2, pkgReason := 0, pendingPkg := some (m.take 256) } }
      .next (spireEvent s { s.entry 0xA2 0 0x0D 0 with ref := fieldBE m 16 8 } (sha256 (pkgPublic m)))

end Sys2Proof.Machine
end

