-- ==== Sys2Proof/Machine/SelfTest.lean ====
section
/-! DEFINITION. Runtime self-tests, repair, and the calibration page (R434 to R453). -/

namespace Sys2Proof.Machine

open Sys2Proof

/-! ## Units (R339, R442) -/

/-- Is a unit out of service? -/
def unitOut (s : State) (u : UnitId) : Bool :=
  match u.source with
  | 1 => (s.eng (engineOfUnit u.unit)).fenced
  | 7 => s.css.chesStopped.contains u.unit
  | 9 => s.xce.fenced.contains u.unit
  | 10 => s.cze.fenced.contains u.unit
  | _ => s.tst.fenced.contains u

/-- A power-on or runtime test that covers a unit, by number (R434); where two do, which of them failed is a free value. -/
def testOf (s : State) (u : UnitId) : Nat × State :=
  let (n, s) := s.fresh
  let one := Config.pick n % 2 == 0
  let t := match u.source with
    | 1 => towerOf (engineOfUnit u.unit) + (if one then 0 else 8)
    | 2 => 8 + u.unit
    | 4 => 19
    | 5 => 23
    | 6 => 24 + u.unit
    | 7 => if one then 16 else 17
    | 8 => 21
    | 9 => 18
    | 10 => 18
    | 0xB => 20
    | 0xC => 22
    | 0x11 => 17
    | _ => 28
  (t, s)

/-- TEST_FAILED (R453). -/
def testFailed (s : State) (u : UnitId) (cls : Nat) : State :=
  let (t, s) := testOf s u
  logEvent s { s.entry 0x80 cls u.source u.unit with detail := t, param := paramAt 48 2 u.way }

/-- Is a lock held on way `w` of tower `t`? -/
def wayLocked (s : State) (t w : Nat) : Bool :=
  match kvFind (s.dome t).locks w with
  | some x => x.locked
  | none => false

/-- May a unit be tested by the rotation now (R442)? -/
def rollable (s : State) (u : UnitId) : Bool :=
  let here := match testableUnits s.variant u.source with
    | some f => f u.unit
    | none => u.source == 0x11 && u.unit == 4
  let group (cz : Bool) : Bool :=
    takesJobs s cz u.unit && (unparked s cz).any fun g => g.contains u.unit && g.length > 1
  here && !unitOut s u && match u.source with
    | 1 =>
      let p := engineOfUnit u.unit
      (s.eng p).phase == .run && (s.eng p).standFor.isNone && (match (s.eng p).role with
        | .dispatch => p < 128 && (idleSpare s (towerOf p)).isSome
        | .spare => idleSpare s (towerOf p) == some p || (s.eng p).ve.isNone
        | .reserve => true
        | .disabled => false)
    | 2 => u.way ≤ 14 && !wayLocked s u.unit u.way && !(s.dome u.unit).stopped
    | 7 => ((List.range 32).filter fun c => !s.css.chesStopped.contains c).length > 1
    | 9 => group false
    | 10 => group true
    | 0x11 => !s.tst.fenced.any fun x => x.source == 0x11 && x.unit == 4
    | _ => false

/-- Is a rotation of this kind already testing a unit: per tower for engines, per dome for ways (R442)? -/
def rotationBusy (s : State) (u : UnitId) : Bool :=
  s.tst.running.any fun x => x.unit.source == u.source && match u.source with
    | 1 => towerOf (engineOfUnit x.unit.unit) == towerOf (engineOfUnit u.unit)
    | 2 => x.unit.unit == u.unit
    | _ => true

/-! ## Starting a test (R443, R444) -/

/-- A line that leaves a way under test: written back if the dome has its newest copy. -/
def evictLine (s : State) (t l : Nat) : State := dropDomes (writeBack s l) l (· == t)

/-- A test begins on `u`; none while the unit cannot yet leave its work. -/
def startTest (s : State) (u : UnitId) (waiters : List Nat) : State ⊕ State :=
  let add (s : State) (q : Option Nat) : State :=
    { s with tst := { s.tst with running := s.tst.running ++ [{ unit := u, standIn := q, waiters := waiters }] } }
  match u.source with
  | 1 =>
    let p := engineOfUnit u.unit
    let e := s.eng p
    if e.fenced || e.role != .dispatch then
      if e.ve.isSome then .inl s else .inr (add (s.updEng p fun e => { e with phase := .test }) none)
    else
      match idleSpare s (towerOf p) with
      | none => .inl s
      | some q =>
        if e.phase != .run || e.commit.isSome then .inl s
        else
          let s1 : Option State := match e.ve with
            | none => some (walkL1 s q)
            | some k => if s.twinned (veInst k) then none else some (moveVe (walkL1 (commitNow s p k [] false) q) p q)
          match s1 with
          | none => .inl s
          | some s =>
            let s := s.updEng q fun e => { e with standFor := some p }
            .inr (add (s.updEng p fun e => { e with phase := .test, stream := {} }) (some q))
  | 2 =>
    let lines := ((s.dome u.unit).lines.filter (·.way == u.way)).map (·.line)
    let owners := lines.flatMap fun l => ownersOf s l
    if owners != [] then .inl (askCommit s owners)
    else
      let s := lines.foldl (fun s l => evictLine s u.unit l) s
      .inr (add (s.updDome u.unit fun d => { d with waysOut := if d.waysOut.contains u.way then d.waysOut else d.waysOut ++ [u.way] }) none)
  | 7 =>
    let others := (List.range 32).filter fun c => c != u.unit && !s.css.chesStopped.contains c && !underTest s 7 c
    .inr (add (if others.isEmpty || unitOut s u then s else moveOps s u.unit others) none)
  | 9 => if (jobOn s false u.unit).isSome then .inl s else .inr (add s none)
  | 10 => if (jobOn s true u.unit).isSome then .inl s else .inr (add s none)
  | _ => .inr (add s none)

/-- ROLLING_TEST_START: the rotation reaches a unit. -/
def execRollingTestStart (u : UnitId) (s : State) : Res :=
  let s := s.quiet
  if !s.live || s.bel.fatal || s.tst.stopped || s.tst.rollOff || s.clk.power != 0 || rotationBusy s u || !rollable s u then .next s
  else
    match startTest s u [] with
    | .inl s => .next s
    | .inr s => .next s

/-! ## Ending a test -/

/-- The virtual engine comes back from the stand-in, at the end of its slice; an instance under the mirror rule leaves it for dispatch. -/
def endStandIn (s : State) (p q : Nat) : State :=
  let e := s.eng q
  let s := match e.ve with
    | some k => if e.commit.isSome || s.twinned (veInst k) || e.phase != EPhase.run then s else moveVe (commitNow s q k [] false) q p
    | none => s
  s.updEng q fun e => { e with standFor := none }

/-- The unit takes work again, its L1s walked (R207, R443). -/
def backInService (s : State) (t : TestRun) : State :=
  match t.unit.source with
  | 1 =>
    let p := engineOfUnit t.unit.unit
    let s := (walkL1 s p).updEng p fun e => { e with phase := .run }
    match t.standIn with
    | some q => endStandIn s p q
    | none => s
  | 2 => s.updDome t.unit.unit fun d => { d with waysOut := d.waysOut.filter (· != t.unit.way) }
  | _ => s

/-- A fenced unit that has passed SELFTEST_RUN returns (R447). An engine whose slot a spare has taken comes back as a spare. -/
def unfence (s : State) (u : UnitId) : State :=
  let s := { s with tst := { s.tst with fenced := s.tst.fenced.filter (· != u) } }
  let s := match u.source with
    | 1 =>
      let p := engineOfUnit u.unit
      let t := towerOf p
      let full := dispatchable s t ≥ s.activeSlots t
      noteSpares (s.updEng p fun e => { e with
        fenced := false, phase := .run, cs := reloaded s e.cs false, role := if e.role == .dispatch && full then .spare else e.role }) t
    | 2 => s.updDome u.unit fun d => { d with waysOut := d.waysOut.filter (· != u.way) }
    | 7 => { s with css := { s.css with
        chesStopped := s.css.chesStopped.filter (· != u.unit)
        cheStores := kvSet s.css.cheStores u.unit (reloaded s (kvGet {} s.css.cheStores u.unit) true) } }
    | 9 => { s with xce := { s.xce with fenced := s.xce.fenced.filter (· != u.unit) } }
    | 10 => { s with cze := { s.cze with fenced := s.cze.fenced.filter (· != u.unit) } }
    | _ => s
  logEvent s (s.entry 0x89 0 u.source u.unit)

/-- A unit that a runtime test has found bad: repaired or fenced (R439, R443, R444). The result carries REPAIR: 1 soft, 2 fenced. -/
def repairUnit (s : State) (t : TestRun) : Nat × State :=
  let u := t.unit
  if unitOut s u then (2, testFailed s u 4)
  else
    match u.source with
    | 1 =>
      let p := engineOfUnit u.unit
      let s := s.updEng p fun e => { e with fenced := true, phase := .run, l1d := [], l1i := [] }
      match t.standIn with
      | some q =>
        let s := s.updEng q fun e => { e with role := .dispatch, standFor := none }
        (1, noteSpares (scheduleFuse (testFailed s u 3) ⟨1, u.unit, 0⟩ 1) (towerOf p))
      | none =>
        -- which cause a failed test counts as is a free value (assumption log 129)
        let (n, s) := s.fresh
        (2, loseSpare (testFailed s u 4) p (Config.pick n % 65536))
    | 2 =>
      let (n, s) := s.fresh
      -- whether one of the eight redundant rows is left is not in the spec's reach
      if Config.pick n % 2 == 0 then
        let s := (walkDome s u.unit).updDome u.unit fun d => { d with waysOut := d.waysOut.filter (· != u.way) }
        (1, scheduleFuse (testFailed s u 1) u 2)
      else (2, testFailed (fenceUnit s u) u 4)
    | 7 => (2, stopChe (testFailed s u 4) u.unit)
    | 9 => (2, stopAccel (testFailed s u 4) false u.unit)
    | 10 => (2, stopAccel (testFailed s u 4) true u.unit)
    | 0x11 =>
      -- the spare segment goes on serving; a second failed segment finds none (R439)
      if s.tst.fenced.any fun x => x.source == 0x11 && x.unit == 4 then (2, deviceFatal (testFailed s u 4) 4 0x11 4)
      else (1, scheduleFuse (testFailed (fenceUnit s u) u 4) u 4)
    | _ => (2, s)

/-- Patterns that a test expects: the engine test's are 12,800, those of the others are not in the spec. -/
def patternsOf (s : State) (u : UnitId) : Nat × State :=
  if u.source == 1 then (12800, s)
  else
    let (n, s) := s.fresh
    (Config.pick n % 2 ^ 32, s)

def execRollingTestEnd (u : UnitId) (r : TestResult) (s : State) : Res :=
  let s := s.quiet
  match s.tst.running.find? fun x => x.unit == u with
  | none => .next s
  | some t =>
    if !s.live || s.tst.stopped then .next s
    else
      match r with
      | .incomplete c got want => .next (match u.source, t.standIn with
          | 1, some q => endStandIn (cutTest s t c got want) (engineOfUnit u.unit) q
          | _, _ => cutTest s t c got want)
      | .pass =>
        let out := unitOut s u
        let s := { s with tst := { s.tst with running := s.tst.running.filter (·.unit != u), passed := s.tst.passed + 1 } }
        let s := backInService s t
        let s := if out && !t.waiters.isEmpty then unfence s u else s
        let (n, s) := patternsOf s u
        .next (answerTest s t (testResult 0 0 0 n n))
      | .fail =>
        let s := { s with tst := { s.tst with running := s.tst.running.filter (·.unit != u), failed := s.tst.failed + 1 } }
        let (rep, s) := repairUnit s t
        let (n, s) := patternsOf s u
        .next (answerTest s t (testResult 1 rep 0 n n))

/-! ## Commands (R447) -/

def execSelftestRun (seq : BitVec 32) (s : State) : Res :=
  let s := s.quiet
  match takeCmd s seq.toNat 0x75 with
  | none => .next s
  | some r =>
    let u : UnitId := ⟨par r.entry 36, fieldBE r.entry 38 2, par r.entry 37⟩
    let p := engineOfUnit u.unit
    if s.tst.stopped then .next (answer s r .deviceError 0)
    else
      match s.tst.running.find? fun x => x.unit == u with
      | some _ =>
        let s := { s with tst := { s.tst with running := s.tst.running.map fun (x : TestRun) =>
          if x.unit == u then { x with waiters := x.waiters ++ [r.seq] } else x } }
        .next (s.setStage 0 r.seq .running)
      | none =>
        if u.source == 1 && !(s.eng p).fenced && (s.eng p).role == .dispatch && (idleSpare s (towerOf p)).isNone then .next (refuse s r 0xFFFF 1)
        else
          let s := wake s
          match startTest s u [r.seq] with
          | .inl s => .next s
          | .inr s => .next (s.setStage 0 r.seq .running)

/-- The 64 bytes of SELFTEST_QUERY. -/
def selftestBytes (s : State) : List Byte :=
  let t := s.tst
  toBE 8 t.bistPass ++ toBE 8 t.bistFail ++ toBE 8 t.bistIncomplete ++ toBE 2 t.softRepairs ++ toBE 1 t.fuseUsed ++ toBE 1 t.repairs.length
    ++ toBE 8 t.passed ++ toBE 4 t.failed ++ toBE 4 t.incomplete ++ zeros 20

def execSelftestQuery (seq : BitVec 32) (s : State) : Res :=
  let s := s.quiet
  match takeCmd s seq.toNat 0x76 with
  | none => .next s
  | some r => .next (done (hostWrite s 0 (reqDst r.entry) (selftestBytes s)) r 64 [])

/-- Every runtime test in progress cut short. -/
def cutAll (s : State) (cause : Nat) : State :=
  s.tst.running.foldl (fun s t =>
    cutFree (match t.unit.source, t.standIn with
      | 1, some q => endStandIn (s.updEng (engineOfUnit t.unit.unit) fun e => { e with phase := .run }) (engineOfUnit t.unit.unit) q
      | _, _ => s) t cause) s

def execSelftestCtl (seq : BitVec 32) (s : State) : Res :=
  let s := s.quiet
  match takeCmd s seq.toNat 0x77 with
  | none => .next s
  | some r =>
    if s.tst.stopped then .next (answer s r .deviceError 0)
    else
      let b := par r.entry 36
      let s := { s with tst := { s.tst with rollOff := bit b 0 } }
      .next (done (if bit b 1 then cutAll s 4 else s) r 0 [])

/-- The self-test controller stops: its tests overrun, and no other begins. -/
def execSelftestControllerStop (s : State) : Res :=
  let s := s.quiet
  if !s.live || s.tst.stopped then .next s
  else
    let s := cutAll s 5
    let s := { s with tst := { s.tst with stopped := true } }
    .next (unitFenced s 4 0x0E 0 0).1

/-- An entry of the pending list (R447). -/
def repairBytes (x : Repair) : List Byte := toBE 1 x.unit.source ++ toBE 1 x.unit.way ++ toBE 2 x.unit.unit ++ toBE 1 x.kind ++ zeros 3

def execRepairCtl (seq : BitVec 32) (s : State) : Res :=
  let s := s.quiet
  match takeCmd s seq.toNat 0x7F with
  | none => .next s
  | some r =>
    let list := padTo 64 (s.tst.repairs.flatMap repairBytes)
    let out := reqDstLen r.entry != 0
    let s := if out then hostWrite s 0 (reqDst r.entry) list else s
    let s := if par r.entry 36 == 1 then { s with tst := { s.tst with repairs := [] } } else s
    .next (done s r (if out then 64 else 0) [])

/-! ## The calibration page (R449 to R452) -/

/-- Offset and size of the six groups. -/
def calGroups : List (Nat × Nat) := [(0x40, 1024), (0x440, 512), (0x640, 384), (0x7C0, 224), (0x8A0, 256), (0x9A0, 128)]

/-- The bytes of a page. -/
def calBytes (s : State) : CalPage → List Byte
  | .factory => padTo 4096 (Config.calPage s.spire.modid)
  | .bytes l => padTo 4096 l

/-- Offset of the first check that a page fails: MAGIC, FORMAT, MODID, SHA-256. -/
def calFault (s : State) (m : List Byte) : Option Nat :=
  if fieldBE m 0 4 != 0x5A43414C then some 0
  else if fieldBE m 4 2 != 1 then some 4
  else if fieldBE m 8 4 != s.spire.modid then some 8
  else if sha256 (m.take 0xFE0) != slice m 0xFE0 32 then some 0xFE0
  else none

/-- The first byte of a page that must be zero and is not. -/
def calReserved (m : List Byte) : Option Nat :=
  (firstOf [(6, fieldBE m 6 1 ≥ 0x40)]).or ((nonzeroIn m 7 8).or ((nonzeroIn m 0xE 0x40).or (nonzeroIn m 0xA20 0xFE0)))

/-- Is a page usable (R450)? The one written at manufacture is. -/
def calUsable (s : State) : CalPage → Bool
  | .factory => true
  | .bytes l => (calFault s l).isNone

/-- FACTORY and WRITES of a page. -/
def calFactoryOf (c : CalPage) : Nat := match c with | .factory => 0x3F | .bytes l => fieldBE l 6 1
def calWritesOf (c : CalPage) : Nat := match c with | .factory => 0 | .bytes l => fieldBE l 0xC 2

/-- A page as it is written over another: FACTORY loses the bits of groups that change, WRITES rises, the SHA-256 is formed anew (R451). -/
def calMerge (s : State) (new : List Byte) : List Byte :=
  let old := calBytes s s.tst.cal
  let same (g : Nat) : Bool := match calGroups[g]? with
    | some (o, n) => slice old o n == slice new o n
    | none => false
  let keep := ((List.range 6).map fun g => if same g && bit (calFactoryOf s.tst.cal) g then 2 ^ g else 0).sum
  let m := patch (patch new 6 (toBE 1 keep)) 0xC (toBE 2 (min 0xFFFF (calWritesOf s.tst.cal + 1)))
  patch m 0xFE0 (sha256 (m.take 0xFE0))

def execCalRead (seq : BitVec 32) (s : State) : Res :=
  let s := s.quiet
  match takeCmd s seq.toNat 0x7C with
  | none => .next s
  | some r => .next (done (hostWrite s 0 (reqDst r.entry) (calBytes s s.tst.cal)) r 4096 [])

/-- CAL_WRITE: a page checked goes to its buffer in the NOR first. -/
def execCalWrite (seq : BitVec 32) (data : List Byte) (s : State) : Res :=
  let s := s.quiet
  match takeCmd s seq.toNat 0x7D with
  | none => .next s
  | some r =>
    let m := padTo 4096 data
    match (calFault s m).or (calReserved m) with
    | some o => .next (complete s 0 r.seq Status.fieldInvalid.code 8 0 (zeros 4 ++ toBE 4 o ++ zeros 8))
    | none =>
      let s := { s with tst := { s.tst with calBuffer := some (calMerge s m), calWriter := some r.seq } }
      .next (s.setStage 0 r.seq .running)

/-- CAL_WRITTEN (R453). -/
def calWritten (s : State) (detail : Nat) : State :=
  logEvent s { s.entry 0x87 0 0x0E 0 with detail := detail, param := paramAt 48 1 (calFactoryOf s.tst.cal) }

/-- The page written and its buffer erased. -/
def execCalNorWriteDone (s : State) : Res :=
  let s := s.quiet
  match s.tst.calBuffer, s.tst.calWriter with
  | some m, some q =>
    if !s.live then .next s
    else
      let s := { s with tst := { s.tst with cal := .bytes m, calBuffer := none, calWriter := none } }
      .next (complete (calWritten s 1) 0 q 0 0 0 [])
  | _, _ => .next s

/-- RECAL marks groups for the next cold start. -/
def execRecal (seq : BitVec 32) (s : State) : Res :=
  let s := s.quiet
  match takeCmd s seq.toNat 0x7E with
  | none => .next s
  | some r => .next (done { s with tst := { s.tst with recal := s.tst.recal ||| par r.entry 36 } } r 0 [])

/-! ## SMBus (R448) -/

def execBistStatus (s : State) : Res :=
  smbusRead s fun s =>
    let t := s.tst
    let (k, u) := t.hubLatch.getD (0, ⟨0, 0, 0⟩)
    toBE 8 t.bistPass ++ toBE 8 t.bistFail ++ toBE 8 t.bistIncomplete ++ toBE 1 (b2n t.hubLatch.isSome) ++ toBE 1 k ++ toBE 1 u.source
      ++ zeros 1 ++ toBE 2 u.unit ++ toBE 1 t.fuseUsed ++ toBE 1 t.repairs.length

def execCalStatus (s : State) : Res :=
  smbusRead s fun s =>
    toBE 1 s.tst.calFactory ++ toBE 1 (b2n s.tst.calValid + b2n (s.tst.recal != 0) * 2) ++ toBE 2 (calWritesOf s.tst.cal) ++ zeros 4

end Sys2Proof.Machine
end

