-- ==== Sys2Proof/Machine/Twin.lean ====
section
/-! DEFINITION. The Jalarn link and its twin states (R348 to R367): training, IDENT, pairing, flits and slots, mirror groups on both sides,
the fence, the twin commands that need no takeover. -/

namespace Sys2Proof.Machine

open Sys2Proof

/-! ## Link and twin state -/

/-- JL_STATUS.LINK 2 and 3: up (R372). -/
def linkUp (s : State) : Bool := s.live && decide (s.twin.link ≥ 2)

def TwinState.code : TwinState → Nat
  | .none => 0 | .linked => 1 | .paired => 2 | .alone => 3 | .fenced => 4

def TwinRole.code : TwinRole → Nat
  | .local_ => 0 | .primary => 1 | .secondary => 2 | .exposed => 3

/-- An entry of the Jalarn unit (R339). -/
def jlEntry (s : State) (event cls : Nat) : LogEntry := s.entry event cls 0x0C 0

/-- Instances in a role that `q` selects, by rising number. -/
def instancesIn (s : State) (q : TwinRole → Bool) : List Nat :=
  ((s.insts.filter fun e => e.2.st != .free && q e.2.role).map Prod.fst).mergeSort (· ≤ ·)

/-- The twin commands in progress complete DEVICE_ERROR: what they wait for can no longer come. -/
def endTwinCommands (s : State) : State :=
  let qs := s.twin.protecting.map Prod.snd ++ s.twin.handing.map Prod.snd ++ s.twin.pairing.toList
  let s := { s with twin := { s.twin with protecting := [], handing := [], pairing := none, partnerPairs := none, copies := [] } }
  qs.foldl (fun s q => completeNow s 0 q Status.deviceError.code 0 0 []) s

/-- The partner paths in use go down with the link (R266, R268). -/
def losePartnerPaths (s : State) : State :=
  let used := ((s.css.subs.filter fun e => e.2.st == .active && subPath s e.2 ≥ 0x100).map fun e => subPath s e.2).dedup
  used.foldl loseLink s

/-- The link goes down, to train again (R351, R353). -/
def linkDown (s : State) (detail : Nat) : State :=
  let s := logEvent s { jlEntry s 0x71 4 with detail := detail }
  let t := s.twin
  let s := { s with twin := { t with link := 1, fseq := 0, replays := 0, mismatch := false, st := if t.st == .linked then .none else t.st } }
  let s := if t.st == .linked then endTwinCommands s else s
  losePartnerPaths s

/-- Training ends (R348): LINK_UP, LANE_DEGRADED at x4, and IDENT is sent (R352). -/
def execJalarnLinkUp (x4 : Bool) (lane : Nat) (s : State) : Res :=
  let s := s.quiet
  if !s.live || !s.variant.jlk || !s.img.twin || s.twin.link != 1 then .next s
  else
    let link := if x4 then 3 else 2
    let s := { s with twin := { s.twin with link := link, fseq := 0, replays := 0, txSeq := 0, sent := [], released := 0, credit := 524288 } }
    let s := logEvent s { jlEntry s 0x70 0 with param := paramAt 48 1 link }
    let s := if x4 then logEvent s { jlEntry s 0x78 4 with param := paramAt 48 1 lane } else s
    .next (sendControl s ctlIdent ([s.spire.modid, s.spire.boot, s.clk.tb] ++ (s.img.structHash ++ s.img.ucodeHash).map BitVec.toNat))

/-- IDENT (R352): positions, the comparison of the structure hashes, and the lower timebase steps forward. -/
def execIdent (m : IdentMsg) (s : State) : Res :=
  let s := s.quiet
  if !linkUp s then .next s
  else
    let same := m.structHash == s.img.structHash
    let t := s.twin
    let s := { s with twin := { t with
      partner := some m.modid.toNat, posB := decide (m.modid.toNat < s.spire.modid), mismatch := !same
      st := if t.st == .none && same then .linked else t.st } }
    if same && s.clk.tb < m.tb.toNat then
      let step := m.tb.toNat - s.clk.tb
      let s := { s with clk := { s.clk with tb := m.tb.toNat } }
      .next (logEvent s { jlEntry s 0x79 0 with param := step })
    else .next s

/-- RECEIVER_LOCK_LOST (R351). -/
def execReceiverLockLost (s : State) : Res :=
  let s := s.quiet
  if linkUp s then .next (linkDown s 2) else .next s

/-! ## The sending side: acknowledgements and refills (R359 to R361) -/

/-- What a closing event does (R360). -/
def groupAct (s : State) (g : Group) : State :=
  match g.act with
  | .commit p k =>
    match (s.eng p).commit with
    | some b => if b.closing && (s.eng p).ve == some k then finishCommit s p k b else s
    | none => s
  | .completion n seq st d c r =>
    let s := completeNow s n seq st d c r
    match endedJob s false (n - 1) seq, endedJob s true (n - 1) seq with
    | some (_, t), _ => t
    | none, some (_, t) => t
    | none, none => s
  | .jobArea cz i seq st d c r =>
    match endedJob s cz i seq with
    | some (j, t) => areaDone t j st d c r
    | none => s
  | .letIn n seq =>
    match s.req? n seq with
    | some r => s.putReq { r with admitting := false }
    | none => s
  | .startEntry i n => runSub (s.setSub i n { s.sub i n with startJsn := none }) i n
  | .endEntry i n => s.setSub i n { s.sub i n with endWait := none }
  | .barrier i m => if barrierFull s i m then releaseBarrier s i m else s
  | .nothing => s

/-- A handover goes on (R368): every virtual engine committed off its engine, then, with every group acknowledged, the instance leaves. -/
def tryHandover (s : State) (i : Nat) : State :=
  if !s.covered i then s
  else
    let s := (enginesOn s i).foldl (fun s e => commitOff s e.1 e.2) s
    if !(enginesOn s i).isEmpty || s.twin.groups.any (·.inst == i) then s
    else
      let j := kvGet 0 s.twin.lastAck i
      let s := sendControl (leaveModule s i) ctlHandover [i, j]
      logEvent s { jlEntry s 0x75 0 with inst := i, ref := j }

def tryHandovers (s : State) : State := (kvKeys s.twin.handing).foldl tryHandover s

/-- Groups up to JSN `j` acknowledged: their events take effect, in the order of closing. -/
def ackGroups (s : State) (j : Nat) : State :=
  let past (g : Group) : Bool := match g.jsn with
    | some x => !serialBefore 48 j x
    | none => false
  let gs := s.twin.groups.filter past
  let s := { s with twin := { s.twin with
    groups := s.twin.groups.filter fun g => !past g
    ackRx := j
    lastAck := gs.foldl (fun l g => kvSet l g.inst (g.jsn.getD 0)) s.twin.lastAck } }
  resumeOps (tryHandovers (gs.foldl groupAct s))

/-- ACK_JSN as received: of a number that this module has given, and not an older one. -/
def takeAck (s : State) (j : Nat) : State :=
  if s.twin.st == .paired && j != 0 && serialBefore 48 j s.css.jsn && !serialBefore 48 j s.twin.ackRx then ackGroups s j else s

def execMirrorAck (jsn : BitVec 48) (s : State) : Res :=
  let s := s.quiet
  if linkUp s then .next (takeAck s jsn.toNat) else .next s

/-- COPY slots of instance `i`, at most `n` (R361, R363): a line that waits for a commit point is left for later; after the last line,
COPY_DONE. The lines that are left, and the number of slots used. -/
def copyLines (s : State) (i n : Nat) : Nat × State :=
  let l := kvGet [] s.twin.copies i
  let held (x : Nat) : Bool := s.domes.any fun d => d.2.lines.any fun y => y.line == x && y.st == .P
  let now := (l.filter fun x => !held x).take n
  let left := l.filter fun x => !now.contains x
  let slots := now.map fun x => let c := committed s x; lineSlot 3 0 { line := x, data := c.1, poison := c.2 }
  let s := sendSlots { s with twin := { s.twin with copies := if left.isEmpty then kvDel s.twin.copies i else kvSet s.twin.copies i left } } slots
  (now.length, if left.isEmpty then sendControl s ctlCopyDone [i] else s)

/-- The copies under way, lowest instance first, within `n` slots; what is left of these comes first. -/
def runCopies (s : State) (n : Nat) : Nat × State :=
  (kvKeys s.twin.copies).foldl (fun (x : Nat × State) i =>
    let (k, s) := copyLines x.2 i x.1
    (x.1 - k, s)) (n, s)

/-- One refill of the mirror buckets (R361): three slots for each unit of an instance's guarantee, half of that at x4; what overflows and
the 128 unreserved units go to the shared bucket, from which an instance draws at the rate of its shared cap and copies take at most half
of the refill. -/
def execMirrorRefill (s : State) : Res :=
  let s := s.quiet
  if !linkUp s || s.twin.st != .paired then .next s
  else
    let rate (u : Nat) : Nat := if s.twin.link == 3 then 3 * u / 2 else 3 * u
    let shared0 := s.twin.shared
    let s := s.insts.foldl (fun s e =>
      let g := (e.2.share poolMirror 0).guarantee
      let b := kvGet 0 s.twin.buckets e.1 + rate g
      let kept := min b (1024 * g)
      let kept := max kept (kvGet 0 s.twin.buckets e.1)
      { s with twin := { s.twin with buckets := kvSet s.twin.buckets e.1 kept, shared := s.twin.shared + (b - kept) } }) s
    let s := { s with twin := { s.twin with shared := s.twin.shared + rate 128 } }
    let quota := min s.twin.credit ((s.twin.shared - shared0) / 2)
    let (left, s) := runCopies s quota
    let used := quota - left
    let s := { s with twin := { s.twin with shared := s.twin.shared - used, credit := s.twin.credit - used } }
    let s := s.insts.foldl (fun s e =>
      let sh := e.2.share poolMirror 0
      let b := kvGet 0 s.twin.buckets e.1
      let n := min (min (rate sh.cap) s.twin.shared) (1024 * (sh.guarantee + sh.cap) - b)
      { s with twin := { s.twin with buckets := kvSet s.twin.buckets e.1 (b + n), shared := s.twin.shared - n } }) s
    .next (sendGroups s)

/-! ## The receiving side: flits, staging (R349 to R351, R359) -/

/-- The three slots of a flit. -/
def flitSlots (f : List Byte) : List (List Byte) := (List.range 3).map fun k => slice f (14 + 76 * k) 76

/-- Is a flit good: CRC, KIND and TYPEs defined, FSEQ in order? -/
def flitGood (s : State) (f : List Byte) : Bool :=
  (crc64 (f.take 242)).toNat == fieldBE f 242 8 && bits (fieldBE f 0 1) 7 6 < 2 && fieldBE f 1 2 % 4096 == s.twin.fseq
    && (flitSlots f).all fun x => bits (fieldBE x 0 1) 7 4 < 6

/-- A line as a slot brings it: poisoned if it says so or its tag fails. -/
def slotLine (x : List Byte) : MLine :=
  let d := slice x 12 64
  { line := fieldBE x 3 5 / 64, data := d, poison := bit (fieldBE x 0 1) 3 || (crc32c d).toNat != fieldBE x 8 4 }

/-- Does line `l` lie in a granule of a secondary copy here? -/
def copyLine (s : State) (l : Nat) : Bool :=
  match lineOwner s l with
  | some (i, true) => (s.inst i).role == .secondary
  | _ => false

/-- A line written at its absolute address for the partner. -/
def putLine (s : State) (m : MLine) : State :=
  if copyLine s m.line then
    let s := dropDomes s m.line (fun _ => true)
    { s with mem := s.mem.setLine s.clk.tb m.line m.data m.poison }
  else s

/-- A slot taken (R350). CONTROL slots come as commands of their own; PATH slots carry traffic of the partner's paths, which the spec
gives no content. -/
def takeSlot (s : State) (x : List Byte) : State :=
  let h := fieldBE x 1 2 % 4096
  let t := s.twin
  match bits (fieldBE x 0 1) 7 4 with
  | 1 => { s with twin := { t with rxOpen := kvSet t.rxOpen h (kvGet [] t.rxOpen h ++ [slotLine x]) } }
  | 2 =>
    let jsn := fieldBE x 12 6
    { s with twin := { t with
      staged := t.staged ++ [(jsn, fieldBE x 19 2, kvGet [] t.rxOpen h)], rxOpen := kvDel t.rxOpen h, ackTx := jsn } }
  | 3 => putLine { s with twin := { t with released := t.released + 1 } } (slotLine x)
  | _ => s

/-- JALARN_FLIT_RECEIVE (R351): after sixteen failed replays in a row the link goes down. -/
def execJalarnFlitReceive (flit : List Byte) (s : State) : Res :=
  let s := s.quiet
  if !linkUp s then .next s
  else
    let f := padTo 256 flit
    if !flitGood s f then
      if s.twin.replays ≥ 16 then .next (linkDown s 1) else .next { s with twin := { s.twin with replays := s.twin.replays + 1 } }
    else
      let s := { s with twin := { s.twin with
        fseq := (s.twin.fseq + 1) % 4096, replays := 0, credit := s.twin.credit + 1024 * fieldBE f 11 1
        sent := s.twin.sent.filter fun e => serialBefore 12 (fieldBE f 3 2 % 4096) e.1 } }
      let s := if bits (fieldBE f 0 1) 7 6 == 1 then (flitSlots f).foldl takeSlot s else s
      let s := takeAck s (fieldBE f 5 6)
      .next (if s.twin.st == .paired then sendGroups s else s)

/-- Where a mirrored line belongs: the journal, the twin area, an instance's control block or dispatch queue, or the stores. -/
def applyLine (s : State) (m : MLine) : State :=
  let t := s.twin
  if 0x40000 ≤ m.line && m.line < 0x40000 + s.journalSlots then
    { s with twin := { t with rxJournal := kvSet t.rxJournal (m.line - 0x40000) m.data } }
  else if twinLine 0 ≤ m.line && m.line < twinLine 0 + 524288 then
    { s with twin := { t with rxSlots := kvSet t.rxSlots (m.line - twinLine 0) m.data } }
  else if m.line < 0x40000 then { s with twin := { t with rxControl := kvSet t.rxControl m.line m.data } }
  else putLine s m

/-- Granules of a secondary copy as the control block gives them: those of the mirrored region that it holds or that are free here. -/
def copyGranules (s : State) (i : Nat) (bulk : Bool) : List Granule :=
  let mine := if bulk then (s.inst i).bulk else (s.inst i).main
  ((Config.mirroredGranules s.twin.rxControl i bulk).filter fun g => mine.any (·.num == g) || granuleFree s bulk true g).dedup.map
    fun g => { num := g, mir := true }

/-- What the control block shows of a secondary copy: state, ring indices, SEQ and holdings; a copy whose primary is destroyed is freed
(R362). -/
def followMirror (s : State) (i : Nat) : State :=
  if (s.inst i).role != .secondary then s
  else
    match Config.mirroredState s.twin.rxControl i with
    | 0 => destroyInst s i
    | n =>
      let st := match n with
        | 1 => InstState.defined | 2 => .running | 3 => .quiescing | 4 => .quiesced | 5 => .faulted | 6 => .exported | _ => (s.inst i).st
      let main := copyGranules s i false
      let bulk := copyGranules s i true
      let s := if main == (s.inst i).main && bulk == (s.inst i).bulk then s else dropInstTlb s i
      let s := s.updInst i fun x => { x with st := st, main := main, bulk := bulk }
      (parseSections 7 (Config.mirroredContent s.twin.rxControl i)).foldl (fun s x => match x with
        | (7, _, _, _, p) => importSeq s i p
        | _ => s) s

/-- The first durable group applied (R359). -/
def applyGroup (s : State) (jsn i : Nat) (ls : List MLine) : State :=
  let s := ls.foldl applyLine s
  followMirror (s.updInst i fun x => if x.role == .secondary then { x with lastJsn := jsn } else x) i

def applyFirst (s : State) : State :=
  match s.twin.staged with
  | [] => s
  | (j, i, ls) :: r => applyGroup { s with twin := { s.twin with staged := r, released := s.twin.released + ls.length } } j i ls

def execStagingApply (s : State) : Res :=
  let s := s.quiet
  if s.live && s.twin.st == .paired then .next (applyFirst s) else .next s

/-! ## Pairing (R353, R358) -/

/-- The twin key (R358, R400): from DKEY0 and the two module numbers, position A's first. -/
def twinKey (s : State) (dkey : List Byte) : List Byte :=
  let me := toBE 4 s.spire.modid
  let other := toBE 4 (s.twin.partner.getD 0)
  kdf dkey "KG9 TWIN" (if s.twin.posB then other ++ me else me ++ other) 32

/-- Both modules have issued TWIN_PAIR. -/
def becomePaired (s : State) (seq : Nat) : State :=
  match dkeyOf s 0 with
  | none => s
  | some d =>
    let t := s.twin
    let s := { s with twin := { t with
      st := .paired, key := some (twinKey s d), pairing := none, partnerPairs := none, asking := false, askTb := none, fenceOut := false
      ackLow := false, unanswered := false, mayTake := [], takeAll := none, handed := [], ackRx := 0, ackTx := 0, groups := [], notes := [], keyNotes := []
      rxOpen := [], staged := [], rxJournal := [], rxSlots := [], rxControl := [], lastAck := [], buckets := [], shared := 0 } }
    let s := logEvent s { jlEntry s 0x72 0 with param := paramAt 48 4 (t.partner.getD 0) }
    completeNow s 0 seq 0 0 0 []

/-- A twin command that the twin state refuses (R355). -/
def refuseTwin (s : State) (r : Request) (i : Nat) : State := refuse s r i (8 + s.twin.st.code)

/-- TWIN_PAIR: it completes when the partner has issued its own. -/
def execTwinPair (seq : BitVec 32) (s : State) : Res :=
  let s := s.quiet
  match takeCmd s seq.toNat 0x71 with
  | none => .next s
  | some r =>
    if !(s.twin.st == .linked || (s.twin.st == .alone && s.twin.link ≥ 2)) then .next (refuseTwin s r 0xFFFF)
    else if s.twin.pairing.isSome then .next s
    else if s.spire.stopped then .next (answer s r .deviceError 0)
    else
      match dkeyOf s 0 with
      | none => .next (answer (sendControl s ctlPair [s.spire.modid, 0]) r .keyAbsent 0)
      | some _ =>
        let s := sendControl s ctlPair [s.spire.modid, 1]
        match s.twin.partnerPairs with
        | some true => .next (becomePaired s r.seq)
        | some false => .next (answer { s with twin := { s.twin with partnerPairs := none } } r .keyAbsent 0)
        | none => .next ({ s with twin := { s.twin with pairing := some r.seq } }.setStage 0 r.seq .running)

/-- PAIR from the partner, which says whether its DKEY slot 0 holds a key. -/
def execPair (modid : BitVec 22) (dkey0 : Bool) (s : State) : Res :=
  let s := s.quiet
  if !linkUp s || !(s.twin.st == .linked || s.twin.st == .alone) || s.twin.partner != some modid.toNat then .next s
  else
    match s.twin.pairing with
    | some q =>
      if dkey0 then .next (becomePaired s q)
      else .next (completeNow { s with twin := { s.twin with pairing := none } } 0 q Status.keyAbsent.code 0 0 [])
    | none => .next { s with twin := { s.twin with partnerPairs := some dkey0 } }

/-! ## TWIN_PROTECT (R363) -/

/-- The lines of the granules of an instance. -/
def granuleLines (s : State) (i : Nat) : List Nat :=
  let x := s.inst i
  (x.main.flatMap fun g => (List.range 1024).map ((s.poolBase + g.num * 65536) / 64 + ·))
    ++ x.bulk.flatMap fun g => (List.range 32768).map ((0x1000000000 + g.num * 2097152) / 64 + ·)

/-- PROTECT sent for instance `i`. -/
def sendProtect (s : State) (i : Nat) : State :=
  let x := s.inst i
  sendControl s ctlProtect ([i, x.vectors, x.label, x.main.length, x.bulk.length] ++ (x.main ++ x.bulk).map (·.num)
    ++ x.shares.flatMap fun e => [e.1, e.2.guarantee, e.2.cap])

def execTwinProtect (seq : BitVec 32) (s : State) : Res :=
  let s := s.quiet
  match takeCmd s seq.toNat 0x72 with
  | none => .next s
  | some r =>
    let i := reqTarget r.entry
    let x := s.inst i
    if s.twin.st != .paired then .next (refuseTwin s r i)
    else if !((x.role == .local_ || x.role == .exposed) && (x.st == .defined || x.st == .running || x.st == .quiesced) && x.importing.isNone) then
      .next (refuse s r i x.st.code)
    else if x.main.any (fun g => !g.mir) then .next (answer s r .resourceLimit 2)
    else if x.bulk.any (fun g => !g.mir) then .next (answer s r .resourceLimit 3)
    else
      -- what the partner answers is not known here: it creates the copy, or its number is not FREE, or it lacks units
      let (n, s) := s.fresh
      match Config.pick n % 3 with
      | 1 => .next (refuse s r i (1 + Config.pickAt n 1 % 6))
      | 2 => .next (answer s r .resourceLimit (1 + Config.pickAt n 1 % 11))
      | _ =>
        let s := sendProtect (wake s) i
        if x.st == .defined && x.main.isEmpty && x.bulk.isEmpty then
          .next (done (s.setInst i { x with role := .primary, copying := false }) r 0 [])
        else
          let s := (s.setInst i { x with role := .exposed, copying := true }).setStage 0 r.seq .running
          let l := granuleLines s i
          let s := { s with twin := { s.twin with protecting := kvSet s.twin.protecting i r.seq } }
          let s := closeHub s i 0x12 .nothing
          if l.isEmpty then .next (sendControl s ctlCopyDone [i])
          else .next { s with twin := { s.twin with copies := kvSet s.twin.copies i l } }

/-- COPY_DONE: acknowledged, it makes the instance PRIMARY; received, it makes the copy valid. -/
def execCopyDone (i : Nat) (ack : Bool) (s : State) : Res :=
  let s := s.quiet
  if !linkUp s || s.twin.st != .paired then .next s
  else if ack then
    match kvFind s.twin.protecting i with
    | some q =>
      if (kvFind s.twin.copies i).isSome then .next s
      else
        let s := s.updInst i fun x => { x with role := .primary, copying := false }
        .next (completeNow { s with twin := { s.twin with protecting := kvDel s.twin.protecting i } } 0 q 0 0 0 [])
    | none => .next s
  else if (s.inst i).role == .secondary then .next (s.updInst i fun x => { x with copying := false })
  else .next s

/-- Are the granules that PROTECT names mirrored and free here? -/
def granulesHere (s : State) (m : ProtectMsg) : Bool :=
  m.main.all (granuleFree s false true) && m.bulk.all (granuleFree s true true)

/-- PROTECT received: the secondary copy is created with equal holdings, if its number is FREE and every unit is here. -/
def execProtect (m : ProtectMsg) (s : State) : Res :=
  let s := s.quiet
  if !linkUp s || s.twin.st != .paired || m.i ≥ 512 || (s.inst m.i).st != .free || !granulesHere s m then .next s
  else
    let gran (l : List Nat) : List Granule := l.map fun g => { num := g, mir := true }
    let s1 := s.setInst m.i {
      st := .defined, role := .secondary, copying := !m.empty, vectors := m.vectors, label := m.label.toNat, main := gran m.main, bulk := gran m.bulk }
    let all := m.shares.foldl (fun (x : Option State) e =>
      x.bind fun s =>
        let pool := e.1 / 16
        let t := e.1 % 16
        if overShare s m.i pool t e.2.1 e.2.2 then none
        else
          match (if pool == 2 || pool == 3 then Moved.ok s else moveUnits s m.i pool t e.2.1) with
          | .ok s => some (s.updInst m.i fun x => x.setShare pool t { guarantee := e.2.1, cap := e.2.2 })
          | _ => none) (some s1)
    .next (all.getD s)

/-! ## TWIN_HANDOVER and SURRENDER (R368) -/

def execTwinHandover (seq : BitVec 32) (s : State) : Res :=
  let s := s.quiet
  match takeCmd s seq.toNat 0x73 with
  | none => .next s
  | some r =>
    let i := reqTarget r.entry
    let x := s.inst i
    if s.twin.st != .paired then .next (refuseTwin s r i)
    else if !(x.role == .primary && (x.st == .running || x.st == .quiesced)) then .next (refuse s r i x.st.code)
    else
      let s := { s with twin := { s.twin with handing := kvSet s.twin.handing i r.seq } }.setStage 0 r.seq .running
      let s := withdrawAll s i
      .next (tryHandover (closeHub s i 0x12 .nothing) i)

/-- May this module take instance `i` over from now on (R366)? -/
def allowTake (s : State) (i : Nat) (byHandover : Bool) : State :=
  if (s.inst i).role != .secondary then s
  else
    { s with twin := { s.twin with
      mayTake := kvSet s.twin.mayTake i s.clk.tb, handed := if byHandover then i :: s.twin.handed else s.twin.handed } }

/-- SURRENDER received. -/
def execSurrender (i : Nat) (_jsn : BitVec 48) (s : State) : Res :=
  let s := s.quiet
  if linkUp s && s.twin.st == .paired then .next (allowTake s i false) else .next s

/-- HANDOVER received: of an instance that the partner hands over, or the partner's word that it has resumed the one handed to it. -/
def execHandover (i : Nat) (_jsn : BitVec 48) (s : State) : Res :=
  let s := s.quiet
  if !linkUp s || s.twin.st != .paired then .next s
  else
    match kvFind s.twin.handing i with
    | some q =>
      if (s.inst i).role == .local_ then
        .next (completeNow { s with twin := { s.twin with handing := kvDel s.twin.handing i } } 0 q 0 0 0 [])
      else .next s
    | none => .next (allowTake s i true)

/-! ## The partner lost; the fence (R364 to R366) -/

/-- The mirror no longer holds events back: the module is ALONE, its primaries are exposed, and what waited takes effect. -/
def leavePair (s : State) : State :=
  let gs := s.twin.groups
  let s := { s with
    twin := { s.twin with st := .alone, groups := [], notes := [], keyNotes := [], asking := false, fenceOut := true }
    insts := kvMap (fun _ x => if x.role == .primary || x.role == .exposed then { x with role := .exposed, copying := false } else x) s.insts }
  endTwinCommands (gs.foldl groupAct s)

/-- Twenty microseconds without a valid flit (R364). -/
def execPartnerLostTimeout (s : State) : Res :=
  let s := s.quiet
  if !s.live || s.twin.st != .paired || s.twin.asking then .next s
  else
    let s := tick s 2000
    let s := if s.twin.link ≥ 2 then linkDown s 3 else s
    .next { s with twin := { s.twin with asking := true } }

/-- One fence cycle in which this module asks (R365): it begins at a multiple of four of the timebase, in position B 10 microseconds
after the declaration, and only while the module's own latch is clear. -/
def execFenceAsk (ackLow : Bool) (s : State) : Res :=
  let s := s.quiet
  if !s.live || s.twin.st != .paired || !s.twin.asking || s.twin.latch then .next s
  else
    let s := if s.twin.askTb.isNone && s.twin.posB then tick s 1000 else s
    let s := passUntil s (roundUp s.clk.tb 4)
    let s := { s with twin := { s.twin with askTb := some (s.twin.askTb.getD s.clk.tb), ackLow := ackLow, fenceOut := ackLow } }
    if ackLow then
      let at_ := s.clk.tb
      let s := leavePair s
      let s := { s with twin := { s.twin with takeAll := some at_, unanswered := false } }
      .next (logEvent s { jlEntry s 0x73 4 with detail := 1 })
    else .next s

/-- A millisecond without an answer (R366). -/
def execFenceUnanswered (s : State) : Res :=
  let s := s.quiet
  if !s.live || s.twin.st != .paired || !s.twin.asking then .next s
  else
    match s.twin.askTb with
    | none => .next s
    | some t =>
      let s := passUntil s (t + 100000)
      let s := logEvent s (jlEntry s 0x77 4)
      let s := leavePair s
      .next { s with twin := { s.twin with unanswered := true } }

/-- TWIN_FENCE_IN rises (R365, R366). Position A's latch ignores it while A itself drives the fence. Without clocks, and in a reset, only
the latch acts; tower release clears what a reset has latched (R425). -/
def execFenceLatchSet (s : State) : Res :=
  let s := s.quiet
  let latched : Res := .next { s with twin := { s.twin with latch := true, fenceIn := true, ackLow := true } }
  match s.clk.phase with
  | .coldReset => latched
  | .startUp => latched
  | .bringUp => latched
  | .warmReset => latched
  | .frozen => .next { s with twin := { s.twin with latch := true, fenceIn := true, ackLow := true, st := .fenced } }
  | .run =>
    if s.twin.latch || (!s.twin.posB && (s.twin.asking || s.twin.fenceOut)) then .next s
    else
      let mine := instancesIn s fun r => r == .primary || r == .exposed
      let s := mine.foldl (fun s i => surrender s i 4) s
      let s := endTwinCommands { s with twin := { s.twin with
        latch := true, fenceIn := true, ackLow := true, asking := false, fenceOut := false, st := .fenced, groups := [], notes := [], keyNotes := [] } }
      .next (logEvent s { jlEntry s 0x76 4 with param := paramAt 48 2 mine.length })

/-! ## TWIN_QUERY (R354, R372) -/

/-- JL_STATUS. -/
def jlStatus (s : State) : Nat :=
  let t := s.twin
  b2n t.latch * 2 ^ 15 + b2n t.fenceIn * 2 ^ 14 + b2n t.fenceOut * 2 ^ 13 + b2n t.ackLow * 2 ^ 12 + b2n t.posB * 2 ^ 8
    + b2n t.mismatch * 2 ^ 7 + t.st.code * 16 + t.link

def execTwinQuery (seq : BitVec 32) (s : State) : Res :=
  let s := s.quiet
  match takeCmd s seq.toNat 0x70 with
  | none => .next s
  | some r =>
    if par r.entry 36 == 0 then
      .next (done s r 0 (toBE 8 (jlStatus s) ++ toBE 4 (s.twin.partner.getD 0) ++ toBE 4 (poolGuaranteed s poolMirror 0)))
    else
      let i := reqTarget r.entry
      let x := s.inst i
      .next (done s r 0 (toBE 1 x.role.code ++ toBE 1 (b2n x.copying) ++ toBE 6 (kvGet 0 s.twin.lastAck i)))

end Sys2Proof.Machine
end

