-- ==== Sys2Proof/Machine/Takeover.lean ====
section
/-! DEFINITION. Takeover and replay (R366, R369, R370). -/

namespace Sys2Proof.Machine

open Sys2Proof

/-! ## The mirrored journal (R261, R262, R369) -/

/-- A journal entry read from its 64 bytes. -/
def jentryOf (l : List Byte) : JEntry :=
  let f := fieldBE l 1 1
  { type := fieldBE l 0 1, twin := bit f 7, discard := bit f 6, onceOpen := bit f 5, jsn := fieldBE l 2 6, inst := fieldBE l 8 2
    sub := fieldBE l 10 2, device := fieldBE l 12 2, path := fieldBE l 14 1, state := fieldBE l 15 1, opJsn := fieldBE l 16 6
    cce := fieldBE l 22 2, status := fieldBE l 24 1, ve := fieldBE l 25 1, detail := fieldBE l 26 2, count := fieldBE l 28 4
    tb := fieldBE l 32 8, program := fieldBE l 40 8, statusAddr := fieldBE l 48 8, user := fieldBE l 56 8 }

/-- The mirrored entries of instance `i`, oldest first. -/
def mirroredEntries (s : State) (i : Nat) : List JEntry :=
  ((s.twin.rxJournal.map fun e => jentryOf e.2).filter fun e => 1 ≤ e.type && e.type ≤ 7 && e.inst == i).mergeSort
    fun a b => !serialBefore 48 b.jsn a.jsn

/-- Entries of the latest operation of subchannel `n`, and the last of them. -/
def opEntries (l : List JEntry) (n : Nat) : List JEntry × Option JEntry :=
  let l := l.filter fun e => e.sub == n
  match l.getLast? with
  | some z => (l.filter fun e => e.opJsn == z.opJsn, some z)
  | none => ([], none)

/-- Whether a once-only CCE is open after these entries, and which are done. -/
def onceState (l : List JEntry) : Bool × List Nat :=
  l.foldl (fun (x : Bool × List Nat) e => match e.type with
    | 2 => (true, x.2)
    | 3 => (false, x.2 ++ [e.cce])
    | 7 => (e.onceOpen, x.2)
    | _ => x) (false, [])

/-- Has the operation ended by this entry: END, or a CARRY of an ended operation? -/
def JEntry.ended (e : JEntry) : Bool := e.type == 5 || (e.type == 7 && e.state ≥ 5)

/-- An unfinished operation is run again from CCE 0 (R262): once-only CCEs that are done are left out, one that is open ends the operation,
and its program is read and checked anew. `since` is when the lost module's egress was known closed. -/
def redoOp (s : State) (i : Nat) (es : List JEntry) (e : JEntry) (since : Nat) : State :=
  let (opened, doneCces) := onceState es
  let x : Sub := { s.sub i e.sub with
    st := .active, reissued := true, onceOpen := opened, ve := e.ve, device := e.device, opJsn := e.opJsn, cce := e.cce, program := e.program
    status := e.statusAddr, user := e.user, count := 0, position := 0, pieces := [], exposes := [], prog := []
    redo := some since, onceDone := doneCces, lossTb := since, startJsn := none, endWait := none }
  let s := takeGroup (s.setSub i e.sub x) i e.sub
  let s := journal s i e.sub 7 false
  if opened then endSub s i e.sub .outcomeUnknown 0 0
  else
    match checkProgram s i x (subDev s x).namespace 256 0 {} with
    | .error (k, st, d, bad) =>
      let s := s.setSub i e.sub { s.sub i e.sub with cce := k }
      let s := match bad with
        | some l => logPoison s i l 2 e.opJsn
        | none => s
      endSub s i e.sub st d 0
    | .ok prog => s.setSub i e.sub { s.sub i e.sub with st := .reissuing, prog := prog, cce := 0 }

/-- An operation with an END entry and no PRESENT: its status record is written again and its interruption pends; one that was held for a
quiesced instance stays held. -/
def endedOp (s : State) (i : Nat) (es : List JEntry) (e : JEntry) : State :=
  let z := ((es.filter fun x => x.type == 5).getLast?).getD e
  let x := s.sub i e.sub
  let held := x.st == .held
  let s := s.setSub i e.sub { x with
    st := if held then .held else .ending, ve := e.ve, device := e.device, opJsn := e.opJsn, cce := e.cce, program := e.program
    status := e.statusAddr, user := e.user, count := e.count, endJsn := if z.type == 5 then z.jsn else x.endJsn
    fstatus := if z.type == 5 then z.status else x.fstatus, detail := if z.type == 5 then z.detail else x.detail }
  let s := takeGroup s i e.sub
  let s := journal s i e.sub 7 false
  if held then s else writeStatus s i e.sub

/-- The scan of the mirrored journal (R369 step 2). -/
def scanJournal (s : State) (i since : Nat) : State :=
  let l := mirroredEntries s i
  ((l.map (·.sub)).dedup).foldl (fun s n =>
    match opEntries l n with
    | (_, none) => s
    | (es, some e) =>
      if e.type == 6 then s else if e.ended then endedOp s i es e else redoOp s i es e since) s

/-- Operation blocks of the mirrored control block: issued ones start normally, ended ones carry what the journal does not. -/
def takeOps (s : State) (i : Nat) (d : List Byte) : State :=
  (records 64 d).foldl (fun s l =>
    let st : SubState := match fieldBE l 0 1 with
      | 0 => .idle | 6 => .pending | 7 => .held | _ => .issued
    if st == .idle then s
    else
      let (k, s) := s.fresh
      let s := { s with css := { s.css with order := s.css.order + 1 } }
      takeGroup (s.setSub i (fieldBE l 62 2) {
        st := st, reissued := bit (fieldBE l 1 1) 7, prio := bits (fieldBE l 1 1) 3 2, ve := fieldBE l 4 1, device := fieldBE l 6 2
        opJsn := fieldBE l 8 6, cce := fieldBE l 14 2, program := fieldBE l 16 8, status := fieldBE l 24 8, user := fieldBE l 32 8
        endJsn := if st == .issued then 0 else Config.pick k % 2 ^ 48, position := fieldBE l 40 8, count := fieldBE l 48 4, fstatus := fieldBE l 52 1, detail := fieldBE l 54 2
        devstat := fieldBE l 56 4, reissues := fieldBE l 60 2, order := s.css.order }) i (fieldBE l 62 2)) s

/-! ## Contexts and the rest (R369 steps 3 to 6) -/

/-- The virtual engines of the instance, from the context slots of the twin area into free checkpoint slots. -/
def takeContexts (s : State) (i : Nat) : State :=
  (List.range 64).foldl (fun s v =>
    let k := veKey i v
    if (kvFind s.twin.rxSlots (k * 16)).isNone then s
    else
      let l := (List.range 16).flatMap fun j => padTo 64 (kvGet [] s.twin.rxSlots (k * 16 + j))
      let (n, s) := s.fresh
      let x := veOf n l
      let slot := freeSlot s x.tower
      s.setVe k { x with slot := slot }) s

/-- What the control block holds of the instance: operations, keys, queues, SEQ and ring indices. Ring tails follow the doorbells that the
host writes again (R370). -/
def takeControl (s : State) (i : Nat) : State :=
  let key := s.twin.key.getD []
  let s := (parseSections 7 (Config.mirroredContent s.twin.rxControl i)).foldl (fun s x => match x with
    | (2, _, _, _, p) => takeOps s i p
    | (3, _, _, _, p) => importKeys s i key p
    | (4, a, b, c, p) => importQueues s i a b c p
    | (7, _, _, _, p) => importSeq s i p
    | _ => s) s
  let s := (List.range 8).foldl (fun s k =>
    let r := s.ring (i + 1) k
    s.setRing (i + 1) k { r with rqTail := r.rqHead, reading := none }) s
  reserveRings s i

/-- Completion entries between the mirrored consumed head and tail written again, byte for byte, each in its slot; messages follow (R369
step 5). -/
def rewriteCompletions (s : State) (i : Nat) : State :=
  (Config.mirroredCompletions s.twin.rxControl i).foldl (fun s e =>
    let s := hostWrite s (i + 1) ((s.ring (i + 1) e.1).cqBase + e.2.1 * 32) (padTo 32 e.2.2)
    gather s (i + 1) e.1) s

/-- Every page of every logged region marked, where dirty logging is on (R370). -/
def allDirty (s : State) (i : Nat) : State :=
  match (s.inst i).log with
  | none => s
  | some d =>
    let pages := (logRegions s i).flatMap fun r => (List.range r.2).map (r.1 + ·)
    s.updInst i fun x => { x with log := some { d with dirty := (d.dirty ++ pages).dedup } }

/-- TAKEOVER logged, and the event message sent (R369 step 7). -/
def logTakeover (s : State) (i : Nat) : State :=
  let seq := s.bel.eseq
  let s := logEvent s { jlEntry s 0x74 2 with inst := i, ref := (s.inst i).lastJsn }
  if !s.bel.stopped && s.bel.outstanding.isNone && (s.fn 0).vecEn then
    sendMsix { s with bel := { s.bel with outstanding := some seq } } 0 (s.fn 0).vec
  else s

/-- Since when instance `i` may be taken over (R366). -/
def takeSince (s : State) (i : Nat) : Option Nat :=
  match kvFind s.twin.mayTake i with
  | some t => some t
  | none => s.twin.takeAll

/-- Is `i` the lowest copy that may be taken over? A copy that is still being filled is none (R363). -/
def nextTake (s : State) (i : Nat) : Bool :=
  ((instancesIn s (· == .secondary)).filter fun j => !(s.inst j).copying && (takeSince s j).isSome).head? == some i

/-- TWIN_FORCE completes when no copy is left to take over. -/
def endForce (s : State) : State :=
  match s.twin.forcing with
  | some q =>
    if (instancesIn s (· == .secondary)).any fun j => !(s.inst j).copying then s
    else completeNow { s with twin := { s.twin with forcing := none } } 0 q 0 0 0 []
  | none => s

/-- Instance `i` taken over: it is EXPOSED here in the state that was mirrored. -/
def takeInst (s : State) (i since : Nat) : State :=
  let s := takeControl (takeContexts (dropInstTlb s i) i) i
  let s := s.updInst i fun x => { x with role := .exposed, copying := false }
  let s := scanJournal s i since
  let s := allDirty (rewriteCompletions s i) i
  logTakeover s i

/-- TAKEOVER. Staging is drained first; groups that are not durable are discarded. -/
def execTakeover (i : Nat) (s : State) : Res :=
  let s := s.quiet
  if !s.live || !nextTake s i then .next s
  else
    let s := s.twin.staged.foldl (fun s _ => applyFirst s) s
    match takeSince s i with
    | none => .next s
    | some since =>
      -- the last durable group may have freed the copy
      if (s.inst i).role != .secondary then .next (endForce s)
      else
        let s := { s with twin := { s.twin with rxOpen := if s.twin.st == .paired then s.twin.rxOpen else [] } }
        let s := takeInst s i since
        let handed := s.twin.handed.contains i
        let s := { s with twin := { s.twin with mayTake := kvDel s.twin.mayTake i, handed := s.twin.handed.filter (· != i) } }
        let s := if handed && s.twin.link ≥ 2 then sendControl s ctlHandover [i, (s.inst i).lastJsn] else s
        .next (endForce s)

/-! ## TWIN_FORCE (R366) -/

def execTwinForce (seq : BitVec 32) (s : State) : Res :=
  let s := s.quiet
  match takeCmd s seq.toNat 0x74 with
  | none => .next s
  | some r =>
    if !(s.twin.st == .alone && s.twin.unanswered) then .next (refuseTwin s r 0xFFFF)
    else if some (fieldBE r.entry 40 8) != s.twin.partner then .next (answer s r .fieldInvalid 40)
    else
      let s := { s with twin := { s.twin with takeAll := some s.clk.tb, unanswered := false, forcing := some r.seq } }.setStage 0 r.seq .running
      let s := logEvent s { jlEntry s 0x73 4 with detail := 2 }
      .next (endForce s)

end Sys2Proof.Machine
end

