-- ==== Sys2Proof/Machine/StartUp.lean ====
section
/-! DEFINITION. Resets and start-up (R389, R390, R396, R401 to R407, R424 to R431, R434 to R442): what a reset clears, the Spire's steps,
the units that the tests fence, the first entries of the log. -/

namespace Sys2Proof.Machine

open Sys2Proof

/-! ## What a reset keeps (R425) -/

/-- A region of the NOR after a reset: a write cut short leaves it without its marker; its verdict is formed anew. -/
def Region.afterReset (r : Region) : Region := { r with writing := none, new := [], reason := 0, offset := 0 }

/-- The fuses and the NOR. -/
def Spire.afterReset (p : Spire) : Spire :=
  { modid := p.modid, secret := p.secret, root := p.root, owners := p.owners, revoke := p.revoke, fuseOps := p.fuseOps, package := p.package
    seed := p.seed, dkeys := p.dkeys, pendingPkg := p.pendingPkg, boot := p.boot, bootRing := p.bootRing, slotA := p.slotA.afterReset
    slotB := p.slotB.afterReset, push := p.push.afterReset, preferred := p.preferred }

/-- What the self-test controller keeps in fuses, in the NOR and on VAUX. -/
def Tst.afterReset (t : Tst) : Tst :=
  { bistPass := t.bistPass, bistFail := t.bistFail, bistIncomplete := t.bistIncomplete, softRepairs := t.softRepairs, fuseUsed := t.fuseUsed
    repairs := t.repairs, reserveFused := t.reserveFused, hubLatch := t.hubLatch, hubLogged := t.hubLogged, cal := t.cal
    calBuffer := t.calBuffer, recal := t.recal }

/-- PERST# asserted or the rails powered: everything at its reset value but fuses, NOR, VAUX latches and straps. THERMTRIP_N goes high if
every sensor reads below 110 °C (R463). -/
def coldState (s : State) (cause : Nat) : State :=
  { pending := s.pending, variant := s.variant, stepping := s.stepping, free := s.free
    spire := s.spire.afterReset, tst := s.tst.afterReset
    bel := { sticky := s.bel.sticky, stickyOld := s.bel.stickyOld, alert := s.bel.alert, healthMax := s.bel.healthMax
             entryLost := s.bel.entryLost }
    twin := { latch := s.twin.latch, fenceIn := s.twin.latch, ackLow := s.twin.latch }
    clk := { refclkLost := s.clk.refclkLost, thermtripped := s.clk.thermtripped, heartbeat := s.clk.heartbeat, cause := cause, strap := s.clk.strap
             thermtripPin := s.clk.thermtripPin && s.clk.readings.any fun e => decide (880 ≤ e.2.toInt) } }

/-- Configuration space of a function across a warm reset: it stays, the registers and the MSI-X table behind its BARs go (R39). -/
def Fn.afterWarm (f : Fn) : Fn :=
  { mse := f.mse, bme := f.bme, d3hot := f.d3hot, msixEn := f.msixEn, fmask := f.fmask, aer := f.aer, devCtl := f.devCtl, bars := f.bars, cfg := f.cfg }

/-- A warm reset begins (R425, R426): instances, memory and jobs are gone; the log, the JSN and ESEQ series and the timebase go on. -/
def warmState (s : State) : State :=
  { pending := s.pending, out := s.out, variant := s.variant, stepping := s.stepping, free := s.free, img := s.img
    spire := s.spire.afterReset
    tst := { s.tst.afterReset with fenced := s.tst.fenced, calValid := s.tst.calValid, calFactory := s.tst.calFactory }
    bel := { s.bel with stopped := false, minClass := 4, outstanding := none, fatal := false, selSticky := false, sel := 0 }
    hp := { fns := kvMap (fun _ f => f.afterWarm) s.hp.fns, vfEnable := s.hp.vfEnable, vfMse := s.hp.vfMse }
    css := { jsn := s.css.jsn }
    twin := { latch := s.twin.latch, fenceIn := s.twin.latch, ackLow := s.twin.latch }
    clk := { s.clk with phase := .warmReset, power := 0, warmTb := s.clk.tb, cause := 2 } }

/-! ## The Spire's steps (R402) -/

/-- Fuse operations applied before the fuses are read: those of packages in force and of the one that comes into force now, and the
repairs that wait (R396, R407, R441). -/
def applyPending (s : State) (sealLost : Bool) : State :=
  let p := s.spire
  let new := match p.pendingPkg with
    | some b => if sealLost then [] else [fuseOpOf b]
    | none => []
  let (owners, revoke) := fusesWith s (p.fuseOps ++ new)
  let t := s.tst
  let t := t.repairs.foldl (fun (t : Tst) x => { t with
    fuseUsed := t.fuseUsed + 1
    reserveFused := if x.kind == 1 then kvSet t.reserveFused (towerOf x.unit.unit) x.unit.unit else t.reserveFused }) t
  { s with spire := { p with owners := owners, revoke := revoke, fuseOps := [] }, tst := { t with repairs := [] } }

/-- MREG0 (R401). -/
def measureRom (s : State) : State :=
  let p := s.spire
  extendReg (extendReg s 0 (sha256 (Config.spireRom s.stepping))) 0
    (sha256 (p.root ++ p.owners.flatten ++ [BitVec.ofNat 8 (p.revoke % 16)]))

/-- One candidate image tried (R390): its verdict recorded, MREG5 extended. -/
def tryImage (s : State) (k : Nat) (m : NorImage) : Bool × State :=
  let v := checkImage s m
  let reason := (v.map Prod.fst).getD 0
  let s := setRegion s k { region s k with reason := reason, offset := (v.map Prod.snd).getD 0 }
  (v.isNone, extendReg s 5 (padTo 32 ([BitVec.ofNat 8 k, 0] ++ toBE 2 reason)))

def tryImages (s : State) : List (Nat × NorImage) → Option (Nat × NorImage) × State
  | [] => (none, s)
  | (k, m) :: r =>
    match tryImage s k m with
    | (true, s) => (some (k, m), s)
    | (false, s) => tryImages s r

/-- The candidates in order: after a warm reset the pushed image, then the preferred slot, then the other. -/
def candidates (s : State) (warm : Bool) : List (Nat × NorImage) :=
  let slot (k : Nat) : List (Nat × NorImage) :=
    let r := region s k
    match r.image with
    | some m => if r.marker then [(k, m)] else []
    | none => []
  (if warm then slot 2 else []) ++ slot s.spire.preferred ++ slot (1 - s.spire.preferred)

/-- Image selection. The push region's marker is erased before anything is tried. -/
def selectImage (s : State) (warm : Bool) : Option (Nat × NorImage) × State :=
  let l := candidates s warm
  tryImages { s with spire := { s.spire with push := { s.spire.push with marker := false } } } l

/-- The image in force (R394), its owner slot, MREG1. -/
def putImage (s : State) (k : Nat) (m : NorImage) : State :=
  let owner := match m with
    | .factory => 0
    | .bytes l => fieldBE l (imgOsig l + 1) 1 % 4
  let s := { s with img := imgOf s m, spire := { s.spire with inForce := k, image := m, owner := owner } }
  extendReg s 1 s.img.structHash

/-- The owner key package read (R403, R406, R407): a pending one comes into force; one whose seal is damaged counts as absent. -/
def loadPackage (s : State) (warm sealLost : Bool) : Bool × State :=
  let p := s.spire
  let any := p.package.isSome || p.pendingPkg.isSome
  let p :=
    if sealLost && any then
      { p with package := none, pendingPkg := none, seed := zeros 32, dkeys := List.replicate 4 none }
    else
      match p.pendingPkg with
      | none => p
      | some b =>
        let op := fieldBE b 24 1
        { p with
          package := some b, pendingPkg := none, seed := slice b 32 32
          dkeys := (List.range 4).map fun d =>
            if bit op d then some (slice b (64 + 32 * d) 32) else if bit op (4 + d) then none else (p.dkeys[d]?).getD none
          fuseOps := if warm then p.fuseOps ++ [fuseOpOf b] else p.fuseOps }
  let s := { s with spire := p }
  (sealLost && any, extendReg s 6 (match p.package with | some b => sha256 (pkgPublic b) | none => zeros 32))

/-- The calibration page read (R450, R451): a valid buffer is copied into it first. The training and the trims of a warm start stay. -/
def loadCal (s : State) (warm calLost : Bool) : Bool × State :=
  let t := s.tst
  let t := match t.calBuffer with
    | some b => if calUsable s (.bytes b) then { t with cal := .bytes b, calBuffer := none } else { t with calBuffer := none }
    | none => t
  let (n, s) := s.fresh
  let page := if calLost then CalPage.bytes (padTo 4096 (Config.bytes n 4096)) else t.cal
  let bad := calLost || !calUsable s page
  let t := if bad then { t with calValid := false, calFactory := 0 }
           else if warm then t
           else { t with calValid := true, calFactory := calFactoryOf page }
  let trim := if bad then true else if warm then s.clk.trimDefault else !bit (calFactoryOf page) 4
  let s := { s with tst := { t with cal := page }, clk := { s.clk with trimDefault := trim } }
  (bad, extendReg s 3 (sha256 (calBytes s page)))

/-- Bytes 208 to 239 of the boot-record entry (R404). -/
def entryTests (s : State) (ms : Nat) : List Byte :=
  let t := s.tst
  toBE 8 t.bistPass ++ toBE 8 t.bistFail ++ toBE 8 t.bistIncomplete ++ toBE 2 t.softRepairs ++ toBE 1 t.fuseUsed ++ zeros 1 ++ toBE 4 ms

/-- The boot-record entry (R404). -/
def bootEntry (s : State) (warm : Bool) (ms : Nat) : List Byte :=
  let p := s.spire
  let m := imageBytes s p.image
  let flags := b2n s.clk.trimDefault + b2n ((p.owners.flatten).all (· == 0)) * 2 + b2n warm * 4 + b2n p.package.isSome * 8
  let prev := match bootEntry? s p.boot with
    | some e => sha256 e
    | none => zeros 32
  padTo 256 (toBE 8 (p.boot + 1) ++ toBE 1 (b2n warm) ++ toBE 1 p.inForce ++ toBE 1 flags ++ toBE 1 p.owner ++ toBE 4 p.modid ++ prev
    ++ s.img.structHash ++ s.img.ucodeHash ++ sha256 (calBytes s s.tst.cal) ++ sha256 (p.mreg.take 7).flatten
    ++ toBE 8 (imgRelease m) ++ toBE 8 (imgVersion m) ++ imgLabel m ++ entryTests s ms)

/-- MREG2, MREG4, and the entry written into the ring. -/
def writeEntry (s : State) (warm : Bool) (ms : Nat) : State :=
  let s := extendReg (extendReg s 2 s.img.ucodeHash) 4 (sha256 (entryTests s ms))
  let b := s.spire.boot + 1
  { s with spire := { s.spire with boot := b, bootRing := kvSet s.spire.bootRing (b % 4096) (bootEntry s warm ms) } }

/-! ## Units at tower release (R379, R425, R439, R441) -/

/-- The role that the image gives an engine slot. A fuse reserve placed for good is the engine of its slot, number and role (R22), and the
tower has no reserve any more. -/
def startRole (s : State) (p : Nat) : Role :=
  let t := towerOf p
  let slot (k : Nat) : Role := match s.img.roles.getD k 0 with
    | 1 => .dispatch
    | 2 => .spare
    | _ => .disabled
  if t ≥ s.variant.towers then .disabled
  else
    if p < 128 then slot p else if (kvFind s.tst.reserveFused t).isSome then .disabled else .reserve

/-- The engines at tower release, each control store locked (R184). -/
def startEngines (s : State) : KV Engine :=
  (List.range 136).map fun p => (p, { role := startRole s p, cs := { (s.eng p).cs with locked := true } })

/-- The microcode load: the control stores of all engines, spares and reserves too, and of all channel engines (R177, R192). -/
def loadMicrocode (s : State) : State :=
  { s with
    engines := (List.range 136).map fun p => (p, { cs := masterStore s false })
    css := { s.css with cheStores := (List.range 32).map fun c => (c, masterStore s true) } }

/-- The way that leaves a dome when way `w` fails: for the checkpoint way, the highest lockable one, or else the highest ordinary one,
takes its place. -/
def lostWay (s : State) (t w : Nat) : Nat :=
  if w == 15 then ((s.lockable t).getLast?).getD (14 - s.img.lockways) else w

/-- A unit that the tests of this start take out of service, and the class of its entry: 3 where another engine takes its slot. -/
def fenceStart (s : State) (u : UnitId) : Nat × State :=
  match u.source with
  | 1 =>
    let p := engineOfUnit u.unit
    let role := (s.eng p).role
    let s := s.updEng p fun e => { e with fenced := true }
    let next := if role == .dispatch then (idleSpare s (towerOf p)).or (freeReserve s (towerOf p)) else none
    match next with
    | some q => (3, s.updEng q fun e => { e with role := .dispatch })
    | none => (4, s)
  | 2 =>
    let w := lostWay s u.unit u.way
    (4, (fenceUnit s { u with way := w }).updDome u.unit fun d => { d with waysOut := if d.waysOut.contains w then d.waysOut else d.waysOut ++ [w] })
  | 7 => (4, { s with css := { s.css with chesStopped := if s.css.chesStopped.contains u.unit then s.css.chesStopped else s.css.chesStopped ++ [u.unit] } })
  | 8 => (4, { fenceUnit s u with css := { s.css with paths := kvSet s.css.paths u.unit { s.path u.unit with down := true } } })
  | 9 => (4, { s with xce := { s.xce with fenced := if s.xce.fenced.contains u.unit then s.xce.fenced else s.xce.fenced ++ [u.unit] } })
  | 10 => (4, { s with cze := { s.cze with fenced := if s.cze.fenced.contains u.unit then s.cze.fenced else s.cze.fenced ++ [u.unit] } })
  | _ => (4, fenceUnit s u)

/-- All of them, with the classes for the log. -/
def fenceAll (s : State) (l : List UnitId) : List (UnitId × Nat) × State :=
  l.foldl (fun (x : List (UnitId × Nat) × State) u =>
    let (c, s) := fenceStart x.2 u
    (x.1 ++ [(u, c)], s)) ([], s)

/-- Like units still in service beside a fenced one (R339). -/
def likeUnits (s : State) (u : UnitId) : Nat :=
  match u.source with
  | 1 => dispatchable s (towerOf (engineOfUnit u.unit))
  | 2 => 15 - (s.dome u.unit).waysOut.length
  | 4 => modulesLeft s (u.unit / 6)
  | 6 => s.variant.stacks - (s.tst.fenced.filter fun x => x.source == 6).length
  | 7 => 32 - s.css.chesStopped.length
  | 8 => ((List.range (pathsOfMode s.img.pathMode)).filter fun n => bit s.img.pathEnable n && !(s.path n).down).length
  | 9 => s.variant.xces - s.xce.fenced.length
  | 10 => s.variant.czes - s.cze.fenced.length
  | _ => 0

/-- Groups that RECAL has marked, trained and written into the page at a cold start (R452). -/
def retrain (s : State) (l : List (Nat × List Byte)) : Bool × State :=
  let l := l.filter fun g => g.1 < 4 && bit s.tst.recal g.1
  if l.isEmpty then (false, { s with tst := { s.tst with recal := 0 } })
  else
    let page := l.foldl (fun m g => match calGroups[g.1]? with
      | some (o, n) => patch m o (padTo n g.2)
      | none => m) (calBytes s s.tst.cal)
    -- the results keep their FACTORY bits at 0 even where they happen to equal the values they replace
    let m := calMerge s page
    let keep := l.foldl (fun f g => if bit f g.1 then f - 2 ^ g.1 else f) (fieldBE m 6 1)
    let m := patch m 6 (toBE 1 keep)
    let m := patch m 0xFE0 (sha256 (m.take 0xFE0))
    (true, { s with tst := { s.tst with cal := .bytes m, recal := 0, calFactory := keep } })

/-! ## The first entries of the log (R341, R342) -/

/-- The DEVICE_FATAL entry since the previous start-up ended, copied with its original time and number. -/
def copyFatal (s : State) (warm : Bool) : State :=
  let s := match (s.bel.sticky.drop s.bel.stickyOld).find? fun e => e.event == 0x50 with
    | some e => logWrite s { e with ref := e.eseq }
    | none => s
  if warm then s else { s with bel := { s.bel with sticky := [], stickyOld := 0 } }

/-- The latches of CLK_RESET_CAUSE logged and cleared. -/
def logLatches (s : State) : State :=
  let c := s.clk
  let s := if c.refclkLost then logEvent s { s.entry 0x50 6 0x0F 0 with detail := 2 } else s
  let s := if c.heartbeat then logEvent s { s.entry 0x50 6 0x0F 0 with detail := 1 } else s
  let s := if c.thermtripped then logEvent s (s.entry 0x94 6 0x13 0) else s
  { s with clk := { s.clk with refclkLost := false, heartbeat := false, thermtripped := false } }

/-- HUB_BIST_FAILED from the latch, once. -/
def logHub (s : State) : State :=
  match s.tst.hubLatch with
  | some (k, u) =>
    if s.tst.hubLogged then s
    else logEvent { s with tst := { s.tst with hubLogged := true } } { s.entry 0x86 6 u.source u.unit with detail := k }
  | none => s

/-- Entries 1 to 5 of R342. -/
def logHead (s : State) (warm : Bool) : State :=
  let s := logEvent s { s.entry 0x60 0 0x10 0 with detail := b2n warm, param := s.spire.boot }
  let s := logEvent s { s.entry 0x92 0 0x0F 0 with detail := s.clk.cause }
  logHub (logLatches (copyFatal s warm))

/-! ## Tower release -/

/-- The state at tower release, before the log: roles and fenced units, the link free to train, no latch. -/
def releaseState (s : State) (warm : Bool) (r : StartResult) : List (UnitId × Nat) × State :=
  let (n, s) := s.fresh
  let tb := if warm then (s.clk.warmTb + 4200000) % 2 ^ 64 else Config.pick n % (r.ms.toNat * 100000 + 1)
  let s := { s with
    tst := { s.tst with fenced := [] }
    clk := { s.clk with phase := .run, tb := tb, power := 0 } }
  let s := { s with
    engines := startEngines s
    css := { s.css with cheStores := s.css.cheStores.map fun x => (x.1, { x.2 with locked := true }) } }
  let (l, s) := fenceAll s r.fenced
  let trains := s.variant.jlk && s.img.twin && !s.tst.fenced.any fun u => u.source == 12
  (l, { s with
    twin := { link := b2n trains }
    spire := { s.spire with releaseTb := s.clk.tb } })

/-- Did a power-on test of engine `u` fail, and not only end INCOMPLETE, for which no fuse repair is scheduled (R438)? -/
def logFailed (r : StartResult) (u : UnitId) : Bool :=
  let t := towerOf (engineOfUnit u.unit)
  r.bistFail.getLsbD t || r.bistFail.getLsbD (8 + t)

/-- A soft repair that this start's tests have made by redundant rows, a spare lane or the spare segment (R439), and the fuse operation that
would make it last (R441). -/
def startRepair (s : State) (u : UnitId) (kind : Nat) : State :=
  let s := if kind == 4 then testFailed (fenceUnit s u) u 4 else testFailed s u 1
  scheduleFuse s u kind

/-- Everything a start logs, in its order. -/
def logStart (s : State) (warm : Bool) (r : StartResult) (repairs : List Repair) (fenced : List (UnitId × Nat))
    (keyLost calBad trained : Bool) : State :=
  let s := logHead s warm
  let s := repairs.foldl (fun s x => logEvent s { s.entry 0x83 0 x.unit.source x.unit.unit with param := paramAt 48 1 x.kind }) s
  let s := fenced.foldl (fun s x =>
    if warm then (unitFenced s 4 x.1.source x.1.unit (likeUnits s x.1)).1
    else
      let s := testFailed s x.1 x.2
      if x.2 == 3 && logFailed r x.1 then scheduleFuse s x.1 1 else s) s
  let s := if warm then s else r.repaired.foldl (fun s x => startRepair s x.1 x.2) s
  let s := if keyLost then logEvent s (s.entry 0xA4 4 0x0D 0) else s
  let s := if calBad then logEvent s (s.entry 0x88 4 0x0E 0) else s
  let s := if trained then calWritten s 2 else s
  let s := if warm then s else logEvent s { s.entry 0x93 0 0x0F 0 with param := paramAt 48 4 r.ms.toNat }
  { s with bel := { s.bel with stickyOld := s.bel.sticky.length } }

/-- Start-up stops for good (R390, R403, R440). -/
def stayDown (s : State) : State := { s with clk := { s.clk with phase := .bringUp } }

/-- The steps of a start after the reset, cold or warm, up to tower release. -/
def startSteps (s : State) (warm : Bool) (r : StartResult) : State :=
  let repairs := if warm then [] else s.tst.repairs
  let s := if warm then s else applyPending s r.sealLost
  let (c, s) := selectImage (measureRom s) warm
  match c with
  | none => stayDown s
  | some (k, m) =>
    let (keyLost, s) := loadPackage (putImage s k m) warm r.sealLost
    let s := loadMicrocode s
    let (calBad, s) := loadCal s warm r.calLost
    let s := if warm then s else
      { s with tst := { s.tst with
        bistPass := r.bistPass.toNat, bistFail := r.bistFail.toNat, bistIncomplete := r.bistIncomplete.toNat
        softRepairs := r.softRepairs.toNat
        hubLatch := if s.tst.hubLogged then none else s.tst.hubLatch, hubLogged := false } }
    match (if warm then none else r.hubFailure) with
    | some f => stayDown { s with tst := { s.tst with hubLatch := some f, hubLogged := false } }
    | none =>
      let (trained, s) := if warm then (false, s) else retrain s r.retrained
      if !r.entryWritten then stayDown { s with bel := { s.bel with entryLost := true } }
      else
        let s := writeEntry s warm r.entryMs.toNat
        let (l, s) := releaseState s warm r
        logStart s warm r repairs l keyLost calBad trained

/-- Cold start-up ends at tower release (R430). -/
def execStartUpComplete (r : StartResult) (s : State) : Res :=
  let s := s.quiet
  if s.clk.phase == .startUp then .next (startSteps s false r) else .next s

/-- A warm reset ends exactly 4,200,000 timebase cycles after it began (R426). -/
def execWarmResetEnd (r : StartResult) (s : State) : Res :=
  let s := s.quiet
  if s.clk.phase == .warmReset then .next (startSteps s true r) else .next s

/-- WARM_RESET over SMBus (R428): 0x5A starts one, other values are ignored; during a warm reset the target NACKs. Tests in progress are
cut short (R437). -/
def execWarmReset (v : Byte) (s : State) : Res :=
  smbusWrite s fun s => if v == 0x5A then warmState (cutAll s 2) else s

/-- PERST# asserted, or the rails powered with it (R424, R426). -/
def execPerstAssert (rails : Bool) (s : State) : Res :=
  let s := s.quiet
  if s.clk.phase == .coldReset && !rails then .next s else .next (coldState s (if rails then 0 else 1))

/-- PERST# deasserted: start-up begins; the SMBus address straps are sampled (R430, R457). -/
def execPerstDeassert (strap : BitVec 2) (s : State) : Res :=
  let s := s.quiet
  if s.clk.phase == .coldReset then .next { s with clk := { s.clk with phase := .startUp, strap := strap } } else .next s

/-- VAUX falls (R341, R345, R365, R429, R440): what it holds is lost. -/
def execVauxLoss (s : State) : Res :=
  let s := s.quiet
  .next { s with
    bel := { s.bel with sticky := [], stickyOld := 0, alert := false, healthMax := 0, entryLost := false }
    twin := { s.twin with latch := false, ackLow := false }
    tst := { s.tst with hubLatch := none, hubLogged := false }
    clk := { s.clk with refclkLost := false, thermtripped := false, heartbeat := false, thermtripPin := false } }

end Sys2Proof.Machine
end

