-- ==== Sys2Proof/Machine/Clock.lean ====
section
/-! DEFINITION. Clocks, power states, thermal throttling (R33, R416, R418 to R423, R428, R429, R432, R433, R463), and the clock and reset
unit's SMBus reads. -/

namespace Sys2Proof.Machine

open Sys2Proof

/-! ## The module stopped (R33, R416, R463) -/

/-- The heartbeat has lapsed for ten microseconds: the module stops (R33). -/
def execHeartbeatLapse (s : State) : Res :=
  let s := s.quiet
  if s.live then .next { s with clk := { s.clk with phase := .frozen, heartbeat := true } } else .next s

/-- REFCLK or the root PLL is lost: every domain stops until a cold reset (R416). The detector is analog and latches in a stopped module
too. -/
def execRefclkLoss (s : State) : Res :=
  let s := s.quiet
  if s.clk.phase != .coldReset then .next { s with clk := { s.clk with phase := .frozen, refclkLost := true } } else .next s

/-- A sensor's comparator reaches 120 °C: THERMTRIP_N is asserted and the module stops (R432, R463); analog, it works in a stopped module
too. -/
def execThermtrip (sensor : Nat) (s : State) : Res :=
  let s := s.quiet
  if s.clk.phase != .coldReset && sensor < 64 then
    .next { s with clk := { s.clk with
      phase := .frozen, thermtripped := true, thermtripPin := true, readings := kvSet s.clk.readings sensor (960#16) } }
  else .next s

/-! ## Throttling (R432, R433) -/

/-- The threshold of level `n` in 1/8 °C. -/
def threshold (s : State) (n : Nat) : Int := 800 + 24 * ((n : Int) - 1) - (if s.clk.trimDefault then 40 else 0)

/-- The sensor with the hottest reading, the lowest number on a tie, and its reading. -/
def hottest (s : State) : Nat × BitVec 16 :=
  match s.clk.readings with
  | [] => (0, 0)
  | e :: r => r.foldl (fun (m : Nat × BitVec 16) x => if m.2.toInt < x.2.toInt then x else m) e

/-- The level that a reading enters. -/
def enterLevel (s : State) (t : BitVec 16) : Nat :=
  ((List.range 5).filter fun n => n != 0 && decide (threshold s n ≤ t.toInt)).foldl max 0

/-- A new level, and the entry THROTTLE. -/
def setThrottle (s : State) (n : Nat) : State :=
  if s.clk.throttle == n then s
  else
    let (u, t) := hottest s
    let s := { s with clk := { s.clk with throttle := n } }
    logEvent s { s.entry 0x91 0 0x13 u with param := paramAt 48 1 n + paramAt 50 2 t.toNat }

/-- A trimmed reading of a sensor: the hottest one sets the level, and since when it has been 3 °C below each threshold is kept. -/
def execThermalSample (sensor : Nat) (temp : BitVec 16) (s : State) : Res :=
  let s := s.quiet
  if !s.live || s.bel.stopped || sensor ≥ 64 then .next s
  else
    let s := { s with clk := { s.clk with readings := kvSet s.clk.readings sensor temp } }
    let t := (hottest s).2
    let cool := [1, 2, 3, 4].foldl (fun l n =>
      if t.toInt ≤ threshold s n - 24 then (if (kvFind l n).isSome then l else kvSet l n s.clk.tb) else kvDel l n) s.clk.coolTb
    let s := { s with clk := { s.clk with coolTb := cool } }
    .next (setThrottle s (max s.clk.throttle (enterLevel s t)))

/-- Levels left from `n` down, each cool for ten milliseconds at timebase `tb`. -/
def releasedLevel (cool : KV Nat) (tb : Nat) : Nat → Nat
  | 0 => 0
  | n + 1 =>
    match kvFind cool (n + 1) with
    | some t => if t + 1000000 ≤ tb then releasedLevel cool tb n else n + 1
    | none => n + 1

/-- Ten milliseconds below a level's threshold by 3 °C: the level is left. -/
def execThrottleRelease (s : State) : Res :=
  let s := s.quiet
  if !s.live || s.bel.stopped then .next s
  else
    match kvFind s.clk.coolTb s.clk.throttle with
    | none => .next s
    | some t =>
      let s := passUntil s (t + 1000000)
      .next (setThrottle s (releasedLevel s.clk.coolTb s.clk.tb s.clk.throttle))

/-! ## Power states (R420, R421) -/

/-- Is the module idle (R421)? -/
def moduleIdle (s : State) : Bool :=
  s.live
    && s.insts.all (fun e => e.2.st != .running && e.2.st != .quiescing && e.2.role == .local_ && e.2.exporting.isNone && e.2.importing.isNone)
    && s.css.subs.all (fun e => e.2.st == .idle || e.2.opJsn == 0)
    && s.xce.jobs.isEmpty && s.cze.jobs.isEmpty && !s.hp.reqs.any (fun r => r.fn == 0)

/-- Sleep is entered after ten idle milliseconds; runtime tests pause (R437). -/
def execSleepEntry (s : State) : Res :=
  let s := s.quiet
  if s.clk.power == 0 && moduleIdle s then .next (setPower (tick (cutAll s 3) 5000) 1) else .next s

/-- Deep-sleep is entered from Sleep while PF 0 is in D3hot; the L1s lose their contents. -/
def execDeepSleepEntry (s : State) : Res :=
  let s := s.quiet
  if s.live && s.clk.power == 1 && (s.fn 0).d3hot then
    let s := { s with engines := kvMap (fun _ e => { e with l1d := [], l1i := [], fills := [], tlb := [], zones := [] }) s.engines }
    .next (setPower (tick s 200000) 2)
  else .next s

/-- The module returns to Run when it stops being idle, or from Deep-sleep when PF 0 has left D3hot; the write that takes PF 0 out of D3hot
ends Sleep and Deep-sleep itself. -/
def execPowerWake (s : State) : Res :=
  let s := s.quiet
  if s.live && s.clk.power != 0 && (!moduleIdle s || (s.clk.power == 2 && !(s.fn 0).d3hot)) then
    .next (setPower (tick s (if s.clk.power == 1 then 2000 else 300000)) 0)
  else .next s

/-! ## SMBus: CLK_STATUS, GATE_READ (R419, R428, R429, R433) -/

def clkState (s : State) : Nat :=
  let (u, t) := hottest s
  u * 2 ^ 32 + t.toNat * 2 ^ 16 + s.clk.throttle * 256 + b2n s.clk.trimDefault * 16 + s.clk.power

def clkResetCause (s : State) : Nat :=
  b2n s.clk.refclkLost * 2 ^ 15 + b2n s.clk.thermtripped * 2 ^ 14 + b2n s.clk.heartbeat * 2 ^ 13 + s.clk.cause

def execClkStatus (s : State) : Res := smbusRead s fun s => toBE 8 (clkState s) ++ toBE 8 (clkResetCause s)

/-- CLK_RUN_EN. -/
def clkRunEn (s : State) : Nat :=
  let v := s.variant
  let paths := ((List.range (pathsOfMode s.img.pathMode)).map fun n => if bit s.img.pathEnable n then 2 ^ n else 0).sum
  let czes := ((List.range v.czes).map fun e => if bit s.img.czeIn e then 2 ^ e else 0).sum
  31 * 2 ^ 58 + b2n (v.jlk && s.img.twin) * 2 ^ 57 + 2 ^ 56 + b2n v.bulk * 2 ^ 55 + 2 ^ 54 + czes * 2 ^ 46 + (2 ^ v.xces - 1) * 2 ^ 30
    + paths * 2 ^ 22 + 2 ^ 21 + 2 ^ 20 + (2 ^ ((v.towers + 1) / 2) - 1) * 2 ^ 16 + (2 ^ v.towers - 1) * 2 ^ 8 + (2 ^ v.towers - 1)

/-- Bits `hi` to `lo` of an enable register cleared. -/
def clearBits (v hi lo : Nat) : Nat := v - bits v hi lo * 2 ^ lo

/-- CLK_SLEEP_EN: engines, accelerators and the self-test controller stop. -/
def clkSleepEn (s : State) : Nat := clearBits (clearBits (clearBits (clkRunEn s) 7 0) 53 30) 60 60

/-- CLK_DEEP_EN: the domes, the die-to-die links and the bulk store stop as well. -/
def clkDeepEn (s : State) : Nat := clearBits (clearBits (clkSleepEn s) 19 8) 55 55

def execGateRead (s : State) : Res :=
  smbusRead s fun s => toBE 8 (clkRunEn s) ++ toBE 8 (clkSleepEn s) ++ toBE 8 (clkDeepEn s)

end Sys2Proof.Machine
end

