-- ==== Sys2Proof/Machine/Board.lean ====
section
/-! DEFINITION. The Belfry on SMBus and BEL_ALERT_N (R345, R346), the pins of the channel paths (R462), and the boundary-scan TAP (R469). -/

namespace Sys2Proof.Machine

open Sys2Proof

/-- BEL_ALERT_N asserted (R345, R431): from tower release in four cases, before it for the loss of REFCLK only. -/
def belAlert (s : State) : Bool :=
  s.clk.refclkLost || ((s.live || s.clk.phase == .frozen) && (s.bel.alert || s.bel.fatal || s.clk.heartbeat))

/-- Path `n` is in service by the image in force (R380). -/
def pathInService (s : State) (n : Nat) : Bool := decide (n < pathsOfMode s.img.pathMode) && bit s.img.pathEnable n

/-- The path whose reset and reference clock leave by pin group `k`: the lowest group of a path drives them, the others are off and held low
(R455). -/
def pinPath (s : State) (k : Nat) : Option Nat :=
  let per := 8 / pathsOfMode s.img.pathMode
  if k % per == 0 && pathInService s (k / per) then some (k / per) else none

/-- CPk_PERST_N is driven low (R462): outside Run, when REFCLK is lost, on a path out of service, and on every group that is not the lowest
of its path (assumption log 95). -/
def cpPerst (s : State) (k : Nat) : Bool :=
  !((pinPath s k).isSome && (s.clk.phase == .run || s.clk.phase == .frozen && !s.clk.refclkLost))

/-- CPk_REFCLK runs (R380, R455, R462): from the end of a start until PERST# or the loss of REFCLK. -/
def cpRefclk (s : State) (k : Nat) : Bool :=
  (pinPath s k).isSome && (s.clk.phase == .run || s.clk.phase == .warmReset || s.clk.phase == .frozen && !s.clk.refclkLost)

/-- The SMBus target's 7-bit address (R457). -/
def smbusAddress (s : State) : Nat := 0x58 + s.clk.strap.toNat

/-- HEALTH. -/
def execHealth (s : State) : Res :=
  smbusRead s fun s =>
    let b := s.bel
    toBE 1 b.healthMax
      ++ toBE 1 (b2n s.degraded + b2n (s.twin.st == .paired) * 2 + b2n b.fatal * 4 + b2n s.clk.trimDefault * 8)
      ++ toBE 8 (b.eseq - 1) ++ toBE 1 b.sticky.length ++ zeros 5

/-- SELECT: nine bytes; a first byte other than 0 and 1 is ignored. -/
def execSelect (data : List Byte) (s : State) : Res :=
  smbusWrite s fun s =>
    if data.length == 9 && fieldBE data 0 1 < 2 then
      { s with bel := { s.bel with selSticky := fieldBE data 0 1 == 1, sel := fieldBE data 1 8 } }
    else s

/-- EVENT_READ: the selected entry, or 64 zero bytes past the newest; the selection advances. -/
def execEventRead (s : State) : Res :=
  let s := s.quiet
  if !smbusUp s then .next (s.emit .smbusNack)
  else
    let b := s.bel
    if b.selSticky then
      match b.sticky[b.sel]? with
      | some e => .next ({ s with bel := { b with sel := b.sel + 1 } }.emit (.smbus (logBytes e)))
      | none => .next (s.emit (.smbus (zeros 64)))
    else
      match b.log.find? fun e => b.sel ≤ e.eseq with
      | some e => .next ({ s with bel := { b with sel := e.eseq + 1 } }.emit (.smbus (logBytes e)))
      | none => .next (s.emit (.smbus (zeros 64)))

/-- ALERT_ACK: 0x00 clears the first case of BEL_ALERT_N and HEALTH byte 0; other values are ignored. -/
def execAlertAck (v : Byte) (s : State) : Res :=
  smbusWrite s fun s => if v == 0 then { s with bel := { s.bel with alert := false, healthMax := 0 } } else s

/-- IDCODE (R469). -/
def idcode (s : State) : BitVec 32 := BitVec.ofNat 32 (0x0C9015B3 + 0x1000 * (s.variant.code - 1) + 0x10000000 * s.stepping)

/-- TAP_INSTRUCTION: while PE_PERST_N is deasserted every instruction but IDCODE acts as BYPASS. -/
def execTapInstruction (t : TapInsn) (s : State) : Res :=
  let s := s.quiet
  match t with
  | .idcode => .next (s.emit (.tap .idcode (idcode s)))
  | t => if s.clk.phase == .coldReset then .next (s.emit (.tap t 0)) else .next (s.emit (.tap .bypass 0))

end Sys2Proof.Machine
end

