-- ==== Sys2Proof/Machine/Dispatch.lean ====
section
/-! DEFINITION. Which meaning each command has: one arm per constructor of `Instr`. -/

namespace Sys2Proof.Machine

open Sys2Proof

/-- The effect of a command on everything but the queue. -/
def exec (i : Instr) (s : State) : Host.Outcome State Fault Refusal :=
  match i with
  | .reqRingDoorbell fn k off data => Sys2Proof.Machine.execReqRingDoorbell fn k off data s
  | .cplRingDoorbell fn k off data => Sys2Proof.Machine.execCplRingDoorbell fn k off data s
  | .ringBaseWrite fn k cpl off data => Sys2Proof.Machine.execRingBaseWrite fn k cpl off data s
  | .reqRingCtlWrite fn k off data => Sys2Proof.Machine.execReqRingCtlWrite fn k off data s
  | .cplRingCtlWrite fn k off data => Sys2Proof.Machine.execCplRingCtlWrite fn k off data s
  | .keyStagingWrite fn off data => Sys2Proof.Machine.execKeyStagingWrite fn off data s
  | .msixVectorUnmask fn vec => Sys2Proof.Machine.execMsixVectorUnmask fn vec s
  | .registerWrite fn bar off acc => Sys2Proof.Machine.execRegisterWrite fn bar off acc s
  | .pcieConfigRequest fn reg write data => Sys2Proof.Machine.execPcieConfigRequest fn reg write data s
  | .requestFetchStart fn k => Sys2Proof.Machine.execRequestFetchStart fn k s
  | .requestEntryArrive fn k entry poisoned => Sys2Proof.Machine.execRequestEntryArrive fn k entry poisoned s
  | .hostReadFailed r => Sys2Proof.Machine.execHostReadFailed r s
  | .coalTimerExpire fn k => Sys2Proof.Machine.execCoalTimerExpire fn k s
  | .vfFlr fn => Sys2Proof.Machine.execVfFlr fn s
  | .pfFlr => Sys2Proof.Machine.execPfFlr s
  | .flrComplete fn => Sys2Proof.Machine.execFlrComplete fn s
  | .busMasterEnableSet fn => Sys2Proof.Machine.execBusMasterEnableSet fn s
  | .vfEnableClear => Sys2Proof.Machine.execVfEnableClear s
  | .hostPortReset => Sys2Proof.Machine.execHostPortReset s
  | .pf0D3hotEnter => Sys2Proof.Machine.execPf0D3hotEnter s
  | .pf0D0Return => Sys2Proof.Machine.execPf0D0Return s
  | .doeDiscovery vendor ty body => Sys2Proof.Machine.execDoeDiscovery vendor ty body s
  | .bootHead body => Sys2Proof.Machine.execBootHead body s
  | .bootEntries body => Sys2Proof.Machine.execBootEntries body s
  | .attest body => Sys2Proof.Machine.execAttest body s
  | .attestSigned smbus => Sys2Proof.Machine.execAttestSigned smbus s
  | .identityCert body => Sys2Proof.Machine.execIdentityCert body s
  | .measure body => Sys2Proof.Machine.execMeasure body s
  | .doeAbort => Sys2Proof.Machine.execDoeAbort s
  | .create seq => Sys2Proof.Machine.execCreate seq s
  | .start seq => Sys2Proof.Machine.execStart seq s
  | .quiesce seq => Sys2Proof.Machine.execQuiesce seq s
  | .quiesceComplete inst => Sys2Proof.Machine.execQuiesceComplete inst s
  | .resume seq => Sys2Proof.Machine.execResume seq s
  | .reset seq => Sys2Proof.Machine.execReset seq s
  | .destroy seq => Sys2Proof.Machine.execDestroy seq s
  | .query seq => Sys2Proof.Machine.execQuery seq s
  | .setEngines seq => Sys2Proof.Machine.execSetEngines seq s
  | .resize seq => Sys2Proof.Machine.execResize seq s
  | .shrinkComplete inst => Sys2Proof.Machine.execShrinkComplete inst s
  | .setWindow seq => Sys2Proof.Machine.execSetWindow seq s
  | .poolQuery seq => Sys2Proof.Machine.execPoolQuery seq s
  | .exportInst seq => Sys2Proof.Machine.execExportInst seq s
  | .importInst seq => Sys2Proof.Machine.execImportInst seq s
  | .logEnable seq => Sys2Proof.Machine.execLogEnable seq s
  | .logHarvest seq => Sys2Proof.Machine.execLogHarvest seq s
  | .logDisable seq => Sys2Proof.Machine.execLogDisable seq s
  | .logRead seq => Sys2Proof.Machine.execLogRead seq s
  | .logNotify seq => Sys2Proof.Machine.execLogNotify seq s
  | .twinQuery seq => Sys2Proof.Machine.execTwinQuery seq s
  | .twinPair seq => Sys2Proof.Machine.execTwinPair seq s
  | .twinProtect seq => Sys2Proof.Machine.execTwinProtect seq s
  | .twinHandover seq => Sys2Proof.Machine.execTwinHandover seq s
  | .twinForce seq => Sys2Proof.Machine.execTwinForce seq s
  | .selftestRun seq => Sys2Proof.Machine.execSelftestRun seq s
  | .selftestQuery seq => Sys2Proof.Machine.execSelftestQuery seq s
  | .selftestCtl seq => Sys2Proof.Machine.execSelftestCtl seq s
  | .calRead seq => Sys2Proof.Machine.execCalRead seq s
  | .calWrite seq data => Sys2Proof.Machine.execCalWrite seq data s
  | .recal seq => Sys2Proof.Machine.execRecal seq s
  | .repairCtl seq => Sys2Proof.Machine.execRepairCtl seq s
  | .imageQuery seq => Sys2Proof.Machine.execImageQuery seq s
  | .imageWrite seq data => Sys2Proof.Machine.execImageWrite seq data s
  | .imagePush seq data => Sys2Proof.Machine.execImagePush seq data s
  | .imageSelect seq => Sys2Proof.Machine.execImageSelect seq s
  | .imageNorWriteDone seq => Sys2Proof.Machine.execImageNorWriteDone seq s
  | .msg fn seq => Sys2Proof.Machine.execMsg fn seq s
  | .storeWrite fn seq => Sys2Proof.Machine.execStoreWrite fn seq s
  | .storeRead fn seq => Sys2Proof.Machine.execStoreRead fn seq s
  | .restart fn seq => Sys2Proof.Machine.execRestart fn seq s
  | .gcmEncrypt fn seq => Sys2Proof.Machine.execGcmEncrypt fn seq s
  | .gcmDecrypt fn seq => Sys2Proof.Machine.execGcmDecrypt fn seq s
  | .gmacGenerate fn seq => Sys2Proof.Machine.execGmacGenerate fn seq s
  | .gmacVerify fn seq => Sys2Proof.Machine.execGmacVerify fn seq s
  | .xtsEncrypt fn seq => Sys2Proof.Machine.execXtsEncrypt fn seq s
  | .xtsDecrypt fn seq => Sys2Proof.Machine.execXtsDecrypt fn seq s
  | .cmacGenerate fn seq => Sys2Proof.Machine.execCmacGenerate fn seq s
  | .cmacVerify fn seq => Sys2Proof.Machine.execCmacVerify fn seq s
  | .hmacGenerate fn seq => Sys2Proof.Machine.execHmacGenerate fn seq s
  | .hmacVerify fn seq => Sys2Proof.Machine.execHmacVerify fn seq s
  | .hash fn seq => Sys2Proof.Machine.execHash fn seq s
  | .keyLoad fn seq data => Sys2Proof.Machine.execKeyLoad fn seq data s
  | .keyWrap fn seq => Sys2Proof.Machine.execKeyWrap fn seq s
  | .keyRetire fn seq => Sys2Proof.Machine.execKeyRetire fn seq s
  | .keyLimit fn seq => Sys2Proof.Machine.execKeyLimit fn seq s
  | .compress fn seq => Sys2Proof.Machine.execCompress fn seq s
  | .decompress fn seq => Sys2Proof.Machine.execDecompress fn seq s
  | .stagingSpaceFree fn seq => Sys2Proof.Machine.execStagingSpaceFree fn seq s
  | .cipherJobStart e => Sys2Proof.Machine.execCipherJobStart e s
  | .cipherJobDone e src aad fault => Sys2Proof.Machine.execCipherJobDone e src aad fault s
  | .compressionJobStart e => Sys2Proof.Machine.execCompressionJobStart e s
  | .compressionJobDone e src fault => Sys2Proof.Machine.execCompressionJobDone e src fault s
  | .nop p f => Sys2Proof.Machine.execNop p f s
  | .commit p f => Sys2Proof.Machine.execCommit p f s
  | .signalComplete p f => Sys2Proof.Machine.execSignalComplete p f s
  | .signalVe p f => Sys2Proof.Machine.execSignalVe p f s
  | .restartVe p f => Sys2Proof.Machine.execRestartVe p f s
  | .sstart p f => Sys2Proof.Machine.execSstart p f s
  | .feat p f => Sys2Proof.Machine.execFeat p f s
  | .tbr p f => Sys2Proof.Machine.execTbr p f s
  | .barrier p f => Sys2Proof.Machine.execBarrier p f s
  | .getf p f => Sys2Proof.Machine.execGetf p f s
  | .setf p f => Sys2Proof.Machine.execSetf p f s
  | .xcall p f => Sys2Proof.Machine.execXcall p f s
  | .zcall p f => Sys2Proof.Machine.execZcall p f s
  | .pfetch p f => Sys2Proof.Machine.execPfetch p f s
  | .clnl p f => Sys2Proof.Machine.execClnl p f s
  | .invl p f => Sys2Proof.Machine.execInvl p f s
  | .flsl p f => Sys2Proof.Machine.execFlsl p f s
  | .iinvl p f => Sys2Proof.Machine.execIinvl p f s
  | .add p f => Sys2Proof.Machine.execAdd p f s
  | .addc p f => Sys2Proof.Machine.execAddc p f s
  | .sub p f => Sys2Proof.Machine.execSub p f s
  | .subb p f => Sys2Proof.Machine.execSubb p f s
  | .mul p f => Sys2Proof.Machine.execMul p f s
  | .mulwu p f => Sys2Proof.Machine.execMulwu p f s
  | .mulws p f => Sys2Proof.Machine.execMulws p f s
  | .divu p f => Sys2Proof.Machine.execDivu p f s
  | .divs p f => Sys2Proof.Machine.execDivs p f s
  | .remu p f => Sys2Proof.Machine.execRemu p f s
  | .rems p f => Sys2Proof.Machine.execRems p f s
  | .cmp p f => Sys2Proof.Machine.execCmp p f s
  | .neg p f => Sys2Proof.Machine.execNeg p f s
  | .and p f => Sys2Proof.Machine.execAnd p f s
  | .or p f => Sys2Proof.Machine.execOr p f s
  | .xor p f => Sys2Proof.Machine.execXor p f s
  | .andn p f => Sys2Proof.Machine.execAndn p f s
  | .shl p f => Sys2Proof.Machine.execShl p f s
  | .shr p f => Sys2Proof.Machine.execShr p f s
  | .sar p f => Sys2Proof.Machine.execSar p f s
  | .rol p f => Sys2Proof.Machine.execRol p f s
  | .clz p f => Sys2Proof.Machine.execClz p f s
  | .popc p f => Sys2Proof.Machine.execPopc p f s
  | .bswap p f => Sys2Proof.Machine.execBswap p f s
  | .sext p f => Sys2Proof.Machine.execSext p f s
  | .mov p f => Sys2Proof.Machine.execMov p f s
  | .csel p f => Sys2Proof.Machine.execCsel p f s
  | .addi p f => Sys2Proof.Machine.execAddi p f s
  | .cmpi p f => Sys2Proof.Machine.execCmpi p f s
  | .andi p f => Sys2Proof.Machine.execAndi p f s
  | .ori p f => Sys2Proof.Machine.execOri p f s
  | .xori p f => Sys2Proof.Machine.execXori p f s
  | .shli p f => Sys2Proof.Machine.execShli p f s
  | .shri p f => Sys2Proof.Machine.execShri p f s
  | .sari p f => Sys2Proof.Machine.execSari p f s
  | .roli p f => Sys2Proof.Machine.execRoli p f s
  | .muli p f => Sys2Proof.Machine.execMuli p f s
  | .ldb p f => Sys2Proof.Machine.execLdb p f s
  | .ldbs p f => Sys2Proof.Machine.execLdbs p f s
  | .ldh p f => Sys2Proof.Machine.execLdh p f s
  | .ldhs p f => Sys2Proof.Machine.execLdhs p f s
  | .ldw p f => Sys2Proof.Machine.execLdw p f s
  | .ldws p f => Sys2Proof.Machine.execLdws p f s
  | .ldd p f => Sys2Proof.Machine.execLdd p f s
  | .la p f => Sys2Proof.Machine.execLa p f s
  | .stb p f => Sys2Proof.Machine.execStb p f s
  | .sth p f => Sys2Proof.Machine.execSth p f s
  | .stw p f => Sys2Proof.Machine.execStw p f s
  | .std p f => Sys2Proof.Machine.execStd p f s
  | .ldq p f => Sys2Proof.Machine.execLdq p f s
  | .stq p f => Sys2Proof.Machine.execStq p f s
  | .cas p f => Sys2Proof.Machine.execCas p f s
  | .ldx p f => Sys2Proof.Machine.execLdx p f s
  | .stx p f => Sys2Proof.Machine.execStx p f s
  | .lax p f => Sys2Proof.Machine.execLax p f s
  | .fldx p f => Sys2Proof.Machine.execFldx p f s
  | .fstx p f => Sys2Proof.Machine.execFstx p f s
  | .ldp p f => Sys2Proof.Machine.execLdp p f s
  | .stp p f => Sys2Proof.Machine.execStp p f s
  | .casx p f => Sys2Proof.Machine.execCasx p f s
  | .fadd p f => Sys2Proof.Machine.execFadd p f s
  | .fsub p f => Sys2Proof.Machine.execFsub p f s
  | .fmul p f => Sys2Proof.Machine.execFmul p f s
  | .fdiv p f => Sys2Proof.Machine.execFdiv p f s
  | .fsqrt p f => Sys2Proof.Machine.execFsqrt p f s
  | .fma p f => Sys2Proof.Machine.execFma p f s
  | .fms p f => Sys2Proof.Machine.execFms p f s
  | .fnma p f => Sys2Proof.Machine.execFnma p f s
  | .fcmp p f => Sys2Proof.Machine.execFcmp p f s
  | .fmin p f => Sys2Proof.Machine.execFmin p f s
  | .fmax p f => Sys2Proof.Machine.execFmax p f s
  | .fneg p f => Sys2Proof.Machine.execFneg p f s
  | .fabs p f => Sys2Proof.Machine.execFabs p f s
  | .fcvt p f => Sys2Proof.Machine.execFcvt p f s
  | .fmovg p f => Sys2Proof.Machine.execFmovg p f s
  | .gmovf p f => Sys2Proof.Machine.execGmovf p f s
  | .fldd p f => Sys2Proof.Machine.execFldd p f s
  | .flds p f => Sys2Proof.Machine.execFlds p f s
  | .fstd p f => Sys2Proof.Machine.execFstd p f s
  | .fsts p f => Sys2Proof.Machine.execFsts p f s
  | .lfpc p f => Sys2Proof.Machine.execLfpc p f s
  | .sfpc p f => Sys2Proof.Machine.execSfpc p f s
  | .addp p f => Sys2Proof.Machine.execAddp p f s
  | .subp p f => Sys2Proof.Machine.execSubp p f s
  | .mulp p f => Sys2Proof.Machine.execMulp p f s
  | .divp p f => Sys2Proof.Machine.execDivp p f s
  | .cmpp p f => Sys2Proof.Machine.execCmpp p f s
  | .shrp p f => Sys2Proof.Machine.execShrp p f s
  | .cvbp p f => Sys2Proof.Machine.execCvbp p f s
  | .cvpb p f => Sys2Proof.Machine.execCvpb p f s
  | .editp p f => Sys2Proof.Machine.execEditp p f s
  | .movp p f => Sys2Proof.Machine.execMovp p f s
  | .bc p f => Sys2Proof.Machine.execBc p f s
  | .bal p f => Sys2Proof.Machine.execBal p f s
  | .br p f => Sys2Proof.Machine.execBr p f s
  | .balr p f => Sys2Proof.Machine.execBalr p f s
  | .bct p f => Sys2Proof.Machine.execBct p f s
  | .movb p f n => Sys2Proof.Machine.execMovb p f n s
  | .fillb p f n => Sys2Proof.Machine.execFillb p f n s
  | .cmpb p f n => Sys2Proof.Machine.execCmpb p f n s
  | .scanb p f n => Sys2Proof.Machine.execScanb p f n s
  | .translate p f n => Sys2Proof.Machine.execTranslate p f n s
  | .trtb p f n => Sys2Proof.Machine.execTrtb p f n s
  | .crcb p f n => Sys2Proof.Machine.execCrcb p f n s
  | .mulmb p f n => Sys2Proof.Machine.execMulmb p f n s
  | .mfk p f => Sys2Proof.Machine.execMfk p f s
  | .mtk p f => Sys2Proof.Machine.execMtk p f s
  | .wait p f => Sys2Proof.Machine.execWait p f s
  | .rfi p f => Sys2Proof.Machine.execRfi p f s
  | .lra p f => Sys2Proof.Machine.execLra p f s
  | .tlbi p f => Sys2Proof.Machine.execTlbi p f s
  | .tlbia p f => Sys2Proof.Machine.execTlbia p f s
  | .invr p f => Sys2Proof.Machine.execInvr p f s
  | .lockw p f => Sys2Proof.Machine.execLockw p f s
  | .unlkw p f => Sys2Proof.Machine.execUnlkw p f s
  | .undefinedOpcode p op => Sys2Proof.Machine.execUndefinedOpcode p op s
  | .interruptionTake p mt => Sys2Proof.Machine.execInterruptionTake p mt s
  | .clockComparator inst v => Sys2Proof.Machine.execClockComparator inst v s
  | .engineTimer inst v => Sys2Proof.Machine.execEngineTimer inst v s
  | .timeSliceEnd p mt => Sys2Proof.Machine.execTimeSliceEnd p mt s
  | .veDispatch p inst v => Sys2Proof.Machine.execVeDispatch p inst v s
  | .autoCommit p mt => Sys2Proof.Machine.execAutoCommit p mt s
  | .commitPointComplete p => Sys2Proof.Machine.execCommitPointComplete p s
  | .commitOnSteal p mt => Sys2Proof.Machine.execCommitOnSteal p mt s
  | .lineFillComplete p line => Sys2Proof.Machine.execLineFillComplete p line s
  | .domeScrub t line err => Sys2Proof.Machine.execDomeScrub t line err s
  | .checkpointScrub t slot err => Sys2Proof.Machine.execCheckpointScrub t slot err s
  | .storeScrub line err => Sys2Proof.Machine.execStoreScrub line err s
  | .cacheError c => Sys2Proof.Machine.execCacheError c s
  | .storeReadError line => Sys2Proof.Machine.execStoreReadError line s
  | .addressParityError port line => Sys2Proof.Machine.execAddressParityError port line s
  | .checkLineWriteback stack block => Sys2Proof.Machine.execCheckLineWriteback stack block s
  | .granuleZeroDone bulk gran => Sys2Proof.Machine.execGranuleZeroDone bulk gran s
  | .engineFaultDetected p cause attempts => Sys2Proof.Machine.execEngineFaultDetected p cause attempts s
  | .engineCheckstop p cause => Sys2Proof.Machine.execEngineCheckstop p cause s
  | .quickCheckEnd p pass => Sys2Proof.Machine.execQuickCheckEnd p pass s
  | .fuseReserveUp t => Sys2Proof.Machine.execFuseReserveUp t s
  | .d2dModuleFail cd m => Sys2Proof.Machine.execD2dModuleFail cd m s
  | .domeFail t w => Sys2Proof.Machine.execDomeFail t w s
  | .mainStoreChannelFail c => Sys2Proof.Machine.execMainStoreChannelFail c s
  | .hbmStackFail st => Sys2Proof.Machine.execHbmStackFail st s
  | .hubBlockFail b => Sys2Proof.Machine.execHubBlockFail b s
  | .cheStop c => Sys2Proof.Machine.execCheStop c s
  | .cipherEngineStop e => Sys2Proof.Machine.execCipherEngineStop e s
  | .compressionEngineStop e => Sys2Proof.Machine.execCompressionEngineStop e s
  | .spireStop => Sys2Proof.Machine.execSpireStop s
  | .belfryStop => Sys2Proof.Machine.execBelfryStop s
  | .selftestControllerStop => Sys2Proof.Machine.execSelftestControllerStop s
  | .timebaseCounterFail n => Sys2Proof.Machine.execTimebaseCounterFail n s
  | .heartbeatLapse => Sys2Proof.Machine.execHeartbeatLapse s
  | .refclkLoss => Sys2Proof.Machine.execRefclkLoss s
  | .thermtrip sensor => Sys2Proof.Machine.execThermtrip sensor s
  | .thermalSample sensor temp => Sys2Proof.Machine.execThermalSample sensor temp s
  | .throttleRelease => Sys2Proof.Machine.execThrottleRelease s
  | .sleepEntry => Sys2Proof.Machine.execSleepEntry s
  | .deepSleepEntry => Sys2Proof.Machine.execDeepSleepEntry s
  | .powerWake => Sys2Proof.Machine.execPowerWake s
  | .perstAssert rails => Sys2Proof.Machine.execPerstAssert rails s
  | .perstDeassert strap => Sys2Proof.Machine.execPerstDeassert strap s
  | .startUpComplete r => Sys2Proof.Machine.execStartUpComplete r s
  | .headSigned => Sys2Proof.Machine.execHeadSigned s
  | .vauxLoss => Sys2Proof.Machine.execVauxLoss s
  | .warmReset v => Sys2Proof.Machine.execWarmReset v s
  | .warmResetEnd r => Sys2Proof.Machine.execWarmResetEnd r s
  | .clkStatus => Sys2Proof.Machine.execClkStatus s
  | .gateRead => Sys2Proof.Machine.execGateRead s
  | .health => Sys2Proof.Machine.execHealth s
  | .select data => Sys2Proof.Machine.execSelect data s
  | .eventRead => Sys2Proof.Machine.execEventRead s
  | .alertAck v => Sys2Proof.Machine.execAlertAck v s
  | .objSelect data => Sys2Proof.Machine.execObjSelect data s
  | .objStatus => Sys2Proof.Machine.execObjStatus s
  | .objRead => Sys2Proof.Machine.execObjRead s
  | .attestStart nonce => Sys2Proof.Machine.execAttestStart nonce s
  | .pkgWrite data => Sys2Proof.Machine.execPkgWrite data s
  | .pkgCommit v => Sys2Proof.Machine.execPkgCommit v s
  | .pkgStatus => Sys2Proof.Machine.execPkgStatus s
  | .bistStatus => Sys2Proof.Machine.execBistStatus s
  | .calStatus => Sys2Proof.Machine.execCalStatus s
  | .eventMergeFlush event source unit => Sys2Proof.Machine.execEventMergeFlush event source unit s
  | .rollingTestStart u => Sys2Proof.Machine.execRollingTestStart u s
  | .rollingTestEnd u r => Sys2Proof.Machine.execRollingTestEnd u r s
  | .cheStartOperation che inst sub => Sys2Proof.Machine.execCheStartOperation che inst sub s
  | .deviceCompletion inst sub c => Sys2Proof.Machine.execDeviceCompletion inst sub c s
  | .commandTimeout inst sub => Sys2Proof.Machine.execCommandTimeout inst sub s
  | .pathLost path dev => Sys2Proof.Machine.execPathLost path dev s
  | .pathReissue inst sub path => Sys2Proof.Machine.execPathReissue inst sub path s
  | .pathWaitExpire inst sub => Sys2Proof.Machine.execPathWaitExpire inst sub s
  | .pathReturn path dev identityOk => Sys2Proof.Machine.execPathReturn path dev identityOk s
  | .endEntryCommit inst sub => Sys2Proof.Machine.execEndEntryCommit inst sub s
  | .adapterMsix dev vec => Sys2Proof.Machine.execAdapterMsix dev vec s
  | .waitintTimeout inst sub => Sys2Proof.Machine.execWaitintTimeout inst sub s
  | .adapterDma dev write addr len data => Sys2Proof.Machine.execAdapterDma dev write addr len data s
  | .jalarnLinkUp x4 lane => Sys2Proof.Machine.execJalarnLinkUp x4 lane s
  | .ident m => Sys2Proof.Machine.execIdent m s
  | .jalarnFlitReceive flit => Sys2Proof.Machine.execJalarnFlitReceive flit s
  | .pair modid dkey0 => Sys2Proof.Machine.execPair modid dkey0 s
  | .protect m => Sys2Proof.Machine.execProtect m s
  | .copyDone inst ack => Sys2Proof.Machine.execCopyDone inst ack s
  | .surrender inst jsn => Sys2Proof.Machine.execSurrender inst jsn s
  | .handover inst jsn => Sys2Proof.Machine.execHandover inst jsn s
  | .mirrorAck jsn => Sys2Proof.Machine.execMirrorAck jsn s
  | .stagingApply => Sys2Proof.Machine.execStagingApply s
  | .mirrorRefill => Sys2Proof.Machine.execMirrorRefill s
  | .partnerLostTimeout => Sys2Proof.Machine.execPartnerLostTimeout s
  | .fenceAsk ackLow => Sys2Proof.Machine.execFenceAsk ackLow s
  | .fenceLatchSet => Sys2Proof.Machine.execFenceLatchSet s
  | .fenceUnanswered => Sys2Proof.Machine.execFenceUnanswered s
  | .takeover inst => Sys2Proof.Machine.execTakeover inst s
  | .receiverLockLost => Sys2Proof.Machine.execReceiverLockLost s
  | .hostTransferDone fn seq data fault => Sys2Proof.Machine.execHostTransferDone fn seq data fault s
  | .calNorWriteDone => Sys2Proof.Machine.execCalNorWriteDone s
  | .pkgCheckDone => Sys2Proof.Machine.execPkgCheckDone s
  | .tapInstruction t => Sys2Proof.Machine.execTapInstruction t s

end Sys2Proof.Machine
end

