-- ==== Sys2Proof/Safety.lean ====
section
/-! DEFINITION. What claims ask of a state: the invariant that steps keep, when an engine executes an instruction, and the ends of an
instruction. -/

namespace Sys2Proof.Machine

open Sys2Proof

/-- The stores are in their canonical form, and the log and the sticky array are within their sizes (R337, R341). -/
def State.Inv (s : State) : Prop :=
  Memory.wf s.mem.store = true ∧ s.bel.log.length ≤ 16384 ∧ s.bel.sticky.length ≤ 64

/-- Engine `p` executes virtual engine `k`, and the fetch of an instruction of `n` bytes leaves `t` (R112). -/
def Fetched (s : State) (p k n : Nat) (t : State) : Prop :=
  running s.quiet p = some k ∧ fetchInstr s.quiet p k n = .ok t

/-- The instruction completes: virtual engine `k` has the registers `c`, and goes on after `n` bytes. -/
def retire (t : State) (k n : Nat) (c : Ctx) : State := advance (t.setCtx k c) k n

/-- The instruction completes with a program exception of code `code` (R114). -/
def retireTrap (t : State) (k n code fp : Nat) (c : Ctx) : State := raiseProg (retire t k n c) k code n fp none

/-- The instruction completes, with fixed-point overflow when V is set and FXM enables it (R114, R157). -/
def retireFx (t : State) (k : Nat) (c : Ctx) : State :=
  if c.sb bV && c.sb bFXM then retireTrap t k 4 0x201 0 c else retire t k 4 c

/-- A floating-point instruction completes with the flags `fl`: they join FPCR.FLAGS, and those that FPCR.TRAPS enables raise the
floating-point exception (R169, R172). -/
def retireFp (t : State) (k : Nat) (c : Ctx) (fl : Nat) : State :=
  let c' := { c with fpcr := c.fpcr ||| BitVec.ofNat 32 (fl * 256) }
  let hit := fl &&& (c.fpcr.toNat / 65536 % 32)
  if hit = 0 then retire t k 4 c' else retireTrap t k 4 0x206 hit c'

/-- A decimal instruction completes with the value `v` in DA[r]: its low 31 digits, minus only when `v` is below zero, Z and N of
what is written, DV when digits are lost, and decimal overflow when DOM enables it (R157, R160, R161). -/
def retireDec (t : State) (k : Nat) (c : Ctx) (r : Nat) (v : Int) (ov : Bool) : State :=
  let w := v.natAbs % 10 ^ 31
  let digits := (packDigits 31 w) * 16 + (if v < 0 then 13 else 12)
  let c' := (((c.setDA r (BitVec.ofNat 128 digits)).setSb bZ (w == 0)).setSb bN (decide (v < 0) && w != 0)).setSb bDV ov
  if ov && c.sb bDOM then retireTrap t k 4 0x204 0 c' else retire t k 4 c'

/-- The instruction is nullified by a program exception (R112). -/
def nullify (t : State) (k n code : Nat) : State := stopInstr t k n (.exc code none)

/-- The byte at absolute address `a` as engine `p` sees it: its own stores over committed content (R123). -/
def byteSeen (s : State) (p a : Nat) : Byte := (ownView s p (a / 64)).1.getD (a % 64) 0

/-- The bytes that a fetch of `n` bytes at IA finds in the stores (R106). -/
def bytesAtIa (s : State) (p k n : Nat) : List Byte :=
  match translateOp s p k .fetch (s.ctx k).ia n with
  | .ok (ps, _) => ps.flatMap fun x => match x.2.1 with
    | .mem a => (List.range x.2.2).map fun j => byteSeen s p (a + j)
    | _ => []
  | .error _ => []

/-- The words of instruction `c` stand at IA of virtual engine `k` on engine `p`. An instruction command carries its fields itself (assumption
log 5): a claim about a program in storage takes this as a premise of each of its steps. -/
def Stands (s : State) (p k : Nat) (c : Instr) : Prop :=
  match encodeOlisy c with
  | some (w, lo) => if wordLong w then bytesAtIa s p k 8 = toBE 4 w.toNat ++ toBE 4 lo.toNat else bytesAtIa s p k 4 = toBE 4 w.toNat
  | none => False

/-- The committed byte at absolute address `a` (R199). -/
def byteAt (s : State) (a : Nat) : Byte := (committed s (a / 64)).1.getD (a % 64) 0

/-- The instructions that act on registers alone, with the G, F and DA registers each may write, and the bits of ESW[63:0] it may
change besides RP: Z 16, N 8, C 4, V 2, DV 1. -/
def registerWrites (p : Nat) (f : FA) (g : FC) (j : FJ) : List (Instr × List (BitVec 5) × List (BitVec 5) × List Nat × Word) :=
  let pair := [f.r1, f.r1 + 1]
  (([Instr.add p f, .addc p f, .sub p f, .subb p f, .neg p f].map fun i => (i, [f.r1], [], [], 0x1E))
    ++ ([Instr.divu p f, .divs p f, .remu p f, .rems p f, .and p f, .or p f, .xor p f, .andn p f, .shl p f, .shr p f, .sar p f, .rol p f].map
        fun i => (i, [f.r1], [], [], 0x18))
    ++ ([Instr.clz p f, .popc p f, .bswap p f, .sext p f, .mov p f, .csel p f, .balr p f, .getf p f, .feat p f, .tbr p f, .fmovg p f,
        .sfpc p f].map fun i => (i, [f.r1], [], [], 0))
    ++ [(.mul p f, [f.r1], [], [], 0x1A), (.mulwu p f, pair, [], [], 0x1E), (.mulws p f, pair, [], [], 0x1E), (.cmp p f, [], [], [], 0x1E),
        (.setf p f, [], [], [], 0x1F), (.br p f, [], [], [], 0), (.nop p f, [], [], [], 0), (.lfpc p f, [], [], [], 0),
        (.cvpb p f, [f.r1], [], [], 0x1A), (.fcmp p f, [], [], [], 0x1E), (.fcvt p f, [f.r1], [f.r1], [], 0), (.gmovf p f, [], [f.r1], [], 0)])
  ++ ([Instr.fadd p f, .fsub p f, .fmul p f, .fdiv p f, .fsqrt p f, .fma p f, .fms p f, .fnma p f, .fmin p f, .fmax p f, .fneg p f,
      .fabs p f].map fun i => (i, [], [f.r1], [], 0))
  ++ ([Instr.addp p f, .subp p f, .mulp p f].map fun i => (i, [], [], [f.r1.toNat], 0x19))
  ++ [(.divp p f, [], [], [f.r1.toNat, f.r1.toNat + 1], 0x18), (.cmpp p f, [], [], [], 0x18), (.movp p f, [], [], [f.r1.toNat], 0x18),
      (.cvbp p f, [], [], [f.r1.toNat], 0x18), (.shrp p g, [], [], [g.r1.toNat], 0x19)]
  ++ ([Instr.andi p g, .ori p g, .xori p g, .shli p g, .shri p g, .sari p g, .roli p g].map fun i => (i, [g.r1], [], [], 0x18))
  ++ [(.addi p g, [g.r1], [], [], 0x1E), (.muli p g, [g.r1], [], [], 0x1A), (.cmpi p g, [], [], [], 0x1E), (.bct p g, [g.r1], [], [], 0),
      (.bc p j, [], [], [], 0), (.bal p j, [31], [], [], 0)]

end Sys2Proof.Machine
end

