-- ==== Sys2Proof/Certificates/Slice0/Obligations.lean ====
section
/-! DEFINITION. The statements for the provers: what the commands and the machine do, by the rules of spec/. -/

open Sys2Proof Sys2Proof.Machine

/-! ## The step and the queue -/

/-- The queue of waiting commands is the model's: a step takes the command at its front and runs it on the rest (assumption log 4 says what an
empty queue does). -/
def Obligations.StepRunsTheFrontCommand : Prop :=
  ∀ (c : Instr) (r : List Instr) (s : State), s.pending = c :: r → step s = exec c { s with pending := r }

/-- No command ends in a fault or a refusal: every command in every state has a next state, with the queue of waiting commands as it was. -/
def Obligations.EveryCommandHasANextState : Prop :=
  ∀ (c : Instr) (s : State), ∃ t, exec c s = .next t ∧ t.pending = s.pending

/-- What reset leaves: nothing waits, the module is in cold reset, no instance, engine, dome or store byte holds anything, the log is
empty and the memory is in its canonical form. -/
def Obligations.ResetMeetsTheInvariant : Prop :=
  State.reset.Inv ∧ State.reset.pending = [] ∧ State.reset.out = [] ∧ State.reset.clk.phase = .coldReset
    ∧ State.reset.mem.store = [] ∧ State.reset.bel.log = [] ∧ ∀ i, (State.reset.inst i).st = .free

/-- R76, R337, R341: from every state that meets the invariant a step leads to one that does: the store keeps its canonical form, the
event log never exceeds 16,384 entries, the sticky array never exceeds 64. -/
def Obligations.EveryStepKeepsTheInvariant : Prop :=
  ∀ s t : State, s.Inv → step s = .next t → t.Inv

/-! ## Olisy instructions on registers -/

/-- R153, R157: the sums, differences, products and comparisons, with every flag, for every value of their operands. -/
def Obligations.IntegerArithmeticResults : Prop :=
  ∀ (s t : State) (p k : Nat), Fetched s p k 4 t →
    let c := t.ctx k
    (∀ f : FA, f.fn = 0 →
      let a := c.G f.r2
      let b := c.G f.r3
      let cin := if c.sb bC then 1 else 0
      let zn (v : Word) : Ctx := ((c.setG f.r1 v).setSb bZ (v == 0)).setSb bN v.msb
      exec (.add p f) s = .next (retireFx t k
        (((zn (a + b)).setSb bC (decide (a.toNat + b.toNat ≥ 2 ^ 64))).setSb bV (decide (a.toInt + b.toInt ≠ (a + b).toInt))))
      ∧ exec (.addc p f) s = .next (retire t k 4
        ((((zn (a + b + BitVec.ofNat 64 cin)).setSb bC (decide (a.toNat + b.toNat + cin ≥ 2 ^ 64))).setSb bV
          (decide (a.toInt + b.toInt + cin ≠ (a + b + BitVec.ofNat 64 cin).toInt))).setSb bZ
          (c.sb bZ && (a + b + BitVec.ofNat 64 cin) == 0)))
      ∧ exec (.sub p f) s = .next (retireFx t k
        (((zn (a - b)).setSb bC (decide (a.toNat < b.toNat))).setSb bV (decide (a.toInt - b.toInt ≠ (a - b).toInt))))
      ∧ exec (.subb p f) s = .next (retire t k 4
        ((((zn (a - b - BitVec.ofNat 64 cin)).setSb bC (decide (a.toNat < b.toNat + cin))).setSb bV
          (decide (a.toInt - b.toInt - cin ≠ (a - b - BitVec.ofNat 64 cin).toInt))).setSb bZ
          (c.sb bZ && (a - b - BitVec.ofNat 64 cin) == 0)))
      ∧ exec (.mul p f) s = .next (retireFx t k
        ((zn (a * b)).setSb bV (decide (a.toInt * b.toInt ≠ (a * b).toInt))))
      ∧ exec (.cmp p f) s = .next (retire t k 4
        ((((c.setSb bZ (a == b)).setSb bN (a - b).msb).setSb bC (decide (a.toNat < b.toNat))).setSb bV
          (decide (a.toInt - b.toInt ≠ (a - b).toInt))))
      ∧ (f.r3 = 0 → exec (.neg p f) s = .next (retireFx t k
        (((zn (-a)).setSb bC (a != 0)).setSb bV (a == BitVec.intMin 64))))
      ∧ (odd5 f.r1 = false →
          let w (v : BitVec 128) : Ctx := ((((c.setPair f.r1 v).setSb bZ (v == 0)).setSb bN v.msb).setSb bC false).setSb bV false
          exec (.mulwu p f) s = .next (retire t k 4 (w (a.setWidth 128 * b.setWidth 128)))
          ∧ exec (.mulws p f) s = .next (retire t k 4 (w (a.signExtend 128 * b.signExtend 128)))))
    ∧ (∀ f : FC,
      let a := c.G f.r2
      let b : Word := f.imm14.signExtend 64
      let zn (v : Word) : Ctx := ((c.setG f.r1 v).setSb bZ (v == 0)).setSb bN v.msb
      exec (.addi p f) s = .next (retireFx t k
        (((zn (a + b)).setSb bC (decide (a.toNat + b.toNat ≥ 2 ^ 64))).setSb bV (decide (a.toInt + b.toInt ≠ (a + b).toInt))))
      ∧ exec (.muli p f) s = .next (retireFx t k
        ((zn (a * b)).setSb bV (decide (a.toInt * b.toInt ≠ (a * b).toInt))))
      ∧ (f.r2 = 0 →
          let a := c.G f.r1
          exec (.cmpi p f) s = .next (retire t k 4
            ((((c.setSb bZ (a == b)).setSb bN (a - b).msb).setSb bC (decide (a.toNat < b.toNat))).setSb bV
              (decide (a.toInt - b.toInt ≠ (a - b).toInt))))))

/-- R155, R156: quotients and remainders from the operands that an interrupted division read first (R151), with Z and N; a zero
divisor, or -2^63 by -1 where signed, raises fixed-point divide and leaves the registers. -/
def Obligations.DivisionResults : Prop :=
  ∀ (s t : State) (p k : Nat) (f : FA), Fetched s p k 4 t → f.fn = 0 →
    let c := t.ctx k
    let zn (v : Word) : Ctx := ((c.setG f.r1 v).setSb bZ (v == 0)).setSb bN v.msb
    let o (op : Byte) : Ctx := (t.resumeCtx k).operands op
    let a (op : Byte) : Word := (o op).G f.r2
    let b (op : Byte) : Word := (o op).G f.r3
    let big (op : Byte) : Bool := a op == BitVec.intMin 64 && b op == BitVec.allOnes 64
    exec (.divu p f) s = .next (if b 0x27 = 0 then nullify t k 4 0x202 else retire t k 4 (zn (a 0x27 / b 0x27)))
    ∧ exec (.divs p f) s = .next (if b 0x28 = 0 ∨ big 0x28 = true then nullify t k 4 0x202
        else retire t k 4 (zn (BitVec.sdiv (a 0x28) (b 0x28))))
    ∧ exec (.remu p f) s = .next (if b 0x29 = 0 then nullify t k 4 0x202 else retire t k 4 (zn (a 0x29 % b 0x29)))
    ∧ exec (.rems p f) s = .next (if b 0x2A = 0 ∨ big 0x2A = true then nullify t k 4 0x202
        else retire t k 4 (zn (BitVec.srem (a 0x2A) (b 0x2A))))

/-- The logical instructions, shifts and rotates set Z and N and leave C, V and DV; the one-operand instructions and moves set no
flag. -/
def Obligations.LogicShiftAndMoveResults : Prop :=
  ∀ (s t : State) (p k : Nat), Fetched s p k 4 t →
    let c := t.ctx k
    (∀ f : FA, f.fn = 0 →
      let a := c.G f.r2
      let b := c.G f.r3
      let n := b.toNat % 64
      let zn (v : Word) : State := retire t k 4 (((c.setG f.r1 v).setSb bZ (v == 0)).setSb bN v.msb)
      exec (.and p f) s = .next (zn (a &&& b)) ∧ exec (.or p f) s = .next (zn (a ||| b))
      ∧ exec (.xor p f) s = .next (zn (a ^^^ b)) ∧ exec (.andn p f) s = .next (zn (a &&& ~~~b))
      ∧ exec (.shl p f) s = .next (zn (a <<< n)) ∧ exec (.shr p f) s = .next (zn (a >>> n))
      ∧ exec (.sar p f) s = .next (zn (a.sshiftRight n)) ∧ exec (.rol p f) s = .next (zn (a.rotateLeft n))
      ∧ exec (.mov p f) s = .next (retire t k 4 (c.setG f.r1 a))
      ∧ (f.r3 = 0 →
          (∃ z : Nat, exec (.clz p f) s = .next (retire t k 4 (c.setG f.r1 (BitVec.ofNat 64 z))) ∧ z ≤ 64
            ∧ a.toNat < 2 ^ (64 - z) ∧ (z < 64 → 2 ^ (63 - z) ≤ a.toNat))
          ∧ exec (.popc p f) s = .next (retire t k 4 (c.setG f.r1 (BitVec.ofNat 64 (((List.range 64).filter a.getLsbD).length))))
          ∧ exec (.bswap p f) s = .next (retire t k 4 (c.setG f.r1
              (a.extractLsb' 0 8 ++ a.extractLsb' 8 8 ++ a.extractLsb' 16 8 ++ a.extractLsb' 24 8
                ++ a.extractLsb' 32 8 ++ a.extractLsb' 40 8 ++ a.extractLsb' 48 8 ++ a.extractLsb' 56 8)))))
    ∧ (∀ f : FA, f.fn = 0x000 → exec (.sext p f) s = .next (retire t k 4 (c.setG f.r1 (((c.G f.r2).setWidth 8).signExtend 64))))
    ∧ (∀ f : FA, f.fn = 0x080 → exec (.sext p f) s = .next (retire t k 4 (c.setG f.r1 (((c.G f.r2).setWidth 16).signExtend 64))))
    ∧ (∀ f : FA, f.fn = 0x100 → exec (.sext p f) s = .next (retire t k 4 (c.setG f.r1 (((c.G f.r2).setWidth 32).signExtend 64))))
    ∧ (∀ f : FA, f.fn &&& 0x1F = 0 →
        exec (.csel p f) s = .next (retire t k 4 (c.setG f.r1 (if c.cond (f.fn.extractLsb' 5 4) then c.G f.r2 else c.G f.r3))))
    ∧ (∀ f : FC,
      let a := c.G f.r2
      let b : Word := f.imm14.setWidth 64
      let n := f.imm14.toNat
      let zn (v : Word) : State := retire t k 4 (((c.setG f.r1 v).setSb bZ (v == 0)).setSb bN v.msb)
      exec (.andi p f) s = .next (zn (a &&& b)) ∧ exec (.ori p f) s = .next (zn (a ||| b))
      ∧ exec (.xori p f) s = .next (zn (a ^^^ b))
      ∧ (n < 64 →
          exec (.shli p f) s = .next (zn (a <<< n)) ∧ exec (.shri p f) s = .next (zn (a >>> n))
          ∧ exec (.sari p f) s = .next (zn (a.sshiftRight n)) ∧ exec (.roli p f) s = .next (zn (a.rotateLeft n))))

/-- R105, R154: the branches: taken, the next instruction is at the target; not taken, at the next word. A target that is no multiple
of 4 raises specification and leaves the registers. -/
def Obligations.BranchTargets : Prop :=
  ∀ (s t : State) (p k : Nat), Fetched s p k 4 t →
    let c := t.ctx k
    let go (c' : Ctx) (target : Word) : State :=
      if target.toNat % 4 ≠ 0 then nullify t k 4 0x104 else retire t k 4 { c' with ia := target - 4 }
    (∀ f : FJ,
      let target := c.ia + f.off20.signExtend 64 <<< 2
      exec (.bc p f) s = .next (if c.cond f.cond then go c target else retire t k 4 c)
      ∧ (f.cond = 15 → exec (.bal p f) s = .next (go (c.setG 31 (c.ia + 4)) target)))
    ∧ (∀ f : FA, f.fn &&& 0x1F = 0 → f.r1 = 0 → f.r3 = 0 →
        exec (.br p f) s = .next (if c.cond (f.fn.extractLsb' 5 4) then go c (c.G f.r2) else retire t k 4 c))
    ∧ (∀ f : FA, f.fn = 0 → exec (.balr p f) s = .next (go (c.setG f.r1 (c.ia + 4)) (c.G f.r2)))
    ∧ (∀ f : FC, f.r2 = 0 →
        let v := c.G f.r1 - 1
        exec (.bct p f) s = .next (if v = 0 then retire t k 4 (c.setG f.r1 v)
          else go (c.setG f.r1 v) (c.ia + f.imm14.signExtend 64 <<< 2)))

/-- NOP has no effect but to be passed; GETF and SETF move the flags Z, N, C, V and DV; FEAT reads a feature word and TBR the timebase;
FMOVG and GMOVF move between the register files; LFPC loads the defined bits of FPCR, SFPC reads it. -/
def Obligations.MovesOfFlagsAndStatus : Prop :=
  ∀ (s t : State) (p k : Nat) (f : FA), Fetched s p k 4 t → f.fn = 0 →
    let c := t.ctx k
    exec (.nop p f) s = .next (retire t k 4 c)
    ∧ exec (.getf p f) s = .next (retire t k 4 (c.setG f.r1 (c.psw &&& 0x1F)))
    ∧ exec (.setf p f) s = .next (retire t k 4 { c with psw := (c.psw &&& ~~~0x1F) ||| (c.G f.r2 &&& 0x1F) })
    ∧ (f.r2.toNat ≤ 3 → exec (.feat p f) s = .next (retire t k 4 (c.setG f.r1 (BitVec.ofNat 64 (s.feat f.r2.toNat)))))
    ∧ exec (.tbr p f) s = .next (retire t k 4 (c.setG f.r1 (BitVec.ofNat 64 s.clk.tb)))
    ∧ exec (.fmovg p f) s = .next (retire t k 4 (c.setG f.r1 (c.F f.r2)))
    ∧ exec (.gmovf p f) s = .next (retire t k 4 (c.setF f.r1 (c.G f.r2)))
    ∧ ((c.G f.r2).toNat % 8 ≤ 4 →
        exec (.lfpc p f) s = .next (retire t k 4 { c with fpcr := (c.G f.r2).setWidth 32 &&& 0x003F1F07#32 }))
    ∧ exec (.sfpc p f) s = .next (retire t k 4 (c.setG f.r1 (c.fpcr.setWidth 64)))

/-- R103: FEAT0 and FEAT1 are MGR_CAP0 and MGR_CAP1, FEAT2 and FEAT3 read zero; FEAT loads the word that its R2 field numbers, and an R2 field
of 4 to 31 raises the specification exception. No form raises feature-absent. -/
def Obligations.FeatureWords : Prop :=
  (∀ s : State, regRead s 0 (.cap 0) = s.feat 0 ∧ regRead s 0 (.cap 1) = s.feat 1 ∧ s.feat 2 = 0 ∧ s.feat 3 = 0)
  ∧ (∀ (s : State) (n : Nat), n ≤ 3 → regAt s 0 (0x20 + 8 * n) = .cap n)
  ∧ ∀ (s t : State) (p k : Nat) (f : FA), Fetched s p k 4 t → f.fn = 0 →
    (f.r2.toNat ≤ 3 → exec (.feat p f) s = .next (retire t k 4 ((t.ctx k).setG f.r1 (BitVec.ofNat 64 (s.feat f.r2.toNat)))))
    ∧ (4 ≤ f.r2.toNat → exec (.feat p f) s = .next (nullify t k 4 0x104))

/-! ## Floating point and packed decimal -/

/-- R167 to R176: the arithmetic instructions write the rounded result of their operands in the format FN[8] selects, the sign
operations act on the sign bit alone, the conversions and the comparison follow their definitions; flags and traps as R169 and R172
say. The operands of FDIV and FSQRT are those an interrupted routine read first (R151). -/
def Obligations.FloatingPointResults : Prop :=
  ∀ (s t : State) (p k : Nat) (f : FA), Fetched s p k 4 t →
    let c := t.ctx k
    let m := fmtOf f
    let x (o : Ctx) (r : BitVec 5) : FVal := unpack m c.ftz (o.F r)
    let ends (r : Nat × Nat) : State := retireFp t k (c.setF f.r1 (BitVec.ofNat 64 r.1)) r.2
    let endsG (r : Nat × Nat) : State := retireFp t k (c.setG f.r1 (BitVec.ofNat 64 r.1)) r.2
    let d := (t.resumeCtx k).operands 0x73
    let q := (t.resumeCtx k).operands 0x74
    (f.fn &&& 0xFF = 0 →
      exec (.fadd p f) s = .next (ends (fpAdd m c.rm c.ftz (x c f.r2) (x c f.r3)))
      ∧ exec (.fsub p f) s = .next (ends (fpSub m c.rm c.ftz (x c f.r2) (x c f.r3)))
      ∧ exec (.fmul p f) s = .next (ends (fpMul m c.rm c.ftz (x c f.r2) (x c f.r3)))
      ∧ exec (.fdiv p f) s = .next (ends (fpDiv m c.rm c.ftz (x d f.r2) (x d f.r3)))
      ∧ (f.r3 = 0 → exec (.fsqrt p f) s = .next (ends (fpSqrt m c.rm c.ftz (x q f.r2))))
      ∧ exec (.fma p f) s = .next (ends (fpFma m c.rm c.ftz false (x c f.r2) (x c f.r3) (x c f.r1) false))
      ∧ exec (.fms p f) s = .next (ends (fpFma m c.rm c.ftz false (x c f.r2) (x c f.r3) (x c f.r1) true))
      ∧ exec (.fnma p f) s = .next (ends (fpFma m c.rm c.ftz true (x c f.r2) (x c f.r3) (x c f.r1) false))
      ∧ exec (.fmin p f) s = .next (ends (fpMinMax m false (x c f.r2) (x c f.r3)))
      ∧ exec (.fmax p f) s = .next (ends (fpMinMax m true (x c f.r2) (x c f.r3)))
      ∧ (f.r3 = 0 →
          (f.fn = 0 → exec (.fneg p f) s = .next (retire t k 4 (c.setF f.r1 (c.F f.r2 ^^^ (1#64 <<< 63))))
            ∧ exec (.fabs p f) s = .next (retire t k 4 (c.setF f.r1 (c.F f.r2 &&& ~~~(1#64 <<< 63)))))
          ∧ (f.fn = 0x100 →
              exec (.fneg p f) s = .next (retire t k 4 (c.setF f.r1 (((c.F f.r2).setWidth 32 ^^^ (1#32 <<< 31)).setWidth 64)))
              ∧ exec (.fabs p f) s = .next (retire t k 4 (c.setF f.r1 (((c.F f.r2).setWidth 31).setWidth 64)))))
      ∧ exec (.fcmp p f) s = .next (
          let v := nanResult m [x c f.r2, x c f.r3]
          let lt := ltVal (x c f.r2) (x c f.r3)
          let gt := ltVal (x c f.r3) (x c f.r2)
          retireFp t k ((((c.setSb bZ (v.isNone && !lt && !gt)).setSb bN (v.isNone && lt)).setSb bC false).setSb bV v.isSome)
            ((v.map Prod.snd).getD 0)))
    ∧ (f.fn = 0x000 → exec (.fcvt p f) s = .next (ends (fpConv fmt64 fmt32 c.rm c.ftz (unpack fmt64 c.ftz (c.F f.r2)))))
    ∧ (f.fn = 0x010 → exec (.fcvt p f) s = .next (ends (fpConv fmt32 fmt64 c.rm c.ftz (unpack fmt32 c.ftz (c.F f.r2)))))
    ∧ (f.fn &&& 0xFF = 0x20 → exec (.fcvt p f) s = .next (ends (roundInt m c.rm c.ftz (c.G f.r2).toInt 0 false)))
    ∧ (f.fn &&& 0xFF = 0x30 → exec (.fcvt p f) s = .next (ends (roundInt m c.rm c.ftz ((c.G f.r2).toNat : Int) 0 false)))
    ∧ (f.fn &&& 0xFF = 0x40 → exec (.fcvt p f) s = .next (endsG (fpToInt c.rm true (x c f.r2))))
    ∧ (f.fn &&& 0xFF = 0x50 → exec (.fcvt p f) s = .next (endsG (fpToInt c.rm false (x c f.r2))))
    ∧ (f.fn &&& 0xFF = 0x60 → exec (.fcvt p f) s = .next (endsG (fpToInt 4 true (x c f.r2))))
    ∧ (f.fn &&& 0xFF = 0x70 → exec (.fcvt p f) s = .next (endsG (fpToInt 4 false (x c f.r2))))

/-- R168: a value that the format holds exactly is the result of rounding it in every mode, with no flag: what is written reads back
as the same number, of the same sign. -/
def Obligations.RepresentableValuesRoundToThemselves : Prop :=
  ∀ (f : Fmt) (rm m : Nat) (neg : Bool) (e : Int), f = fmt64 ∨ f = fmt32 → 0 < m → m < 2 ^ f.p → f.emin ≤ e → e + f.p ≤ f.bias →
    (roundF f rm false neg m e).2 = 0
    ∧ ∃ (m' : Nat) (e' : Int), unpack f false (BitVec.ofNat 64 (roundF f rm false neg m e).1) = .fin neg m' e'
      ∧ f.emin ≤ e' ∧ m' * 2 ^ (e' - f.emin).toNat = m * 2 ^ (e - f.emin).toNat

/-- R157, R159 to R164: sums, differences, products, quotients, comparisons, shifts, moves and conversions of packed decimal; a digit or a
sign that is not valid raises decimal data and leaves the registers. An accumulator written with a magnitude below 10^31 and its sign reads back as
that value. R194: the decimal unit's routine of ADDP and SUBP leaves the low 31 digits of the result and its sign in its latches, with DOV where digits are
lost. -/
def Obligations.DecimalResults : Prop :=
  (∀ (m : Nat) (neg : Bool), m < 10 ^ 31 → daVal (daOf m (signOf m neg)) = some (m, neg && m != 0))
  ∧ (∀ (r : MicroRegs) (inv : Bool) (x y : BitVec 128) (a b : Nat × Bool), daVal x = some a → daVal y = some b →
      let v := if inv then signed a - signed b else signed a + signed b
      (r.addRoutine inv x y).map (fun r => (r.decOut r.sign, r.flags.getLsbD 15))
        = some (BitVec.ofNat 128 (packDigits 31 (v.natAbs % 10 ^ 31) * 16 + (if v < 0 then 13 else 12)), decide (v.natAbs ≥ 10 ^ 31)))
  ∧ ∀ (s t : State) (p k : Nat), Fetched s p k 4 t →
    let c := t.ctx k
    (∀ f : FA, f.fn &&& 0x1E0 = 0 → f.r3 = 0 → f.r1.toNat < 8 → f.r2.toNat < 8 →
      let r := f.r1.toNat
      let both (o : Ctx) (g : Nat × Bool → Nat × Bool → State) : State :=
        match daVal (o.DA r), daVal (o.DA f.r2.toNat) with
        | some a, some b => g a b
        | _, _ => nullify t k 4 0x203
      let lost (v : Int) : Bool := decide (v.natAbs ≥ 10 ^ 31)
      (f.fn = 0 →
        let latched (inv : Bool) : State := t.updEng p fun e =>
          { e with work := (e.work.addRoutine inv (c.DA r) (c.DA f.r2.toNat)).getD e.work }
        exec (.addp p f) s = .next (both c fun a b => retireDec (latched false) k c r (signed a + signed b) (lost (signed a + signed b)))
        ∧ exec (.subp p f) s = .next (both c fun a b => retireDec (latched true) k c r (signed a - signed b) (lost (signed a - signed b)))
        ∧ exec (.mulp p f) s = .next (both ((t.resumeCtx k).operands 0x92) fun a b =>
            retireDec t k c r (signed a * signed b) (lost (signed a * signed b)))
        ∧ exec (.cmpp p f) s = .next (both c fun a b =>
            retire t k 4 ((c.setSb bZ (signed a == signed b)).setSb bN (decide (signed a < signed b))))
        ∧ exec (.movp p f) s = .next (match daVal (c.DA f.r2.toNat) with
            | some (m, neg) => retire t k 4 ((((c.setDA r (c.DA f.r2.toNat))).setSb bZ (m == 0)).setSb bN (neg && m != 0))
            | none => nullify t k 4 0x203))
      ∧ (odd5 f.r1 = false →
        exec (.divp p f) s = .next (both ((t.resumeCtx k).operands 0x93) fun a b =>
          let n := a.1 * 10 ^ (f.fn.toNat % 32)
          if b.1 = 0 ∨ n / b.1 ≥ 10 ^ 31 then nullify t k 4 0x205
          else
            let q := n / b.1
            retire t k 4 ((((c.setDA r (daOf q (signOf q (a.2 != b.2)))).setDA (r + 1) (daOf (n % b.1) (signOf (n % b.1) a.2))).setSb bZ (q == 0)).setSb
              bN (a.2 != b.2 && q != 0)))))
    ∧ (∀ f : FC, f.r1.toNat < 8 → f.r2.toNat < 8 → f.imm14.toNat / 16 % 16 = 0 → f.imm14.toNat % 16 < 10 →
      let n := (f.imm14.extractLsb' 8 6).toInt
      n ≠ -32 →
      exec (.shrp p f) s = .next (match daVal (c.DA f.r2.toNat) with
        | none => nullify t k 4 0x203
        | some (m, neg) =>
          let sg (v : Nat) : Int := if neg then -(v : Int) else v
          if 0 ≤ n then retireDec t k c f.r1.toNat (sg (m * 10 ^ n.toNat)) (decide (m * 10 ^ n.toNat ≥ 10 ^ 31))
          else
            let up := if m / 10 ^ (n.natAbs - 1) % 10 + f.imm14.toNat % 16 ≥ 10 then 1 else 0
            retireDec t k c f.r1.toNat (sg (m / 10 ^ n.natAbs + up)) false))
    ∧ (∀ f : FA, f.fn = 0 → f.r3 = 0 →
      (f.r1.toNat < 8 →
        let v := (((t.resumeCtx k).operands 0x96).G f.r2).toInt
        exec (.cvbp p f) s = .next (retire t k 4 (((c.setDA f.r1.toNat
          (BitVec.ofNat 128 (packDigits 31 v.natAbs * 16 + (if v < 0 then 13 else 12)))).setSb bZ (v == 0)).setSb bN (decide (v < 0)))))
      ∧ (f.r2.toNat < 8 →
        exec (.cvpb p f) s = .next (match daVal (((t.resumeCtx k).operands 0x97).DA f.r2.toNat) with
          | none => nullify t k 4 0x203
          | some x =>
            let r := BitVec.ofInt 64 (signed x)
            retireFx t k ((((c.setG f.r1 r).setSb bZ (r == 0)).setSb bN r.msb).setSb bV (decide (signed x ≠ r.toInt))))))

/-! ## Loads, stores, compare and swap -/

/-- R108 to R110, R115, R162: each load reads the bytes of its operand, most significant first, at the address of its addressing mode, writes
its destination and, in the post- and pre-modes, its base, and leaves the flags; LDP sets Z and N and refuses bytes that are no packed
number. -/
def Obligations.LoadResults : Prop :=
  ∀ (s t : State) (p k : Nat),
    let c := t.ctx k
    (∀ f : FB, Fetched s p k 4 t →
      let load (i : Instr) (n al : Nat) (g pr : Bool) (w : List Byte → Ctx) : Prop :=
        ∀ a u d t', eaFB c f n g pr = some (a, u) → a.toNat % al = 0 → loadOp t p k a n (g && n == 8) = .ok (d, t') →
          exec i s = .next (retire t' k 4 ((w d).setBase f.b u))
      let z (d : List Byte) : Ctx := c.setG f.r1 (BitVec.ofNat 64 (beNat d))
      load (.ldb p f) 1 1 true false z ∧ load (.ldh p f) 2 1 true false z ∧ load (.ldw p f) 4 1 true false z
      ∧ load (.ldd p f) 8 1 true false z
      ∧ load (.ldbs p f) 1 1 true false (fun d => c.setG f.r1 ((BitVec.ofNat 8 (beNat d)).signExtend 64))
      ∧ load (.ldhs p f) 2 1 true false (fun d => c.setG f.r1 ((BitVec.ofNat 16 (beNat d)).signExtend 64))
      ∧ load (.ldws p f) 4 1 true false (fun d => c.setG f.r1 ((BitVec.ofNat 32 (beNat d)).signExtend 64))
      ∧ (odd5 f.r1 = false → load (.ldq p f) 16 16 true true (fun d => c.setPair f.r1 (BitVec.ofNat 128 (beNat d))))
      ∧ load (.fldd p f) 8 1 false false (fun d => c.setF f.r1 (BitVec.ofNat 64 (beNat d)))
      ∧ load (.flds p f) 4 1 false false (fun d => c.setF f.r1 (BitVec.ofNat 64 (beNat d)))
      ∧ (∀ a u, eaFB c f 8 true false = some (a, u) → exec (.la p f) s = .next (retire t k 4 ((c.setBase f.b u).setG f.r1 a))))
    ∧ (∀ f : FD, Fetched s p k 8 t →
      let load (i : Instr) (n al : Nat) (g pr : Bool) (w : List Byte → Ctx) : Prop :=
        ∀ a u d t', eaFD c f n g pr = some (a, u) → a.toNat % al = 0 → loadOp t p k a n (g && n == 8) = .ok (d, t') →
          exec i s = .next (retire t' k 8 ((w d).setBase f.b u))
      let z (d : List Byte) : Ctx := c.setG f.r1 (BitVec.ofNat 64 (beNat d))
      (f.l = 0 → load (.ldx p f) 1 1 true false z)
      ∧ (f.l = 1 → load (.ldx p f) 1 1 true false (fun d => c.setG f.r1 ((BitVec.ofNat 8 (beNat d)).signExtend 64)))
      ∧ (f.l = 2 → load (.ldx p f) 2 1 true false z)
      ∧ (f.l = 3 → load (.ldx p f) 2 1 true false (fun d => c.setG f.r1 ((BitVec.ofNat 16 (beNat d)).signExtend 64)))
      ∧ (f.l = 4 → load (.ldx p f) 4 1 true false z)
      ∧ (f.l = 5 → load (.ldx p f) 4 1 true false (fun d => c.setG f.r1 ((BitVec.ofNat 32 (beNat d)).signExtend 64)))
      ∧ (f.l = 6 → load (.ldx p f) 8 1 true false z)
      ∧ (f.l = 7 → odd5 f.r1 = false → load (.ldx p f) 16 16 true true (fun d => c.setPair f.r1 (BitVec.ofNat 128 (beNat d))))
      ∧ (f.l = 6 → load (.fldx p f) 8 1 false false (fun d => c.setF f.r1 (BitVec.ofNat 64 (beNat d))))
      ∧ (f.l = 4 → load (.fldx p f) 4 1 false false (fun d => c.setF f.r1 (BitVec.ofNat 64 (beNat d))))
      ∧ (f.l = 0 → ∀ a u, eaFD c f 8 true false = some (a, u) →
          exec (.lax p f) s = .next (retire t k 8 ((c.setBase f.b u).setG f.r1 a)))
      ∧ (f.r1.toNat < 8 → ∀ a u d t' m neg, eaFD c f (f.l.toNat + 1) false false = some (a, u) →
          loadOp t p k a (f.l.toNat + 1) = .ok (d, t') → unpackDec d = some (m, neg) →
          exec (.ldp p f) s = .next (retire t' k 8
            ((((c.setDA f.r1.toNat (BitVec.ofNat 128 (beNat d))).setSb bZ (m == 0)).setSb bN (neg && m != 0)).setBase f.b u))))

/-- R108 to R110, R115, R118, R162, R322: each store writes the low bytes of its register, most significant first, at the address of its
addressing mode. Where the operand lies in the instance's store the instruction is then complete; a piece of it in a host window is
written out by a commit point that follows another one, which both complete inside the instruction unless the instance is twinned. -/
def Obligations.StoreResults : Prop :=
  ∀ (s t : State) (p k : Nat),
    let c := t.ctx k
    let ends (i : Instr) (n : Nat) (a : Word) (d : List Byte) (keys : Bool) (c' : Ctx) : Prop :=
      (∀ t', storeOp t p k a d keys = .ok (t', []) → exec i s = .next (retire t' k n c'))
      ∧ (∀ t' e es, storeOp t p k a d keys = .ok (t', e :: es) → (t.eng p).commit = none → (t.fn (veInst k + 1)).bme = true →
          t.twinned (veInst k) = false → ∀ w ws, storeOp (commitNow t p k [] false) p k a d keys = .ok (w, ws) →
          exec i s = .next (commitNow (retire w k n c') p k ws false))
    (∀ f : FB, Fetched s p k 4 t →
      let store (i : Instr) (n al : Nat) (g pr : Bool) (d : List Byte) : Prop :=
        ∀ a u, eaFB c f n g pr = some (a, u) → a.toNat % al = 0 → ends i 4 a d (g && n == 8) (c.setBase f.b u)
      store (.stb p f) 1 1 true false (toBE 1 (c.G f.r1).toNat) ∧ store (.sth p f) 2 1 true false (toBE 2 (c.G f.r1).toNat)
      ∧ store (.stw p f) 4 1 true false (toBE 4 (c.G f.r1).toNat) ∧ store (.std p f) 8 1 true false (toBE 8 (c.G f.r1).toNat)
      ∧ (odd5 f.r1 = false → store (.stq p f) 16 16 true true (toBE 8 (c.G f.r1).toNat ++ toBE 8 (c.G (f.r1 + 1)).toNat))
      ∧ store (.fstd p f) 8 1 false false (toBE 8 (c.F f.r1).toNat) ∧ store (.fsts p f) 4 1 false false (toBE 4 (c.F f.r1).toNat))
    ∧ (∀ f : FD, Fetched s p k 8 t →
      let store (i : Instr) (n al : Nat) (g pr : Bool) (d : List Byte) (c' : Ctx) : Prop :=
        ∀ a u, eaFD c f n g pr = some (a, u) → a.toNat % al = 0 → ends i 8 a d (g && n == 8) (c'.setBase f.b u)
      (f.l.toNat ≤ 1 → store (.stx p f) 1 1 true false (toBE 1 (c.G f.r1).toNat) c)
      ∧ (f.l.toNat = 2 ∨ f.l.toNat = 3 → store (.stx p f) 2 1 true false (toBE 2 (c.G f.r1).toNat) c)
      ∧ (f.l.toNat = 4 ∨ f.l.toNat = 5 → store (.stx p f) 4 1 true false (toBE 4 (c.G f.r1).toNat) c)
      ∧ (f.l = 6 → store (.stx p f) 8 1 true false (toBE 8 (c.G f.r1).toNat) c)
      ∧ (f.l = 7 → odd5 f.r1 = false →
          store (.stx p f) 16 16 true true (toBE 8 (c.G f.r1).toNat ++ toBE 8 (c.G (f.r1 + 1)).toNat) c)
      ∧ (f.l = 6 → store (.fstx p f) 8 1 false false (toBE 8 (c.F f.r1).toNat) c)
      ∧ (f.l = 4 → store (.fstx p f) 4 1 false false (toBE 4 (c.F f.r1).toNat) c)
      ∧ (f.r1.toNat < 8 → ∀ m neg, daVal (c.DA f.r1.toNat) = some (m, neg) →
          store (.stp p f) (f.l.toNat + 1) 1 false false
            (toBE (f.l.toNat + 1) ((c.DA f.r1.toNat).toNat % 2 ^ (8 * (f.l.toNat + 1))))
            (c.setSb bDV (decide (m ≥ 10 ^ (2 * f.l.toNat + 1))))))

/-- R115: CAS and CASX compare the doubleword at the address with G[R1]; equal, they store G[R1 + 1] there and set Z; different, they load it
into G[R1] and clear Z. The address must be a multiple of 8. -/
def Obligations.CompareAndSwapResults : Prop :=
  ∀ (s t : State) (p k : Nat),
    let c := t.ctx k
    let cas (i : Instr) (n : Nat) (r1 b : BitVec 5) (a : Word) (u : Option Word) : Prop :=
      a.toNat % 8 = 0 → ∀ ps t1 d t2, translateOp t p k .store a 8 = .ok (ps, t1) → loadPieces t1 p k false ps = .ok (d, t2) →
        (BitVec.ofNat 64 (beNat d) = c.G r1 → ∀ t3, storePieces t2 p k (toBE 8 (c.G (r1 + 1)).toNat) false ps = .ok (t3, []) →
          exec i s = .next (retire t3 k n ((c.setSb bZ true).setBase b u)))
        ∧ (BitVec.ofNat 64 (beNat d) ≠ c.G r1 →
          exec i s = .next (retire t2 k n (((c.setG r1 (BitVec.ofNat 64 (beNat d))).setSb bZ false).setBase b u)))
    (∀ (f : FB) (a : Word) (u : Option Word), Fetched s p k 4 t → odd5 f.r1 = false → eaFB c f 8 true true = some (a, u) →
      cas (.cas p f) 4 f.r1 f.b a u)
    ∧ (∀ (f : FD) (a : Word) (u : Option Word), Fetched s p k 8 t → odd5 f.r1 = false → f.l = 0 → eaFD c f 8 true true = some (a, u) →
      cas (.casx p f) 8 f.r1 f.b a u)

/-- R76, R123, R199, R204, R239: inside one line and outside no-allocate mode, a store changes for its engine exactly the bytes it names and a load
returns the bytes its engine sees and changes none; what a hub agent writes is what is committed there, every other byte is as before,
and no cache keeps an older copy. -/
def Obligations.MemoryAccessesReadAndWriteTheirBytes : Prop :=
  (∀ (s u : State) (p a : Nat) (d : List Byte) (va : Word), Memory.wf s.mem.store = true → (s.eng p).stream.active = false →
    (s.eng p).stream.bufs = [] → a % 64 + d.length ≤ 64 → storeLine s p a d va = .ok u →
    ∀ x, byteSeen u p x = if a ≤ x ∧ x < a + d.length then d.getD (x - a) 0 else byteSeen s p x)
  ∧ (∀ (s u : State) (p a n : Nat) (d : List Byte) (va : Word), Memory.wf s.mem.store = true → (s.eng p).stream.active = false →
    a % 64 + n ≤ 64 → loadLine s p a n va = .ok (d, u) →
    d.length = n ∧ (∀ j, j < n → d.getD j 0 = byteSeen s p (a + j)) ∧ ∀ x, byteSeen u p x = byteSeen s p x)
  ∧ ∀ (s : State) (a : Nat) (d : List Byte), Memory.wf s.mem.store = true → 0 < d.length → a % 64 + d.length ≤ 64 →
    (∀ x, byteAt (hubLine s a d) x = if a ≤ x ∧ x < a + d.length then d.getD (x - a) 0 else byteAt s x)
    ∧ (∀ e ∈ (hubLine s a d).domes, ∀ y ∈ e.2.lines, y.line ≠ a / 64)
    ∧ (∀ e ∈ (hubLine s a d).engines, ∀ y ∈ e.2.l1d, y.line ≠ a / 64)

/-! ## Block-repeat, control and system instructions -/

/-- R125, R127 to R132, R154: one element of each block-repeat instruction, and a count of zero. An element that does not end the instruction
leaves it at its address with RP 1 (R150); the last one, or a count of zero, completes it. R165: EDITP stores the pattern edited
with the digits it selects, and sets Z and N of those digits. -/
def Obligations.BlockRepeatElements : Prop :=
  (∀ (s t : State) (p k n : Nat) (f : FE), Fetched s p k 4 t →
    let c := t.ctx k
    let start := !c.sb bRP
    let idle (u : State) (c' : Ctx) : State := advance ((u.setCtx k c').updVe k fun x => { x with desc := none }) k 4
    let ends (u : State) (c' : Ctx) (fin : Bool) (d : Option Bool) : State :=
      if fin then idle u c' else (u.setCtx k c').updVe k fun x => { x with cur := c'.setSb bRP true, desc := d }
    let fin := c.G f.rc == 1
    let less : Word := -1
    let zero (i : Instr) (c' : Ctx) : Prop := c.G f.rc = 0 → exec i s = .next (idle t c')
    let one : Prop := c.G f.rc ≠ 0
    (f.rp = 0 → f.opt.toNat < 2 → distinct [f.rd, f.rs, f.rc] = true →
      zero (.movb p f n) c
      ∧ (one → ∀ t1 t2 b,
          let down := ((t.ve k).desc).getD (!f.opt.getLsbD 0 && decide ((c.G f.rs).toNat < (c.G f.rd).toNat
            ∧ (c.G f.rd).toNat < (c.G f.rs).toNat + (c.G f.rc).toNat))
          let off : Word := if down then c.G f.rc - 1 else 0
          loadOp t p k (c.G f.rs + off) 1 = .ok ([b], t1) → storeOp t1 p k (c.G f.rd + off) [b] = .ok (t2, []) →
          exec (.movb p f 1) s = .next (ends t2
            (if down then c.bump f.rc less else ((c.bump f.rc less).bump f.rd 1).bump f.rs 1) fin (some down))))
    ∧ (f.rs = 0 → f.opt.toNat < 4 → distinct [f.rd, f.rc, f.rp] = true →
      zero (.fillb p f n) c
      ∧ (one → ∀ t1, storeOp t p k (c.G f.rd) (toBE (2 ^ f.opt.toNat) (c.G f.rp).toNat) = .ok (t1, []) →
          exec (.fillb p f 1) s = .next (ends t1 ((c.bump f.rd (BitVec.ofNat 64 (2 ^ f.opt.toNat))).bump f.rc less) fin (t1.ve k).desc)))
    ∧ (f.rp = 0 → f.opt = 0 → distinct [f.rd, f.rs, f.rc] = true →
      let flags (c : Ctx) (z lower : Bool) : Ctx := (((c.setSb bZ z).setSb bC lower).setSb bN lower).setSb bV false
      zero (.cmpb p f n) (flags c true false)
      ∧ (one → ∀ t1 t2 a b, loadOp t p k (c.G f.rd) 1 = .ok ([a], t1) → loadOp t1 p k (c.G f.rs) 1 = .ok ([b], t2) →
          (a ≠ b → exec (.cmpb p f 1) s = .next (idle t2 (flags c false (decide (a.toNat < b.toNat)))))
          ∧ (a = b → exec (.cmpb p f 1) s = .next (
              let c' := ((c.bump f.rd 1).bump f.rs 1).bump f.rc less
              ends t2 (if fin then flags c' true false else c') fin (t2.ve k).desc))))
    ∧ (f.rd = 0 → f.opt.toNat < 2 → distinct [f.rs, f.rc, f.rp] = true →
      zero (.scanb p f n) (c.setSb bZ false)
      ∧ (one → ∀ t1 b, loadOp t p k (c.G f.rs) 1 = .ok ([b], t1) →
          let found := (b == (c.G f.rp).setWidth 8) != f.opt.getLsbD 0
          exec (.scanb p f 1) s = .next (if found then idle t1 (c.setSb bZ true)
            else
              let c' := (c.bump f.rs 1).bump f.rc less
              ends t1 (if fin then c'.setSb bZ false else c') fin (t1.ve k).desc)))
    ∧ (f.opt = 0 → distinct [f.rd, f.rs, f.rc, f.rp] = true →
      zero (.translate p f n) c ∧ zero (.trtb p f n) (c.setSb bZ true)
      ∧ (one → ∀ t1 t2 b x, loadOp t p k (c.G f.rs) 1 = .ok ([b], t1) → loadOp t1 p k (c.G f.rp + b.setWidth 64) 1 = .ok ([x], t2) →
          (∀ t3, storeOp t2 p k (c.G f.rd) [x] = .ok (t3, []) →
            exec (.translate p f 1) s = .next (ends t3 (((c.bump f.rd 1).bump f.rs 1).bump f.rc less) fin (t3.ve k).desc))
          ∧ exec (.trtb p f 1) s = .next (if x ≠ 0 then idle t2 ((c.setG f.rd (x.setWidth 64)).setSb bZ false)
              else
                let c' := (c.bump f.rs 1).bump f.rc less
                ends t2 (if fin then c'.setSb bZ true else c') fin (t2.ve k).desc)))
    ∧ (f.rp = 0 → f.opt.toNat < 4 → distinct [f.rd, f.rs, f.rc] = true →
      let flip (b : Bool) (v : BitVec 32) : BitVec 32 := if b then ~~~v else v
      let init := start && f.opt.getLsbD 0
      let final := f.opt.getLsbD 1
      zero (.crcb p f n) (c.setG f.rd ((c.G f.rd).extractLsb' 32 32 ++ flip final (flip init ((c.G f.rd).setWidth 32))))
      ∧ (one → ∀ t1 b, loadOp t p k (c.G f.rs) 1 = .ok ([b], t1) →
          let v := crcByte polyC (flip init ((c.G f.rd).setWidth 32)) b
          exec (.crcb p f 1) s = .next (ends t1
            (((c.setG f.rd ((flip (fin && final) v).setWidth 64)).bump f.rs 1).bump f.rc less) fin (t1.ve k).desc)))
    ∧ (odd5 f.rp = false → f.opt.toNat < 2 → distinct [f.rd, f.rs, f.rc, f.rp, f.rp + 1] = true →
      let carry : Word := if start && f.opt.getLsbD 0 then 0 else c.G (f.rp + 1)
      zero (.mulmb p f n) ((if start && f.opt.getLsbD 0 then c.setG (f.rp + 1) 0 else c).setSb bZ
        ((if start && f.opt.getLsbD 0 then c.setG (f.rp + 1) 0 else c).G (f.rp + 1) == 0))
      ∧ (one → ∀ t1 t2 t3 m a, loadOp t p k (c.G f.rs) 8 = .ok (m, t1) → (beNat m ≠ 0 ∨ carry ≠ 0) →
          loadOp t1 p k (c.G f.rd) 8 = .ok (a, t2) →
          let x := beNat m * (c.G f.rp).toNat + beNat a + carry.toNat
          storeOp t2 p k (c.G f.rd) (toBE 8 (x % 2 ^ 64)) = .ok (t3, []) →
          exec (.mulmb p f 1) s = .next (
            let high : Word := BitVec.ofNat 64 (x / 2 ^ 64)
            let c' := (((c.setG (f.rp + 1) high).bump f.rd (-8)).bump f.rs (-8)).bump f.rc less
            ends t3 (if fin then c'.setSb bZ (high == 0) else c') fin (t3.ve k).desc))))
  ∧ ∀ (s t t1 t2 t3 : State) (p k : Nat) (f : FE) (pat : List Byte) (ps : List (Word × Phys × Nat)) (d m : Nat) (neg : Bool),
    Fetched s p k 4 t →
    let c := t.ctx k
    let len := (c.G f.rc).toNat
    c.sb bRP = false → f.opt.getLsbD 3 = false → distinct [f.rd, f.rs, f.rc, f.rp] = true → 1 ≤ len → len ≤ 64 →
    loadOp t p k (c.G f.rs) len = .ok (pat, t1) → translateOp t1 p k .store (c.G f.rd) len = .ok (ps, t2) →
    editDigits pat = some d → daVal (c.DA (f.opt.toNat % 8)) = some (m, neg) →
    let sel := m % 10 ^ d
    storeOp t2 p k (c.G f.rd) (editBytes ((c.G f.rp).setWidth 8) (neg && sel != 0) pat (toDigits d sel).reverse false) = .ok (t3, []) →
    exec (.editp p f) s = .next (retire t3 k 4 (((t3.ctx k).setSb bZ (sel == 0)).setSb bN (neg && sel != 0)))

/-- R133, R320, R321: COMMIT is past its address when the commit point takes the registers, and the engine waits for it; completing it
makes what it took the checkpoint, with the next commit sequence number, and consumes the interruptions it covers. -/
def Obligations.CommitTakesAndCompletes : Prop :=
  (∀ (s t : State) (p k : Nat) (f : FA), Fetched s p k 4 t → f = ⟨0, 0, 0, 0⟩ → (t.eng p).commit = none →
    ∃ u b, exec (.commit p f) s = .next u ∧ (u.eng p).commit = some b ∧ b.wait = true ∧ b.effects = [] ∧ b.consumes = (t.ve k).taken
      ∧ b.ctx = (u.ve k).cur ∧ b.ctx.ia = (t.ctx k).ia + 4 ∧ b.ctx.g = (t.ctx k).g ∧ (u.ve k).icount = 0)
  ∧ (∀ (s : State) (p k : Nat) (b : CommitBuf), (s.eng p).commit = some b → (s.eng p).ve = some k → s.live = true →
    (s.eng p).fenced = false → (s.eng p).phase = .run → s.twinned (veInst k) = false →
    b.consumes = [] → b.effects = [] → b.keyWrites = [] → b.leave = false → (s.inst (veInst k)).st ≠ .quiescing →
    ∃ u, exec (.commitPointComplete p) s = .next (resumeOps u)
      ∧ ((∀ e ∈ s.css.subs, e.2.st ≠ .validating ∧ e.2.st ≠ .active) → resumeOps u = u) ∧ (u.ve k).ckpt = b.ctx ∧ (u.ve k).csn = (s.ve k).csn + 1
      ∧ (u.ve k).cur = (s.ve k).cur ∧ (u.eng p).commit = none)

/-- R134 to R136: SIGNAL and SSTART in an instance that is not twinned: between an opening and a closing commit point the effect is decided,
G[R1] and Z say its status, and the closing commit point hands it over. -/
def Obligations.SignalAndStartResults : Prop :=
  ∀ (s t : State) (p k : Nat) (f : FA), Fetched s p k 4 t → f.fn = 0 → (t.eng p).commit = none → t.twinned (veInst k) = false →
    let c := t.ctx k
    let i := veInst k
    let g2 := (c.G f.r2).toNat
    let o := commitNow t p k [] false
    let ends (u : State) (st : Status) (retry : Nat) (es : List Effect) : Host.Outcome State Fault Refusal :=
      .next (commitNow (retire u k 4 ((u.ctx k).result f.r1 st retry)) p k es false)
    (bits g2 63 56 = 1 → bits g2 55 48 < 16 → ∀ d u, loadOp o p k (c.G f.r3) 20 = .ok (d, u) →
      ((∃ r, u.req? (i + 1) (g2 % 2 ^ 32) = some r ∧ r.stage = .taken ∧ r.closing = false) →
        exec (.signalComplete p f) s = ends u .done 0
          [.completion i (g2 % 2 ^ 32) (bits g2 55 48) (bits g2 47 32) (fieldBE d 0 4) (slice d 4 16)])
      ∧ (u.req? (i + 1) (g2 % 2 ^ 32) = none →
        exec (.signalComplete p f) s = ends (logRefusedAnswer u p k (g2 % 2 ^ 32)) .stateRefused 0 []))
    ∧ (bits g2 63 56 = 2 → bits g2 55 6 = 0 →
      let dst := o.ve (veKey i (g2 % 64))
      (o.placed i (g2 % 64) = false → exec (.signalVe p f) s = ends o .accessDenied 0 [])
      ∧ (o.placed i (g2 % 64) = true → (kvFind dst.signals (veNum k)).isSome = true → exec (.signalVe p f) s = ends o .busy 100 [])
      ∧ (o.placed i (g2 % 64) = true → kvFind dst.signals (veNum k) = none →
          exec (.signalVe p f) s = ends o .done 0 [.signal i (g2 % 64) (veNum k) (c.G f.r3)]))
    ∧ (bits g2 63 56 = 3 → bits g2 55 6 = 0 →
      (o.placed i (g2 % 64) = false → exec (.restartVe p f) s = ends o .accessDenied 0 [])
      ∧ (o.placed i (g2 % 64) = true → exec (.restartVe p f) s = ends o .done 0 [.restart i (g2 % 64)]))
    ∧ (∀ b u, loadOp o p k ((o.ctx k).G f.r3) 64 = .ok (b, u) →
      let n := ((o.ctx k).G f.r2).toNat
      let st := sstartStatus u i n b
      exec (.sstart p f) s = ends u st (retryAfter u poolSub 0) (if st = .done then [.startOp i n (veNum k) b] else []))

/-- R139: a virtual engine that reaches BARRIER waits there with its arrival recorded; when every virtual engine that the mask names has
arrived, each goes on past its BARRIER. -/
def Obligations.BarrierWaitsForAll : Prop :=
  ∀ (s t : State) (p k : Nat) (f : FA), Fetched s p k 4 t → f.r1 = 0 → f.r3 = 0 → f.fn = 0 ∨ f.fn = 256 ∧ t.twinned (veInst k) = false →
    let x := t.ve k
    let i := veInst k
    let m := x.cur.G f.r2
    let y := t.inst i
    let others := y.arrivals.filter fun a => a.ve != veNum k
    m.getLsbD (veNum k) = true → (maskVes m).all (t.placed i) = true → y.releases = [] → (∀ a ∈ y.arrivals, a.ve ≠ veNum k) →
    (∀ a ∈ y.arrivals, m.getLsbD a.ve = true → a.mask = m) →
    let arrived := others ++ [{ ve := veNum k, mask := m, csn := (pointOf t k).1, icount := (pointOf t k).2 }]
    let w := (clearRp (t.setInst i { y with arrivals := arrived }) k).updVe k fun e => { e with barrier := some m }
    exec (.barrier p f) s = .next (if barrierFull w i m then releaseBarrier w i m else w)

/-- R208 to R215: the maintenance instructions, once the holders of the line have committed: CLNL writes it back, FLSL writes it back and drops
every copy, INVL drops every copy without writing back, IINVL drops the copy in the instruction cache, PFETCH at most starts a fill;
INVR flushes every line of a real range. LOCKW with QUERY reads the state of the way that the handle names; without it, it locks the way,
places the lines of the operand there and says how many lie in it. -/
def Obligations.CacheInstructionResults : Prop :=
  (∀ (s t : State) (p k : Nat), Fetched s p k 4 t →
    let c := t.ctx k
    (∀ (f : FB) a u l t1, f.r1 = 0 → eaFB c f 64 false false = some (a, u) →
      (maintLine t p k .load a = .ok (some l, t1) →
        let ends (w : State) : Host.Outcome State Fault Refusal := .next (retire w k 4 ((w.ctx k).setBase f.b u))
        (exec (.pfetch p f) s = ends t1 ∨ exec (.pfetch p f) s = ends (addFill t1 p l .prefetch))
        ∧ (∀ t2, settle t1 p k [l] = .ok t2 →
            exec (.clnl p f) s = ends (writeBack t2 l)
            ∧ exec (.flsl p f) s = ends (dropDomes (writeBack t2 l) l fun _ => true))
        ∧ exec (.iinvl p f) s = ends (t1.updEng p fun e =>
            { e with l1i := e.l1i.filter (· != l)
                     fills := e.fills.map fun x => if x.line == l && x.kind == .fetch then { x with drop := true } else x }))
      ∧ (maintLine t p k .load a = .ok (some l, t1) → (s.ctx k).sb bPS = false → ∀ t2 t3, maintLine t p k .store a = .ok (some l, t2) →
          otherOwners t2 p l = [] → (t2.ve k).opened = false → ownCommit t2 p k = .ok t3 →
          let w := dropDomes t3 l fun _ => true
          exec (.invl p f) s = .next (retire w k 4 ((w.ctx k).setBase f.b u))))
    ∧ (∀ (f : FA) ls t1, f.r1 = 0 → f.fn = 0 → (s.ctx k).sb bPS = false → 1 ≤ (c.G f.r3).toNat → (c.G f.r3).toNat ≤ 1048576 →
      realLines t (veInst k) (c.G f.r2).toNat (c.G f.r3).toNat = .ok ls → settle t p k ls = .ok t1 →
      exec (.invr p f) s = .next (advance (ls.foldl (fun s l => dropDomes (writeBack s l) l fun _ => true) t1) k 4)))
  ∧ ∀ (s t : State) (p k w : Nat) (x : WayLock) (f : FA), Fetched s p k 4 t → (s.ctx k).sb bPS = false →
    let c := t.ctx k
    let d := towerOf p
    wayOf t d (veInst k) (f.fn.toNat % 4) = some (w, x) →
    (f.fn.toNat / 4 = 64 → f.r2 = 0 → f.r3 = 0 →
      exec (.lockw p f) s = .next (retire t k 4 (c.setG f.r1 (BitVec.ofNat 64 (lkst w x)))))
    ∧ (f.fn.toNat / 4 = 0 → 1 ≤ (c.G f.r3).toNat → (c.G f.r3).toNat ≤ 4096 →
        (c.G f.r2).toNat % 4096 + (c.G f.r3).toNat ≤ 4096 → ∀ m t1, translate t p k .load (c.G f.r2) = .ok (.mem m, t1) →
        let t2 := if x.locked then t1
          else t1.updDome d fun y => { y with locks := kvSet y.locks w { x with locked := true, held := 0, removed := 0 } }
        let ls := linesOf m (c.G f.r3).toNat
        ∀ g t3, placeLines t2 p d w ls = .ok (g, t3) →
          exec (.lockw p f) s = .next (retire t3 k 4 (((t3.ctx k).setG f.r1 (BitVec.ofNat 64 g)).setSb bZ (g == ls.length))))

/-- R209: in supervisor state UNLKW clears LOCKED, HELD, EMPTY and REMOVED of the way that its handle names, whose lines stay as ordinary
lines; a handle not granted, or a nonzero bit in another field, raises specification, and in problem state it raises privileged operation. -/
def Obligations.UnlockingAWay : Prop :=
  ∀ (s t : State) (p k : Nat) (f : FA), Fetched s p k 4 t →
    let d := towerOf p
    ((s.ctx k).sb bPS = true → exec (.unlkw p f) s = .next (nullify t k 4 0x102))
    ∧ ((s.ctx k).sb bPS = false →
        (f.r1 ≠ 0 ∨ f.r2 ≠ 0 ∨ f.r3 ≠ 0 ∨ 4 ≤ f.fn.toNat ∨ wayOf t d (veInst k) (f.fn.toNat % 4) = none →
          exec (.unlkw p f) s = .next (nullify t k 4 0x104))
        ∧ ∀ (w : Nat) (x : WayLock), f.r1 = 0 → f.r2 = 0 → f.r3 = 0 → f.fn.toNat < 4 →
          wayOf t d (veInst k) f.fn.toNat = some (w, x) →
          let y : WayLock := { x with locked := false, held := 0, removed := 0 }
          lkst w y = w * 65536
          ∧ exec (.unlkw p f) s = .next (advance (t.updDome d fun e =>
              { e with locks := kvSet e.locks w y
                       lines := e.lines.map fun z => if z.way == w then { z with locked := false } else z }) k 4))

/-- R102, R113, R115, R122, R138, R147: the privileged instructions in supervisor state: control registers read and written in their writable
bits, WAIT, RFI from the save frame of its class (a form or an address it may not load raises specification and loads nothing), LRA, and the
TLB invalidations. -/
def Obligations.PrivilegedResults : Prop :=
  ∀ (s t : State) (p k : Nat), Fetched s p k 4 t → (s.ctx k).sb bPS = false →
    let c := t.ctx k
    let i := veInst k
    (∀ f : FA, f.fn = 0 →
      (f.r2.toNat ≤ 15 → exec (.mfk p f) s = .next (retire t k 4 (c.setG f.r1
          (if f.r2.toNat = 9 then BitVec.ofNat 64 (i * 65536 + veNum k) else c.K f.r2.toNat))))
      ∧ (f.r1.toNat ≤ 15 → exec (.mtk p f) s = .next (retire t k 4 (c.setK f.r1.toNat
          ((c.K f.r1.toNat &&& ~~~(kMask f.r1.toNat)) ||| (c.G f.r2 &&& kMask f.r1.toNat)))))
      ∧ exec (.wait p f) s = .next (retire t k 4 (c.setSb bWT true))
      ∧ exec (.tlbi p f) s = .next (advance (dropTlb t fun e => e.inst == i && e.asid == (c.K 1).setWidth 16
          && e.vbase ≤ (c.G f.r2).toNat && (c.G f.r2).toNat < e.vbase + e.size) k 4)
      ∧ exec (.tlbia p f) s = .next (advance (dropTlb t fun e => e.inst == i) k 4))
    ∧ (∀ (cls : Nat) (a : Nat) (d : List Byte) (t1 : State), cls ≤ 4 →
      absOf t i ((c.K 2).toNat + 0x80 + 0x40 * cls) = some a →
      loadLine t p a 16 (BitVec.ofNat 64 ((c.K 2).toNat + 0x80 + 0x40 * cls)) = .ok (d, t1) →
      fieldBE d 0 8 % 4 = 0 → d.length = 16 →
      ∃ u, exec (.rfi p ⟨0, 0, 0, BitVec.ofNat 9 (cls * 64)⟩) s = .next u
        ∧ (u.ctx k).ia = BitVec.ofNat 64 (fieldBE d 0 8) ∧ (u.ctx k).psw = BitVec.ofNat 64 (fieldBE d 8 8) &&& pswMask
        ∧ (u.ctx k).g = (t1.ctx k).g ∧ (u.ctx k).k = (t1.ctx k).k)
    ∧ (∀ f : FA, f.r1 ≠ 0 ∨ f.r2 ≠ 0 ∨ f.r3 ≠ 0 ∨ f.fn.toNat % 64 ≠ 0 ∨ 4 < f.fn.toNat / 64 → exec (.rfi p f) s = .next (nullify t k 4 0x104))
    ∧ (∀ (cls : Nat) (a : Nat) (d : List Byte) (t1 : State), cls ≤ 4 →
      absOf t i ((c.K 2).toNat + 0x80 + 0x40 * cls) = some a →
      loadLine t p a 16 (BitVec.ofNat 64 ((c.K 2).toNat + 0x80 + 0x40 * cls)) = .ok (d, t1) → fieldBE d 0 8 % 4 ≠ 0 →
      exec (.rfi p ⟨0, 0, 0, BitVec.ofNat 9 (cls * 64)⟩) s = .next (nullify t k 4 0x104))
    ∧ (∀ (f : FB) a u, eaFB c f 8 true false = some (a, u) → c.sb bTE = false →
      let b := c.setBase f.b u
      exec (.lra p f) s = .next (retire t k 4
        (if a.toNat < 2 ^ 44 ∧ (resolve t i a.toNat).isSome = true then (b.setG f.r1 a).setSb bZ false else b.setSb bZ true)))

/-- R107, R112, R113: in problem state every privileged instruction raises the privileged-operation exception and has no effect; an undefined
opcode raises the operation exception; a register instruction with a bit set that its format leaves zero raises the specification
exception and has no effect. -/
def Obligations.IllegalFormsRaiseTheirException : Prop :=
  ∀ (s t : State) (p k : Nat), Fetched s p k 4 t →
    ((s.ctx k).sb bPS = true → ∀ (f : FA) (g : FB), ∀ i ∈ [Instr.mfk p f, .mtk p f, .wait p f, .rfi p f, .lra p g, .tlbi p f, .tlbia p f,
        .invl p g, .invr p f, .lockw p f, .unlkw p f], exec i s = .next (nullify t k 4 0x102))
    ∧ (∀ op : Byte, opDefined op = false → exec (.undefinedOpcode p op) s = .next (nullify t k 4 0x101))
    ∧ ∀ f : FA, f.fn.getLsbD 0 = true →
    ∀ i ∈ [Instr.nop p f, .add p f, .addc p f, .sub p f, .subb p f, .mul p f, .mulwu p f, .mulws p f, .divu p f, .divs p f, .remu p f,
        .rems p f, .cmp p f, .neg p f, .and p f, .or p f, .xor p f, .andn p f, .shl p f, .shr p f, .sar p f, .rol p f, .clz p f, .popc p f,
        .bswap p f, .mov p f, .csel p f, .sext p f, .br p f, .balr p f, .getf p f, .setf p f, .feat p f, .tbr p f, .fadd p f, .fsub p f,
        .fmul p f, .fdiv p f, .fsqrt p f, .fma p f, .fms p f, .fnma p f, .fcmp p f, .fmin p f, .fmax p f, .fneg p f, .fabs p f,
        .fcvt p f, .fmovg p f, .gmovf p f, .lfpc p f, .sfpc p f, .addp p f, .subp p f, .mulp p f, .cmpp p f, .movp p f, .cvbp p f,
        .cvpb p f, .xcall p f, .commit p f, .sstart p f],
      exec i s = .next (nullify t k 4 0x104)

/-! ## Frames, calls and the events of an engine -/

/-- R123, R199, R201: the fetch of an instruction and the loads of an operand change caches, translation buffers and fills only: no
register, no other table of the machine, no commit point, no committed byte. A store changes no committed byte and, but for the staging
of a key page, nothing outside the caches; inside one page of the store and outside no-allocate mode, it changes for its engine exactly
the bytes it names. -/
def Obligations.AccessesStayUncommitted : Prop :=
  (∀ (s t : State) (p k n : Nat), Memory.wf s.mem.store = true →
    let same : Prop := t = { s with out := t.out, mem := t.mem, domes := t.domes, engines := t.engines, free := t.free }
      ∧ (∀ a, byteAt t a = byteAt s a)
      ∧ ∀ q, (t.eng q).ve = (s.eng q).ve ∧ (t.eng q).commit = (s.eng q).commit ∧ (t.eng q).fenced = (s.eng q).fenced
          ∧ (t.eng q).phase = (s.eng q).phase
    (fetchInstr s p k n = .ok t → same)
    ∧ (∀ (a : Word) (d : List Byte) (keys : Bool), loadOp s p k a n keys = .ok (d, t) → same))
  ∧ ∀ (s t : State) (p k : Nat) (a : Word) (d : List Byte) (es : List Effect) (keys : Bool), Memory.wf s.mem.store = true →
    storeOp s p k a d keys = .ok (t, es) →
    t = { s with out := t.out, mem := t.mem, domes := t.domes, engines := t.engines, free := t.free, ves := t.ves }
    ∧ (∀ j, t.ve j = { s.ve j with keyWrites := (t.ve j).keyWrites }) ∧ (∀ x, byteAt t x = byteAt s x)
    ∧ (∀ x va t1, translateOp s p k .store a d.length = .ok ([(va, .mem x, d.length)], t1) → d.length ≤ 64 →
        (s.eng p).stream.active = false → (s.eng p).stream.bufs = [] →
        ∀ y, byteSeen t p y = if x ≤ y ∧ y < x + d.length then d.getD (y - x) 0 else byteSeen s p y)

/-- The frame of the instructions on registers: registers other than those each writes, the flags it does not name, the other bits of the
ESW but RP, the control registers, every other virtual engine, and every committed byte stay as they were; so does every table of the
machine but the log, where a machine check is recorded. -/
def Obligations.RegisterInstructionsKeepTheRest : Prop :=
  ∀ (s u : State) (p k : Nat) (f : FA) (g : FC) (j : FJ), Memory.wf s.mem.store = true → running s.quiet p = some k →
    ∀ e ∈ registerWrites p f g j, exec e.1 s = .next u →
      let c := s.ctx k
      let d := u.ctx k
      (∀ r, r ∉ e.2.1 → d.G r = c.G r) ∧ (∀ r, r ∉ e.2.2.1 → d.F r = c.F r) ∧ (∀ r, r ∉ e.2.2.2.1 → d.DA r = c.DA r)
      ∧ d.psw &&& ~~~(e.2.2.2.2 ||| 0x4000000000) = c.psw &&& ~~~(e.2.2.2.2 ||| 0x4000000000) ∧ d.k = c.k
      ∧ (e.1 ≠ .lfpc p f → d.fpcr &&& ~~~0x1F00 = c.fpcr &&& ~~~0x1F00)
      ∧ (e.1 ∉ [Instr.lfpc p f, .fadd p f, .fsub p f, .fmul p f, .fdiv p f, .fsqrt p f, .fma p f, .fms p f, .fnma p f, .fmin p f, .fmax p f,
          .fcmp p f, .fcvt p f] → d.fpcr = c.fpcr)
      ∧ (∀ j, j ≠ k → u.ve j = s.ve j) ∧ (∀ a, byteAt u a = byteAt s a)
      ∧ u.insts = s.insts ∧ u.hp.reqs = s.hp.reqs ∧ u.css = s.css ∧ u.pages = s.pages ∧ u.clk = s.clk ∧ u.pending = s.pending

/-- R116, R299, R322: XCALL and ZCALL in an instance that is not twinned: between an opening and a closing commit point the call takes the
next SEQ, and either puts a job in its queue with Z 1, or writes its completion area with Z 0 and the interruption that its descriptor asks
for. ZCALL raises feature-absent where no compression engine is fused in; a descriptor that is not 64-byte aligned, or an area that is not
32-byte aligned, raises specification (R110). -/
def Obligations.CallsQueueAJobOrAnswer : Prop :=
  (∀ (s t : State) (p k : Nat) (f : FA), Fetched s p k 4 t → f.r1 = 0 → f.fn = 0 → (t.eng p).commit = none →
    t.twinned (veInst k) = false →
    let o := commitNow t p k [] false
    let aligned : Prop := ((t.ctx k).G f.r2).toNat % 64 = 0 ∧ ((t.ctx k).G f.r3).toNat % 32 = 0
    (∀ u es, aligned → callEffects o p k f false = .ok (u, es) → exec (.xcall p f) s = .next (commitNow (advance u k 4) p k es false))
    ∧ (∀ u es, aligned → t.variant.czes ≠ 0 → callEffects o p k f true = .ok (u, es) →
        exec (.zcall p f) s = .next (commitNow (advance u k 4) p k es false))
    ∧ (¬ aligned → exec (.xcall p f) s = .next (nullify t k 4 0x104)
        ∧ (t.variant.czes ≠ 0 → exec (.zcall p f) s = .next (nullify t k 4 0x104)))
    ∧ (t.variant.czes = 0 → exec (.zcall p f) s = .next (nullify t k 4 0x103)))
  ∧ (∀ (o u : State) (p k : Nat) (f : FA) (cz : Bool) (es : List Effect), callEffects o p k f cz = .ok (u, es) →
    (u.inst (veInst k)).seq = ((o.inst (veInst k)).seq + 1) % 2 ^ 32
    ∧ ((∃ j, es = [.job j cz] ∧ j.inst = veInst k ∧ j.seq = (o.inst (veInst k)).seq ∧ j.ve = veNum k ∧ j.area.isSome = true
          ∧ (u.ctx k).sb bZ = true)
      ∨ (∃ x w a st d b, loadOp o p k ((o.ctx k).G f.r2) 64 = .ok (x, w)
          ∧ es = [.areaWrite (veInst k) (veNum k) a (areaBytes (o.inst (veInst k)).seq (Status.code st) d 0 x b) (reqNoint x)] ∧ st ≠ .done ∧ (u.ctx k).sb bZ = false)))

/-- R144, R145, R148, R323: an interruption that can be presented saves the registers at a commit point, writes its frame and goes on at the
handler that its class's entry gives, every register as it was but K6 and K7 of a program interruption; one whose interruption area or
entry does not serve stops its virtual engine. -/
def Obligations.InterruptionsEnterTheirHandler : Prop :=
  (∀ (s : State) (p k : Nat) (mt : Option MicroTrap) (t : Intr), atPoint s.quiet p = some k → nextIntr s.quiet k = some t →
    (mt = none ∨ (∃ e, t = .prog e) ∨ (∃ m, t = .machine m) ∨ (∃ m, mt = some m ∧ microRow m.op = false) → exec (.interruptionTake p mt) s = .next (takeIntr s.quiet p k t))
    ∧ (∀ m, mt = some m → (∀ e, t ≠ .prog e) → (∀ m, t ≠ .machine m) → microRow m.op = true →
        exec (.interruptionTake p mt) s = .next (takeIntr (setRp (microTrap s.quiet p k m) k) p k t)))
  ∧ (∀ (q : State) (p k a b : Nat) (t : Intr), (q.ve k).barrier = none → inMain q (veInst k) ((q.ctx k).K 2).toNat 4096 = true →
    (∀ m, t = .machine m ∨ t = .deferred m → inMain q (veInst k) ((q.ctx k).K 8).toNat 256 = true) →
    absOf q (veInst k) (((q.ctx k).K 2).toNat + 0x10 * t.cls) = some a →
    absOf q (veInst k) (((q.ctx k).K 2).toNat + 0x80 + 0x40 * t.cls) = some b → b % 64 = 0 →
    otherOwners q p (a / 64) = [] →
    let e := slice (ownView q p (a / 64)).1 (a % 64) 16
    ((ownView q p (a / 64)).2 = true ∨ entryWordOk e = false →
      takeIntr q p k t = notPresented (takeCommit q p k [] false false false) p k t.cls ∧ ((takeIntr q p k t).ve k).stopped = true)
    ∧ (∀ w, (ownView q p (a / 64)).2 = false → entryWordOk e = true →
      (intrLines q k t).foldlM (fun s x => storeReal s p (veInst k) x.1 x.2) (takeCommit q p k [] false false false) = .ok w →
      let u := takeIntr q p k t
      (u.ctx k).ia = BitVec.ofNat 64 (fieldBE e 0 8) ∧ (u.ctx k).psw = entryPsw e
      ∧ (u.ctx k).g = (q.ctx k).g ∧ (u.ctx k).f = (q.ctx k).f ∧ (u.ctx k).da = (q.ctx k).da ∧ (u.ctx k).fpcr = (q.ctx k).fpcr
      ∧ (∀ n, n ≠ 6 → n ≠ 7 → (u.ctx k).K n = (q.ctx k).K n)
      ∧ (∀ x, t = .prog x → (u.ctx k).K 6 = BitVec.ofNat 64 x.code ∧ (u.ve k).prog = none)
      ∧ (∃ c, (u.eng p).commit = some c ∧ c.ctx = q.ctx k ∧ c.wait = false)
      ∧ (∀ j, j < 64 → byteSeen u p (b + j) = (eswBytes ((q.ctx k).setSb bWT false) ++ frameParams q k t).getD j 0)))

/-- R80, R137, R202, R320, R321: the clock comparator and the engine timer bring their time; a virtual engine that can run takes a free engine of its
tower when its instance is due engine time, by its entitlement or from the spare time (R81); the end of a time slice commits it and frees the engine; a commit point falls due after 65,536 instructions or 2,000 timebase
units, and on a steal. -/
def Obligations.EngineEventsResults : Prop :=
  (∀ (s : State) (i v : Nat), s.live = true → let k := veKey i v
    ((s.ve k).hasCtx = true → exec (.clockComparator i v) s = .next (passUntil s.quiet ((s.ctx k).K 3).toNat)
      ∧ ((s.ctx k).K 3).toNat ≤ (passUntil s.quiet ((s.ctx k).K 3).toNat).clk.tb)
    ∧ ((s.ve k).on.isSome = true → (s.ve k).stopped = false → (s.ctx k).sb bWT = false → timerHolds (s.ctx k) = false →
        ∃ u, exec (.engineTimer i v) s = .next u ∧ timerHolds (u.ctx k) = true ∧ u.clk.tb = (s.clk.tb + ((s.ctx k).K 4).toNat + 1) % 2 ^ 64))
  ∧ (∀ (s : State) (p i v : Nat), let w := rollWindow s.quiet (towerOf p)
    v < 64 → i < 512 → engineFree w p = true → runnable w (veKey i v) = true → (s.ve (veKey i v)).tower = towerOf p →
    mayDispatch w i (towerOf p) = true →
    ∃ u, exec (.veDispatch p i v) s = .next u ∧ (u.eng p).ve = some (veKey i v) ∧ (u.ve (veKey i v)).on = some p
      ∧ (u.ve (veKey i v)).cur = (s.ve (veKey i v)).cur)
  ∧ (∀ (s : State) (p k : Nat), atPoint s.quiet p = some k → exceptionFirst (s.ve k) = false →
    (s.twinned (veInst k) = false →
      ∃ u, exec (.timeSliceEnd p none) s = .next u ∧ (u.eng p).ve = none ∧ (u.ve k).on = none ∧ (u.ve k).ckpt = s.ctx k)
    ∧ (∃ u b, exec (.autoCommit p none) s = .next u ∧ (u.eng p).commit = some b ∧ (u.ve k).icount = 0 ∧ b.ctx = u.ctx k
        ∧ (65536 ≤ (s.ve k).icount → b.ctx = s.ctx k ∧ u.clk.tb = s.clk.tb)
        ∧ ((s.ve k).icount < 65536 → (s.ve k).tbCommit + 2000 < 2 ^ 64 → (s.ve k).tbCommit + 2000 ≤ u.clk.tb))
    ∧ ((s.eng p).steal = true →
        ∃ u b, exec (.commitOnSteal p none) s = .next u ∧ (u.eng p).commit = some b ∧ b.ctx = s.ctx k ∧ (u.eng p).steal = false)
    ∧ (∀ m : MicroTrap, microRow m.op = true →
        ∃ u b, exec (.autoCommit p (some m)) s = .next u ∧ (u.eng p).commit = some b ∧ b.ctx.sb bRP = true
          ∧ b.ctx.micro.valid = true ∧ b.ctx.micro.op = m.op
          ∧ b.ctx.micro.src = (if (s.ctx k).resumes m.op = true then (s.ctx k).micro.src
              else m.regs.map fun r => (r.toNat, (s.ctx k).source m.op r.toNat))))

/-- R198, R214: a fill that is not dropped, of a line that no engine holds uncommitted, puts the line into the instruction or the data cache that
asked for it, its content as committed; a dropped one only ends. -/
def Obligations.LineFillsInstallTheirLine : Prop :=
  ∀ (s : State) (p l : Nat) (f : Fill), (s.eng p).fills.find? (·.line == l) = some f →
    let q := if l < bulkLine then { s.quiet with mem := { s.mem with parity := kvDel s.mem.parity (portOf l) } } else s.quiet
    ∃ u, exec (.lineFillComplete p l) s = .next u
      ∧ (f.drop = true → (u.eng p).l1d = (s.eng p).l1d ∧ (u.eng p).l1i = (s.eng p).l1i ∧ f ∉ (u.eng p).fills)
      ∧ (f.drop = false → ownersOf s l = [] → ∀ w,
          domeHave (q.setEng p { s.eng p with fills := (s.eng p).fills.filter fun x => x != f }) (towerOf p) l false = .inr w →
          (f.kind = .fetch → (u.eng p).l1i.contains l = true)
          ∧ (f.kind ≠ .fetch → (l1Room w p l).isSome = true → (u.eng p).l1d.any (·.line == l) = true))
      ∧ (Memory.wf s.mem.store = true → ∀ a, byteAt u a = byteAt s a)

/-! ## Requests and their completions -/

/-- R54, R58, R59, R61: a completion of a ring that can take it leaves the requests in hand, is written as 32 bytes at the ring's tail, and
moves the tail on, inverting PHASE at the wrap; without INT_EN or with NOINT no message counts it. A ring that cannot take it holds it. -/
def Obligations.CompletionEntryIsWritten : Prop :=
  (∀ (s : State) (n seq st d count : Nat) (result : List Byte) (r : Request), s.req? n seq = some r → (s.ring n r.k).held = [] →
    (n = 0 ∨ s.twinned (n - 1) = false) →
    let g := s.ring n r.k
    let u := complete s n seq st d count result
    u.req? n seq = none
    ∧ (ringReady s n r.k = true → g.intEn = false ∨ reqNoint r.entry = true →
        u.out = s.out ++ [Output.hostWrite n (g.cqBase + g.cqTail * 32)
          ([BitVec.ofNat 8 st, BitVec.ofNat 8 (b2n g.phase * 128 + (if n = 0 then 0 else r.k) * 16)] ++ toBE 2 d ++ toBE 4 seq
            ++ toBE 4 (reqTag r.entry) ++ toBE 4 count ++ padTo 16 result)]
        ∧ (u.ring n r.k).cqTail = (g.cqTail + 1) % 2 ^ g.cqSize ∧ (u.ring n r.k).held = []
        ∧ (u.ring n r.k).phase = (if (g.cqTail + 1) % 2 ^ g.cqSize = 0 then !g.phase else g.phase))
    ∧ (ringReady s n r.k = false → u.out = s.out ∧ (u.ring n r.k).cqTail = g.cqTail ∧ (u.ring n r.k).held.length = 1))
  ∧ (∀ (c : Completion) (b : Bool), c.result.length ≤ 16 → (completionBytes c b).length = 32)

/-- R54, R56, R57, R62: an entry is read when its ring and its function allow it and a completion slot is free; with its arrival it takes the next
SEQ and the ring's head moves on; a poisoned entry completes DEVICE_ERROR with DETAIL 0x0100, one that fails a check completes with its
status, any other waits for its turn. R68: an instance that is no longer RUNNING takes no entry, not even one whose read was on its way. -/
def Obligations.RequestEntriesAreFetched : Prop :=
  (∀ (s : State) (n k : Nat), canFetch s.quiet n k = true →
    let g := s.ring n k
    ∃ u, exec (.requestFetchStart n k) s = .next u ∧ u.out = [.hostRead n (g.rqBase + g.rqHead * 64) 64]
      ∧ (u.ring n k).reading = some 0 ∧ (u.ring n k).reserved = g.reserved + 1)
  ∧ (∀ (s : State) (n k : Nat) (e : List Byte), s.live = true → s.hp.stopped = false → (s.ring n k).reading.isSome = true → e.length = 64 →
    (s.admits n = false → exec (.requestEntryArrive n k e false) s = .next (stopFetch s.quiet n)
      ∧ ((stopFetch s.quiet n).ring n k).reading = none) ∧ (s.admits n = true →
    let seq := if n = 0 then s.hp.cmdSeq else (s.inst (n - 1)).seq
    let u := (takeEntry s.quiet n k e).2
    (takeEntry s.quiet n k e).1 = seq
    ∧ (if n = 0 then u.hp.cmdSeq else (u.inst (n - 1)).seq) = (seq + 1) % 2 ^ 32
    ∧ (u.ring n k).rqHead = ((s.ring n k).rqHead + 1) % 2 ^ (s.ring n k).rqSize ∧ (u.ring n k).reading = none
    ∧ u.hp.reqs = s.hp.reqs ++ [{ fn := n, k := k, seq := seq, entry := e, tb := s.clk.tb }]
    ∧ (∀ st d, entryCheck u n e = some (st, d) → exec (.requestEntryArrive n k e false) s = .next (complete u n seq st.code d 0 []))
    ∧ (entryCheck u n e = none → exec (.requestEntryArrive n k e false) s = .next (admitMirrored u n seq))
    ∧ exec (.requestEntryArrive n k e true) s
        = .next (complete (poisonIn (takeEntry s.quiet n k (zeros 64)).2 n) n seq 0x0E 0x100 0 [])))

/-- R56: of the checks of an entry the first that fails decides; DETAIL of FIELD_INVALID is the lowest byte of the entry's form that fails,
and an opcode that the port does not define fails first. -/
def Obligations.EntryChecksInOrder : Prop :=
  ∀ (s : State) (n : Nat) (e : List Byte),
    let form := if n = 0 then commandForm s.variant e else requestForm e
    (form = none → entryCheck s n e = some (.opcodeUndefined, 0))
    ∧ (∀ f, form = some f →
        (needsAbsent s n e = true → entryCheck s n e = some (.featureAbsent, 0))
        ∧ (needsAbsent s n e = false → formFault e f = none → entryCheck s n e = none)
        ∧ (needsAbsent s n e = false → ∀ b, formFault e f = some b → ∃ d, entryCheck s n e = some (.fieldInvalid, d) ∧ d ≤ b ∧ b < 64)
        ∧ (needsAbsent s n e = false → n ≠ 0 → ∀ b, formFault e f = some b → entryCheck s n e = some (.fieldInvalid, b)
            ∧ ∀ x, x < b → ∀ y ∈ f.bad, y.1 = x → y.2 = false))

/-- R62: the first and second failure of a read of the host repeat it; the third ends the request, and a job it has, DEVICE_ERROR with DETAIL
0x0101; the third failure of a read through a host window, or a poisoned answer to it, is a machine check of the load. -/
def Obligations.FailedHostReads : Prop :=
  ∀ s : State, s.live = true → s.hp.stopped = false →
    (∀ n k a, (s.ring n k).reading = some a → s.admits n = true →
      (a < 2 → ∃ u, exec (.hostReadFailed (.entry n k)) s = .next u ∧ (u.ring n k).reading = some (a + 1)
        ∧ u.out = [.hostRead n ((s.ring n k).rqBase + (s.ring n k).rqHead * 64) 64])
      ∧ (2 ≤ a → let w := takeEntry (readFailed s.quiet n) n k (zeros 64)
          exec (.hostReadFailed (.entry n k)) s = .next (complete w.2 n w.1 0x0E 0x101 0 [])))
    ∧ (∀ n (q : BitVec 32) x, s.req? n q.toNat = some x → x.stage = .arrived ∨ x.stage = .running → x.closing = false → x.admitting = false →
      n = 0 ∨ (s.fn n).bme = true →
      (x.attempts < 2 → ∃ u, exec (.hostReadFailed (.source n q)) s = .next u
        ∧ (u.req? n q.toNat).map Request.attempts = some (x.attempts + 1)
        ∧ u.out = [.hostRead n (reqSrc x.entry) (reqSrcLen x.entry)])
      ∧ (2 ≤ x.attempts →
        let w := readFailed s.quiet n
        let mine (j : Job) : Bool := j.area.isNone && j.inst + 1 == n && j.seq == q.toNat
        (w.xce.jobs.find? mine = none → w.cze.jobs.find? mine = none →
          exec (.hostReadFailed (.source n q)) s = .next (complete w n q.toNat 0x0E 0x101 0 []))
        ∧ (∀ j, w.xce.jobs.find? mine = some j → exec (.hostReadFailed (.source n q)) s = .next (endJob w false j 0x0E 0x101 0 []))
        ∧ (∀ j, w.xce.jobs.find? mine = none → w.cze.jobs.find? mine = some j →
          exec (.hostReadFailed (.source n q)) s = .next (endJob w true j 0x0E 0x101 0 []))))
    ∧ (∀ p va len ilen bad k w o t, running s.quiet p = some k → translate s.quiet p k .load va = .ok (.window w o, t) →
      let failed := (t.eng p).winFails
      (bad = true ∨ 2 ≤ failed → ∃ u, exec (.hostReadFailed (.window p va len ilen bad)) s = .next u ∧ (u.ve k).mc.isSome = true
        ∧ ((u.ve k).mc.map McInfo.code) = some 3)
      ∧ (bad = false → failed < 2 → ∃ u, exec (.hostReadFailed (.window p va len ilen bad)) s = .next u ∧ (u.eng p).winFails = failed + 1
        ∧ u.out = t.out ++ [.hostRead (veInst k + 1) ((kvGet {} (t.inst (veInst k)).windows w).busBase + o) len]))

/-- R140, R230, R238 to R241: the messaging requests: MSG takes a dispatch slot and waits at its virtual engine, RESTART pends there,
STORE_WRITE reads its data from the host and STORE_READ runs, each after its checks; a request for staging waits for space. -/
def Obligations.MessagingRequestResults : Prop :=
  ∀ (s : State) (n : Nat) (q : BitVec 32) (r : Request), let w := s.quiet
    let i := n - 1
    let v := s.ve (veKey i (reqTarget r.entry))
    (takeReq w n q.toNat 1 = some r →
      (v.placed = false → exec (.msg n q) s = .next (answer w r .accessDenied 0))
      ∧ (v.placed = true → takeUnit w i poolDisp v.tower = .no →
          exec (.msg n q) s = .next (complete w n r.seq 1 0 0 (toBE 8 (retryAfter w poolDisp v.tower) ++ zeros 8)))
      ∧ (v.placed = true → takeUnit w i poolDisp v.tower ≠ .no →
          exec (.msg n q) s = .next (w.putReq { r with stage := .queued, tb := s.clk.tb, shared := decide (takeUnit w i poolDisp v.tower = .shared) })))
    ∧ (takeReq w n q.toNat 4 = some r →
      (v.placed = false → exec (.restart n q) s = .next (answer w r .accessDenied 0))
      ∧ (v.placed = true → ∃ u, exec (.restart n q) s = .next u ∧ (u.ve (veKey i (reqTarget r.entry))).restart = true
          ∧ ∀ x, u.req? n r.seq = some x → x.stage = .pending))
    ∧ (takeReq w n q.toNat 2 = some r →
      let there := rangeBacked w i (fieldBE r.entry 40 8) (reqSrcLen r.entry)
      (there = false → exec (.storeWrite n q) s = .next (answer w r .accessDenied 0))
      ∧ (there = true → (s.fn n).bme = true → stagedBytes r.entry = 0 ∨ stagingFits w r.entry = true →
          exec (.storeWrite n q) s = .next ((w.setStage n r.seq .running).emit (.hostRead n (reqSrc r.entry) (reqSrcLen r.entry))))
      ∧ (there = true → (s.fn n).bme = true → stagedBytes r.entry ≠ 0 → stagingFits w r.entry = false →
          exec (.storeWrite n q) s = .next (w.setStage n r.seq .staging)))
    ∧ (takeReq w n q.toNat 3 = some r →
      let there := rangeBacked w i (fieldBE r.entry 40 8) (reqDstLen r.entry)
      (there = false → exec (.storeRead n q) s = .next (answer w r .accessDenied 0))
      ∧ (there = true → (s.fn n).bme = true → exec (.storeRead n q) s = .next (w.setStage n r.seq .running)))
    ∧ (s.live = true → w.xce.jobs = [] → w.cze.jobs = [] → s.req? n q.toNat = some r → r.stage = .staging → stagingFits w r.entry = true →
        (s.fn n).bme = true →
        exec (.stagingSpaceFree n q) s
          = .next ((w.setStage n q.toNat .running).emit (.hostRead n (reqSrc r.entry) (reqSrcLen r.entry))))

/-- R58, R66, R93, R95, R140, R238, R239, R290: what the end of a transfer does for each request that moves data: STORE_WRITE's bytes stand in the
instance's store, STORE_READ's leave it, KEY_WRAP's key, LOG_HARVEST's buffer and EXPORT's segment are written and complete DONE, IMPORT's frames
are taken; a failed transfer ends with its status. -/
def Obligations.HostTransferResults : Prop :=
  ∀ (s : State) (n : Nat) (q : BitVec 32) (data : List Byte) (fault : Option JobFault) (r : Request), s.req? n q.toNat = some r →
    s.live = true → s.hp.stopped = false → s.bel.fatal = false → r.stage = .running → r.closing = false →
    n = 0 ∨ (s.fn n).bme = true →
    let w := s.quiet
    let i := n - 1
    let a := fieldBE r.entry 40 8
    let run : Host.Outcome State Fault Refusal := exec (.hostTransferDone n q data fault) s
    (n ≠ 0 → reqOp r.entry = 2 → instOwners w i a (reqSrcLen r.entry) = [] →
      (∀ l ∈ partialEnds w i a (reqSrcLen r.entry), (committed w l).2 = false) → fault = none → data.length = reqSrcLen r.entry →
      (reqChk r.entry = true ∧ (crc32c data).toNat ≠ reqCheck r.entry → run = .next (answer w r .tagMismatch 1))
      ∧ (reqChk r.entry = false ∨ (crc32c data).toNat = reqCheck r.entry →
          run = .next (done (instWrite w i a data) r (reqSrcLen r.entry) [])))
    ∧ (n ≠ 0 → reqOp r.entry = 3 → instOwners w i a (reqDstLen r.entry) = [] → instPoison w i a (reqDstLen r.entry) = none →
      fault = none → run = .next (done (hostWrite (hubUse w i a (reqDstLen r.entry)) r.fn (reqDst r.entry) ((instRead w i a (reqDstLen r.entry)).take (reqDstLen r.entry)))
        r (reqDstLen r.entry) []))
    ∧ (n ≠ 0 → reqOp r.entry = 0x31 → fault = none →
      run = .next (done (hostWrite w r.fn (reqDst r.entry) r.data) r r.data.length []))
    ∧ (n = 0 → reqOp r.entry = 0x63 → fault = none →
      run = .next (done (hostWrite w 0 (reqDst r.entry) r.data) r r.data.length (slice r.data 8 8 ++ zeros 8)))
    ∧ (n = 0 → reqOp r.entry = 0x60 → fault = none → ∀ x, (s.inst (reqTarget r.entry)).exporting = some x →
      let v := hostWrite w 0 (reqDst r.entry) r.data
      run = .next (done (if bit (par r.entry 36) 0 = true then v else v.updInst (reqTarget r.entry) fun y => { y with st := .exported }) r
        r.data.length (toBE 8 (streamTotal x.stream.length) ++ toBE 8 (a + r.data.length))))
    ∧ (n = 0 → reqOp r.entry = 0x61 → fault = none → data.length = reqSrcLen r.entry →
      let x := ((s.inst (reqTarget r.entry)).importing).getD {}
      let head := x.stream ++ data
      let total := fieldBE head 2 8
      let dk := (dkeyOf w (par r.entry 37)).getD []
      let fs := takeFrames 16 (total - x.offset) data
      let tags := checkFrames (kdf dk "KG9 MIG TAG" (slice head 232 24) 32) (x.offset / 1048576) x.tag fs
      (fs ≠ [] → tags = none → run = .next (answer w r .authFailed 0))
      ∧ (fs ≠ [] → ∀ tag, tags = some tag → shortPool head (placeBits + windowBits) (holdings (s.inst (reqTarget r.entry))) = none →
          let next := x.offset + (fs.map List.length).sum
          let stream := x.stream ++ fs.flatMap fun f => f.take (f.length - 16)
          (next < total → run = .next (done (w.updInst (reqTarget r.entry) fun y => { y with
            importing := some { offset := next, tag := tag, dkey := par r.entry 37, salt := slice head 232 24, stream := stream } }) r
            (next - x.offset) (zeros 8 ++ toBE 8 next)))
          ∧ (total ≤ next → run = .next (done (applyStream w (reqTarget r.entry) (kdf dk "KG9 MIG WRAP" (slice head 232 24) 32) stream) r
            (next - x.offset) (zeros 8 ++ toBE 8 next)))))
    ∧ (n ≠ 0 → reqOp r.entry = 0x31 ∨ (reqOp r.entry = 3 ∧ instOwners w i a (reqDstLen r.entry) = []
        ∧ instPoison w i a (reqDstLen r.entry) = none) →
      (fault = some .hostReadFailed → run = .next (answer w r .deviceError 0x101))
      ∧ (fault = some .hostPoisoned → run = .next (answer (poisonIn w r.fn) r .deviceError 0x100)))

/-- R82, R83, R287, R293, R295 to R297: a cipher request is judged in order: its key page, its key, what the key serves, its tag length, its
usage limit, its destination; one that passes waits in its queue, or is BUSY with its hint when the pool gives no slot. -/
def Obligations.CipherRequestResults : Prop :=
  ∀ (s : State) (n : Nat) (q : BitVec 32) (r : Request), let w := s.quiet
    let i := n - 1
    (∀ c ∈ [(Instr.gcmEncrypt n q, 0x10), (.gcmDecrypt n q, 0x11), (.gmacGenerate n q, 0x12), (.gmacVerify n q, 0x13), (.xtsEncrypt n q, 0x14),
        (.xtsDecrypt n q, 0x15), (.cmacGenerate n q, 0x16), (.cmacVerify n q, 0x17), (.hmacGenerate n q, 0x18), (.hmacVerify n q, 0x19),
        (.hash n q, 0x1A)],
      takeReq w n q.toNat c.2 = some r →
      (∀ st d, cipherStatus w i r.entry = some (st, d) → exec c.1 s = .next (answer w r st d))
      ∧ (cipherStatus w i r.entry = none → groupEngines w false i ≠ [] →
          (takeUnit w i poolXce 0 = .no → exec c.1 s = .next (complete w n r.seq 1 0 0 (toBE 8 (retryAfter w poolXce 0) ++ zeros 8)))
          ∧ (takeUnit w i poolXce 0 ≠ .no → ∃ u j, exec c.1 s = .next u ∧ u.xce.jobs = s.xce.jobs ++ [j] ∧ j.inst = i ∧ j.seq = r.seq
              ∧ j.entry = r.entry ∧ j.area = none ∧ j.shared = decide (takeUnit w i poolXce 0 = .shared) ∧ (j.st = .queued ∨ j.st = .staging)
              ∧ ∀ x, u.req? r.fn r.seq = some x → x.stage = .running)))
    ∧ (∀ e x, reqOp e ≠ 0x1A →
      (pageOf w i (tgtHandle e) = none → cipherStatus w i e = some (.accessDenied, 0))
      ∧ (∀ pg, pageOf w i (tgtHandle e) = some pg → w.slot pg (tgtSlot e) = x →
        let y := { x with reserved := x.reserved + openCharge w pg (tgtSlot e) }
        (x.state = 0 → cipherStatus w i e = some (.keyAbsent, 0))
        ∧ (x.state ≠ 0 → serves x.alg (reqOp e) = false → cipherStatus w i e = some (.fieldInvalid, 3))
        ∧ (x.state ≠ 0 → serves x.alg (reqOp e) = true → tagLenOk x.alg (reqOp e) (par e 36) = true → keyExhausted y e = true →
            cipherStatus w i e = some (.keyExhausted, 0))
        ∧ (x.state ≠ 0 → serves x.alg (reqOp e) = true → tagLenOk x.alg (reqOp e) (par e 36) = true → keyExhausted y e = false →
            cipherStatus w i e = if reqDstLen e < outLen e then some (.outputFull, 0) else none)))

/-- R288 to R290, R293: KEY_LOAD puts an unwrapped key into its slot, KEY_WRAP waits to write one wrapped, KEY_RETIRE empties the slot,
KEY_LIMIT lowers the limit of a class D key and exhausts a key that has reached it; each completes with the status of its checks, a refusal in the slot's
present state being logged (R60); in a twinned instance the slot's new state joins the next mirror group (R358). -/
def Obligations.KeyRequestResults : Prop :=
  ∀ (s : State) (n : Nat) (q : BitVec 32) (data : List Byte) (r : Request) (pg : Nat), let w := s.quiet
    let i := n - 1
    let e := r.entry
    let sl := tgtSlot e
    pageOf w i (tgtHandle e) = some pg → ∀ x, w.slot pg sl = x →
    let ends (u : State) (st : Status) (d : Nat) : Host.Outcome State Fault Refusal := .next (complete u n q.toNat st.code d 0 [])
    (takeReq w n q.toNat 0x30 = some r → (s.fn n).bme = true ∨ bit (par e 37) 0 = true →
      let len := fieldBE e 48 2
      let plain := bit (par e 37) 0
      let key? := if plain = true then some (x.staging.take len) else keyUnwrap (kekOf w i) (padTo (len + 8) data)
      (plain = true → w.img.plainKeys = false → exec (.keyLoad n q data) s = ends w .accessDenied 0)
      ∧ (plain = false ∨ w.img.plainKeys = true →
        (0 < x.running → exec (.keyLoad n q data) s = ends (keyRefused w i q.toNat .stateRefused) .stateRefused 0)
        ∧ (x.running = 0 → key? = none → exec (.keyLoad n q data) s = ends w .authFailed 0)
        ∧ (x.running = 0 → ∀ key, key? = some key →
          let halves := (par e 36 = 3 ∨ par e 36 = 4) ∧ key.take (len / 2) = key.drop (len / 2)
          (halves → exec (.keyLoad n q data) s = ends w .fieldInvalid 48)
          ∧ (¬ halves → ∃ u y, exec (.keyLoad n q data) s = ends u .done 0 ∧ u.slot pg sl = y ∧ y.key = key ∧ y.alg = par e 36 ∧ y.keylen = len
              ∧ y.state = 1 ∧ y.used = 0 ∧ y.kcv = fieldBE (sha256 key) 0 4 ∧ y.exportable = bit (par e 37) 1))))
    ∧ (takeReq w n q.toNat 0x31 = some r → (s.fn n).bme = true →
      (x.state = 0 → exec (.keyWrap n q) s = ends w .keyAbsent 0)
      ∧ (x.state ≠ 0 → x.exportable = false → exec (.keyWrap n q) s = ends w .accessDenied 0)
      ∧ (x.state ≠ 0 → x.exportable = true → reqDstLen e < x.keylen + 8 → exec (.keyWrap n q) s = ends w .fieldInvalid 28)
      ∧ (x.state ≠ 0 → x.exportable = true → x.keylen + 8 ≤ reqDstLen e →
          exec (.keyWrap n q) s = .next (w.putReq { r with stage := .running, data := keyWrap (kekOf w i) x.key })))
    ∧ (takeReq w n q.toNat 0x32 = some r →
      (0 < x.running → exec (.keyRetire n q) s = ends (keyRefused w i q.toNat .stateRefused) .stateRefused 0)
      ∧ (x.running = 0 → exec (.keyRetire n q) s = ends (noteKey (w.setSlot pg sl {}) i sl {}) .done 0))
    ∧ (takeReq w n q.toNat 0x33 = some r →
      let lim := fieldBE e 40 8
      let y := { x with limit := lim, state := if lim ≤ x.used then 2 else x.state }
      (lim = 0 ∨ x.limit ≤ lim ∨ x.classD = false → exec (.keyLimit n q) s = ends w .fieldInvalid 40)
      ∧ (0 < lim → lim < x.limit → x.classD = true → exec (.keyLimit n q) s = ends (noteKey (w.setSlot pg sl y) i sl y) .done 0))

/-- R300, R305, R317: a compression request waits in its queue, is BUSY with its hint, or is answered FIELD_INVALID; an engine in service takes
the job that comes first, which then runs there. -/
def Obligations.CompressionAndJobStartResults : Prop :=
  (∀ (s : State) (n : Nat) (q : BitVec 32) (r : Request), let w := s.quiet
    let i := n - 1
    ∀ c ∈ [(Instr.compress n q, 0x20), (.decompress n q, 0x21)], takeReq w n q.toNat c.2 = some r →
      (∀ b, compressFault w r.entry = some b → exec c.1 s = .next (answer w r .fieldInvalid b))
      ∧ (compressFault w r.entry = none → groupEngines w true i ≠ [] →
          (takeUnit w i poolCze 0 = .no → exec c.1 s = .next (complete w n r.seq 1 0 0 (toBE 8 (retryAfter w poolCze 0) ++ zeros 8)))
          ∧ (takeUnit w i poolCze 0 ≠ .no → ∃ u j, exec c.1 s = .next u ∧ u.cze.jobs = s.cze.jobs ++ [j] ∧ j.inst = i ∧ j.seq = r.seq
              ∧ j.entry = r.entry ∧ j.shared = decide (takeUnit w i poolCze 0 = .shared) ∧ (j.st = .queued ∨ j.st = .staging))))
  ∧ (∀ (s : State) (e : Nat) (j : Job), let w := s.quiet
    s.live = true →
    (e < accelCount w false → takesJobs w false e = true → jobOn w false e = none → nextJob w false e = some j →
      ∃ u, exec (.cipherJobStart e) s = .next u ∧ ∃ x ∈ u.xce.jobs, x.same j = true ∧ x.st = .running e)
    ∧ (e < accelCount w true → takesJobs w true e = true → jobOn w true e = none → nextJob w true e = some j →
      ∃ u, exec (.compressionJobStart e) s = .next u ∧ ∃ x ∈ u.cze.jobs, x.same j = true ∧ x.st = .running e)
    ∧ (e < accelCount w false → takesJobs w false e = true → nextJob w false e = some j → ∀ r, jobOn w false e = some r →
      (((groupEngines w false j.inst).filter (takesJobs w false)).all fun q => (jobOn w false q).isSome) = true → victim w j.inst (reqPrio j.entry) = some r →
      ∃ u, exec (.cipherJobStart e) s = .next u ∧ ∃ x ∈ u.xce.jobs, x.same j = true ∧ x.st = .running e))

/-- R117, R291 to R298: the end of a cipher job whose source holds: its output is written to its destination, its key's counters move on
when it is DONE, and its completion goes to the ring or to its area; a wrong buffer check value ends it TAG_MISMATCH with DETAIL 1, a wrong tag
AUTH_FAILED with no output; a nonce job whose key has come to its limit meanwhile ends KEY_EXHAUSTED (assumption log 118). -/
def Obligations.CipherJobEnds : Prop :=
  (∀ (s : State) (e : Nat) (src aad : List Byte) (j : Job), let w := s.quiet
    s.live = true → jobOn w false e = some j → jobWaits w j = false → jobOwners w j = [] →
    let v := jobZones w j
    ∀ d a, jobData v j src aad none = .ok d a →
    let x := v.slot j.page j.slot
    (chkOk j.entry d = false → exec (.cipherJobDone e src aad none) s = .next (endJob v false j 8 1 0 []))
    ∧ (chkOk j.entry d = true → nonceJob j = true → x.state = 2 →
        exec (.cipherJobDone e src aad none) s = .next (endJob v false j Status.keyExhausted.code 0 0 []))
    ∧ (chkOk j.entry d = true → reqOp j.entry < 0x30 → nonceJob j = false ∨ x.state ≠ 2 →
        let o := cipherResult x j.entry d a (toBE 4 (w.spire.modid * 1024 + j.page))
        exec (.cipherJobDone e src aad none) s = .next (endJob (jobWrite v j o.2.1) false j o.1.code 0 o.2.1.length o.2.2))
    ∧ (chkOk j.entry d = true → 0x30 ≤ reqOp j.entry →
        let k := keyOp v j.inst j.entry d 1
        exec (.cipherJobDone e src aad none) s
          = .next (endJob (jobWrite (keyRefused k.s j.inst j.seq k.st) j k.out) false j k.st.code k.detail k.out.length [])))
  ∧ (∀ (s : State) (cz : Bool) (j : Job) (st d n : Nat) (result : List Byte), s.twinned j.inst = false →
    let u := leaveJob s cz j st
    endJob s cz j st d n result = (if j.area.isNone = true then complete u (j.inst + 1) j.seq st d n result else areaDone u j st d n result)
    ∧ (reqOp j.entry ≠ 0x1A →
        let x := s.slot j.page j.slot
        let y := { x with reserved := x.reserved - j.charge }
        ∃ k, (leaveJob s false j st).slot j.page j.slot
          = { (if st = 0 ∧ reqOp j.entry < 0x30 then y.afterDone j else y) with running := k }))
  ∧ (∀ (x : Slot) (e src aad fixed : List Byte),
    (reqOp e = 0x10 → (cipherResult x e src aad fixed).1 = .done ∧ (cipherResult x e src aad fixed).2.2 = fixed ++ toBE 8 x.used)
    ∧ ((cipherResult x e src aad fixed).1 = .done ∨ ((cipherResult x e src aad fixed).1 = .authFailed ∧ (cipherResult x e src aad fixed).2.1 = []))
    ∧ (∀ j, x.classD = false → reqOp j.entry = 0x10 ∨ reqOp j.entry = 0x12 → (x.afterDone j).used = x.used + 1)
    ∧ (∀ j, x.classD = true → (x.afterDone j).used = x.used + j.charge
        ∧ (x.limit ≤ x.used + j.charge → (x.afterDone j).state = 2)))

/-- R306, R312 to R316: the end of a compression job whose source holds: COMPRESS writes the framed stream where it fits, and is OUTPUT_FULL where
it does not; DECOMPRESS writes what the stream holds, or nothing with the status of its first fault. -/
def Obligations.CompressionJobEnds : Prop :=
  ∀ (s : State) (e : Nat) (src : List Byte) (j : Job), let w := s.quiet
    s.live = true → jobOn w true e = some j → jobWaits w j = false → jobOwners w j = [] →
    let v := jobZones w j
    ∀ d a, jobData v j src [] none = .ok d a →
    let run : Host.Outcome State Fault Refusal := exec (.compressionJobDone e src none) s
    (chkOk j.entry d = false → run = .next (endJob v true j 8 1 0 []))
    ∧ (chkOk j.entry d = true → reqOp j.entry = 0x20 →
        let z := deflate d (par j.entry 37)
        let out := framed (par j.entry 36) (par j.entry 37) d z.bytes
        (out.length ≤ reqDstLen j.entry →
          run = .next (endJob (jobWrite v j out) true j 0 0 out.length (zResult d (spans d.length) z.stored)))
        ∧ (reqDstLen j.entry < out.length → ∃ k, run = .next (endJob (undefinedDst v j) true j 9 0 (k * 65535) [])))
    ∧ (chkOk j.entry d = true → reqOp j.entry = 0x21 →
        (∀ r, inflate (par j.entry 36) d (reqDstLen j.entry) = .ok r →
          run = .next (endJob (jobWrite v j r.out.toList) true j 0 0 r.out.toList.length (zResult r.out.toList r.blocks r.stored)))
        ∧ (∀ k, inflate (par j.entry 36) d (reqDstLen j.entry) = .error (.full k) → run = .next (endJob v true j 9 0 k []))
        ∧ (∀ c k, inflate (par j.entry 36) d (reqDstLen j.entry) = .error (.stream c k) →
            run = .next (endJob v true j 3 8 0 (toBE 1 c ++ zeros 3 ++ toBE 4 k)))
        ∧ (∀ c x y, inflate (par j.entry 36) d (reqDstLen j.entry) = .error (.check c x y) →
            run = .next (endJob v true j 8 c 0 (toBE 4 x ++ toBE 4 y))))

/-! ## Manager commands -/

/-- R56, R57, R69, R70, R74, R86: when the turn of a request and of a manager command has come: it has arrived, nothing before it in its line
or behind its fence holds it back, and its instance runs. A command that its instance's state does not allow has no effect but its
STATE_REFUSED completion, whose DETAIL is the state, and an entry of the log. -/
def Obligations.TurnsAndRefusalsOfCommands : Prop :=
  (∀ (s : State) (n q op : Nat) (r : Request),
    (takeReq s n q op = some r ↔ s.req? n q = some r ∧ s.live = true ∧ s.hp.stopped = false ∧ s.bel.fatal = false ∧ n ≠ 0
      ∧ reqOp r.entry = op ∧ r.stage = .arrived ∧ r.admitting = false ∧ r.closing = false ∧ (s.inst (n - 1)).st = .running
      ∧ (reqFence r.entry = true → (∀ x ∈ s.hp.reqs, x.fn = r.fn → x.k = r.k → serialBefore 32 x.seq r.seq = false)
          ∧ ∀ c ∈ (s.ring r.fn r.k).held, serialBefore 32 c.seq r.seq = false))
    ∧ (takeCmd s q op = some r ↔ s.req? 0 q = some r ∧ s.live = true ∧ s.hp.stopped = false ∧ s.bel.fatal = false
      ∧ reqOp r.entry = op ∧ r.stage = .arrived
      ∧ (lineOf r.entry ≠ .atOnce → ∀ x ∈ s.hp.reqs, x.fn = 0 → lineOf x.entry = lineOf r.entry → serialBefore 32 x.seq q = false)
      ∧ (reqFence r.entry = true → (∀ x ∈ s.hp.reqs, x.fn = r.fn → x.k = r.k → serialBefore 32 x.seq r.seq = false)
          ∧ ∀ c ∈ (s.ring r.fn r.k).held, serialBefore 32 c.seq r.seq = false)))
  ∧ ∀ (s : State) (q : BitVec 32), let w := s.quiet
    let i (r : Request) := reqTarget r.entry
    let no (r : Request) : State := refuse w r (i r) (w.inst (i r)).st.code
    (∀ c ∈ [(Instr.start q, 0x41), (.quiesce q, 0x42), (.resume q, 0x43), (.reset q, 0x44), (.destroy q, 0x45), (.query q, 0x46),
        (.setWindow q, 0x52), (.exportInst q, 0x60), (.importInst q, 0x61), (.logEnable q, 0x62), (.logHarvest q, 0x63),
        (.logDisable q, 0x64)],
      ∀ r, takeCmd w q.toNat c.2 = some r → accepts c.2 (w.inst (i r)) = false → exec c.1 s = .next (no r))
    ∧ (∀ c ∈ [(Instr.setEngines q, 0x50), (.resize q, 0x51)], ∀ r, takeCmd w q.toNat c.2 = some r → stateFields w r.entry = none →
        accepts c.2 (w.inst (i r)) = false → exec c.1 s = .next (no r))
    ∧ (∀ r, takeCmd w q.toNat 0x40 = some r → w.spire.push.marker = false → (w.inst (i r)).st ≠ .free → exec (.create q) s = .next (no r))
    ∧ (∀ (r : Request) (x d : Nat), r.fn = 0 → (s.ring 0 r.k).held = [] → s.req? 0 r.seq = some r → s.bel.stopped = false →
        let u := refuse s r x d
        u.req? 0 r.seq = none ∧ u.insts = s.insts ∧ u.ves = s.ves ∧ u.mem = s.mem ∧ u.css = s.css ∧ u.pages = s.pages ∧ u.bel.eseq = s.bel.eseq + 1)

/-- R68, R72, R76, R87 to R90, R104: the life of an instance: CREATE defines it, START and RESUME run it and wake the module, QUIESCE stops its
work and completes when nothing of it is under way, RESET takes it back to DEFINED with every virtual engine in its start state and only
when its operations have ended, DESTROY frees its number and returns its units. -/
def Obligations.InstanceLifeCommands : Prop :=
  ∀ (s : State) (q : BitVec 32) (r : Request), let w := s.quiet
    let i := reqTarget r.entry
    let ok (op : Nat) : Prop := takeCmd w q.toNat op = some r ∧ accepts op (s.inst i) = true
    let zs (u : State) : Host.Outcome State Fault Refusal := .next (complete u r.fn r.seq 0 0 0 [])
    (ok 0x40 → s.spire.push.marker = false →
      exec (.create q) s = zs (w.setInst i { st := .defined, vectors := par r.entry 36, label := fieldBE r.entry 40 8 }))
    ∧ (ok 0x41 → ∃ u, exec (.start q) s = zs u ∧ (u.inst i).st = .running ∧ u.clk.power = 0 ∧ u.ves = s.ves)
    ∧ (ok 0x43 → subsIn w i (· == .held) = [] →
        ∃ u, exec (.resume q) s = zs u ∧ (u.inst i).st = .running ∧ u.clk.power = 0 ∧ u.ves = s.ves ∧ u.css = s.css)
    ∧ (ok 0x42 → ∃ u, exec (.quiesce q) s = .next u ∧ (u.inst i).st = .quiescing ∧ (u.inst i).arrivals = []
        ∧ (∀ j ∈ u.xce.jobs ++ u.cze.jobs, j.inst = i → j.st ≠ .queued ∧ j.st ≠ .staging))
    ∧ (∀ j x, s.live = true → commandOn w j 0x42 = some x → (s.inst j).st = .quiescing → quietInst w j = true →
        exec (.quiesceComplete j) s
          = .next (complete (w.updInst j fun y => { y with st := .quiesced }) x.fn x.seq 0 0 0 []))
    ∧ (ok 0x44 → (unended w i = true → exec (.reset q) s = .next w)
        ∧ (unended w i = false → ∃ u, exec (.reset q) s = zs u ∧ (u.inst i).st = .defined
            ∧ (∀ v, v < 64 → u.ve (veKey i v) = (s.ve (veKey i v)).restartState)
            ∧ ∀ k, veInst k ≠ i → u.ve k = s.ve k))
    ∧ (ok 0x45 → unended w i = false → s.twinned i = false →
        ∃ u, exec (.destroy q) s = zs u ∧ u.inst i = {} ∧ (∀ k, veInst k = i → u.ve k = {})
          ∧ (∀ g ∈ (s.inst i).main, (false, g.num) ∈ u.zeroing) ∧ (∀ g ∈ (s.inst i).bulk, (true, g.num) ∈ u.zeroing)
          ∧ ∀ j, j ≠ i → u.inst j = s.inst j)

/-- R72, R75 to R77, R79, R85, R86: SET_ENGINES places the virtual engines it names and takes the others of the tower away; RESIZE gives a pool its
share, moves granules, key pages, rings and ways with it, and defers a shrink that holders delay, whose completion is logged; both end
RESOURCE_LIMIT beyond a total or a limit. -/
def Obligations.PlacementAndPoolCommands : Prop :=
  ∀ (s : State) (q : BitVec 32) (r : Request), let w := s.quiet
    let i := reqTarget r.entry
    let b := par r.entry 36
    let t := par r.entry 37
    let n := par r.entry 38
    let g := fieldBE r.entry 40 4
    let c := fieldBE r.entry 44 4
    (takeCmd w q.toNat 0x50 = some r → stateFields w r.entry = none → accepts 0x50 (s.inst i) = true →
      let e := fieldBE r.entry 40 2
      let fits := poolGuaranteed w 1 b - ((w.inst i).share 1 b).guarantee + e ≤ poolTotal w 1 b ∧ slotsKept w i b t n + n ≤ 480 ∧ 17 ≤ goodFree w b
      (poolTotal w 1 b < poolGuaranteed w 1 b - ((w.inst i).share 1 b).guarantee + e →
        exec (.setEngines q) s = .next (answer w r .resourceLimit 1))
      ∧ (fits → t + n ≤ 64 → ∃ u, exec (.setEngines q) s = .next (complete u r.fn r.seq 0 0 0 [])
          ∧ (∀ j, j < n → (u.ve (veKey i (t + j))).placed = true ∧ (u.ve (veKey i (t + j))).tower = b ∧ (u.ve (veKey i (t + j))).hasCtx = true)
          ∧ (∀ v, v < 64 → v < t ∨ t + n ≤ v → (s.ve (veKey i v)).tower = b → (u.ve (veKey i v)).placed = false)
          ∧ ((u.inst i).share 1 b).guarantee = e))
    ∧ (takeCmd w q.toNat 0x51 = some r → stateFields w r.entry = none → accepts 0x51 (s.inst i) = true → w.spire.stopped = false →
      s.twin.st ≠ .paired →
      let old := ((s.inst i).share b t).guarantee
      (admission b = false → b ≠ 1 → g < old → (s.inst i).st = .running → exec (.resize q) s = .next (refuse w r i 2))
      ∧ (admission b = true ∨ b = 1 ∨ old ≤ g ∨ (s.inst i).st ≠ .running →
        (overShare w i b t g c = true → exec (.resize q) s = .next (answer w r .resourceLimit b))
        ∧ (overShare w i b t g c = false → ∀ v, moveUnits w i b t g = .ok v → exec (.resize q) s = .next (applyShare v r i b t g c))
        ∧ (overShare w i b t g c = false → (∀ v, moveUnits w i b t g ≠ .ok v) → ∀ u, exec (.resize q) s = .next u →
            u = answer w r .resourceLimit b ∨ u = w)))
    ∧ (∀ (v : State) (i b t g c : Nat), shrinkWaits ((v.updInst i fun x => x.setShare b t { guarantee := g, cap := c })) i b t g c v.clk.tb = false → b ≠ 4 →
        (∀ k ∈ (v.inst i).shrinks, k.pool ≠ b ∨ k.tower ≠ t) →
        ∃ u, applyShare v r i b t g c = complete u r.fn r.seq 0 0 0 [] ∧ (u.inst i).share b t = { guarantee := g, cap := c }
          ∧ u.bel = v.bel)
    ∧ (∀ (i : Nat) (k : Shrink), s.live = true →
        ((s.inst i).shrinks.find? fun k => !shrinkWaits w i k.pool k.tower ((s.inst i).share k.pool k.tower).guarantee
          ((s.inst i).share k.pool k.tower).cap k.tb) = some k →
        let pairs := ((s.inst i).share 6 0).guarantee
        let v := w.setInst i { s.inst i with
          shrinks := (s.inst i).shrinks.erase k, ringPairs := if k.pool = 6 then pairs else (s.inst i).ringPairs }
        exec (.shrinkComplete i) s = .next (logShrink (if k.pool = 6 then freeRings v i pairs else v) i k.pool k.seq))

/-- R65, R66, R72, R77, R118, R343, R344: QUERY and POOL_QUERY answer with an instance's state and a pool's figures, SET_WINDOW sets or clears a host
window, the dirty-page log starts, closes an interval into its buffer, and stops; LOG_READ returns entries of the event log and
LOG_NOTIFY sets the class from which it signals. -/
def Obligations.QueryWindowAndLogCommands : Prop :=
  ∀ (s : State) (q : BitVec 32) (r : Request), let w := s.quiet
    let i := reqTarget r.entry
    let e := r.entry
    let ok (op : Nat) : Prop := takeCmd w q.toNat op = some r ∧ accepts op (s.inst i) = true
    let zs (u : State) : Host.Outcome State Fault Refusal := .next (complete u r.fn r.seq 0 0 0 [])
    (ok 0x46 → exec (.query q) s = .next (done w r 0 ([BitVec.ofNat 8 (s.inst i).st.code,
        BitVec.ofNat 8 (b2n (s.inst i).importing.isSome * 4 + b2n (decide ((s.inst i).shrinks ≠ [])) * 2 + b2n (s.inst i).log.isSome),
        BitVec.ofNat 8 (s.ves.filter fun x => veInst x.1 == i && x.2.placed).length, 0]
          ++ toBE 4 (subsIn s i SubState.started).length ++ toBE 8 (s.inst i).label)))
    ∧ (takeCmd w q.toNat 0x53 = some r → exec (.poolQuery q) s = .next (done w r 0 (
        let p := par e 36
        let t := par e 37
        let u := if admission p then sharedInUse s p t else 0
        toBE 4 (poolTotal s p t) ++ toBE 4 (poolGuaranteed s p t) ++ toBE 4 u ++ toBE 4 (poolTotal s p t - poolGuaranteed s p t - u))))
    ∧ (ok 0x52 → ∃ u, exec (.setWindow q) s = zs u
        ∧ (∀ n, n = fieldBE e 48 4 → n ≠ 0 → kvFind (u.inst i).windows (par e 36)
            = some { write := bit (par e 37) 0, busBase := fieldBE e 40 8, pages := n })
        ∧ (fieldBE e 48 4 = 0 → (kvGet {} (u.inst i).windows (par e 36)).pages = 0) ∧ u.ves = s.ves ∧ u.mem = s.mem)
    ∧ (ok 0x62 → exec (.logEnable q) s = zs (w.updInst i fun x => { x with log := some { tbStart := s.clk.tb } }))
    ∧ (ok 0x64 → exec (.logDisable q) s = zs (w.updInst i fun x => { x with log := none }))
    ∧ (ok 0x63 → ∀ l, (s.inst i).log = some l →
        let d := l.settled (logRegions w i)
        (reqDstLen e < (harvestBytes w i d).length → exec (.logHarvest q) s = .next (answer w r .resourceLimit 0))
        ∧ ((harvestBytes w i d).length ≤ reqDstLen e → ∃ u, exec (.logHarvest q) s = .next u
            ∧ (u.inst i).log = some { interval := d.interval + 1, tbStart := s.clk.tb }
            ∧ ∀ x, u.req? 0 r.seq = some x → x.stage = .running ∧ x.data = harvestBytes w i d))
    ∧ (takeCmd w q.toNat 0x68 = some r →
        (s.bel.stopped = true → exec (.logRead q) s = .next (answer w r .deviceError 0))
        ∧ (s.bel.stopped = false → ∀ x xs z, logFrom s.bel (fieldBE e 40 8) (reqDstLen e / 64) = x :: xs → (x :: xs).getLast? = some z →
            ∃ u lost, exec (.logRead q) s = .next (complete (hostWrite u 0 (reqDst e) ((x :: xs).flatMap logBytes)) 0 r.seq 0 lost
              ((x :: xs).flatMap logBytes).length (toBE 8 x.eseq ++ toBE 8 (z.eseq + 1))) ∧ u.bel.log = s.bel.log
              ∧ (∀ o, s.bel.outstanding = some o → o ≤ z.eseq → (x :: xs).any (fun y => decide (o ≤ y.eseq)) = true → u.bel.outstanding = none))
        ∧ (s.bel.stopped = false → logFrom s.bel (fieldBE e 40 8) (reqDstLen e / 64) = [] →
            ∃ u lost b, exec (.logRead q) s = .next (complete u 0 r.seq 0 lost 0 b) ∧ u.bel = s.bel))
    ∧ (takeCmd w q.toNat 0x69 = some r → s.bel.stopped = false →
        exec (.logNotify q) s = zs { w with bel := { s.bel with minClass := par e 36 } })

/-- R93, R95, R400: EXPORT makes the next segment of the instance's stream ready to be written, opening a session with its salt at offset 0;
IMPORT asks the host for frames at the offset that follows those it has. A key that is absent, a wrong offset, or a stopped Spire ends
either with its status; an EXPORT that goes on where no session is open is refused. -/
def Obligations.MigrationCommands : Prop :=
  ∀ (s : State) (q : BitVec 32) (r : Request), let w := s.quiet
    let i := reqTarget r.entry
    let e := r.entry
    let off := fieldBE e 40 8
    (takeCmd w q.toNat 0x60 = some r → accepts 0x60 (s.inst i) = true →
      (off ≠ 0 → (s.inst i).exporting = none → exec (.exportInst q) s = .next (refuse w r i (s.inst i).st.code))
      ∧ (off = 0 ∨ (s.inst i).exporting ≠ none → dkeyOf s (par e 37) = none → exec (.exportInst q) s = .next (answer w r .keyAbsent 0))
      ∧ (∀ key, off = 0 ∨ (s.inst i).exporting ≠ none → dkeyOf s (par e 37) = some key → s.spire.stopped = true →
          exec (.exportInst q) s = .next (answer w r .deviceError 0))
      ∧ (∀ key, dkeyOf s (par e 37) = some key → s.spire.stopped = false → off = 0 →
          ∃ u x, exec (.exportInst q) s = .next u ∧ (u.inst i).exporting = some x ∧ x.dkey = par e 37
            ∧ x.stream = streamContent { w with spire := { s.spire with exportNo := s.spire.exportNo + 1 } } i x.salt (kdf key "KG9 MIG WRAP" x.salt 32)
            ∧ ∀ y, u.req? 0 r.seq = some y → y.stage = .running
              ∧ y.data = (fitFrames (reqDstLen e) (allFrames (kdf key "KG9 MIG TAG" x.salt 32) x.stream)).flatten)
      ∧ (∀ key x, dkeyOf s (par e 37) = some key → s.spire.stopped = false → off ≠ 0 → (s.inst i).exporting = some x →
          (x.dkey ≠ par e 37 → exec (.exportInst q) s = .next (answer w r .fieldInvalid 37))
          ∧ (x.dkey = par e 37 → off % 1048576 ≠ 0 → exec (.exportInst q) s = .next (answer w r .fieldInvalid 40))))
    ∧ (takeCmd w q.toNat 0x61 = some r → accepts 0x61 (s.inst i) = true →
      let at_ := match (s.inst i).importing with | some x => x.offset | none => 0
      (dkeyOf s (par e 37) = none → exec (.importInst q) s = .next (answer w r .keyAbsent 0))
      ∧ (∀ key, dkeyOf s (par e 37) = some key → s.spire.stopped = true → exec (.importInst q) s = .next (answer w r .deviceError 0))
      ∧ (∀ key, dkeyOf s (par e 37) = some key → s.spire.stopped = false → off ≠ at_ → exec (.importInst q) s = .next (answer w r .fieldInvalid 40))
      ∧ (∀ key, dkeyOf s (par e 37) = some key → s.spire.stopped = false → off = at_ →
          exec (.importInst q) s = .next ((w.putReq { r with stage := .running }).emit (.hostRead 0 (reqSrc e) (reqSrcLen e)))))

/-- R354, R355, R358, R363, R366, R368, R372: the twin commands: TWIN_QUERY reads link, fence and instance; TWIN_PAIR tells the partner and waits for its
own; TWIN_PROTECT starts a copy and TWIN_HANDOVER an instance's leave-taking; TWIN_FORCE allows the takeover of every copy. In another twin
state they are refused. -/
def Obligations.TwinCommands : Prop :=
  ∀ (s : State) (q : BitVec 32) (r : Request), let w := s.quiet
    let i := reqTarget r.entry
    let e := r.entry
    let x := s.inst i
    (takeCmd w q.toNat 0x70 = some r →
      (par e 36 = 0 → exec (.twinQuery q) s
        = .next (done w r 0 (toBE 8 (jlStatus s) ++ toBE 4 (s.twin.partner.getD 0) ++ toBE 4 (poolGuaranteed s poolMirror 0))))
      ∧ (par e 36 ≠ 0 → exec (.twinQuery q) s = .next (done w r 0 (toBE 1 x.role.code ++ toBE 1 (b2n x.copying) ++ toBE 6 (kvGet 0 s.twin.lastAck i)))))
    ∧ (takeCmd w q.toNat 0x71 = some r →
      (s.twin.st ≠ .linked → s.twin.st ≠ .alone ∨ s.twin.link < 2 → exec (.twinPair q) s = .next (refuse w r 0xFFFF (8 + s.twin.st.code)))
      ∧ (s.twin.st = .linked ∨ (s.twin.st = .alone ∧ 2 ≤ s.twin.link) → s.twin.pairing = none → s.spire.stopped = false →
        let told (v : Nat) : State := sendControl w ctlPair [s.spire.modid, v]
        (dkeyOf s 0 = none → exec (.twinPair q) s = .next (answer (told 0) r .keyAbsent 0))
        ∧ (∀ k, dkeyOf s 0 = some k → s.twin.partnerPairs = some true → exec (.twinPair q) s = .next (becomePaired (told 1) r.seq))
        ∧ (∀ k, dkeyOf s 0 = some k → s.twin.partnerPairs = some false → exec (.twinPair q) s
            = .next (answer { told 1 with twin := { (told 1).twin with partnerPairs := none } } r .keyAbsent 0))
        ∧ (∀ k, dkeyOf s 0 = some k → s.twin.partnerPairs = none → ∃ u, exec (.twinPair q) s = .next u ∧ u.twin.pairing = some r.seq
            ∧ u.out = (told 1).out)))
    ∧ (takeCmd w q.toNat 0x72 = some r →
      (s.twin.st ≠ .paired → exec (.twinProtect q) s = .next (refuse w r i (8 + s.twin.st.code)))
      ∧ (s.twin.st = .paired → x.role = .local_ ∨ x.role = .exposed → x.st = .defined ∨ x.st = .running ∨ x.st = .quiesced → x.importing = none →
        (x.main.any (fun g => !g.mir) = true → exec (.twinProtect q) s = .next (answer w r .resourceLimit 2))
        ∧ (x.main.any (fun g => !g.mir) = false → x.bulk.any (fun g => !g.mir) = false →
            ∃ u, exec (.twinProtect q) s = .next u
              ∧ (Config.pick s.free % 3 = 0 →
                (x.st = .defined ∧ x.main = [] ∧ x.bulk = [] → (u.inst i).role = .primary)
                ∧ ((x.main ≠ [] ∨ x.bulk ≠ []) → (u.inst i).role = .exposed ∧ (u.inst i).copying = true
                    ∧ kvFind u.twin.copies i = some (granuleLines s i) ∧ kvFind u.twin.protecting i = some r.seq)))))
    ∧ (takeCmd w q.toNat 0x73 = some r →
      (s.twin.st ≠ .paired → exec (.twinHandover q) s = .next (refuse w r i (8 + s.twin.st.code)))
      ∧ (s.twin.st = .paired → x.role ≠ .primary → exec (.twinHandover q) s = .next (refuse w r i x.st.code))
      ∧ (s.twin.st = .paired → x.role = .primary → x.st = .running ∨ x.st = .quiesced →
          ∃ u, exec (.twinHandover q) s = .next u ∧ kvFind u.twin.handing i = some r.seq))
    ∧ (takeCmd w q.toNat 0x74 = some r →
      (s.twin.st ≠ .alone ∨ s.twin.unanswered = false → exec (.twinForce q) s = .next (refuse w r 0xFFFF (8 + s.twin.st.code)))
      ∧ (s.twin.st = .alone → s.twin.unanswered = true → s.twin.partner ≠ some (fieldBE e 40 8) →
          exec (.twinForce q) s = .next (answer w r .fieldInvalid 40))
      ∧ (s.twin.st = .alone → s.twin.unanswered = true → s.twin.partner = some (fieldBE e 40 8) →
          ∃ u, exec (.twinForce q) s = .next u ∧ u.twin.takeAll = some s.clk.tb ∧ u.twin.unanswered = false))

/-- R389 to R393, R449 to R452: IMAGE_QUERY shows a region; IMAGE_WRITE and IMAGE_PUSH of an image that passes its checks start the NOR write of its region,
the slot in force excepted; IMAGE_SELECT makes a valid region the preferred one; CAL_READ returns the calibration page, CAL_WRITE takes a
checked page to its buffer, RECAL marks groups. -/
def Obligations.ImageAndCalibrationCommands : Prop :=
  ∀ (s : State) (q : BitVec 32) (data : List Byte) (r : Request), let w := s.quiet
    let e := r.entry
    let k := par e 36
    (takeCmd w q.toNat 0x78 = some r → k < 3 →
      (reqDstLen e = 0 ∨ regionHeader w (region w k) = [] → exec (.imageQuery q) s = .next (done w r 0 (regionResult w k (region w k))))
      ∧ (reqDstLen e ≠ 0 → regionHeader w (region w k) ≠ [] → exec (.imageQuery q) s
          = .next (done (hostWrite w 0 (reqDst e) (regionHeader w (region w k))) r 256 (regionResult w k (region w k)))))
    ∧ (takeCmd w q.toNat 0x78 = some r → k = 3 → reqDstLen e = 0 → exec (.imageQuery q) s = .next (done w r 0 (inForceResult w)))
    ∧ (takeCmd w q.toNat 0x79 = some r → s.spire.stopped = false →
      (s.spire.inForce = k → exec (.imageWrite q data) s = .next (refuse w r 0xFFFF 0))
      ∧ (s.spire.inForce ≠ k → data.length = reqSrcLen e →
        ∃ u, exec (.imageWrite q data) s = .next u
          ∧ match checkBytes w data with
            | some (x, o) => u = rejectImage w r k x o
            | none => (region u k).writing = some r.seq ∧ (region u k).new = data ∧ (region u k).marker = false))
    ∧ (takeCmd w q.toNat 0x7A = some r → s.spire.stopped = false → data.length = reqSrcLen e →
      ((∀ x ∈ s.insts, x.2.st = .free) → ∃ u, exec (.imagePush q data) s = .next u
        ∧ match checkBytes w data with
          | some (x, o) => u = rejectImage w r 2 x o
          | none => u.spire.push.writing = some r.seq ∧ u.spire.push.new = data)
      ∧ (∀ i x, (s.insts.find? fun y => y.2.st != .free) = some (i, x) → exec (.imagePush q data) s = .next (refuse w r i x.st.code)))
    ∧ (takeCmd w q.toNat 0x7B = some r → s.spire.stopped = false →
      (regionState (region w k) ≠ 1 → exec (.imageSelect q) s = .next (refuse w r 0xFFFF 0))
      ∧ (regionState (region w k) = 1 → ∃ u, exec (.imageSelect q) s = .next (complete u r.fn r.seq 0 0 0 []) ∧ u.spire.preferred = k
          ∧ (par e 37 = 1 → u.spire.push.marker = false)
          ∧ u.spire.mreg.getD 7 [] = (if 7 < s.spire.mreg.length then
              sha256 (s.spire.mreg.getD 7 [] ++ padTo 32 (toBE 2 0xA1 ++ zeros 6 ++ toBE 8 s.bel.eseq)) else [])))
    ∧ (∀ kk, (List.range 3).find? (fun k => (region w k).writing == some q.toNat) = some kk → s.req? 0 q.toNat = some r → s.live = true →
        s.hp.stopped = false → ∃ u, exec (.imageNorWriteDone q) s = .next (done u r 0 (regionResult u kk (region u kk)))
          ∧ region u kk = { image := some (.bytes (region s kk).new), marker := true })
    ∧ (takeCmd w q.toNat 0x7C = some r → exec (.calRead q) s = .next (done (hostWrite w 0 (reqDst e) (calBytes s s.tst.cal)) r 4096 []))
    ∧ (takeCmd w q.toNat 0x7D = some r → data.length = 4096 →
      (∀ o, (calFault w data).or (calReserved data) = some o →
        exec (.calWrite q data) s = .next (complete w 0 r.seq 3 8 0 (zeros 4 ++ toBE 4 o ++ zeros 8)))
      ∧ ((calFault w data).or (calReserved data) = none → ∃ u, exec (.calWrite q data) s = .next u ∧ u.tst.calBuffer = some (calMerge w data)
          ∧ u.tst.calWriter = some r.seq))
    ∧ (∀ m n, s.live = true → s.tst.calBuffer = some m → s.tst.calWriter = some n →
        ∃ u, exec .calNorWriteDone s = .next (complete u 0 n 0 0 0 []) ∧ u.tst.cal = .bytes m ∧ u.tst.calBuffer = none)
    ∧ (takeCmd w q.toNat 0x7E = some r →
        exec (.recal q) s = .next (complete { w with tst := { s.tst with recal := s.tst.recal ||| par e 36 } } r.fn r.seq 0 0 0 []))

/-! ## The host port -/

/-- R48, R50 to R53, R61, R285, R36, R39: a write that reaches a served function: a doorbell moves its ring's tail or head on, and sets
DB_DISABLED or DB_RANGE where it may not; a base and a control register take their value, under the rule for an enabled ring; an error
register clears the bits written 1; a read of BAR 0 returns the bytes of its register, and one of a wrong size or alignment is completed with
Completer Abort and sets ACCESS (R42, R43); a function that does not serve memory answers a read as R38, R43 and R63 say; a staging field and a message vector take theirs; configuration space reads and takes its registers. -/
def Obligations.HostRegisterResults : Prop :=
  ∀ (s : State) (n k : Nat) (d : List Byte), let w := s.quiet
    let r := s.ring n k
    let v := fieldBE d 0 4
    let x := fieldBE d 0 8
    let ahead (m v tl hd : Nat) : Prop := (v + m - hd) % m > (tl + m - hd) % m
    (s.reach n = .served → s.hasRing n k = true → k < 8 →
      (d.length = 4 →
        (r.rqEn = false → exec (.reqRingDoorbell n k 0 d) s = .next (raiseErr w n .dbDisabled))
        ∧ (r.rqEn = true → 2 ^ r.rqSize ≤ v → exec (.reqRingDoorbell n k 0 d) s = .next (raiseErr w n .dbRange))
        ∧ (r.rqEn = true → v < 2 ^ r.rqSize → ahead (2 ^ r.rqSize) v r.rqTail r.rqHead →
            exec (.reqRingDoorbell n k 0 d) s = .next (w.setRing n k { r with rqTail := v }))
        ∧ (r.rqEn = true → v < 2 ^ r.rqSize → ¬ ahead (2 ^ r.rqSize) v r.rqTail r.rqHead → exec (.reqRingDoorbell n k 0 d) s = .next w)
        ∧ (r.cqEn = false → exec (.cplRingDoorbell n k 0 d) s = .next (raiseErr w n .dbDisabled))
        ∧ (r.cqEn = true → 2 ^ r.cqSize ≤ v ∨ ahead (2 ^ r.cqSize) v r.cqTail r.cqHead →
            exec (.cplRingDoorbell n k 0 d) s = .next (raiseErr w n .dbRange))
        ∧ (r.cqEn = true → v < 2 ^ r.cqSize → ¬ ahead (2 ^ r.cqSize) v r.cqTail r.cqHead →
            exec (.cplRingDoorbell n k 0 d) s = .next (drainRing (w.setRing n k { r with cqHead := v }) n k)))
      ∧ (d.length = 8 →
        (r.rqEn = true → exec (.ringBaseWrite n k false 0 d) s = .next (raiseErr w n .ringBusy))
        ∧ (r.rqEn = false → exec (.ringBaseWrite n k false 0 d) s = .next (w.setRing n k { r with rqBase := x / 4096 * 4096 }))
        ∧ (r.cqEn = true → exec (.ringBaseWrite n k true 0 d) s = .next (raiseErr w n .ringBusy))
        ∧ (r.cqEn = false → exec (.ringBaseWrite n k true 0 d) s = .next (w.setRing n k { r with cqBase := x / 4096 * 4096 }))
        ∧ (let size := x / 2 ^ 16 % 16
          (size < 6 ∨ 12 < size → exec (.reqRingCtlWrite n k 0 d) s = .next (raiseErr w n .rsvdWrite))
          ∧ (6 ≤ size → size ≤ 12 → r.rqEn = true → size ≠ r.rqSize → exec (.reqRingCtlWrite n k 0 d) s = .next (raiseErr w n .ringBusy))
          ∧ (6 ≤ size → size ≤ 12 → r.rqEn = false → x.testBit 31 = true →
              exec (.reqRingCtlWrite n k 0 d) s = .next (w.setRing n k { r with rqEn := true, rqSize := size, rqHead := 0, rqTail := 0 }))
          ∧ (6 ≤ size → size ≤ 12 → r.reading = none → r.rqEn = true → size = r.rqSize →
              exec (.reqRingCtlWrite n k 0 d) s = .next (w.setRing n k { r with rqEn := x.testBit 31, rqSize := size }))
          ∧ (size < 6 ∨ 12 < size ∨ s.vectors n ≤ x / 2 ^ 20 % 16 → exec (.cplRingCtlWrite n k 0 d) s = .next (raiseErr w n .rsvdWrite))
          ∧ (6 ≤ size → size ≤ 12 → x / 2 ^ 20 % 16 < s.vectors n → r.cqEn = true → size ≠ r.cqSize →
              exec (.cplRingCtlWrite n k 0 d) s = .next (raiseErr w n .ringBusy))
          ∧ (6 ≤ size → size ≤ 12 → x / 2 ^ 20 % 16 < s.vectors n → r.cqEn = false → x.testBit 31 = true →
              exec (.cplRingCtlWrite n k 0 d) s = .next (drainRing (w.setRing n k { r with
                cqEn := true, cqSize := size, cqVec := x / 2 ^ 20 % 16, intEn := x.testBit 30, coalCnt := x / 256 % 256, coalTime := x % 256,
                cqTail := 0, cqHead := 0, phase := true, gathered := 0 }) n k)))))
    ∧ (s.reach n = .served → d.length = 8 →
        exec (.registerWrite n 0 0x10 (.write d)) s = .next (w.updFn n fun f => { f with err := f.err &&& ~~~BitVec.ofNat 7 x })
        ∧ exec (.registerWrite n 0 0 (.write d)) s = .next w
        ∧ (∀ o, o < 65536 → o % 8 ≠ 0 → exec (.registerWrite n 0 o (.write d)) s = .next (raiseErr w n .access))
        ∧ (n = 0 → exec (.registerWrite n 0 0x40 (.write d)) s = .next (w.updFn 0 fun f => { f with vecEn := x.testBit 8, vec := x % 8 })))
    ∧ (∀ bar o l,
        (s.reach n = .served → o < 65536 →
          (l ∈ [1, 2, 4, 8] → o % l = 0 → exec (.registerWrite n 0 o (.read l)) s
            = .next (w.emit (.mmioData n (slice (toBE 8 (regRead w n (regAt w n (o / 8 * 8)))) (o % 8) l))))
          ∧ (l ∉ [1, 2, 4, 8] ∨ o % l ≠ 0 → exec (.registerWrite n 0 o (.read l)) s
            = .next ((raiseErr (w.updFn n fun f => { f with aer := { f.aer with abort := true } }) n .access).emit (.completerAbort n))))
        ∧ (s.reach n = .ignored → exec (.registerWrite n bar o (.read l)) s = .next (w.emit (.mmioData n (zeros l)))
            ∧ exec (.registerWrite n bar o (.write d)) s = .next w)
        ∧ (s.reach n = .unsupported → ∀ a ∈ [RegAccess.read l, .write d], exec (.registerWrite n bar o a) s
            = .next ((w.updFn n fun f => { f with aer := { f.aer with unsupported := true } }).emit (.unsupported n))))
    ∧ (∀ o pg, s.reach n = .served → n ≠ 0 → o < 65536 → d.length = 8 → o % 8 = 0 → (s.inst (n - 1)).keyPages[o / 4096]? = some pg →
        0x100 ≤ o % 4096 → o % 4096 < 0x900 → 0x80 ≤ o % 0x100 →
        (s.img.plainKeys = false → exec (.keyStagingWrite n o d) s = .next w)
        ∧ (s.img.plainKeys = true → exec (.keyStagingWrite n o d) s = .next (w.setSlot pg (o % 4096 / 0x100 - 1)
            { s.slot pg (o % 4096 / 0x100 - 1) with staging := patch (s.slot pg (o % 4096 / 0x100 - 1)).staging (o % 0x100 - 0x80) d })))
    ∧ (∀ e, s.reach n = .served → k < (if n = 0 then 8 else 16) → e = kvGet {} (s.fn n).vecs k →
        ∃ u, exec (.msixVectorUnmask n k) s = .next u
          ∧ (e.pba = true → (s.fn n).msixEn = true → (s.fn n).fmask = false → (s.fn n).bme = true →
              u.out = [.msix n k e.addr e.data] ∧ kvGet {} (u.fn n).vecs k = { e with masked := false, pba := false })
          ∧ (e.pba = false ∨ (s.fn n).msixEn = false ∨ (s.fn n).fmask = true ∨ (s.fn n).bme = false →
              u.out = [] ∧ kvGet {} (u.fn n).vecs k = { e with masked := false }))
    ∧ (s.live = true → r.cqEn = true → r.intEn = true → r.coalTime ≠ 0 → r.gathered ≠ 0 →
        exec (.coalTimerExpire n k) s = .next (sendMsix (w.setRing n k { r with gathered := 0 }) n r.cqVec))
    ∧ (∀ (reg : CfgReg) (y : BitVec 32), s.live = true → s.hp.stopped = false →
        (s.present n = false → ∀ wr, exec (.pcieConfigRequest n reg wr y) s = .next (w.emit (.unsupported n)))
        ∧ (s.present n = true →
          exec (.pcieConfigRequest n reg false y) s = .next (w.emit (.cfgData n (cfgRead s n reg)))
          ∧ (n = 0 → cfgRead s 0 .id = Config.deviceId ++ Config.vendorId ∧ (cfgRead s 0 (.bar 0)).toNat % 65536 = 4
              ∧ (cfgRead s 0 (.bar 4)).toNat % 8192 = 4 ∧ cfgRead s 0 (.bar 2) = 0 ∧ (cfgRead s 0 (.vfBar 2)).toNat % 65536 = 4)
          ∧ (∀ a, exec (.pcieConfigRequest n (.other a) true y) s = .next (w.updFn n fun f => { f with cfg := kvSet f.cfg a y }))
          ∧ (y.getLsbD 2 = false → ∃ u, exec (.pcieConfigRequest n .command true y) s = .next u ∧ (u.fn n).bme = false
              ∧ (n = 0 → (u.fn 0).mse = y.getLsbD 1))
          ∧ (y.getLsbD 2 = true → ∃ u, exec (.pcieConfigRequest n .command true y) s = .next u ∧ (u.fn n).bme = true)
          ∧ (y.getLsbD 0 = true → ∃ u, exec (.pcieConfigRequest 0 .sriovControl true y) s = .next u ∧ u.hp.vfEnable = true
              ∧ u.hp.vfMse = y.getLsbD 3)))

/-- R63, R64, R91, R421, R427: a reset of a function sets its registers and configuration space at their reset values and keeps the slots
reserved and completions held; no request in hand, instance or virtual engine changes. Clearing VF Enable and a host-port reset do the same to
every function. Bus Master Enable, the power state of PF 0 and an abort of the mailbox set what they name. -/
def Obligations.HostPortResetResults : Prop :=
  ∀ (s : State) (n : Nat), s.live = true → s.hp.stopped = false →
    let w := s.quiet
    let bare (f : Fn) (busy : Bool) : Fn := { rings := kvMap (fun _ r => r.afterReset) f.rings, aer := f.aer, bars := f.bars, flr := busy }
    let keeps (u : State) : Prop := u.hp.reqs = s.hp.reqs ∧ u.insts = s.insts ∧ u.ves = s.ves ∧ u.mem = s.mem ∧ u.twin = s.twin
      ∧ u.clk = s.clk
    (s.present n = true → n ≠ 0 → exec (.vfFlr n) s = .next (w.setFn n (bare (s.fn n) true)))
    ∧ exec .pfFlr s = .next (w.setFn 0 (bare (s.fn 0) true))
    ∧ exec (.flrComplete n) s = .next (w.setFn n { s.fn n with flr := false })
    ∧ (∀ k, let r := ((w.setFn n (bare (s.fn n) true)).ring n k)
        r.rqEn = false ∧ r.cqEn = false ∧ r.held = (s.ring n k).held)
    ∧ (s.hp.vfEnable = true → ∃ u, exec .vfEnableClear s = .next u ∧ u.hp.vfEnable = false ∧ keeps u ∧ u.fn 0 = s.fn 0
        ∧ ∀ j, j ≠ 0 → u.fn j = { rings := kvMap (fun _ r => r.afterReset) (s.fn j).rings, aer := (s.fn j).aer })
    ∧ (∃ u, exec .hostPortReset s = .next u ∧ u.hp.vfEnable = false ∧ u.hp.vfMse = false ∧ u.hp.doe = {} ∧ keeps u
        ∧ ∀ j, u.fn j = { rings := kvMap (fun _ r => r.afterReset) (s.fn j).rings })
    ∧ (s.present n = true → (s.fn n).flr = false → ∃ u, exec (.busMasterEnableSet n) s = .next u ∧ (u.fn n).bme = true
        ∧ u.mem = s.mem ∧ ∀ i v, n = i + 1 → v < 64 → (u.ve (veKey i v)).waitBme = false)
    ∧ exec .pf0D3hotEnter s = .next (w.setFn 0 { s.fn 0 with d3hot := true })
    ∧ ((s.fn 0).d3hot = true → ∃ u, exec .pf0D0Return s = .next u ∧ (u.fn 0).d3hot = false ∧ u.clk.power = 0)
    ∧ exec .doeAbort s = .next { w with hp := { s.hp with doe := {} } }

/-- R52: writes to the registers of a ring pair of a VF by the ring's ENABLE, in every access size. An enabled ring keeps its base and its SIZE
and sets RING_BUSY; a reserved encoding sets RSVD_WRITE alone; any other write to a control register is accepted, and
each field takes its value. -/
def Obligations.EnabledRingsKeepBaseAndSize : Prop :=
  ∀ (s : State) (n k o : Nat) (d : List Byte), 1 ≤ n → s.reach n = .served → s.hasRing n k = true → k < 8 → d.length ∈ [1, 2, 4, 8] →
    o % d.length = 0 → o + d.length ≤ 8 →
    let r := s.ring n k
    let busy (i : Instr) : Prop := ∃ u, exec i s = .next u ∧ u.ring n k = r ∧ (u.fn n).err.getLsbD 3 = true
    let reserved (i : Instr) : Prop := ∃ u, exec i s = .next u ∧ u.ring n k = r ∧ (u.fn n).err.getLsbD 0 = true
      ∧ (u.fn n).err.getLsbD 3 = (s.fn n).err.getLsbD 3
    let written (v : Nat) : Nat := beNat (patch (toBE 8 v) o d)
    let q := written r.rqCtl
    let c := written r.cqCtl
    let rq := q / 2 ^ 16 % 16
    let cq := c / 2 ^ 16 % 16
    let rqOk := 6 ≤ rq ∧ rq ≤ 12
    let cqOk := 6 ≤ cq ∧ cq ≤ 12 ∧ c / 2 ^ 20 % 16 < s.vectors n
    (r.rqEn = true → busy (.ringBaseWrite n k false o d)) ∧ (r.cqEn = true → busy (.ringBaseWrite n k true o d))
    ∧ (¬ rqOk → reserved (.reqRingCtlWrite n k o d)) ∧ (¬ cqOk → reserved (.cplRingCtlWrite n k o d))
    ∧ (r.rqEn = true → rqOk → rq ≠ r.rqSize → busy (.reqRingCtlWrite n k o d))
    ∧ (r.cqEn = true → cqOk → cq ≠ r.cqSize → busy (.cplRingCtlWrite n k o d))
    ∧ (rqOk → (r.rqEn = true → rq = r.rqSize) → ∃ u, exec (.reqRingCtlWrite n k o d) s = .next u ∧ (u.ring n k).rqEn = q.testBit 31
        ∧ (u.ring n k).rqSize = rq ∧ (u.fn n).err = (s.fn n).err)
    ∧ (cqOk → (r.cqEn = true → cq = r.cqSize) → ∃ u, exec (.cplRingCtlWrite n k o d) s = .next u
        ∧ (u.fn n).err = (s.fn n).err ∧ let w := u.ring n k
          w.cqEn = c.testBit 31 ∧ w.intEn = c.testBit 30 ∧ w.cqVec = c / 2 ^ 20 % 16 ∧ w.cqSize = cq
            ∧ w.coalCnt = c / 2 ^ 8 % 256 ∧ w.coalTime = c % 256)

/-! ## The Spire, SMBus and the TAP -/

/-- R64, R404 to R412: the mailbox: discovery lists the types, BOOT_HEAD, BOOT_ENTRIES, IDENTITY_CERT and MEASURE answer from what the Spire holds,
ATTEST takes the report to sign, whose signing begins when the head is signed; an object of a wrong length sets Error. The lane that has signed answers. A stopped Spire answers
DEVICE_ERROR, MEASURE excepted. -/
def Obligations.AttestationResults : Prop :=
  ∀ (s : State) (b : List Byte), let w := s.quiet
    let p := s.spire
    let say (st d rt : Nat) (body : List Byte) : Host.Outcome State Fault Refusal :=
      .next { s with out := [.doe ([BitVec.ofNat 8 st, 0] ++ toBE 2 d ++ toBE 4 rt ++ body)] }
    let bad : Host.Outcome State Fault Refusal := .next { w with hp := { s.hp with doe := { s.hp.doe with error := true } } }
    (doeReady s = true →
      (b.length = 4 → ∀ k, k = (b.getD 0 0).toNat → k ≤ 5 → exec (.doeDiscovery 1 0 b) s = .next { s with out := [.doe
          ((if k = 0 then [1, 0] else toLE 2 Config.vendorId.toNat) ++ [BitVec.ofNat 8 k, if k = 5 then 0 else BitVec.ofNat 8 (k + 1)])] })
      ∧ (b.length ≠ 4 → ∀ v t, exec (.doeDiscovery v t b) s = bad)
      ∧ (b.length ≠ 8 → exec (.bootHead b) s = bad ∧ exec (.identityCert b) s = bad ∧ exec (.measure b) s = bad)
      ∧ (b.length ≠ 24 → exec (.bootEntries b) s = bad)
      ∧ (b.length ≠ 40 → exec (.attest b) s = bad)
      ∧ (b.length = 8 → exec (.measure b) s = say 0 0 0 p.mreg.flatten)
      ∧ (p.stopped = true →
          (b.length = 8 → exec (.bootHead b) s = say 14 0 0 [] ∧ exec (.identityCert b) s = say 14 0 0 [])
          ∧ (b.length = 24 → exec (.bootEntries b) s = say 14 0 0 []) ∧ (b.length = 40 → exec (.attest b) s = say 14 0 0 []))
      ∧ (p.stopped = false →
          (b.length = 8 → exec (.identityCert b) s = say 0 0 0 (Config.certificate p.modid)
            ∧ (p.headSigned = true → exec (.bootHead b) s = say 0 0 0 (headEntry s ++ headSignature s))
            ∧ (p.headSigned = false → exec (.bootHead b) s = say 1 0 (p.releaseTb + 4500000 - s.clk.tb) []))
          ∧ (b.length = 24 → ∀ n, n = fieldBE b 16 1 →
              (n = 0 ∨ 64 < n → exec (.bootEntries b) s = say 3 8 0 [])
              ∧ (0 < n → n ≤ 64 → (∀ i, 17 ≤ i → i < 24 → b.getD i 0 = 0) →
                  exec (.bootEntries b) s = say 0 (if fieldBE b 8 8 < oldestBoot s then 1 else 0) 0 (entriesFrom s (fieldBE b 8 8) n)))
          ∧ (b.length = 40 → exec (.attest b) s = .next { w with
              hp := { s.hp with doe := { s.hp.doe with busy := true } }, spire := { p with doeNonce := some (askReport s 0 (b.drop 8)) } })))
    ∧ (s.live = true → p.stopped = false →
      (∀ x, p.doeNonce = some x → s.hp.doe.busy = true → s.hp.stopped = false → exec (.attestSigned false) s = .next { s with
          out := [.doe (zeros 8 ++ signReport s (beginReport s 0 x))], hp := { s.hp with doe := { s.hp.doe with busy := false } }, spire := { p with doeNonce := none } })
      ∧ (∀ x, p.smbNonce = some x → p.headSigned = true →
          exec (.attestSigned true) s = .next { w with spire := { p with smbNonce := none, smbReport := some (signReport s (beginReport s 1 x)) } })
      ∧ (∃ u, exec .spireStop s = .next u
          ∧ (let cut (r : Region) : Region := if r.writing.isSome then { r with writing := none, new := [] } else r
            u.spire = { p with stopped := true, doeNonce := none, smbNonce := none, slotA := cut p.slotA, slotB := cut p.slotB, push := cut p.push
                               pkgState := if p.pkgState = 1 then 3 else p.pkgState, pkgReason := u.spire.pkgReason })
          ∧ (p.pkgState ≠ 1 → u.spire.pkgReason = p.pkgReason)
          ∧ (∀ r ∈ [p.slotA, p.slotB, p.push], ∀ q, r.writing = some q → u.req? 0 q = none)
          ∧ (p.doeNonce ≠ none → s.hp.doe.busy = true → .doe (14 :: zeros 7) ∈ u.out ∧ u.hp.doe.busy = false))
      ∧ (p.headSigned = false → ∃ u, exec .headSigned s = .next u ∧ u.spire = { p with
            headSigned := true, doeNonce := p.doeNonce.map fun r => .signing (beginReport s 0 r)
            smbNonce := p.smbNonce.map fun r => .signing (beginReport s 1 r) }
          ∧ (s.bel.stopped = false → u.bel.log.getLast?.map (fun e => (e.event, e.ref)) = some (0xA0, p.boot))))

/-- R346, R407, R411, R419, R428, R429, R448, R469: over SMBus the Belfry, the Spire, the clock and reset unit and the self-test controller answer
each read with their bytes and take each write; while the target does not answer, every command is a NACK. The TAP gives IDCODE at any time
and works otherwise in cold reset only. -/
def Obligations.SideBandResults : Prop :=
  ∀ (s : State) (b : List Byte) (v : Byte) (tap : TapInsn), let w := s.quiet
    let p := s.spire
    let say (l : List Byte) : Host.Outcome State Fault Refusal := .next { s with out := [.smbus l] }
    (smbusUp s = false → ∀ c, c ∈ [Instr.objSelect b, .objStatus, .objRead, .attestStart b, .pkgWrite b, .pkgCommit v, .pkgStatus, .health, .select b,
        .eventRead, .alertAck v, .clkStatus, .gateRead, .bistStatus, .calStatus, .warmReset v] → exec c s = .next { s with out := [.smbusNack] })
    ∧ (smbusUp s = true →
      (b.length = 9 → fieldBE b 0 1 ≤ 4 → exec (.objSelect b) s
        = .next { w with spire := { p with objSel := fieldBE b 0 1, objEntry := fieldBE b 1 8, objOff := 0 } })
      ∧ (∃ u code, exec .objStatus s = .next u ∧ u.out = [.smbus (toBE 1 code ++ toBE 3 (smbusObject s).2.length ++ zeros 4)] ∧ u.spire = p
          ∧ ∀ c, (smbusObject s).1 = some c → code = c.code)
      ∧ (∀ d, d = slice (smbusObject s).2 p.objOff 240 → exec .objRead s = .next { s with
          out := [.smbus (if d = [] then zeros 240 else d)], spire := { p with objOff := p.objOff + d.length } })
      ∧ (b.length = 32 → p.smbNonce = none → exec (.attestStart b) s = .next { w with spire := { p with
          smbNonce := some (askReport s 1 b), smbReport := none, objSel := 2, objOff := 0 } })
      ∧ (3 ≤ b.length → b.length ≤ 243 → exec (.pkgWrite b) s
        = .next { w with spire := { p with pkgStaging := patch p.pkgStaging (fieldBE b 0 3) (b.drop 3) } })
      ∧ (v ≠ 0xA5 → exec (.pkgCommit v) s = .next w)
      ∧ (p.stopped = false → exec (.pkgCommit 0xA5) s = .next { w with spire := { p with pkgState := 1, pkgReason := 0 } })
      ∧ exec .pkgStatus s = say (toBE 1 p.pkgState ++ toBE 1 p.pkgReason ++ zeros 6
          ++ toBE 8 (pkgSequence (if p.pendingPkg.isSome then p.pendingPkg else p.package)))
      ∧ (p.stopped = false → p.pkgState = 1 →
          ∃ u, exec .pkgCheckDone s = .next u
            ∧ match pkgFault s p.pkgStaging with
              | some x => u.spire = { p with pkgState := 3, pkgReason := x }
              | none => u.spire.pkgState = 2 ∧ u.spire.pendingPkg = some (p.pkgStaging.take 256) ∧ u.spire.package = p.package)
      ∧ exec .health s = say (toBE 1 s.bel.healthMax
          ++ toBE 1 (b2n s.degraded + b2n (s.twin.st == .paired) * 2 + b2n s.bel.fatal * 4 + b2n s.clk.trimDefault * 8)
          ++ toBE 8 (s.bel.eseq - 1) ++ toBE 1 s.bel.sticky.length ++ zeros 5)
      ∧ (b.length = 9 → fieldBE b 0 1 < 2 → exec (.select b) s
        = .next { w with bel := { s.bel with selSticky := fieldBE b 0 1 == 1, sel := fieldBE b 1 8 } })
      ∧ (∀ e, s.bel.selSticky = true → s.bel.sticky[s.bel.sel]? = some e → exec .eventRead s = .next { s with
          out := [.smbus (logBytes e)], bel := { s.bel with sel := s.bel.sel + 1 } })
      ∧ (∀ e, s.bel.selSticky = false → (s.bel.log.find? fun e => decide (s.bel.sel ≤ e.eseq)) = some e → exec .eventRead s = .next { s with
          out := [.smbus (logBytes e)], bel := { s.bel with sel := e.eseq + 1 } })
      ∧ exec (.alertAck 0) s = .next { w with bel := { s.bel with alert := false, healthMax := 0 } }
      ∧ (v ≠ 0 → exec (.alertAck v) s = .next w)
      ∧ exec .clkStatus s = say (toBE 8 ((hottest s).1 * 2 ^ 32 + (hottest s).2.toNat * 2 ^ 16 + s.clk.throttle * 256 + b2n s.clk.trimDefault * 16
            + s.clk.power)
          ++ toBE 8 (b2n s.clk.refclkLost * 2 ^ 15 + b2n s.clk.thermtripped * 2 ^ 14 + b2n s.clk.heartbeat * 2 ^ 13 + s.clk.cause))
      ∧ exec .gateRead s = say (toBE 8 (clkRunEn s) ++ toBE 8 (clkSleepEn s) ++ toBE 8 (clkDeepEn s))
      ∧ (∀ k x, s.tst.hubLatch = some (k, x) → exec .bistStatus s = say (toBE 8 s.tst.bistPass ++ toBE 8 s.tst.bistFail ++ toBE 8 s.tst.bistIncomplete
          ++ toBE 1 1 ++ toBE 1 k ++ toBE 1 x.source ++ zeros 1 ++ toBE 2 x.unit ++ toBE 1 s.tst.fuseUsed ++ toBE 1 s.tst.repairs.length))
      ∧ (s.tst.hubLatch = none → exec .bistStatus s = say (toBE 8 s.tst.bistPass ++ toBE 8 s.tst.bistFail ++ toBE 8 s.tst.bistIncomplete
          ++ zeros 6 ++ toBE 1 s.tst.fuseUsed ++ toBE 1 s.tst.repairs.length))
      ∧ exec .calStatus s = say (toBE 1 s.tst.calFactory ++ toBE 1 (b2n s.tst.calValid + b2n (s.tst.recal != 0) * 2)
          ++ toBE 2 (calWritesOf s.tst.cal) ++ zeros 4))
    ∧ exec (.tapInstruction .idcode) s = .next { s with out := [.tap .idcode
        (BitVec.ofNat 32 (0x0C9015B3 + 0x1000 * (s.variant.code - 1) + 0x10000000 * s.stepping))] }
    ∧ (tap ≠ .idcode → exec (.tapInstruction tap) s
        = .next { s with out := [if s.clk.phase = .coldReset then .tap tap 0 else .tap .bypass 0] })

/-! ## Self-test -/

/-- R437, R439, R442 to R447: SELFTEST_RUN starts a test of its unit or joins the one in progress, SELFTEST_QUERY and REPAIR_CTL return what the
controller holds, SELFTEST_CTL stops the rotation and the tests; the rotation starts a test where no rule forbids it; a test that ends is
counted and answered, and a controller that stops cuts every test. -/
def Obligations.SelfTestResults : Prop :=
  ∀ (s : State) (q : BitVec 32) (r : Request) (u : UnitId), let w := s.quiet
    let e := r.entry
    let t := s.tst
    let mine : UnitId := ⟨par e 36, fieldBE e 38 2, par e 37⟩
    let list : List Byte := padTo 64 (t.repairs.flatMap repairBytes)
    (takeCmd w q.toNat 0x75 = some r → t.stopped = false →
      (∀ x, t.running.find? (fun x => x.unit == mine) = some x → ∃ v, exec (.selftestRun q) s = .next v
        ∧ (∀ y, y ∈ v.tst.running ↔ ∃ z ∈ t.running, y = if z.unit = mine then { z with waiters := z.waiters ++ [r.seq] } else z))
      ∧ (t.running.find? (fun x => x.unit == mine) = none → mine.source = 9 → jobOn s false mine.unit = none →
          ∃ v, exec (.selftestRun q) s = .next v ∧ v.tst.running = t.running ++ [{ unit := mine, standIn := none, waiters := [r.seq] }]
            ∧ ∀ y, v.req? 0 r.seq = some y → y.stage = .running)
      ∧ (t.running.find? (fun x => x.unit == mine) = none → mine.source = 1 → (s.eng (engineOfUnit mine.unit)).fenced = true →
          (s.eng (engineOfUnit mine.unit)).ve = none →
          ∃ v, exec (.selftestRun q) s = .next v ∧ v.tst.running = t.running ++ [{ unit := mine, standIn := none, waiters := [r.seq] }]
            ∧ v.eng (engineOfUnit mine.unit) = { s.eng (engineOfUnit mine.unit) with phase := .test })
      ∧ (t.running.find? (fun x => x.unit == mine) = none → mine.source = 1 → (s.eng (engineOfUnit mine.unit)).fenced = false →
          (s.eng (engineOfUnit mine.unit)).role = .dispatch → idleSpare s (towerOf (engineOfUnit mine.unit)) = none →
          exec (.selftestRun q) s = .next (refuse w r 0xFFFF 1)))
    ∧ (takeCmd w q.toNat 0x76 = some r → exec (.selftestQuery q) s = .next (done (hostWrite w 0 (reqDst e)
        (toBE 8 t.bistPass ++ toBE 8 t.bistFail ++ toBE 8 t.bistIncomplete ++ toBE 2 t.softRepairs ++ toBE 1 t.fuseUsed ++ toBE 1 t.repairs.length
          ++ toBE 8 t.passed ++ toBE 4 t.failed ++ toBE 4 t.incomplete ++ zeros 20)) r 64 []))
    ∧ (takeCmd w q.toNat 0x77 = some r → t.stopped = false →
      ((par e 36).testBit 1 = false → exec (.selftestCtl q) s
        = .next (done { w with tst := { t with rollOff := (par e 36).testBit 0 } } r 0 []))
      ∧ ((par e 36).testBit 1 = true → ∃ v, exec (.selftestCtl q) s = .next v ∧ v.tst.rollOff = (par e 36).testBit 0 ∧ v.tst.running = []
          ∧ v.tst.incomplete = t.incomplete + t.running.length))
    ∧ (takeCmd w q.toNat 0x7F = some r →
      (reqDstLen e = 0 → exec (.repairCtl q) s
        = .next (done (if par e 36 = 1 then { w with tst := { t with repairs := [] } } else w) r 0 []))
      ∧ (reqDstLen e ≠ 0 → par e 36 ≠ 1 → exec (.repairCtl q) s = .next (done (hostWrite w 0 (reqDst e) list) r 64 [])))
    ∧ (s.live = true → t.stopped = false →
      (s.bel.fatal = false → t.rollOff = false → s.clk.power = 0 → rotationBusy s u = false → rollable s u = true → u.source = 9 →
        jobOn s false u.unit = none →
        exec (.rollingTestStart u) s = .next { w with tst := { t with running := t.running ++ [{ unit := u, standIn := none, waiters := [] }] } })
      ∧ (∀ x, t.running.find? (fun x => x.unit == u) = some x →
        (∃ v, exec (.rollingTestEnd u .pass) s = .next v ∧ v.tst.passed = t.passed + 1 ∧ v.tst.running = t.running.filter (·.unit != u))
        ∧ (∃ v, exec (.rollingTestEnd u .fail) s = .next v ∧ v.tst.failed = t.failed + 1)
        ∧ (∀ c got want, x.standIn = none → x.waiters = [] → ∃ v, exec (.rollingTestEnd u (.incomplete c got want)) s = .next v
            ∧ v.tst.incomplete = t.incomplete + 1 ∧ v.tst.running = t.running.filter (·.unit != u)
            ∧ (s.bel.stopped = false → v.bel.log.getLast?.map (fun e => (e.event, e.detail)) = some (0x81, c))))
      ∧ (∃ v, exec .selftestControllerStop s = .next v ∧ v.tst.stopped = true ∧ v.tst.running = []
          ∧ (s.bel.stopped = false → v.bel.log.getLast?.map (fun e => (e.event, e.source)) = some (0x31, 0x0E))))

/-! ## Faults, and units that stop -/

/-- R216, R224, R243, R244, R326, R327 to R331, R340: an engine fault that a retry clears is logged; a checkstop puts the virtual engine back at its checkpoint and starts the
quick check, whose end gives the engine back or moves its work to a spare; an error that the code corrects is logged and changes nothing else, one
that it does not is repaired from another copy, or its copy goes; a granule zeroed reads zero; a second's merged occurrences become
one entry. -/
def Obligations.RecoveryResults : Prop :=
  ∀ (s : State) (p : Nat) (c : EngineCause), s.live = true → let w := s.quiet
    let e := s.eng p
    let reach (t : Nat) : Nat := if s.clk.tb < t then t % 2 ^ 64 else s.clk.tb
    (∀ n, e.fenced = false → e.phase = .run → c = .residue ∨ c = .registerParity ∨ c = .microcode → n = 1 ∨ n = 2 →
        exec (.engineFaultDetected p c n) s
          = .next (logEvent (if c = .microcode then w.setEng p { e with cs := reloaded s e.cs false } else w) { engineEntry w 1 1 p 1 { cause := causeCode c, tb := s.clk.tb, ve := e.ve } with ref := 0 }))
    ∧ (p < 136 → towerOf p < s.variant.towers → e.fenced = false → e.phase ≠ .quickCheck → e.role = .dispatch →
        (∀ t, e.lastStop = some t → t + 100000000 ≤ s.clk.tb) → (∀ k, e.ve = some k → damaged s k = false) →
        ∃ u, exec (.engineCheckstop p c) s = .next u ∧ (u.eng p).phase = .quickCheck ∧ (u.eng p).lastStop = some s.clk.tb
          ∧ (u.eng p).recovery = { cause := causeCode c, tb := s.clk.tb, since := s.clk.tb, ve := e.ve }
          ∧ (u.eng p).l1d = [] ∧ (u.eng p).commit = none ∧ (∀ k, e.ve = some k → (u.ctx k) = (s.ve k).ckpt) ∧ u.mem = s.mem)
    ∧ (e.fenced = false → e.phase = .quickCheck → ∀ k, e.ve = some k → (s.inst (veInst k)).st ≠ .quiescing →
        (∃ u, exec (.quickCheckEnd p true) s = .next u ∧ (u.eng p) = { e with phase := .run, cs := reloaded s e.cs false }
          ∧ u.clk.tb = reach (e.recovery.since + 3100)
          ∧ (s.bel.stopped = false → u.bel.log.getLast?.map (fun x => (x.event, x.ladder, x.ref)) = some (2, 2, match e.recovery.ve with
              | some k => (s.ve k).csn | none => 0)))
        ∧ (∀ q, idleSpare (s.updEng p fun x => { x with fenced := true, phase := .run, standFor := none }) (towerOf p) = some q →
            ∃ u, exec (.quickCheckEnd p false) s = .next u ∧ (u.eng p).fenced = true ∧ (u.eng p).ve = none ∧ (u.eng q).role = .dispatch
              ∧ (u.eng q).ve = some k ∧ (u.eng q).l1d = [] ∧ (u.eng q).l1i = [] ∧ (u.ve k).on = some q))
    ∧ (∀ t x, (s.eng (128 + t)).phase = .bringUp x → (s.eng (128 + t)).fenced = false → ∃ u, exec (.fuseReserveUp t) s = .next u
        ∧ (u.eng (128 + t)).role = .dispatch ∧ (u.eng (128 + t)).phase = .run
        ∧ u.clk.tb = reach ((s.eng (128 + t)).recovery.since + 4000))
    ∧ (∀ t l, (s.dome t).stopped = false → (domeFind (s.dome t) l).isSome = true →
        exec (.domeScrub t l .clean) s = .next w
        ∧ exec (.domeScrub t l .correctable) s = .next (logEvent w { s.entry 0x10 1 2 t with detail := 3 })
        ∧ exec (.domeScrub t l .tagOne) s = .next (logEvent w { s.entry 0x10 1 2 t with detail := 5 })
        ∧ (∀ x, domeFind (s.dome t) l = some x → x.st = .E ∨ x.st = .S → exec (.domeScrub t l .uncorrectable) s
            = .next (logEvent (if (enginesOf t).any (fun q => (s.eng q).holdsD l) then w else dropDomes w l (· == t)) { s.entry 0x10 1 2 t with detail := 4 })))
    ∧ (∀ t n, (s.dome t).stopped = false → n < 512 → (s.dome t).badSlots.contains n = false →
        exec (.checkpointScrub t n .correctable) s = .next (logEvent w { s.entry 0x10 1 2 t with detail := 3 })
        ∧ ((∀ x ∈ s.ves, ¬ (x.2.hasCtx = true ∧ x.2.tower = t ∧ x.2.slot = n)) → exec (.checkpointScrub t n .uncorrectable) s
            = .next (w.setDome t { s.dome t with badSlots := (s.dome t).badSlots ++ [n] })))
    ∧ (∀ l, lineExists s l = true → s.mem.poison.contains l = true → exec (.storeScrub l .clean) s = .next (logPoisoned w l)
        ∧ exec (.storeScrub l .uncorrectable) s = .next (logPoisoned w l))
    ∧ (∀ l, lineExists s l = true → s.mem.poison.contains l = false → let fixed (d : Nat) : Host.Outcome State Fault Refusal := .next (logEvent w
          { s.entry 0x11 1 (storeUnit l).1 (storeUnit l).2 with addr := l * 64, detail := d })
        let held (q : DomeState → Bool) : Bool := s.domes.any fun d => d.2.lines.any fun x => x.line == l && q x.st
        exec (.storeScrub l .correctable) s = fixed 1
        ∧ (held (· == .M) = true → exec (.storeScrub l .uncorrectable) s = .next w ∧ exec (.storeReadError l) s = .next w)
        ∧ (held (· == .M) = false → held (fun x => x == .S || x == .E) = true →
            exec (.storeScrub l .uncorrectable) s = fixed 3 ∧ exec (.storeReadError l) s = fixed 3))
    ∧ (∀ port l, port < 32 → l * 64 < 0x10000000 → l % 32 = port → let x := kvGet {} s.mem.parity port
        let n := if x.line = l ∧ (x.tb = s.clk.tb ∨ (x.tb + 1 = s.clk.tb ∧ Config.pick s.free % 2 = 0)) then x.count + 1 else 1
        ∃ u, exec (.addressParityError port l) s = .next u ∧ u.mem.parity = kvSet s.mem.parity port { line := l, tb := s.clk.tb, count := n }
          ∧ u.bel.fatal = (s.bel.fatal || decide (4 ≤ n)))
    ∧ (∀ l, e.l1i.contains l = true → exec (.cacheError (.l1iLine p l)) s
        = .next (logEvent (w.setEng p { e with l1i := e.l1i.filter (· != l) }) { s.entry 0x10 1 1 (engineUnit p) with detail := 1 }))
    ∧ (∀ l x, l1Find e l = some x → x.st ≠ .D → exec (.cacheError (.l1dLine p l)) s
        = .next (logEvent (w.setEng p { e with l1d := e.l1d.filter (·.line != l) }) { s.entry 0x10 1 1 (engineUnit p) with detail := 2 }))
    ∧ (∀ a b, let x := (s.mem.checks.find a b).bind (·.changed)
        (x = none → exec (.checkLineWriteback a b) s = .next w)
        ∧ ∀ tb, x = some tb → ∃ u, exec (.checkLineWriteback a b) s = .next u ∧ u.clk.tb = reach (tb + 200)
            ∧ u.mem = { s.mem with checks := s.mem.checks.flush a b })
    ∧ (∀ bulk g, s.zeroing.contains (bulk, g) = true → ∃ u, exec (.granuleZeroDone bulk g) s = .next u
        ∧ u.zeroing = s.zeroing.filter (· != (bulk, g))
        ∧ ∀ a, let base := if bulk then 0x1000000000 + g * 2097152 else s.poolBase + g * 65536
            let size := if bulk then 2097152 else 65536
            (base ≤ a ∧ a < base + size → cellFind u.mem.store a = 0 ∧ (committed u (a / 64)).1 = zeros 64)
            ∧ (a < base ∨ base + size ≤ a → cellFind u.mem.store a = cellFind s.mem.store a))
    ∧ (∀ ev src un m, s.bel.merges.find? (fun m => m.event == ev && m.source == src && m.unit == un) = some m → s.bel.stopped = false →
        ∃ u, exec (.eventMergeFlush ev src un) s = .next u ∧ u.clk.tb = reach (m.tb0 + 100000000)
          ∧ u.bel.merges = s.bel.merges.filter (fun x => !sameMerge m.last x)
          ∧ (m.count ≠ 0 → u.bel.log.getLast? = some { m.last with count := m.count, eseq := s.bel.eseq })
          ∧ (m.count = 0 → u.bel.log = s.bel.log))

/-- R32, R279, R302, R317, R334, R339: a unit that stops is fenced, and its entry tells how many like it are left; a stopped dome or stack takes the instances that
lived on it; a stopped channel or hub block is device-fatal; the work of a stopped channel or accelerator engine goes on with the others. -/
def Obligations.StoppedUnitResults : Prop :=
  ∀ s : State, s.live = true → let w := s.quiet
    let entry (t u : State) (cls src un left : Nat) : Prop :=
      u = logEvent t { t.entry 0x31 cls src un with param := left * 2 ^ 48 }
    (∀ cd m, m < 6 → cd * 2 < s.variant.towers → s.tst.fenced.contains ⟨4, cd * 6 + m, 0⟩ = false → ∃ u, exec (.d2dModuleFail cd m) s = .next u
        ∧ u.tst.fenced = s.tst.fenced ++ [⟨4, cd * 6 + m, 0⟩] ∧ u.insts = s.insts ∧ u.mem = s.mem
        ∧ ∃ t, entry t u 4 4 (cd * 6 + m) ((List.range 6).filter fun k => !t.tst.fenced.contains ⟨4, cd * 6 + k, 0⟩).length)
    ∧ (∀ t b, t < s.variant.towers → (s.dome t).stopped = false → b ≠ .computeDie → ∃ u, exec (.domeFail t b) s = .next u
        ∧ (u.dome t).stopped = true ∧ (u.dome t).lines = [] ∧ (∀ p ∈ enginesOf t, (u.eng p).ve = none ∧ (u.eng p).l1d = [])
        ∧ ∀ i, s.twin.st ≠ .paired → placedOn s i t ≠ 0 → (s.inst i).st ≠ .free → (u.inst i).st = .faulted)
    ∧ (∀ c, c < 16 → ∃ u, exec (.mainStoreChannelFail c) s = .next u ∧ u.bel.fatal = true
        ∧ ∀ i, s.twin.st ≠ .paired → (s.inst i).st ≠ .free → (u.inst i).st = .faulted)
    ∧ (∀ x, x < s.variant.stacks → s.tst.fenced.contains ⟨6, x, 0⟩ = false → ∃ u, exec (.hbmStackFail x) s = .next u
        ∧ u.tst.fenced = s.tst.fenced ++ [⟨6, x, 0⟩]
        ∧ (∀ i y, s.twin.st ≠ .paired → kvFind s.insts i = some y → y.st ≠ .free → y.bulk.any (fun g => g.num / 10752 == x) = true →
            (u.inst i).st = .faulted)
        ∧ ∀ l, 0x1000000000 + x * 10752 * 2097152 ≤ l * 64 → l * 64 < 0x1000000000 + (x + 1) * 10752 * 2097152 → stackDead u l = true)
    ∧ (∀ b, ∃ u, exec (.hubBlockFail b) s = .next u ∧ u.bel.fatal = true ∧ (b = .channelSubsystem → u.css.stopped = true)
        ∧ (b = .hostPort → u.hp.stopped = true) ∧ ∀ i, s.twin.st ≠ .paired → (s.inst i).st ≠ .free → (u.inst i).st = .faulted)
    ∧ (s.bel.stopped = false → ∃ u, exec .belfryStop s = .next u ∧ u.bel.stopped = true ∧ u.bel.fatal = true ∧ u.bel.log = s.bel.log
        ∧ ∀ i, s.twin.st ≠ .paired → (s.inst i).st ≠ .free → (u.inst i).st = .faulted)
    ∧ (∀ n, n < 3 → s.clk.badCounters.contains n = false →
        exec (.timebaseCounterFail n) s = .next { w with clk := { s.clk with badCounters := s.clk.badCounters ++ [n] } })
    ∧ (∀ c, c < 32 → s.css.stopped = false → s.css.chesStopped.contains c = false → ∃ u, exec (.cheStop c) s = .next u
        ∧ u.css.chesStopped = s.css.chesStopped ++ [c]
        ∧ ((∃ k, k < 32 ∧ k ≠ c ∧ s.css.chesStopped.contains k = false) →
            u.css.stopped = false ∧ ∀ i n, (u.sub i n).st = (s.sub i n).st ∧ ((s.sub i n).st ≠ .idle → (s.sub i n).che = c → (u.sub i n).che ≠ c)))
    ∧ (∀ x, x < s.variant.xces → s.xce.fenced.contains x = false → ∃ u, exec (.cipherEngineStop x) s = .next u
        ∧ u.xce.fenced = s.xce.fenced ++ [x])
    ∧ (∀ x, x < s.variant.czes → s.cze.fenced.contains x = false → ∃ u, exec (.compressionEngineStop x) s = .next u
        ∧ u.cze.fenced = s.cze.fenced ++ [x])

/-! ## Clocks, power and resets -/

/-- R33, R341, R345, R390, R403, R404, R416, R420, R421, R425, R426, R430, R432, R433, R440, R463: the events that stop the clocks freeze the module under their latch; a hot
sensor enters a throttle level and ten cool milliseconds leave it; Sleep and Deep-sleep are entered and left; PERST# and the rails reset
all but fuses, NOR and what VAUX holds; a warm reset keeps the log and the series; a start that ends releases the towers with one more boot, or
stays in bring-up. -/
def Obligations.ClockAndResetResults : Prop :=
  ∀ (s : State) (r : StartResult), let w := s.quiet
    let c := s.clk
    (s.live = true → exec .heartbeatLapse s = .next { w with clk := { c with phase := .frozen, heartbeat := true } })
    ∧ (c.phase ≠ .coldReset →
        exec .refclkLoss s = .next { w with clk := { c with phase := .frozen, refclkLost := true } }
        ∧ ∀ n, n < 64 → exec (.thermtrip n) s = .next { w with clk := { c with
            phase := .frozen, thermtripped := true, thermtripPin := true, readings := kvSet c.readings n 960 } })
    ∧ (s.live = true → s.bel.stopped = false →
        (∀ n x, n < 64 → ∃ u, exec (.thermalSample n x) s = .next u ∧ u.clk.readings = kvSet c.readings n x ∧ c.throttle ≤ u.clk.throttle
          ∧ (∀ l : Nat, 1 ≤ l → l ≤ 4 → 800 + 24 * ((l : Int) - 1) - (if c.trimDefault then 40 else 0) ≤ (hottest u).2.toInt → l ≤ u.clk.throttle)
          ∧ (c.throttle < u.clk.throttle →
              800 + 24 * ((u.clk.throttle : Int) - 1) - (if c.trimDefault then 40 else 0) ≤ (hottest u).2.toInt))
        ∧ (∀ t, c.throttle ≠ 0 → kvFind c.coolTb c.throttle = some t → t + 1000000 < 2 ^ 64 → ∃ u, exec .throttleRelease s = .next u
            ∧ u.clk.throttle < c.throttle ∧ u.clk.tb = max c.tb (t + 1000000)))
    ∧ (c.power = 0 → moduleIdle s = true → ∃ u, exec .sleepEntry s = .next u ∧ u.clk.power = 1 ∧ u.tst.running = [] ∧ u.clk.tb = (c.tb + 5000) % 2 ^ 64)
    ∧ (s.live = true → c.power = 1 → (s.fn 0).d3hot = true → ∃ u, exec .deepSleepEntry s = .next u ∧ u.clk.power = 2 ∧ u.mem = s.mem
        ∧ u.domes = s.domes ∧ ∀ p, (u.eng p).l1d = [] ∧ (u.eng p).l1i = [])
    ∧ (s.live = true → c.power ≠ 0 → moduleIdle s = false ∨ (c.power = 2 ∧ (s.fn 0).d3hot = false) →
        ∃ u, exec .powerWake s = .next u ∧ u.clk.power = 0 ∧ u.mem = s.mem ∧ u.domes = s.domes)
    ∧ (∀ rails, rails = true ∨ c.phase ≠ .coldReset → ∃ u, exec (.perstAssert rails) s = .next u ∧ u.clk.phase = .coldReset
        ∧ u.clk.cause = (if rails then 0 else 1) ∧ u.clk.tb = 0 ∧ u.pending = s.pending ∧ u.insts = [] ∧ u.ves = [] ∧ u.engines = [] ∧ u.domes = []
        ∧ u.mem = {} ∧ u.hp = {} ∧ u.css = {} ∧ u.bel.log = [] ∧ u.bel.sticky = s.bel.sticky ∧ u.bel.alert = s.bel.alert
        ∧ u.twin.latch = s.twin.latch ∧ u.bel.entryLost = s.bel.entryLost ∧ u.spire.owners = s.spire.owners ∧ u.spire.package = s.spire.package
        ∧ u.spire.boot = s.spire.boot ∧ u.spire.bootRing = s.spire.bootRing ∧ u.spire.mreg = List.replicate 8 (zeros 32))
    ∧ (∀ strap, c.phase = .coldReset → exec (.perstDeassert strap) s = .next { w with clk := { c with phase := .startUp, strap := strap } })
    ∧ (∃ u, exec .vauxLoss s = .next u ∧ u.bel.sticky = [] ∧ u.bel.alert = false ∧ u.bel.healthMax = 0 ∧ u.bel.entryLost = false ∧ u.twin.latch = false
        ∧ u.tst.hubLatch = none ∧ u.clk.refclkLost = false ∧ u.clk.heartbeat = false ∧ u.clk.thermtripped = false ∧ u.mem = s.mem)
    ∧ (smbusUp s = true → (∃ u, exec (.warmReset 0x5A) s = .next u ∧ u.clk.phase = .warmReset ∧ u.clk.warmTb = c.tb ∧ u.clk.cause = 2
          ∧ u.insts = [] ∧ u.ves = [] ∧ u.mem = {} ∧ u.hp.reqs = [] ∧ u.spire.boot = s.spire.boot
          ∧ (s.tst.running = [] → u.bel.log = s.bel.log ∧ u.bel.eseq = s.bel.eseq ∧ u.css.jsn = s.css.jsn))
        ∧ ∀ v, v ≠ 0x5A → exec (.warmReset v) s = .next w)
    ∧ (c.phase = .warmReset → r.entryWritten = true → ∃ u, exec (.warmResetEnd r) s = .next u
        ∧ match (selectImage (measureRom w) true).1 with
          | none => u.clk.phase = .bringUp
          | some (k, m) => u.clk.phase = .run ∧ u.clk.tb = (c.warmTb + 4200000) % 2 ^ 64 ∧ u.spire.boot = s.spire.boot + 1 ∧ u.spire.inForce = k
              ∧ u.spire.image = m)
    ∧ (c.phase = .startUp → ∃ u, exec (.startUpComplete r) s = .next u
        ∧ match (selectImage (measureRom (applyPending w r.sealLost)) false).1, r.hubFailure with
          | none, _ => u.clk.phase = .bringUp
          | some _, some f => u.clk.phase = .bringUp ∧ u.tst.hubLatch = some f
          | some (k, m), none => if r.entryWritten
              then u.clk.phase = .run ∧ u.clk.tb ≤ r.ms.toNat * 100000 ∧ u.spire.boot = s.spire.boot + 1 ∧ u.spire.inForce = k ∧ u.spire.image = m
              else u.clk.phase = .bringUp ∧ u.bel.entryLost = true ∧ u.spire.boot = s.spire.boot)

/-! ## The link to the partner -/

/-- R348 to R353, R358 to R369: training brings the link up and IDENT out; IDENT and PAIR form the pair; a flit in order is taken, one that is not is
replayed until the link goes down; groups are acknowledged and applied in order, buckets filled; PROTECT, COPY_DONE, SURRENDER and HANDOVER change
an instance's role; a lost partner is fenced off, the fenced module gives its instances up, and the copies are taken over. -/
def Obligations.TwinEventResults : Prop :=
  ∀ (s : State), let w := s.quiet
    let t := s.twin
    let sec (i : Nat) : Prop := (s.inst i).role = .secondary
    (∀ x4 lane, s.live = true → s.variant.jlk = true → s.img.twin = true → t.link = 1 → ∃ u, exec (.jalarnLinkUp x4 lane) s = .next u
        ∧ u.twin.link = (if x4 then 3 else 2) ∧ u.twin.credit = 524288 ∧ u.twin.fseq = 0
        ∧ ∃ k < 4096, ∃ f, f = flitBytes k 4095 t.ackTx 0 [slotBytes 4 false 0 0 0 (Config.message 0 ([s.spire.modid, s.spire.boot, s.clk.tb]
            ++ (s.img.structHash ++ s.img.ucodeHash).map BitVec.toNat))]
          ∧ u.out.getLast? = some (.jalarn f) ∧ u.twin.sent = [(k, f)] ∧ u.twin.txSeq = (k + 1) % 4096)
    ∧ (∀ m : IdentMsg, linkUp s = true → ∃ u, exec (.ident m) s = .next u ∧ u.twin.partner = some m.modid.toNat
        ∧ u.twin.posB = decide (m.modid.toNat < s.spire.modid) ∧ u.twin.mismatch = decide (m.structHash ≠ s.img.structHash)
        ∧ u.twin.st = (if t.st = .none ∧ m.structHash = s.img.structHash then .linked else t.st)
        ∧ u.clk.tb = (if m.structHash = s.img.structHash then max s.clk.tb m.tb.toNat else s.clk.tb))
    ∧ (linkUp s = true → ∃ u, exec .receiverLockLost s = .next u ∧ u.twin.link = 1 ∧ u.twin.st = (if t.st = .linked then .none else t.st))
    ∧ (∀ f, linkUp s = true → f.length = 256 →
        (flitGood s f = false → t.replays < 16 → exec (.jalarnFlitReceive f) s = .next { w with twin := { t with replays := t.replays + 1 } })
        ∧ (flitGood s f = false → 16 ≤ t.replays → ∃ u, exec (.jalarnFlitReceive f) s = .next u ∧ u.twin.link = 1)
        ∧ (flitGood s f = true → t.st ≠ .paired →
            let base : State := { w with twin := { t with
              fseq := (t.fseq + 1) % 4096, replays := 0, credit := t.credit + 1024 * fieldBE f 11 1
              sent := t.sent.filter fun e => serialBefore 12 (fieldBE f 3 2 % 4096) e.1 } }
            exec (.jalarnFlitReceive f) s = .next (if fieldBE f 0 1 / 64 = 1 then
              [slice f 14 76, slice f 90 76, slice f 166 76].foldl takeSlot base else base)))
    ∧ (∀ (m : BitVec 22) (k : Bool), linkUp s = true → t.st = .linked ∨ t.st = .alone → t.partner = some m.toNat →
        (t.pairing = none → exec (.pair m k) s = .next { w with twin := { t with partnerPairs := some k } })
        ∧ (∀ q d, t.pairing = some q → k = true → dkeyOf s 0 = some d → ∃ u, exec (.pair m k) s = .next u ∧ u.twin.st = .paired
            ∧ u.twin.key = some (twinKey s d) ∧ u.twin.pairing = none)
        ∧ (∀ q, t.pairing = some q → k = false → exec (.pair m k) s
            = .next (completeNow { w with twin := { t with pairing := none } } 0 q 11 0 0 [])))
    ∧ (linkUp s = true → t.st = .paired →
        (∀ m : ProtectMsg, ((s.inst m.i).st ≠ .free → exec (.protect m) s = .next w)
          ∧ (m.i < 512 → (s.inst m.i).st = .free → granulesHere s m = true → m.shares = [] → exec (.protect m) s = .next (w.setInst m.i {
              st := .defined, role := .secondary, copying := !m.empty, vectors := m.vectors, label := m.label.toNat
              main := m.main.map fun g => { num := g, mir := true }, bulk := m.bulk.map fun g => { num := g, mir := true } })))
        ∧ (∀ i q, kvFind t.protecting i = some q → kvFind t.copies i = none → ∃ u, exec (.copyDone i true) s = .next u
            ∧ (u.inst i).role = .primary ∧ (u.inst i).copying = false ∧ kvFind u.twin.protecting i = none)
        ∧ (∀ i, sec i → exec (.copyDone i false) s = .next (w.setInst i { s.inst i with copying := false }))
        ∧ (∀ i j, sec i → exec (.surrender i j) s = .next { w with twin := { t with mayTake := kvSet t.mayTake i s.clk.tb } })
        ∧ (∀ i j, sec i → kvFind t.handing i = none → exec (.handover i j) s
            = .next { w with twin := { t with mayTake := kvSet t.mayTake i s.clk.tb, handed := i :: t.handed } })
        ∧ (∀ i j q, kvFind t.handing i = some q → (s.inst i).role = .local_ → exec (.handover i j) s
            = .next (completeNow { w with twin := { t with handing := kvDel t.handing i } } 0 q 0 0 0 []))
        ∧ (∀ (j : BitVec 48) (g : Group) n seq st d c l, j ≠ 0 → serialBefore 48 j.toNat s.css.jsn = true → serialBefore 48 j.toNat t.ackRx = false →
            t.groups = [g] → g.jsn = some j.toNat → g.act = .completion n seq st d c l → t.handing = [] →
            let v := completeNow { w with twin := { t with
              groups := [], ackRx := j.toNat, lastAck := kvSet t.lastAck g.inst j.toNat } } n seq st d c l
            endedJob v false (n - 1) seq = none → endedJob v true (n - 1) seq = none → exec (.mirrorAck j) s = .next (resumeOps v))
        ∧ (t.groups = [] → t.copies = [] → ∃ u, exec .mirrorRefill s = .next u ∧ u.out = [] ∧ u.mem = s.mem
            ∧ ∀ i x, kvFind s.insts i = some x → let g := (x.share poolMirror 0).guarantee
                min (kvGet 0 t.buckets i + (if t.link = 3 then 3 * g / 2 else 3 * g)) (1024 * g) ≤ kvGet 0 u.twin.buckets i))
    ∧ (s.live = true → t.st = .paired →
        (t.staged = [] → exec .stagingApply s = .next w)
        ∧ (∀ j i ls rest, t.staged = (j, i, ls) :: rest → ∃ u, exec .stagingApply s = .next u ∧ u.twin.staged = rest
            ∧ (¬ sec i → ∀ k, u.inst k = s.inst k))
        ∧ (t.asking = false → ∃ u, exec .partnerLostTimeout s = .next u ∧ u.twin.asking = true ∧ (2 ≤ t.link → u.twin.link = 1))
        ∧ (t.asking = true → t.latch = false →
            (∃ u, exec (.fenceAsk true) s = .next u ∧ u.twin.st = .alone ∧ u.twin.takeAll.isSome = true ∧ u.twin.unanswered = false
              ∧ (t.groups = [] → ∀ i, (s.inst i).role = .primary → (u.inst i).role = .exposed))
            ∧ (∃ u, exec (.fenceAsk false) s = .next u ∧ u.twin.st = .paired ∧ u.twin.asking = true ∧ u.twin.askTb.isSome = true))
        ∧ (∀ x, t.asking = true → t.askTb = some x → ∃ u, exec .fenceUnanswered s = .next u ∧ u.twin.st = .alone ∧ u.twin.unanswered = true))
    ∧ (s.live = true → t.latch = false → t.posB = true ∨ (t.asking = false ∧ t.fenceOut = false) → ∃ u, exec .fenceLatchSet s = .next u
        ∧ u.twin.latch = true ∧ u.twin.fenceIn = true ∧ u.twin.ackLow = true ∧ u.twin.st = .fenced ∧ u.twin.fenceOut = false
        ∧ ∀ i, (s.inst i).role = .primary ∨ (s.inst i).role = .exposed → (s.inst i).st ≠ .free → (u.inst i).st = .faulted)
    ∧ (s.live = false → s.clk.phase ≠ .frozen →
        exec .fenceLatchSet s = .next { w with twin := { t with latch := true, fenceIn := true, ackLow := true } })
    ∧ (∀ i, s.live = true → nextTake s i = true → sec i → t.staged = [] → ∃ u, exec (.takeover i) s = .next u ∧ (u.inst i).role = .exposed
        ∧ (u.inst i).copying = false ∧ kvFind u.twin.mayTake i = none)

/-! ## The channel subsystem -/

/-- R253 to R259, R266 to R275: a channel engine starts the first issued operation; a device's answer ends its command, with the status the outcome
gives; a lost path sends its operations to be reissued, which another path does, or the wait for one ends them; an END that has
committed is written as the status record; an adapter's messages are counted or end a WAITINT, and its accesses are served inside an exposed
range only. -/
def Obligations.ChannelResults : Prop :=
  ∀ (s : State) (i n : Nat), s.live = true → s.css.stopped = false → n < 65536 → let w := s.quiet
    let x := s.sub i n
    let reach (t : Nat) : Nat := if s.clk.tb < t then t % 2 ^ 64 else s.clk.tb
    let off (u : State) : Prop := (u.sub i n).st ≠ .active ∨ (u.sub i n).lossWaits = true
    let ends (u : State) (st detail : Nat) : Prop := (u.sub i n).st = .ending ∧ (u.sub i n).fstatus = st ∧ (u.sub i n).detail = detail
    (∀ c, cheFree s c = true → x.st = .issued → (s.inst i).st = .running → firstIssued s i n = true → spaceForStart s = true →
        ∃ u, exec (.cheStartOperation c i n) s = .next u ∧ (u.sub i n).che = c ∧ (u.sub i n).opJsn = s.css.jsn
          ∧ (u.sub i n).st ∈ [SubState.validating, .active, .reissuing, .ending])
    ∧ (x.st = .validating ∨ x.st = .active → exec (.cheStartOperation x.che i n) s = .next (resumeOp w i n))
    ∧ (∀ p, x.st = .active → x.lossWaits = false → x.pieces = [p] → p.done = false → cceCmd (curCce x) ≠ 0x23 →
        (∃ u, exec (.deviceCompletion i n { lba := p.lba, outcome := .guardOnRead }) s = .next u ∧ ends u 8 2)
        ∧ (∃ u, exec (.deviceCompletion i n { lba := p.lba, outcome := .referenceOnRead }) s = .next u ∧ ends u 8 3)
        ∧ (∀ st, ∃ u, exec (.deviceCompletion i n { lba := p.lba, outcome := .error st }) s = .next u ∧ ends u 14 0x200
            ∧ (u.sub i n).devstat = (if (subDev s x).namespace then st.toNat else 0))
        ∧ (p.retried = false → egressPoison s i x (curCce x) [p] = none → ∃ u, exec (.deviceCompletion i n { lba := p.lba, outcome := .guardOnWrite }) s = .next u
            ∧ u.out = [pieceOut w i x (curCce x) p] ∧ (u.sub i n).pieces = [{ p with retried := true }])
        ∧ (x.onceOpen = false → ∃ u, exec (.deviceCompletion i n { lba := p.lba, outcome := .pathRelated }) s = .next u
            ∧ ((u.sub i n).st = .reissuing ∨ (u.sub i n).lossWaits = true) ∧ x.device ∈ (u.path (subPath s x)).lostDevs)
        ∧ (∀ d, cceMore (curCce x) = false → x.onceOpen = false → x.exposes = [] →
            cceCmd (curCce x) ∈ [2, 3, 4, 7, 0x20] → ∃ u, exec (.deviceCompletion i n { lba := p.lba, outcome := .good d }) s = .next u
            ∧ ends u 0 0 ∧ (u.sub i n).count = x.count + cceBytes (curCce x)
            ∧ (u.sub i n).endJsn = s.css.jsn ∧ (u.sub i n).endWait = (if s.twin.st = .paired then some s.css.jsn else none)))
    ∧ (x.st = .active → x.lossWaits = false → x.pieces.any (fun p => !p.done) = true → cceCmd (curCce x) ≠ 0x23 → ∃ u, exec (.commandTimeout i n) s = .next u
        ∧ u.clk.tb = reach (x.issueTb + (subDev s x).timeout * 100) ∧ off u
        ∧ x.device ∈ (u.path (subPath s x)).lostDevs)
    ∧ (∀ path, (s.path path).down = false → x.pieces = [] ∨ x.pieces.any (fun p => !p.done) = true →
        (∃ u, exec (.pathLost path none) s = .next u ∧ (u.path path).down = true
          ∧ (x.st = .active → subPath s x = path → off u))
        ∧ (∀ d, (s.path path).lostDevs.contains d = false → ∃ u, exec (.pathLost path (some d)) s = .next u ∧ d ∈ (u.path path).lostDevs
          ∧ (x.st = .active → x.device = d → subPath s x = path → off u)))
    ∧ (∀ path k, ((List.range (subDev s x).paths.length).find? fun k => pathNum s (((subDev s x).paths[k]?).getD 0) == path) = some k →
        x.st = .reissuing → x.startJsn = none → choosePath s x = some k → ∃ u, exec (.pathReissue i n path) s = .next u ∧ (u.sub i n).reissued = true
          ∧ (u.sub i n).path = k ∧ (u.sub i n).reissues = min 0xFFFF (x.reissues + 1))
    ∧ (x.st = .reissuing → ∃ u, exec (.pathWaitExpire i n) s = .next u ∧ ends u 14 0x201
        ∧ u.clk.tb = reach (x.lossTb + (subDev s x).pathWait * 100))
    ∧ (∀ path, (s.path path).down = true →
        (∃ u, exec (.pathReturn path none true) s = .next u ∧ (u.path path).down = false ∧ u.css.subs = s.css.subs)
        ∧ (∃ u, exec (.pathReturn path none false) s = .next u ∧ u.css = s.css))
    ∧ (x.st = .ending ∨ (x.st = .held ∧ (s.inst i).st = .running) → x.endWait = none →
        (rangeBacked s i x.status 32 = false → exec (.endEntryCommit i n) s = .next (resumeOps (w.setSub i n { x with st := .pending })))
        ∧ (rangeBacked s i x.status 32 = true → instOwners s i x.status 32 = [] → instPoison s i x.status 32 = none →
            exec (.endEntryCommit i n) s = .next (resumeOps ((instWrite w i x.status (statusRecord n x)).setSub i n { x with st := .pending }))))
    ∧ (∀ dev vec, (waiterOf s dev vec = none → exec (.adapterMsix dev vec) s = .next { w with css := { s.css with
          adapterMsgs := kvSet s.css.adapterMsgs (dev * 2048 + vec) (kvGet 0 s.css.adapterMsgs (dev * 2048 + vec) + 1) } })
        ∧ (waiterOf s dev vec = some (i * 65536 + n) → x.exposes = [] → cceMore (curCce x) = false → (∀ p ∈ x.pieces, p.err = none) →
            x.onceOpen = false ∨ spaceForEntry s = true →
            ∃ u, exec (.adapterMsix dev vec) s = .next u ∧ ends u 0 0))
    ∧ (x.st = .active → cceCmd (curCce x) = 0x23 → x.pieces ≠ [] → ∃ u, exec (.waitintTimeout i n) s = .next u ∧ ends u 14 0x202
        ∧ u.clk.tb = reach (x.issueTb + cceCount (curCce x) * 100))
    ∧ (∀ dev wr len d, (∀ addr, exposeAt addr = none → exec (.adapterDma dev wr addr len d) s = .next { s with out := [.adapterUr dev] })
        ∧ (∀ addr k off e, exposeAt addr = some (i, n, k, off) → x.device = dev → x.st = .active ∨ x.st = .reissuing →
            (x.exposes.find? fun e => e.k == k && decide (off + (if wr then d.length else len) ≤ e.len)) = some e →
            instOwners s i (e.base + off) (if wr then d.length else len) = [] →
            (wr = false → instPoison s i (e.base + off) len = none →
              exec (.adapterDma dev wr addr len d) s
                = .next ((hubUse w i (e.base + off) len).emit (.adapterData dev (instRead s i (e.base + off) len))))
            ∧ (wr = true → d ≠ [] → ∃ u, exec (.adapterDma dev wr addr len d) s = .next u
                ∧ u.mem = (instWrite w i (e.base + off) d).mem ∧ u.out = (instWrite w i (e.base + off) d).out
                ∧ (u.sub i n).exposes = x.exposes.map fun y => if y.k = e.k then { y with written := addExtent y.written off d.length } else y)))
end

