-- ==== Sys2Proof/Laws/Tables.lean ====
section
/-! SUPPORT. Reading a keyed table after a write. -/

namespace Sys2Proof

variable {α : Type}

theorem kvFind_kvSet (t : KV α) (k j : Nat) (v : α) : kvFind (kvSet t k v) j = if k = j then some v else kvFind t j := by
  induction t with
  | nil => simp [kvSet, kvFind]
  | cons e r ih =>
    obtain ⟨k', v'⟩ := e
    unfold kvSet
    split
    · rename_i h
      simp only [kvFind, ih]
      split <;> split <;> first | rfl | omega
    · split
      · rename_i h; subst h
        simp only [kvFind]
        split <;> rfl
      · simp only [kvFind]

theorem kvGet_kvSet (d : α) (t : KV α) (k j : Nat) (v : α) :
    kvGet d (kvSet t k v) j = if k = j then v else kvGet d t j := by
  simp only [kvGet, kvFind_kvSet]
  split <;> rfl

theorem kvFind_kvMap (f : Nat → α → α) (t : KV α) (j : Nat) : kvFind (kvMap f t) j = (kvFind t j).map (f j) := by
  induction t with
  | nil => rfl
  | cons e r ih =>
    obtain ⟨k, v⟩ := e
    simp only [kvMap, List.map_cons, kvFind] at ih ⊢
    split
    · rename_i h; subst h; rfl
    · exact ih

theorem kvFind_kvDel (t : KV α) (k j : Nat) : kvFind (kvDel t k) j = if k = j then none else kvFind t j := by
  induction t with
  | nil => simp [kvDel, kvFind]
  | cons e r ih =>
    obtain ⟨k', v⟩ := e
    simp only [kvDel, List.filter_cons] at ih ⊢
    by_cases h : k' = k
    · subst h
      simp only [bne_self_eq_false, Bool.false_eq_true, if_false, ih, kvFind]
      split <;> rfl
    · simp only [bne_iff_ne, ne_eq, h, not_false_eq_true, if_true, kvFind, ih]
      split
      · split
        · omega
        · rfl
      · rfl

end Sys2Proof
end

