-- ==== Sys2Proof/Laws/State.lean ====
section
/-! SUPPORT. What each update of the state leaves in each field, and what is read back. -/

namespace Sys2Proof.Machine

open Sys2Proof

variable (s : State)

@[simp] theorem State.quiet_pending : s.quiet.pending = s.pending := rfl
@[simp] theorem State.quiet_variant : s.quiet.variant = s.variant := rfl
@[simp] theorem State.quiet_stepping : s.quiet.stepping = s.stepping := rfl
@[simp] theorem State.quiet_free : s.quiet.free = s.free := rfl
@[simp] theorem State.quiet_hp : s.quiet.hp = s.hp := rfl
@[simp] theorem State.quiet_insts : s.quiet.insts = s.insts := rfl
@[simp] theorem State.quiet_ves : s.quiet.ves = s.ves := rfl
@[simp] theorem State.quiet_engines : s.quiet.engines = s.engines := rfl
@[simp] theorem State.quiet_domes : s.quiet.domes = s.domes := rfl
@[simp] theorem State.quiet_mem : s.quiet.mem = s.mem := rfl
@[simp] theorem State.quiet_zeroing : s.quiet.zeroing = s.zeroing := rfl
@[simp] theorem State.quiet_css : s.quiet.css = s.css := rfl
@[simp] theorem State.quiet_pages : s.quiet.pages = s.pages := rfl
@[simp] theorem State.quiet_xce : s.quiet.xce = s.xce := rfl
@[simp] theorem State.quiet_cze : s.quiet.cze = s.cze := rfl
@[simp] theorem State.quiet_holds : s.quiet.holds = s.holds := rfl
@[simp] theorem State.quiet_img : s.quiet.img = s.img := rfl
@[simp] theorem State.quiet_bel : s.quiet.bel = s.bel := rfl
@[simp] theorem State.quiet_twin : s.quiet.twin = s.twin := rfl
@[simp] theorem State.quiet_spire : s.quiet.spire = s.spire := rfl
@[simp] theorem State.quiet_clk : s.quiet.clk = s.clk := rfl
@[simp] theorem State.quiet_tst : s.quiet.tst = s.tst := rfl

@[simp] theorem State.setVe_pending (k : Nat) (x : VE) : (s.setVe k x).pending = s.pending := rfl
@[simp] theorem State.setVe_out (k : Nat) (x : VE) : (s.setVe k x).out = s.out := rfl
@[simp] theorem State.setVe_variant (k : Nat) (x : VE) : (s.setVe k x).variant = s.variant := rfl
@[simp] theorem State.setVe_stepping (k : Nat) (x : VE) : (s.setVe k x).stepping = s.stepping := rfl
@[simp] theorem State.setVe_free (k : Nat) (x : VE) : (s.setVe k x).free = s.free := rfl
@[simp] theorem State.setVe_hp (k : Nat) (x : VE) : (s.setVe k x).hp = s.hp := rfl
@[simp] theorem State.setVe_insts (k : Nat) (x : VE) : (s.setVe k x).insts = s.insts := rfl
@[simp] theorem State.setVe_engines (k : Nat) (x : VE) : (s.setVe k x).engines = s.engines := rfl
@[simp] theorem State.setVe_domes (k : Nat) (x : VE) : (s.setVe k x).domes = s.domes := rfl
@[simp] theorem State.setVe_mem (k : Nat) (x : VE) : (s.setVe k x).mem = s.mem := rfl
@[simp] theorem State.setVe_zeroing (k : Nat) (x : VE) : (s.setVe k x).zeroing = s.zeroing := rfl
@[simp] theorem State.setVe_css (k : Nat) (x : VE) : (s.setVe k x).css = s.css := rfl
@[simp] theorem State.setVe_pages (k : Nat) (x : VE) : (s.setVe k x).pages = s.pages := rfl
@[simp] theorem State.setVe_xce (k : Nat) (x : VE) : (s.setVe k x).xce = s.xce := rfl
@[simp] theorem State.setVe_cze (k : Nat) (x : VE) : (s.setVe k x).cze = s.cze := rfl
@[simp] theorem State.setVe_holds (k : Nat) (x : VE) : (s.setVe k x).holds = s.holds := rfl
@[simp] theorem State.setVe_img (k : Nat) (x : VE) : (s.setVe k x).img = s.img := rfl
@[simp] theorem State.setVe_bel (k : Nat) (x : VE) : (s.setVe k x).bel = s.bel := rfl
@[simp] theorem State.setVe_twin (k : Nat) (x : VE) : (s.setVe k x).twin = s.twin := rfl
@[simp] theorem State.setVe_spire (k : Nat) (x : VE) : (s.setVe k x).spire = s.spire := rfl
@[simp] theorem State.setVe_clk (k : Nat) (x : VE) : (s.setVe k x).clk = s.clk := rfl
@[simp] theorem State.setVe_tst (k : Nat) (x : VE) : (s.setVe k x).tst = s.tst := rfl

@[simp] theorem State.updVe_pending (k : Nat) (f : VE → VE) : (s.updVe k f).pending = s.pending := rfl
@[simp] theorem State.updVe_out (k : Nat) (f : VE → VE) : (s.updVe k f).out = s.out := rfl
@[simp] theorem State.updVe_variant (k : Nat) (f : VE → VE) : (s.updVe k f).variant = s.variant := rfl
@[simp] theorem State.updVe_stepping (k : Nat) (f : VE → VE) : (s.updVe k f).stepping = s.stepping := rfl
@[simp] theorem State.updVe_free (k : Nat) (f : VE → VE) : (s.updVe k f).free = s.free := rfl
@[simp] theorem State.updVe_hp (k : Nat) (f : VE → VE) : (s.updVe k f).hp = s.hp := rfl
@[simp] theorem State.updVe_insts (k : Nat) (f : VE → VE) : (s.updVe k f).insts = s.insts := rfl
@[simp] theorem State.updVe_engines (k : Nat) (f : VE → VE) : (s.updVe k f).engines = s.engines := rfl
@[simp] theorem State.updVe_domes (k : Nat) (f : VE → VE) : (s.updVe k f).domes = s.domes := rfl
@[simp] theorem State.updVe_mem (k : Nat) (f : VE → VE) : (s.updVe k f).mem = s.mem := rfl
@[simp] theorem State.updVe_zeroing (k : Nat) (f : VE → VE) : (s.updVe k f).zeroing = s.zeroing := rfl
@[simp] theorem State.updVe_css (k : Nat) (f : VE → VE) : (s.updVe k f).css = s.css := rfl
@[simp] theorem State.updVe_pages (k : Nat) (f : VE → VE) : (s.updVe k f).pages = s.pages := rfl
@[simp] theorem State.updVe_xce (k : Nat) (f : VE → VE) : (s.updVe k f).xce = s.xce := rfl
@[simp] theorem State.updVe_cze (k : Nat) (f : VE → VE) : (s.updVe k f).cze = s.cze := rfl
@[simp] theorem State.updVe_holds (k : Nat) (f : VE → VE) : (s.updVe k f).holds = s.holds := rfl
@[simp] theorem State.updVe_img (k : Nat) (f : VE → VE) : (s.updVe k f).img = s.img := rfl
@[simp] theorem State.updVe_bel (k : Nat) (f : VE → VE) : (s.updVe k f).bel = s.bel := rfl
@[simp] theorem State.updVe_twin (k : Nat) (f : VE → VE) : (s.updVe k f).twin = s.twin := rfl
@[simp] theorem State.updVe_spire (k : Nat) (f : VE → VE) : (s.updVe k f).spire = s.spire := rfl
@[simp] theorem State.updVe_clk (k : Nat) (f : VE → VE) : (s.updVe k f).clk = s.clk := rfl
@[simp] theorem State.updVe_tst (k : Nat) (f : VE → VE) : (s.updVe k f).tst = s.tst := rfl

@[simp] theorem State.setCtx_pending (k : Nat) (c : Ctx) : (s.setCtx k c).pending = s.pending := rfl
@[simp] theorem State.setCtx_out (k : Nat) (c : Ctx) : (s.setCtx k c).out = s.out := rfl
@[simp] theorem State.setCtx_variant (k : Nat) (c : Ctx) : (s.setCtx k c).variant = s.variant := rfl
@[simp] theorem State.setCtx_stepping (k : Nat) (c : Ctx) : (s.setCtx k c).stepping = s.stepping := rfl
@[simp] theorem State.setCtx_free (k : Nat) (c : Ctx) : (s.setCtx k c).free = s.free := rfl
@[simp] theorem State.setCtx_hp (k : Nat) (c : Ctx) : (s.setCtx k c).hp = s.hp := rfl
@[simp] theorem State.setCtx_insts (k : Nat) (c : Ctx) : (s.setCtx k c).insts = s.insts := rfl
@[simp] theorem State.setCtx_engines (k : Nat) (c : Ctx) : (s.setCtx k c).engines = s.engines := rfl
@[simp] theorem State.setCtx_domes (k : Nat) (c : Ctx) : (s.setCtx k c).domes = s.domes := rfl
@[simp] theorem State.setCtx_mem (k : Nat) (c : Ctx) : (s.setCtx k c).mem = s.mem := rfl
@[simp] theorem State.setCtx_zeroing (k : Nat) (c : Ctx) : (s.setCtx k c).zeroing = s.zeroing := rfl
@[simp] theorem State.setCtx_css (k : Nat) (c : Ctx) : (s.setCtx k c).css = s.css := rfl
@[simp] theorem State.setCtx_pages (k : Nat) (c : Ctx) : (s.setCtx k c).pages = s.pages := rfl
@[simp] theorem State.setCtx_xce (k : Nat) (c : Ctx) : (s.setCtx k c).xce = s.xce := rfl
@[simp] theorem State.setCtx_cze (k : Nat) (c : Ctx) : (s.setCtx k c).cze = s.cze := rfl
@[simp] theorem State.setCtx_holds (k : Nat) (c : Ctx) : (s.setCtx k c).holds = s.holds := rfl
@[simp] theorem State.setCtx_img (k : Nat) (c : Ctx) : (s.setCtx k c).img = s.img := rfl
@[simp] theorem State.setCtx_bel (k : Nat) (c : Ctx) : (s.setCtx k c).bel = s.bel := rfl
@[simp] theorem State.setCtx_twin (k : Nat) (c : Ctx) : (s.setCtx k c).twin = s.twin := rfl
@[simp] theorem State.setCtx_spire (k : Nat) (c : Ctx) : (s.setCtx k c).spire = s.spire := rfl
@[simp] theorem State.setCtx_clk (k : Nat) (c : Ctx) : (s.setCtx k c).clk = s.clk := rfl
@[simp] theorem State.setCtx_tst (k : Nat) (c : Ctx) : (s.setCtx k c).tst = s.tst := rfl

@[simp] theorem State.setInst_pending (i : Nat) (x : Inst) : (s.setInst i x).pending = s.pending := rfl
@[simp] theorem State.setInst_out (i : Nat) (x : Inst) : (s.setInst i x).out = s.out := rfl
@[simp] theorem State.setInst_variant (i : Nat) (x : Inst) : (s.setInst i x).variant = s.variant := rfl
@[simp] theorem State.setInst_stepping (i : Nat) (x : Inst) : (s.setInst i x).stepping = s.stepping := rfl
@[simp] theorem State.setInst_free (i : Nat) (x : Inst) : (s.setInst i x).free = s.free := rfl
@[simp] theorem State.setInst_hp (i : Nat) (x : Inst) : (s.setInst i x).hp = s.hp := rfl
@[simp] theorem State.setInst_ves (i : Nat) (x : Inst) : (s.setInst i x).ves = s.ves := rfl
@[simp] theorem State.setInst_engines (i : Nat) (x : Inst) : (s.setInst i x).engines = s.engines := rfl
@[simp] theorem State.setInst_domes (i : Nat) (x : Inst) : (s.setInst i x).domes = s.domes := rfl
@[simp] theorem State.setInst_mem (i : Nat) (x : Inst) : (s.setInst i x).mem = s.mem := rfl
@[simp] theorem State.setInst_zeroing (i : Nat) (x : Inst) : (s.setInst i x).zeroing = s.zeroing := rfl
@[simp] theorem State.setInst_css (i : Nat) (x : Inst) : (s.setInst i x).css = s.css := rfl
@[simp] theorem State.setInst_pages (i : Nat) (x : Inst) : (s.setInst i x).pages = s.pages := rfl
@[simp] theorem State.setInst_xce (i : Nat) (x : Inst) : (s.setInst i x).xce = s.xce := rfl
@[simp] theorem State.setInst_cze (i : Nat) (x : Inst) : (s.setInst i x).cze = s.cze := rfl
@[simp] theorem State.setInst_holds (i : Nat) (x : Inst) : (s.setInst i x).holds = s.holds := rfl
@[simp] theorem State.setInst_img (i : Nat) (x : Inst) : (s.setInst i x).img = s.img := rfl
@[simp] theorem State.setInst_bel (i : Nat) (x : Inst) : (s.setInst i x).bel = s.bel := rfl
@[simp] theorem State.setInst_twin (i : Nat) (x : Inst) : (s.setInst i x).twin = s.twin := rfl
@[simp] theorem State.setInst_spire (i : Nat) (x : Inst) : (s.setInst i x).spire = s.spire := rfl
@[simp] theorem State.setInst_clk (i : Nat) (x : Inst) : (s.setInst i x).clk = s.clk := rfl
@[simp] theorem State.setInst_tst (i : Nat) (x : Inst) : (s.setInst i x).tst = s.tst := rfl

@[simp] theorem State.updInst_pending (i : Nat) (f : Inst → Inst) : (s.updInst i f).pending = s.pending := rfl
@[simp] theorem State.updInst_out (i : Nat) (f : Inst → Inst) : (s.updInst i f).out = s.out := rfl
@[simp] theorem State.updInst_variant (i : Nat) (f : Inst → Inst) : (s.updInst i f).variant = s.variant := rfl
@[simp] theorem State.updInst_stepping (i : Nat) (f : Inst → Inst) : (s.updInst i f).stepping = s.stepping := rfl
@[simp] theorem State.updInst_free (i : Nat) (f : Inst → Inst) : (s.updInst i f).free = s.free := rfl
@[simp] theorem State.updInst_hp (i : Nat) (f : Inst → Inst) : (s.updInst i f).hp = s.hp := rfl
@[simp] theorem State.updInst_ves (i : Nat) (f : Inst → Inst) : (s.updInst i f).ves = s.ves := rfl
@[simp] theorem State.updInst_engines (i : Nat) (f : Inst → Inst) : (s.updInst i f).engines = s.engines := rfl
@[simp] theorem State.updInst_domes (i : Nat) (f : Inst → Inst) : (s.updInst i f).domes = s.domes := rfl
@[simp] theorem State.updInst_mem (i : Nat) (f : Inst → Inst) : (s.updInst i f).mem = s.mem := rfl
@[simp] theorem State.updInst_zeroing (i : Nat) (f : Inst → Inst) : (s.updInst i f).zeroing = s.zeroing := rfl
@[simp] theorem State.updInst_css (i : Nat) (f : Inst → Inst) : (s.updInst i f).css = s.css := rfl
@[simp] theorem State.updInst_pages (i : Nat) (f : Inst → Inst) : (s.updInst i f).pages = s.pages := rfl
@[simp] theorem State.updInst_xce (i : Nat) (f : Inst → Inst) : (s.updInst i f).xce = s.xce := rfl
@[simp] theorem State.updInst_cze (i : Nat) (f : Inst → Inst) : (s.updInst i f).cze = s.cze := rfl
@[simp] theorem State.updInst_holds (i : Nat) (f : Inst → Inst) : (s.updInst i f).holds = s.holds := rfl
@[simp] theorem State.updInst_img (i : Nat) (f : Inst → Inst) : (s.updInst i f).img = s.img := rfl
@[simp] theorem State.updInst_bel (i : Nat) (f : Inst → Inst) : (s.updInst i f).bel = s.bel := rfl
@[simp] theorem State.updInst_twin (i : Nat) (f : Inst → Inst) : (s.updInst i f).twin = s.twin := rfl
@[simp] theorem State.updInst_spire (i : Nat) (f : Inst → Inst) : (s.updInst i f).spire = s.spire := rfl
@[simp] theorem State.updInst_clk (i : Nat) (f : Inst → Inst) : (s.updInst i f).clk = s.clk := rfl
@[simp] theorem State.updInst_tst (i : Nat) (f : Inst → Inst) : (s.updInst i f).tst = s.tst := rfl

@[simp] theorem State.setEng_pending (p : Nat) (e : Engine) : (s.setEng p e).pending = s.pending := rfl
@[simp] theorem State.setEng_out (p : Nat) (e : Engine) : (s.setEng p e).out = s.out := rfl
@[simp] theorem State.setEng_variant (p : Nat) (e : Engine) : (s.setEng p e).variant = s.variant := rfl
@[simp] theorem State.setEng_stepping (p : Nat) (e : Engine) : (s.setEng p e).stepping = s.stepping := rfl
@[simp] theorem State.setEng_free (p : Nat) (e : Engine) : (s.setEng p e).free = s.free := rfl
@[simp] theorem State.setEng_hp (p : Nat) (e : Engine) : (s.setEng p e).hp = s.hp := rfl
@[simp] theorem State.setEng_insts (p : Nat) (e : Engine) : (s.setEng p e).insts = s.insts := rfl
@[simp] theorem State.setEng_ves (p : Nat) (e : Engine) : (s.setEng p e).ves = s.ves := rfl
@[simp] theorem State.setEng_domes (p : Nat) (e : Engine) : (s.setEng p e).domes = s.domes := rfl
@[simp] theorem State.setEng_mem (p : Nat) (e : Engine) : (s.setEng p e).mem = s.mem := rfl
@[simp] theorem State.setEng_zeroing (p : Nat) (e : Engine) : (s.setEng p e).zeroing = s.zeroing := rfl
@[simp] theorem State.setEng_css (p : Nat) (e : Engine) : (s.setEng p e).css = s.css := rfl
@[simp] theorem State.setEng_pages (p : Nat) (e : Engine) : (s.setEng p e).pages = s.pages := rfl
@[simp] theorem State.setEng_xce (p : Nat) (e : Engine) : (s.setEng p e).xce = s.xce := rfl
@[simp] theorem State.setEng_cze (p : Nat) (e : Engine) : (s.setEng p e).cze = s.cze := rfl
@[simp] theorem State.setEng_holds (p : Nat) (e : Engine) : (s.setEng p e).holds = s.holds := rfl
@[simp] theorem State.setEng_img (p : Nat) (e : Engine) : (s.setEng p e).img = s.img := rfl
@[simp] theorem State.setEng_bel (p : Nat) (e : Engine) : (s.setEng p e).bel = s.bel := rfl
@[simp] theorem State.setEng_twin (p : Nat) (e : Engine) : (s.setEng p e).twin = s.twin := rfl
@[simp] theorem State.setEng_spire (p : Nat) (e : Engine) : (s.setEng p e).spire = s.spire := rfl
@[simp] theorem State.setEng_clk (p : Nat) (e : Engine) : (s.setEng p e).clk = s.clk := rfl
@[simp] theorem State.setEng_tst (p : Nat) (e : Engine) : (s.setEng p e).tst = s.tst := rfl

@[simp] theorem State.updEng_pending (p : Nat) (f : Engine → Engine) : (s.updEng p f).pending = s.pending := rfl
@[simp] theorem State.updEng_out (p : Nat) (f : Engine → Engine) : (s.updEng p f).out = s.out := rfl
@[simp] theorem State.updEng_variant (p : Nat) (f : Engine → Engine) : (s.updEng p f).variant = s.variant := rfl
@[simp] theorem State.updEng_stepping (p : Nat) (f : Engine → Engine) : (s.updEng p f).stepping = s.stepping := rfl
@[simp] theorem State.updEng_free (p : Nat) (f : Engine → Engine) : (s.updEng p f).free = s.free := rfl
@[simp] theorem State.updEng_hp (p : Nat) (f : Engine → Engine) : (s.updEng p f).hp = s.hp := rfl
@[simp] theorem State.updEng_insts (p : Nat) (f : Engine → Engine) : (s.updEng p f).insts = s.insts := rfl
@[simp] theorem State.updEng_ves (p : Nat) (f : Engine → Engine) : (s.updEng p f).ves = s.ves := rfl
@[simp] theorem State.updEng_domes (p : Nat) (f : Engine → Engine) : (s.updEng p f).domes = s.domes := rfl
@[simp] theorem State.updEng_mem (p : Nat) (f : Engine → Engine) : (s.updEng p f).mem = s.mem := rfl
@[simp] theorem State.updEng_zeroing (p : Nat) (f : Engine → Engine) : (s.updEng p f).zeroing = s.zeroing := rfl
@[simp] theorem State.updEng_css (p : Nat) (f : Engine → Engine) : (s.updEng p f).css = s.css := rfl
@[simp] theorem State.updEng_pages (p : Nat) (f : Engine → Engine) : (s.updEng p f).pages = s.pages := rfl
@[simp] theorem State.updEng_xce (p : Nat) (f : Engine → Engine) : (s.updEng p f).xce = s.xce := rfl
@[simp] theorem State.updEng_cze (p : Nat) (f : Engine → Engine) : (s.updEng p f).cze = s.cze := rfl
@[simp] theorem State.updEng_holds (p : Nat) (f : Engine → Engine) : (s.updEng p f).holds = s.holds := rfl
@[simp] theorem State.updEng_img (p : Nat) (f : Engine → Engine) : (s.updEng p f).img = s.img := rfl
@[simp] theorem State.updEng_bel (p : Nat) (f : Engine → Engine) : (s.updEng p f).bel = s.bel := rfl
@[simp] theorem State.updEng_twin (p : Nat) (f : Engine → Engine) : (s.updEng p f).twin = s.twin := rfl
@[simp] theorem State.updEng_spire (p : Nat) (f : Engine → Engine) : (s.updEng p f).spire = s.spire := rfl
@[simp] theorem State.updEng_clk (p : Nat) (f : Engine → Engine) : (s.updEng p f).clk = s.clk := rfl
@[simp] theorem State.updEng_tst (p : Nat) (f : Engine → Engine) : (s.updEng p f).tst = s.tst := rfl

@[simp] theorem State.setDome_pending (t : Nat) (d : Dome) : (s.setDome t d).pending = s.pending := rfl
@[simp] theorem State.setDome_out (t : Nat) (d : Dome) : (s.setDome t d).out = s.out := rfl
@[simp] theorem State.setDome_variant (t : Nat) (d : Dome) : (s.setDome t d).variant = s.variant := rfl
@[simp] theorem State.setDome_stepping (t : Nat) (d : Dome) : (s.setDome t d).stepping = s.stepping := rfl
@[simp] theorem State.setDome_free (t : Nat) (d : Dome) : (s.setDome t d).free = s.free := rfl
@[simp] theorem State.setDome_hp (t : Nat) (d : Dome) : (s.setDome t d).hp = s.hp := rfl
@[simp] theorem State.setDome_insts (t : Nat) (d : Dome) : (s.setDome t d).insts = s.insts := rfl
@[simp] theorem State.setDome_ves (t : Nat) (d : Dome) : (s.setDome t d).ves = s.ves := rfl
@[simp] theorem State.setDome_engines (t : Nat) (d : Dome) : (s.setDome t d).engines = s.engines := rfl
@[simp] theorem State.setDome_mem (t : Nat) (d : Dome) : (s.setDome t d).mem = s.mem := rfl
@[simp] theorem State.setDome_zeroing (t : Nat) (d : Dome) : (s.setDome t d).zeroing = s.zeroing := rfl
@[simp] theorem State.setDome_css (t : Nat) (d : Dome) : (s.setDome t d).css = s.css := rfl
@[simp] theorem State.setDome_pages (t : Nat) (d : Dome) : (s.setDome t d).pages = s.pages := rfl
@[simp] theorem State.setDome_xce (t : Nat) (d : Dome) : (s.setDome t d).xce = s.xce := rfl
@[simp] theorem State.setDome_cze (t : Nat) (d : Dome) : (s.setDome t d).cze = s.cze := rfl
@[simp] theorem State.setDome_holds (t : Nat) (d : Dome) : (s.setDome t d).holds = s.holds := rfl
@[simp] theorem State.setDome_img (t : Nat) (d : Dome) : (s.setDome t d).img = s.img := rfl
@[simp] theorem State.setDome_bel (t : Nat) (d : Dome) : (s.setDome t d).bel = s.bel := rfl
@[simp] theorem State.setDome_twin (t : Nat) (d : Dome) : (s.setDome t d).twin = s.twin := rfl
@[simp] theorem State.setDome_spire (t : Nat) (d : Dome) : (s.setDome t d).spire = s.spire := rfl
@[simp] theorem State.setDome_clk (t : Nat) (d : Dome) : (s.setDome t d).clk = s.clk := rfl
@[simp] theorem State.setDome_tst (t : Nat) (d : Dome) : (s.setDome t d).tst = s.tst := rfl

@[simp] theorem State.updDome_pending (t : Nat) (f : Dome → Dome) : (s.updDome t f).pending = s.pending := rfl
@[simp] theorem State.updDome_out (t : Nat) (f : Dome → Dome) : (s.updDome t f).out = s.out := rfl
@[simp] theorem State.updDome_variant (t : Nat) (f : Dome → Dome) : (s.updDome t f).variant = s.variant := rfl
@[simp] theorem State.updDome_stepping (t : Nat) (f : Dome → Dome) : (s.updDome t f).stepping = s.stepping := rfl
@[simp] theorem State.updDome_free (t : Nat) (f : Dome → Dome) : (s.updDome t f).free = s.free := rfl
@[simp] theorem State.updDome_hp (t : Nat) (f : Dome → Dome) : (s.updDome t f).hp = s.hp := rfl
@[simp] theorem State.updDome_insts (t : Nat) (f : Dome → Dome) : (s.updDome t f).insts = s.insts := rfl
@[simp] theorem State.updDome_ves (t : Nat) (f : Dome → Dome) : (s.updDome t f).ves = s.ves := rfl
@[simp] theorem State.updDome_engines (t : Nat) (f : Dome → Dome) : (s.updDome t f).engines = s.engines := rfl
@[simp] theorem State.updDome_mem (t : Nat) (f : Dome → Dome) : (s.updDome t f).mem = s.mem := rfl
@[simp] theorem State.updDome_zeroing (t : Nat) (f : Dome → Dome) : (s.updDome t f).zeroing = s.zeroing := rfl
@[simp] theorem State.updDome_css (t : Nat) (f : Dome → Dome) : (s.updDome t f).css = s.css := rfl
@[simp] theorem State.updDome_pages (t : Nat) (f : Dome → Dome) : (s.updDome t f).pages = s.pages := rfl
@[simp] theorem State.updDome_xce (t : Nat) (f : Dome → Dome) : (s.updDome t f).xce = s.xce := rfl
@[simp] theorem State.updDome_cze (t : Nat) (f : Dome → Dome) : (s.updDome t f).cze = s.cze := rfl
@[simp] theorem State.updDome_holds (t : Nat) (f : Dome → Dome) : (s.updDome t f).holds = s.holds := rfl
@[simp] theorem State.updDome_img (t : Nat) (f : Dome → Dome) : (s.updDome t f).img = s.img := rfl
@[simp] theorem State.updDome_bel (t : Nat) (f : Dome → Dome) : (s.updDome t f).bel = s.bel := rfl
@[simp] theorem State.updDome_twin (t : Nat) (f : Dome → Dome) : (s.updDome t f).twin = s.twin := rfl
@[simp] theorem State.updDome_spire (t : Nat) (f : Dome → Dome) : (s.updDome t f).spire = s.spire := rfl
@[simp] theorem State.updDome_clk (t : Nat) (f : Dome → Dome) : (s.updDome t f).clk = s.clk := rfl
@[simp] theorem State.updDome_tst (t : Nat) (f : Dome → Dome) : (s.updDome t f).tst = s.tst := rfl

@[simp] theorem State.setFn_pending (n : Nat) (f : Fn) : (s.setFn n f).pending = s.pending := rfl
@[simp] theorem State.setFn_out (n : Nat) (f : Fn) : (s.setFn n f).out = s.out := rfl
@[simp] theorem State.setFn_variant (n : Nat) (f : Fn) : (s.setFn n f).variant = s.variant := rfl
@[simp] theorem State.setFn_stepping (n : Nat) (f : Fn) : (s.setFn n f).stepping = s.stepping := rfl
@[simp] theorem State.setFn_free (n : Nat) (f : Fn) : (s.setFn n f).free = s.free := rfl
@[simp] theorem State.setFn_insts (n : Nat) (f : Fn) : (s.setFn n f).insts = s.insts := rfl
@[simp] theorem State.setFn_ves (n : Nat) (f : Fn) : (s.setFn n f).ves = s.ves := rfl
@[simp] theorem State.setFn_engines (n : Nat) (f : Fn) : (s.setFn n f).engines = s.engines := rfl
@[simp] theorem State.setFn_domes (n : Nat) (f : Fn) : (s.setFn n f).domes = s.domes := rfl
@[simp] theorem State.setFn_mem (n : Nat) (f : Fn) : (s.setFn n f).mem = s.mem := rfl
@[simp] theorem State.setFn_zeroing (n : Nat) (f : Fn) : (s.setFn n f).zeroing = s.zeroing := rfl
@[simp] theorem State.setFn_css (n : Nat) (f : Fn) : (s.setFn n f).css = s.css := rfl
@[simp] theorem State.setFn_pages (n : Nat) (f : Fn) : (s.setFn n f).pages = s.pages := rfl
@[simp] theorem State.setFn_xce (n : Nat) (f : Fn) : (s.setFn n f).xce = s.xce := rfl
@[simp] theorem State.setFn_cze (n : Nat) (f : Fn) : (s.setFn n f).cze = s.cze := rfl
@[simp] theorem State.setFn_holds (n : Nat) (f : Fn) : (s.setFn n f).holds = s.holds := rfl
@[simp] theorem State.setFn_img (n : Nat) (f : Fn) : (s.setFn n f).img = s.img := rfl
@[simp] theorem State.setFn_bel (n : Nat) (f : Fn) : (s.setFn n f).bel = s.bel := rfl
@[simp] theorem State.setFn_twin (n : Nat) (f : Fn) : (s.setFn n f).twin = s.twin := rfl
@[simp] theorem State.setFn_spire (n : Nat) (f : Fn) : (s.setFn n f).spire = s.spire := rfl
@[simp] theorem State.setFn_clk (n : Nat) (f : Fn) : (s.setFn n f).clk = s.clk := rfl
@[simp] theorem State.setFn_tst (n : Nat) (f : Fn) : (s.setFn n f).tst = s.tst := rfl

@[simp] theorem State.setSub_pending (i n : Nat) (x : Sub) : (s.setSub i n x).pending = s.pending := rfl
@[simp] theorem State.setSub_out (i n : Nat) (x : Sub) : (s.setSub i n x).out = s.out := rfl
@[simp] theorem State.setSub_variant (i n : Nat) (x : Sub) : (s.setSub i n x).variant = s.variant := rfl
@[simp] theorem State.setSub_stepping (i n : Nat) (x : Sub) : (s.setSub i n x).stepping = s.stepping := rfl
@[simp] theorem State.setSub_free (i n : Nat) (x : Sub) : (s.setSub i n x).free = s.free := rfl
@[simp] theorem State.setSub_hp (i n : Nat) (x : Sub) : (s.setSub i n x).hp = s.hp := rfl
@[simp] theorem State.setSub_insts (i n : Nat) (x : Sub) : (s.setSub i n x).insts = s.insts := rfl
@[simp] theorem State.setSub_ves (i n : Nat) (x : Sub) : (s.setSub i n x).ves = s.ves := rfl
@[simp] theorem State.setSub_engines (i n : Nat) (x : Sub) : (s.setSub i n x).engines = s.engines := rfl
@[simp] theorem State.setSub_domes (i n : Nat) (x : Sub) : (s.setSub i n x).domes = s.domes := rfl
@[simp] theorem State.setSub_mem (i n : Nat) (x : Sub) : (s.setSub i n x).mem = s.mem := rfl
@[simp] theorem State.setSub_zeroing (i n : Nat) (x : Sub) : (s.setSub i n x).zeroing = s.zeroing := rfl
@[simp] theorem State.setSub_pages (i n : Nat) (x : Sub) : (s.setSub i n x).pages = s.pages := rfl
@[simp] theorem State.setSub_xce (i n : Nat) (x : Sub) : (s.setSub i n x).xce = s.xce := rfl
@[simp] theorem State.setSub_cze (i n : Nat) (x : Sub) : (s.setSub i n x).cze = s.cze := rfl
@[simp] theorem State.setSub_holds (i n : Nat) (x : Sub) : (s.setSub i n x).holds = s.holds := rfl
@[simp] theorem State.setSub_img (i n : Nat) (x : Sub) : (s.setSub i n x).img = s.img := rfl
@[simp] theorem State.setSub_bel (i n : Nat) (x : Sub) : (s.setSub i n x).bel = s.bel := rfl
@[simp] theorem State.setSub_twin (i n : Nat) (x : Sub) : (s.setSub i n x).twin = s.twin := rfl
@[simp] theorem State.setSub_spire (i n : Nat) (x : Sub) : (s.setSub i n x).spire = s.spire := rfl
@[simp] theorem State.setSub_clk (i n : Nat) (x : Sub) : (s.setSub i n x).clk = s.clk := rfl
@[simp] theorem State.setSub_tst (i n : Nat) (x : Sub) : (s.setSub i n x).tst = s.tst := rfl

@[simp] theorem State.setPage_pending (n : Nat) (x : Page) : (s.setPage n x).pending = s.pending := rfl
@[simp] theorem State.setPage_out (n : Nat) (x : Page) : (s.setPage n x).out = s.out := rfl
@[simp] theorem State.setPage_variant (n : Nat) (x : Page) : (s.setPage n x).variant = s.variant := rfl
@[simp] theorem State.setPage_stepping (n : Nat) (x : Page) : (s.setPage n x).stepping = s.stepping := rfl
@[simp] theorem State.setPage_free (n : Nat) (x : Page) : (s.setPage n x).free = s.free := rfl
@[simp] theorem State.setPage_hp (n : Nat) (x : Page) : (s.setPage n x).hp = s.hp := rfl
@[simp] theorem State.setPage_insts (n : Nat) (x : Page) : (s.setPage n x).insts = s.insts := rfl
@[simp] theorem State.setPage_ves (n : Nat) (x : Page) : (s.setPage n x).ves = s.ves := rfl
@[simp] theorem State.setPage_engines (n : Nat) (x : Page) : (s.setPage n x).engines = s.engines := rfl
@[simp] theorem State.setPage_domes (n : Nat) (x : Page) : (s.setPage n x).domes = s.domes := rfl
@[simp] theorem State.setPage_mem (n : Nat) (x : Page) : (s.setPage n x).mem = s.mem := rfl
@[simp] theorem State.setPage_zeroing (n : Nat) (x : Page) : (s.setPage n x).zeroing = s.zeroing := rfl
@[simp] theorem State.setPage_css (n : Nat) (x : Page) : (s.setPage n x).css = s.css := rfl
@[simp] theorem State.setPage_xce (n : Nat) (x : Page) : (s.setPage n x).xce = s.xce := rfl
@[simp] theorem State.setPage_cze (n : Nat) (x : Page) : (s.setPage n x).cze = s.cze := rfl
@[simp] theorem State.setPage_holds (n : Nat) (x : Page) : (s.setPage n x).holds = s.holds := rfl
@[simp] theorem State.setPage_img (n : Nat) (x : Page) : (s.setPage n x).img = s.img := rfl
@[simp] theorem State.setPage_bel (n : Nat) (x : Page) : (s.setPage n x).bel = s.bel := rfl
@[simp] theorem State.setPage_twin (n : Nat) (x : Page) : (s.setPage n x).twin = s.twin := rfl
@[simp] theorem State.setPage_spire (n : Nat) (x : Page) : (s.setPage n x).spire = s.spire := rfl
@[simp] theorem State.setPage_clk (n : Nat) (x : Page) : (s.setPage n x).clk = s.clk := rfl
@[simp] theorem State.setPage_tst (n : Nat) (x : Page) : (s.setPage n x).tst = s.tst := rfl

@[simp] theorem State.setSlot_pending (g n : Nat) (x : Slot) : (s.setSlot g n x).pending = s.pending := rfl
@[simp] theorem State.setSlot_out (g n : Nat) (x : Slot) : (s.setSlot g n x).out = s.out := rfl
@[simp] theorem State.setSlot_variant (g n : Nat) (x : Slot) : (s.setSlot g n x).variant = s.variant := rfl
@[simp] theorem State.setSlot_stepping (g n : Nat) (x : Slot) : (s.setSlot g n x).stepping = s.stepping := rfl
@[simp] theorem State.setSlot_free (g n : Nat) (x : Slot) : (s.setSlot g n x).free = s.free := rfl
@[simp] theorem State.setSlot_hp (g n : Nat) (x : Slot) : (s.setSlot g n x).hp = s.hp := rfl
@[simp] theorem State.setSlot_insts (g n : Nat) (x : Slot) : (s.setSlot g n x).insts = s.insts := rfl
@[simp] theorem State.setSlot_ves (g n : Nat) (x : Slot) : (s.setSlot g n x).ves = s.ves := rfl
@[simp] theorem State.setSlot_engines (g n : Nat) (x : Slot) : (s.setSlot g n x).engines = s.engines := rfl
@[simp] theorem State.setSlot_domes (g n : Nat) (x : Slot) : (s.setSlot g n x).domes = s.domes := rfl
@[simp] theorem State.setSlot_mem (g n : Nat) (x : Slot) : (s.setSlot g n x).mem = s.mem := rfl
@[simp] theorem State.setSlot_zeroing (g n : Nat) (x : Slot) : (s.setSlot g n x).zeroing = s.zeroing := rfl
@[simp] theorem State.setSlot_css (g n : Nat) (x : Slot) : (s.setSlot g n x).css = s.css := rfl
@[simp] theorem State.setSlot_xce (g n : Nat) (x : Slot) : (s.setSlot g n x).xce = s.xce := rfl
@[simp] theorem State.setSlot_cze (g n : Nat) (x : Slot) : (s.setSlot g n x).cze = s.cze := rfl
@[simp] theorem State.setSlot_holds (g n : Nat) (x : Slot) : (s.setSlot g n x).holds = s.holds := rfl
@[simp] theorem State.setSlot_img (g n : Nat) (x : Slot) : (s.setSlot g n x).img = s.img := rfl
@[simp] theorem State.setSlot_bel (g n : Nat) (x : Slot) : (s.setSlot g n x).bel = s.bel := rfl
@[simp] theorem State.setSlot_twin (g n : Nat) (x : Slot) : (s.setSlot g n x).twin = s.twin := rfl
@[simp] theorem State.setSlot_spire (g n : Nat) (x : Slot) : (s.setSlot g n x).spire = s.spire := rfl
@[simp] theorem State.setSlot_clk (g n : Nat) (x : Slot) : (s.setSlot g n x).clk = s.clk := rfl
@[simp] theorem State.setSlot_tst (g n : Nat) (x : Slot) : (s.setSlot g n x).tst = s.tst := rfl

@[simp] theorem State.emit_pending (o : Output) : (s.emit o).pending = s.pending := rfl
@[simp] theorem State.emit_variant (o : Output) : (s.emit o).variant = s.variant := rfl
@[simp] theorem State.emit_stepping (o : Output) : (s.emit o).stepping = s.stepping := rfl
@[simp] theorem State.emit_free (o : Output) : (s.emit o).free = s.free := rfl
@[simp] theorem State.emit_hp (o : Output) : (s.emit o).hp = s.hp := rfl
@[simp] theorem State.emit_insts (o : Output) : (s.emit o).insts = s.insts := rfl
@[simp] theorem State.emit_ves (o : Output) : (s.emit o).ves = s.ves := rfl
@[simp] theorem State.emit_engines (o : Output) : (s.emit o).engines = s.engines := rfl
@[simp] theorem State.emit_domes (o : Output) : (s.emit o).domes = s.domes := rfl
@[simp] theorem State.emit_mem (o : Output) : (s.emit o).mem = s.mem := rfl
@[simp] theorem State.emit_zeroing (o : Output) : (s.emit o).zeroing = s.zeroing := rfl
@[simp] theorem State.emit_css (o : Output) : (s.emit o).css = s.css := rfl
@[simp] theorem State.emit_pages (o : Output) : (s.emit o).pages = s.pages := rfl
@[simp] theorem State.emit_xce (o : Output) : (s.emit o).xce = s.xce := rfl
@[simp] theorem State.emit_cze (o : Output) : (s.emit o).cze = s.cze := rfl
@[simp] theorem State.emit_holds (o : Output) : (s.emit o).holds = s.holds := rfl
@[simp] theorem State.emit_img (o : Output) : (s.emit o).img = s.img := rfl
@[simp] theorem State.emit_bel (o : Output) : (s.emit o).bel = s.bel := rfl
@[simp] theorem State.emit_twin (o : Output) : (s.emit o).twin = s.twin := rfl
@[simp] theorem State.emit_spire (o : Output) : (s.emit o).spire = s.spire := rfl
@[simp] theorem State.emit_clk (o : Output) : (s.emit o).clk = s.clk := rfl
@[simp] theorem State.emit_tst (o : Output) : (s.emit o).tst = s.tst := rfl

@[simp] theorem State.quiet_out : s.quiet.out = [] := rfl
@[simp] theorem State.emit_out (o : Output) : (s.emit o).out = s.out ++ [o] := rfl
@[simp] theorem State.quiet_quiet : s.quiet.quiet = s.quiet := rfl

theorem State.ve_setVe (k j : Nat) (x : VE) : (s.setVe k x).ve j = if k = j then x else s.ve j := by
  simp [State.ve, State.setVe, kvGet_kvSet]

@[simp] theorem State.ve_setVe_same (k : Nat) (x : VE) : (s.setVe k x).ve k = x := by
  simp [State.ve_setVe]

theorem State.inst_setInst (k j : Nat) (x : Inst) : (s.setInst k x).inst j = if k = j then x else s.inst j := by
  simp [State.inst, State.setInst, kvGet_kvSet]

@[simp] theorem State.inst_setInst_same (k : Nat) (x : Inst) : (s.setInst k x).inst k = x := by
  simp [State.inst_setInst]

theorem State.eng_setEng (k j : Nat) (x : Engine) : (s.setEng k x).eng j = if k = j then x else s.eng j := by
  simp [State.eng, State.setEng, kvGet_kvSet]

@[simp] theorem State.eng_setEng_same (k : Nat) (x : Engine) : (s.setEng k x).eng k = x := by
  simp [State.eng_setEng]

theorem State.dome_setDome (k j : Nat) (x : Dome) : (s.setDome k x).dome j = if k = j then x else s.dome j := by
  simp [State.dome, State.setDome, kvGet_kvSet]

@[simp] theorem State.dome_setDome_same (k : Nat) (x : Dome) : (s.setDome k x).dome k = x := by
  simp [State.dome_setDome]

theorem State.page_setPage (k j : Nat) (x : Page) : (s.setPage k x).page j = if k = j then x else s.page j := by
  simp [State.page, State.setPage, kvGet_kvSet]

@[simp] theorem State.page_setPage_same (k : Nat) (x : Page) : (s.setPage k x).page k = x := by
  simp [State.page_setPage]

theorem State.fn_setFn (n m : Nat) (f : Fn) : (s.setFn n f).fn m = if n = m then f else s.fn m := by
  simp [State.fn, State.setFn, kvGet_kvSet]

@[simp] theorem State.fn_setFn_same (n : Nat) (f : Fn) : (s.setFn n f).fn n = f := by
  simp [State.fn_setFn]

theorem State.ctx_setCtx (k j : Nat) (c : Ctx) : (s.setCtx k c).ctx j = if k = j then c else s.ctx j := by
  unfold State.setCtx State.ctx
  rw [State.ve_setVe]
  split <;> rfl

@[simp] theorem State.ctx_setCtx_same (k : Nat) (c : Ctx) : (s.setCtx k c).ctx k = c := by
  simp [State.ctx_setCtx]

@[simp] theorem State.ve_updVe_same (k : Nat) (f : VE → VE) : (s.updVe k f).ve k = f (s.ve k) := by
  simp [State.updVe]

@[simp] theorem State.quiet_ve (k : Nat) : s.quiet.ve k = s.ve k := rfl
@[simp] theorem State.quiet_ctx (k : Nat) : s.quiet.ctx k = s.ctx k := rfl
@[simp] theorem State.quiet_inst (k : Nat) : s.quiet.inst k = s.inst k := rfl
@[simp] theorem State.quiet_eng (k : Nat) : s.quiet.eng k = s.eng k := rfl
@[simp] theorem State.quiet_dome (k : Nat) : s.quiet.dome k = s.dome k := rfl
@[simp] theorem State.quiet_fn (k : Nat) : s.quiet.fn k = s.fn k := rfl
@[simp] theorem State.quiet_page (k : Nat) : s.quiet.page k = s.page k := rfl

end Sys2Proof.Machine
end

