-- ==== Sys2Proof/Laws/Instr.lean ====
section
/-! SUPPORT. The frame of an Olisy instruction, once it is fetched: what its body's answer makes of it. -/

namespace Sys2Proof.Machine

open Sys2Proof

variable {s t : State} {p k n : Nat}

theorem instr_fetched (h : Fetched s p k n t) {priv : Bool} (hp : (priv && (s.ctx k).sb bPS) = false)
    (body : State → Nat → Except Stop Done) :
    instr s p n priv body = .next (match body t k with
      | .error e => stopBody t k n e
      | .ok d =>
        let u := if d.moved then d.s else advance d.s k n
        match d.trap with
        | some x => raiseProg u k x.1 n x.2 none
        | none => u) := by
  obtain ⟨h1, h2⟩ := h
  unfold instr
  simp only [h1, h2, State.quiet_ctx, hp, Bool.false_eq_true, if_false]
  cases body t k with
  | error e => rfl
  | ok d =>
    obtain ⟨u, tr, m⟩ := d
    cases tr <;> rfl

theorem instr_privileged (h : Fetched s p k n t) (hp : (s.ctx k).sb bPS = true) (body : State → Nat → Except Stop Done) :
    instr s p n true body = .next (nullify t k n 0x102) := by
  obtain ⟨h1, h2⟩ := h
  unfold instr
  simp only [h1, h2, State.quiet_ctx, hp, Bool.true_and, if_true]
  rfl

/-- How an instruction on registers alone ends. -/
def regEnd (t : State) (k n : Nat) (r : RegRes) : State :=
  match r with
  | .ok c => retire t k n { c with micro := (t.ctx k).micro }
  | .trap c code fp => retireTrap t k n code fp { c with micro := (t.ctx k).micro }
  | .exc code => nullify t k n code

theorem regInstr_fetched (h : Fetched s p k n t) (f : Ctx → RegRes) :
    regInstr s p n false f = .next (regEnd t k n (f (t.resumeCtx k))) := by
  unfold regInstr
  rw [instr_fetched h rfl]
  simp only
  cases f (t.resumeCtx k) <;> rfl

@[simp] theorem resumeCtx_g (t : State) (k : Nat) : (t.resumeCtx k).g = (t.ctx k).g := by unfold State.resumeCtx; dsimp only; split <;> rfl
@[simp] theorem resumeCtx_f (t : State) (k : Nat) : (t.resumeCtx k).f = (t.ctx k).f := by unfold State.resumeCtx; dsimp only; split <;> rfl
@[simp] theorem resumeCtx_da (t : State) (k : Nat) : (t.resumeCtx k).da = (t.ctx k).da := by unfold State.resumeCtx; dsimp only; split <;> rfl
@[simp] theorem resumeCtx_ia (t : State) (k : Nat) : (t.resumeCtx k).ia = (t.ctx k).ia := by unfold State.resumeCtx; dsimp only; split <;> rfl
@[simp] theorem resumeCtx_psw (t : State) (k : Nat) : (t.resumeCtx k).psw = (t.ctx k).psw := by unfold State.resumeCtx; dsimp only; split <;> rfl
@[simp] theorem resumeCtx_k (t : State) (k : Nat) : (t.resumeCtx k).k = (t.ctx k).k := by unfold State.resumeCtx; dsimp only; split <;> rfl
@[simp] theorem resumeCtx_fpcr (t : State) (k : Nat) : (t.resumeCtx k).fpcr = (t.ctx k).fpcr := by unfold State.resumeCtx; dsimp only; split <;> rfl

end Sys2Proof.Machine
end

