-- ==== Sys2Proof/Laws/Memory.lean ====
section
/-! SUPPORT. The stores: reading after a write, and the canonical form kept. -/

namespace Sys2Proof.Machine

open Sys2Proof

theorem cellFind_below : ∀ (c : List Host.Cell) (a : Nat), Memory.wf c = true → (∀ e ∈ c.head?, a < e.1) → cellFind c a = 0
  | [], _, _, _ => rfl
  | [(k, b)], a, _, h => by
    have : a < k := h (k, b) rfl
    simp [cellFind]; omega
  | (k, b) :: (k', b') :: r, a, hw, h => by
    have h1 : a < k := h (k, b) rfl
    simp only [Memory.wf, Bool.and_eq_true, decide_eq_true_eq] at hw
    have := cellFind_below ((k', b') :: r) a hw.2 (by intro e he; cases he; show a < k'; omega)
    rw [cellFind]
    split
    · omega
    · exact this

theorem cellFind_cellSet : ∀ (c : List Host.Cell) (a x : Nat) (b : Byte), Memory.wf c = true →
    cellFind (cellSet c a b) x = if a = x then b else cellFind c x
  | [], a, x, b, _ => by
    unfold cellSet
    split
    · rename_i h; subst h; simp [cellFind]
    · simp [cellFind]
  | (k, y) :: r, a, x, b, hw => by
    have hr : Memory.wf r = true := by
      cases r with
      | nil => rfl
      | cons e r => simp only [Memory.wf, Bool.and_eq_true] at hw; exact hw.2
    have below (z : Nat) (hz : z ≤ k) : cellFind r z = 0 := by
      apply cellFind_below r z hr
      intro e he
      cases r with
      | nil => cases he
      | cons e' r =>
        cases he
        simp only [Memory.wf, Bool.and_eq_true, decide_eq_true_eq] at hw
        have := hw.1.1
        omega
    unfold cellSet
    split
    · simp only [cellFind, cellFind_cellSet r a x b hr]
      split <;> split <;> first | rfl | omega
    · split
      · rename_i h; subst h
        split
        · rename_i h; subst h
          by_cases hx : k = x
          · subst hx; simp [below k (Nat.le_refl _)]
          · simp [hx, cellFind]
        · simp only [cellFind]; split <;> rfl
      · split
        · rename_i h; subst h
          by_cases hx : a = x
          · subst hx
            rw [if_pos rfl, cellFind]
            split
            · omega
            · exact below a (by omega)
          · simp [hx]
        · simp only [cellFind]

/-- A write keeps the canonical form, and puts no address before both its own and the first. -/
theorem wf_cellSet : ∀ (c : List Host.Cell) (a : Nat) (b : Byte), Memory.wf c = true →
    Memory.wf (cellSet c a b) = true ∧ ∀ m, m < a → (∀ e ∈ c.head?, m < e.1) → ∀ e ∈ (cellSet c a b).head?, m < e.1
  | [], a, b, _ => by
    unfold cellSet
    split
    · exact ⟨rfl, by intro m _ _ e he; cases he⟩
    · rename_i h
      refine ⟨bne_iff_ne.mpr h, ?_⟩
      intro m hm _ e he; cases he; exact hm
  | (k, y) :: r, a, b, hw => by
    have hr : Memory.wf r = true := by
      cases r with
      | nil => rfl
      | cons e r => simp only [Memory.wf, Bool.and_eq_true] at hw; exact hw.2
    have hy : (y != 0) = true := by
      cases r with
      | nil => exact hw
      | cons e r => simp only [Memory.wf, Bool.and_eq_true] at hw; exact hw.1.2
    have first (e : Host.Cell) (he : e ∈ r.head?) : k < e.1 := by
      cases r with
      | nil => cases he
      | cons e' r =>
        cases he
        simp only [Memory.wf, Bool.and_eq_true, decide_eq_true_eq] at hw
        exact hw.1.1
    have glue (z : Nat) (v : Byte) (l : List Host.Cell) (hv : (v != 0) = true) (hl : Memory.wf l = true)
        (hz : ∀ e ∈ l.head?, z < e.1) : Memory.wf ((z, v) :: l) = true := by
      cases l with
      | nil => exact hv
      | cons e l =>
        obtain ⟨z', v'⟩ := e
        simp only [Memory.wf, Bool.and_eq_true, decide_eq_true_eq]
        exact ⟨⟨hz (z', v') rfl, hv⟩, hl⟩
    unfold cellSet
    split
    · rename_i h
      have ⟨h1, h2⟩ := wf_cellSet r a b hr
      refine ⟨glue k y _ hy h1 (h2 k h first), ?_⟩
      intro m _ hm e he; cases he; exact hm (k, y) rfl
    · split
      · rename_i h; subst h
        split
        · refine ⟨hr, ?_⟩
          intro m hm _ e he; exact Nat.lt_trans hm (first e he)
        · rename_i hb
          refine ⟨glue k b r (bne_iff_ne.mpr hb) hr first, ?_⟩
          intro m hm _ e he; cases he; exact hm
      · split
        · refine ⟨hw, ?_⟩
          intro m _ hm e he; cases he; exact hm (k, y) rfl
        · rename_i hb
          refine ⟨glue a b _ (bne_iff_ne.mpr hb) hw (by intro e he; cases he; show a < k; omega), ?_⟩
          intro m hm _ e he; cases he; exact hm

theorem wf_storeWrite (d : List Byte) : ∀ (c : List Host.Cell) (a : Nat), Memory.wf c = true → Memory.wf (storeWrite c a d) = true := by
  induction d with
  | nil => intro c a h; exact h
  | cons b d ih => intro c a h; exact ih _ _ (wf_cellSet c a b h).1

theorem wf_setLine (m : Mem) (tb l : Nat) (d : List Byte) (q : Bool) (h : Memory.wf m.store = true) :
    Memory.wf (m.setLine tb l d q).store = true :=
  wf_storeWrite _ _ _ h

/-- A filter keeps the canonical form. -/
theorem wf_filter (q : Host.Cell → Bool) : ∀ (c : List Host.Cell), Memory.wf c = true →
    Memory.wf (c.filter q) = true ∧ ∀ m, (∀ e ∈ c.head?, m < e.1) → ∀ e ∈ (c.filter q).head?, m < e.1
  | [], _ => ⟨rfl, by intro m _ e he; cases he⟩
  | (k, y) :: r, hw => by
    have hr : Memory.wf r = true := by
      cases r with
      | nil => rfl
      | cons e r => simp only [Memory.wf, Bool.and_eq_true] at hw; exact hw.2
    have hy : (y != 0) = true := by
      cases r with
      | nil => exact hw
      | cons e r => simp only [Memory.wf, Bool.and_eq_true] at hw; exact hw.1.2
    have first (e : Host.Cell) (he : e ∈ r.head?) : k < e.1 := by
      cases r with
      | nil => cases he
      | cons e' r =>
        cases he
        simp only [Memory.wf, Bool.and_eq_true, decide_eq_true_eq] at hw
        exact hw.1.1
    have ⟨h1, h2⟩ := wf_filter q r hr
    rw [List.filter_cons]
    split
    · refine ⟨?_, by intro m hm e he; cases he; exact hm (k, y) rfl⟩
      have h3 := h2 k first
      generalize r.filter q = l at h1 h3
      cases l with
      | nil => exact hy
      | cons e l =>
        obtain ⟨z, v⟩ := e
        simp only [Memory.wf, Bool.and_eq_true, decide_eq_true_eq]
        exact ⟨⟨h3 (z, v) rfl, hy⟩, h1⟩
    · refine ⟨h1, ?_⟩
      intro m hm
      exact h2 m fun e he => Nat.lt_trans (hm (k, y) rfl) (first e he)

end Sys2Proof.Machine
end

