-- ==== Sys2Proof/Laws/Log.lean ====
section
/-! SUPPORT. Messages, error registers and the event log: what each changes, and the invariant kept. -/

namespace Sys2Proof.Machine

open Sys2Proof

variable (s : State)

/-- The invariant rests on the stores, the log and the sticky array alone. -/
theorem State.Inv.of_eq {s t : State} (h : s.Inv) (hm : t.mem.store = s.mem.store) (hl : t.bel.log = s.bel.log)
    (hs : t.bel.sticky = s.bel.sticky) : t.Inv := by
  unfold State.Inv
  rw [hm, hl, hs]
  exact h

/-- A message is sent or recorded in its function's PBA; nothing else changes. -/
theorem sendMsix_cases (n v : Nat) :
    sendMsix s n v = s.emit (.msix n v (kvGet {} (s.fn n).vecs v).addr (kvGet {} (s.fn n).vecs v).data)
    ∨ sendMsix s n v = s.setFn n { s.fn n with vecs := kvSet (s.fn n).vecs v { kvGet {} (s.fn n).vecs v with pba := true } } := by
  unfold sendMsix
  dsimp only
  split
  · exact .inl rfl
  · exact .inr rfl

/-- A message changes what is sent and the functions' vectors only. -/
theorem sendMsix_frame (n v : Nat) : ∃ o fs, sendMsix s n v = { s with out := o, hp := { s.hp with fns := fs } } := by
  rcases sendMsix_cases s n v with h | h <;> rw [h]
  · exact ⟨_, s.hp.fns, rfl⟩
  · exact ⟨s.out, _, rfl⟩

/-- An error changes what is sent and the functions' registers only. -/
theorem setErrBit_frame (n b : Nat) : ∃ o fs, setErrBit s n b = { s with out := o, hp := { s.hp with fns := fs } } := by
  unfold setErrBit
  dsimp only
  split
  · exact ⟨s.out, s.hp.fns, rfl⟩
  · split
    · obtain ⟨o, fs, h⟩ := sendMsix_frame (s.setFn n { s.fn n with err := (s.fn n).err ||| (1#7 <<< b) }) n (s.fn n).vec
      exact ⟨o, fs, h⟩
    · exact ⟨s.out, _, rfl⟩

theorem raiseErr_frame (n : Nat) (e : ErrKind) : ∃ o fs, raiseErr s n e = { s with out := o, hp := { s.hp with fns := fs } } := by
  unfold raiseErr
  split
  · exact setErrBit_frame s _ _
  · obtain ⟨o, fs, h⟩ := setErrBit_frame s n e.insBit
    dsimp only
    rw [h]
    cases e <;> first | exact ⟨_, _, rfl⟩ | exact setErrBit_frame _ _ _

/-- The message of an entry changes what is sent and the functions' vectors only. -/
theorem notify_frame (c : Bool) (b : Belfry) (q : Option Nat) (v : Nat) :
    ∃ o fs b', (if c = true then sendMsix { s with bel := { b with outstanding := q } } 0 v else { s with bel := b })
      = { s with out := o, hp := { s.hp with fns := fs }, bel := b' } ∧ b'.log = b.log ∧ b'.sticky = b.sticky := by
  cases c with
  | true =>
    obtain ⟨o, fs, h⟩ := sendMsix_frame { s with bel := { b with outstanding := q } } 0 v
    exact ⟨o, fs, _, h, rfl, rfl⟩
  | false => exact ⟨s.out, s.hp.fns, b, rfl, rfl, rfl⟩

/-- An entry changes the Belfry, what is sent and the functions' vectors only; the log and the sticky array stay within their sizes. -/
theorem logWrite_frame (e : LogEntry) : ∃ o fs b, logWrite s e = { s with out := o, hp := { s.hp with fns := fs }, bel := b }
    ∧ (s.bel.log.length ≤ 16384 → b.log.length ≤ 16384) ∧ (s.bel.sticky.length ≤ 64 → b.sticky.length ≤ 64) := by
  unfold logWrite
  split
  · exact ⟨s.out, s.hp.fns, s.bel, rfl, id, id⟩
  · obtain ⟨o, fs, b, h, h1, h2⟩ := notify_frame s _ _ _ _
    refine ⟨o, fs, b, h, ?_, ?_⟩
    · intro _; rw [h1]; simp only [List.length_drop, List.length_append, List.length_singleton]; omega
    · intro _; rw [h2]; simp only [List.length_drop]; omega

/-- What an event does: the same, whether it is written at once or merged. -/
theorem logEvent_frame (e : LogEntry) : ∃ o fs b, logEvent s e = { s with out := o, hp := { s.hp with fns := fs }, bel := b }
    ∧ (s.bel.log.length ≤ 16384 → b.log.length ≤ 16384) ∧ (s.bel.sticky.length ≤ 64 → b.sticky.length ≤ 64) := by
  unfold logEvent
  split
  · exact logWrite_frame s e
  · split
    · rename_i m _
      split
      · exact ⟨s.out, s.hp.fns, _, rfl, id, id⟩
      · have hf : ∃ o fs b, flushMerge s m = { s with out := o, hp := { s.hp with fns := fs }, bel := b }
            ∧ (s.bel.log.length ≤ 16384 → b.log.length ≤ 16384) ∧ (s.bel.sticky.length ≤ 64 → b.sticky.length ≤ 64) := by
          unfold flushMerge
          dsimp only
          split
          · exact ⟨s.out, s.hp.fns, _, rfl, id, id⟩
          · obtain ⟨o, fs, b, h, h1, h2⟩ := logWrite_frame
              { s with bel := { s.bel with merges := s.bel.merges.filter fun x => !sameMerge m.last x } } { m.last with count := m.count }
            exact ⟨o, fs, b, h, h1, h2⟩
        obtain ⟨o, fs, b, h, h1, h2⟩ := hf
        obtain ⟨o', fs', b', h', h1', h2'⟩ := logWrite_frame (flushMerge s m) e
        rw [h] at h' h1' h2'
        refine ⟨o', fs', { b' with merges := b'.merges ++ [⟨e.event, e.source, e.unit, e.tb, 0, e⟩] }, ?_, fun x => h1' (h1 x), fun x => h2' (h2 x)⟩
        dsimp only
        rw [h, h']
    · obtain ⟨o, fs, b, h, h1, h2⟩ := logWrite_frame s e
      refine ⟨o, fs, { b with merges := b.merges ++ [⟨e.event, e.source, e.unit, e.tb, 0, e⟩] }, ?_, h1, h2⟩
      dsimp only
      rw [h]

theorem logEvent_inv {s : State} (h : s.Inv) (e : LogEntry) : (logEvent s e).Inv := by
  obtain ⟨o, fs, b, he, h1, h2⟩ := logEvent_frame s e
  rw [he]
  exact ⟨h.1, h1 h.2.1, h2 h.2.2⟩

theorem raiseErr_inv {s : State} (h : s.Inv) (n : Nat) (e : ErrKind) : (raiseErr s n e).Inv := by
  obtain ⟨o, fs, he⟩ := raiseErr_frame s n e
  rw [he]
  exact h

/-- A line written back keeps the invariant. -/
theorem setLine_inv {s : State} (h : s.Inv) (tb l : Nat) (d : List Byte) (q : Bool) : ({ s with mem := s.mem.setLine tb l d q } : State).Inv :=
  ⟨wf_setLine s.mem tb l d q h.1, h.2⟩

end Sys2Proof.Machine
end

