-- ==== Sys2Proof/Laws/Operands.lean ====
section
/-! SUPPORT. The loads and stores of an operand and the instructions with an effect, once fetched: what their answer makes of them. -/

namespace Sys2Proof.Machine

open Sys2Proof

variable {s t : State} {p k n : Nat}

/-- An operand loaded: the bytes go to the registers, and the base of the addressing mode is updated. -/
theorem loadInstr_loaded (h : Fetched s p k n t) {ea : Ctx → Option (Word × Option Word)} {size al : Nat} {b : BitVec 5}
    {f : Ctx → List Byte → RegRes} {a : Word} {u : Option Word} {d : List Byte} {t1 : State} {c : Ctx}
    (he : ea (t.ctx k) = some (a, u)) (ha : a.toNat % al = 0) (hl : loadOp t p k a size = .ok (d, t1)) (hf : f (t.ctx k) d = .ok c) :
    loadInstr s p n ea size b al f = .next (retire t1 k n (c.setBase b u)) := by
  unfold loadInstr
  rw [instr_fetched h rfl]
  simp only [he, ha, bne_self_eq_false, Bool.false_eq_true, if_false, hl, hf, bind, Except.bind]
  rfl

/-- An operand stored inside the instance's store: the instruction is complete. -/
theorem storeInstr_stored (h : Fetched s p k n t) {ea : Ctx → Option (Word × Option Word)} {al : Nat} {b : BitVec 5}
    {d : Ctx → Except (Nat × Nat) (List Byte × Ctx)} {a : Word} {u : Option Word} {bytes : List Byte} {c : Ctx} {t1 : State}
    (he : ea (t.ctx k) = some (a, u)) (ha : a.toNat % al = 0) (hd : d (t.ctx k) = .ok (bytes, c)) (hs : storeOp t p k a bytes = .ok (t1, [])) :
    storeInstr s p n ea b al d = .next (retire t1 k n (c.setBase b u)) := by
  unfold storeInstr
  rw [instr_fetched h rfl]
  simp only [he, ha, bne_self_eq_false, Bool.false_eq_true, if_false, hd, hs, bind, Except.bind, List.isEmpty_nil, if_true]
  rfl

/-- An address that the addressing mode does not form, or that is not aligned, raises specification before any access. -/
theorem loadInstr_bad (h : Fetched s p k n t) {ea : Ctx → Option (Word × Option Word)} {size al : Nat} {b : BitVec 5}
    {f : Ctx → List Byte → RegRes} (hb : ∀ a u, ea (t.ctx k) = some (a, u) → a.toNat % al ≠ 0) :
    loadInstr s p n ea size b al f = .next (nullify t k n 0x104) := by
  unfold loadInstr
  rw [instr_fetched h rfl]
  dsimp only
  cases he : ea (t.ctx k) with
  | none => rfl
  | some x =>
    obtain ⟨a, u⟩ := x
    simp only [bne_iff_ne, ne_eq, hb a u he, not_false_eq_true, if_true]
    rfl

/-- An instruction with effects, in an instance that is not twinned and with no commit point under way: what it does between its
opening and its closing commit point. -/
theorem withEffects_local {q : Bool} {act : State → Except Stop (State × List Effect)} {w : State} {es : List Effect}
    (hc : (t.eng p).commit = none) (hb : q = false ∨ (t.fn (veInst k + 1)).bme = true) (ht : t.twinned (veInst k) = false)
    (ha : act (commitNow t p k [] false) = .ok (w, es)) :
    withEffects t p k n q act = .ok { s := commitNow (advance w k n) p k es false, moved := true } := by
  unfold withEffects
  have hb' : (q && !(t.fn (veInst k + 1)).bme) = false := by rcases hb with h | h <;> simp [h]
  simp only [hc, Option.isSome_none, Bool.false_eq_true, if_false, hb', ht, ha]

end Sys2Proof.Machine
end

