-- ==== Sys2Proof/Laws/Requests.lean ====
section
/-! SUPPORT. Completions, and the turn of a manager command: what each makes of the state. -/

namespace Sys2Proof.Machine

open Sys2Proof

variable {s : State}

/-- Outside a twinned instance a completion is produced at once. -/
theorem complete_local {n seq st d c : Nat} {b : List Byte} (h : n = 0 ∨ s.twinned (n - 1) = false) :
    complete s n seq st d c b = completeNow s n seq st d c b := by
  unfold complete
  have : (n != 0 && s.twinned (n - 1)) = false := by rcases h with h | h <;> simp [h]
  simp only [this, Bool.false_eq_true, if_false]

/-- A request that is not in hand has no completion. -/
theorem completeNow_none {n seq st d c : Nat} {b : List Byte} (h : s.req? n seq = none) : completeNow s n seq st d c b = s := by
  unfold completeNow
  rw [h]

/-- A manager command whose turn has come, with good fields, in a state that accepts it: its body. -/
theorem instCommand_accepted {q : BitVec 32} {op : Nat} {early : State → Request → Option Nat} {body : State → Request → Nat → State} {r : Request}
    (h : takeCmd s.quiet q.toNat op = some r) (he : early s.quiet r = none) (ha : accepts op (s.quiet.inst (reqTarget r.entry)) = true) :
    instCommand s q op early body = .next (body s.quiet r (reqTarget r.entry)) := by
  unfold instCommand
  simp only [h, he, ha, if_true]

/-- In a state that does not accept it, it is refused with the state's code. -/
theorem instCommand_refused {q : BitVec 32} {op : Nat} {early : State → Request → Option Nat} {body : State → Request → Nat → State} {r : Request}
    (h : takeCmd s.quiet q.toNat op = some r) (he : early s.quiet r = none) (ha : accepts op (s.quiet.inst (reqTarget r.entry)) = false) :
    instCommand s q op early body
      = .next (refuse s.quiet r (reqTarget r.entry) (s.quiet.inst (reqTarget r.entry)).st.code) := by
  unfold instCommand
  simp only [h, he, ha, Bool.false_eq_true, if_false]

/-- Before its turn it leaves the module as it is. -/
theorem instCommand_waits {q : BitVec 32} {op : Nat} {early : State → Request → Option Nat} {body : State → Request → Nat → State}
    (h : takeCmd s.quiet q.toNat op = none) : instCommand s q op early body = .next s.quiet := by
  unfold instCommand
  simp only [h]

/-- What a write into host memory changes: what is sent, and the dirty-page log of the function's instance. -/
theorem hostWrite_frame (n a : Nat) (d : List Byte) :
    ∃ o is, hostWrite s n a d = { s with out := o, insts := is } := by
  unfold hostWrite
  split
  · exact ⟨s.out, s.insts, rfl⟩
  · dsimp only
    split
    · exact ⟨_, s.insts, rfl⟩
    · unfold logDirty
      split
      · exact ⟨_, s.insts, rfl⟩
      · exact ⟨_, _, rfl⟩

/-- Waiting for the holders of a line changes the engines' steal bits only. -/
theorem askCommit_frame (ps : List Nat) : ∃ es, askCommit s ps = { s with engines := es } := ⟨_, rfl⟩

end Sys2Proof.Machine
end

