-- ==== Sys2Proof/WellFormed.lean ====
section
/-! DEFINITION. Which commands name units and sizes that exist on some variant of the KG9. A command outside these ranges names
nothing, and leaves the module as it is. -/

namespace Sys2Proof

/-- A physical engine: slot 0 to 127, or 128 + t for the fuse reserve of tower t (R22). -/
def engineOk (p : Nat) : Bool := decide (p < 136)

/-- A function: PF 0, or VF 1 to 512 (R35). -/
def isFn (n : Nat) : Bool := decide (n ≤ 512)

/-- An instance (R10). -/
def instOk (i : Nat) : Bool := decide (i < 512)

/-- A ring pair of a function (R49). -/
def ringOk (k : Nat) : Bool := decide (k < 8)

/-- A memory BAR (R37). -/
def barOk (b : Nat) : Bool := b == 0 || b == 2 || b == 4

/-- A line of the main or the bulk store (R217). -/
def lineOk (l : Nat) : Bool := decide (l < 0x10000000 / 64) || (decide (0x1000000000 / 64 ≤ l) && decide (l < (0x1000000000 + 43008 * 2097152) / 64))

/-- A granule of a pool (R217). -/
def granOk (bulk : Bool) (g : Nat) : Bool := decide (g < if bulk then 43008 else 3840)

/-- A channel path of this module, or of its partner numbered from 0x100 (R265, R266). -/
def pathOk (n : Nat) : Bool := decide (n < 8) || (decide (0x100 ≤ n) && decide (n < 0x108))

/-- A register write of the host: some bytes, no more than a transaction carries (R41). -/
def writeOk (d : List Byte) : Bool := decide (0 < d.length) && decide (d.length ≤ 4096)

/-- An access of the host to a register: what it writes or reads fits a transaction. -/
def accessOk (a : RegAccess) : Bool :=
  match a with
  | .write d => writeOk d
  | .read n => decide (0 < n) && decide (n ≤ 4096)

/-- Every operand is in its range. -/
def wellFormed (c : Instr) : Bool :=
  match c with
  | .reqRingDoorbell fn k off data => isFn fn && ringOk k && decide (off < 8) && writeOk data
  | .cplRingDoorbell fn k off data => isFn fn && ringOk k && decide (off < 8) && writeOk data
  | .ringBaseWrite fn k _ off data => isFn fn && ringOk k && decide (off < 8) && writeOk data
  | .reqRingCtlWrite fn k off data => isFn fn && ringOk k && decide (off < 8) && writeOk data
  | .cplRingCtlWrite fn k off data => isFn fn && ringOk k && decide (off < 8) && writeOk data
  | .keyStagingWrite fn off data => isFn fn && decide (off < 0x1000000) && writeOk data
  | .msixVectorUnmask fn vec => isFn fn && decide (vec < 2048)
  | .registerWrite fn bar off acc => isFn fn && barOk bar && decide (off < 0x1000000) && accessOk acc
  | .pcieConfigRequest fn _ _ _ => isFn fn
  | .requestFetchStart fn k => isFn fn && ringOk k
  | .requestEntryArrive fn k entry _ => isFn fn && ringOk k && decide (entry.length = 64)
  | .hostReadFailed _ => true
  | .coalTimerExpire fn k => isFn fn && ringOk k
  | .vfFlr fn => isFn fn
  | .pfFlr => true
  | .flrComplete fn => isFn fn
  | .busMasterEnableSet fn => isFn fn
  | .vfEnableClear => true
  | .hostPortReset => true
  | .pf0D3hotEnter => true
  | .pf0D0Return => true
  | .doeDiscovery vendor ty _ => decide (vendor < 65536) && decide (ty < 256)
  | .bootHead _ => true
  | .bootEntries _ => true
  | .attest _ => true
  | .attestSigned _ => true
  | .identityCert _ => true
  | .measure _ => true
  | .doeAbort => true
  | .create _ => true
  | .start _ => true
  | .quiesce _ => true
  | .quiesceComplete i => instOk i
  | .resume _ => true
  | .reset _ => true
  | .destroy _ => true
  | .query _ => true
  | .setEngines _ => true
  | .resize _ => true
  | .shrinkComplete i => instOk i
  | .setWindow _ => true
  | .poolQuery _ => true
  | .exportInst _ => true
  | .importInst _ => true
  | .logEnable _ => true
  | .logHarvest _ => true
  | .logDisable _ => true
  | .logRead _ => true
  | .logNotify _ => true
  | .twinQuery _ => true
  | .twinPair _ => true
  | .twinProtect _ => true
  | .twinHandover _ => true
  | .twinForce _ => true
  | .selftestRun _ => true
  | .selftestQuery _ => true
  | .selftestCtl _ => true
  | .calRead _ => true
  | .calWrite _ _ => true
  | .recal _ => true
  | .repairCtl _ => true
  | .imageQuery _ => true
  | .imageWrite _ _ => true
  | .imagePush _ _ => true
  | .imageSelect _ => true
  | .imageNorWriteDone _ => true
  | .msg fn _ => isFn fn
  | .storeWrite fn _ => isFn fn
  | .storeRead fn _ => isFn fn
  | .restart fn _ => isFn fn
  | .gcmEncrypt fn _ => isFn fn
  | .gcmDecrypt fn _ => isFn fn
  | .gmacGenerate fn _ => isFn fn
  | .gmacVerify fn _ => isFn fn
  | .xtsEncrypt fn _ => isFn fn
  | .xtsDecrypt fn _ => isFn fn
  | .cmacGenerate fn _ => isFn fn
  | .cmacVerify fn _ => isFn fn
  | .hmacGenerate fn _ => isFn fn
  | .hmacVerify fn _ => isFn fn
  | .hash fn _ => isFn fn
  | .keyLoad fn _ _ => isFn fn
  | .keyWrap fn _ => isFn fn
  | .keyRetire fn _ => isFn fn
  | .keyLimit fn _ => isFn fn
  | .compress fn _ => isFn fn
  | .decompress fn _ => isFn fn
  | .stagingSpaceFree fn _ => isFn fn
  | .cipherJobStart e => decide (e < 16)
  | .cipherJobDone e _ _ _ => decide (e < 16)
  | .compressionJobStart e => decide (e < 16)
  | .compressionJobDone e _ _ => decide (e < 16)
  | .nop p _ => engineOk p
  | .commit p _ => engineOk p
  | .signalComplete p _ => engineOk p
  | .signalVe p _ => engineOk p
  | .restartVe p _ => engineOk p
  | .sstart p _ => engineOk p
  | .feat p _ => engineOk p
  | .tbr p _ => engineOk p
  | .barrier p _ => engineOk p
  | .getf p _ => engineOk p
  | .setf p _ => engineOk p
  | .xcall p _ => engineOk p
  | .zcall p _ => engineOk p
  | .pfetch p _ => engineOk p
  | .clnl p _ => engineOk p
  | .invl p _ => engineOk p
  | .flsl p _ => engineOk p
  | .iinvl p _ => engineOk p
  | .add p _ => engineOk p
  | .addc p _ => engineOk p
  | .sub p _ => engineOk p
  | .subb p _ => engineOk p
  | .mul p _ => engineOk p
  | .mulwu p _ => engineOk p
  | .mulws p _ => engineOk p
  | .divu p _ => engineOk p
  | .divs p _ => engineOk p
  | .remu p _ => engineOk p
  | .rems p _ => engineOk p
  | .cmp p _ => engineOk p
  | .neg p _ => engineOk p
  | .and p _ => engineOk p
  | .or p _ => engineOk p
  | .xor p _ => engineOk p
  | .andn p _ => engineOk p
  | .shl p _ => engineOk p
  | .shr p _ => engineOk p
  | .sar p _ => engineOk p
  | .rol p _ => engineOk p
  | .clz p _ => engineOk p
  | .popc p _ => engineOk p
  | .bswap p _ => engineOk p
  | .sext p _ => engineOk p
  | .mov p _ => engineOk p
  | .csel p _ => engineOk p
  | .addi p _ => engineOk p
  | .cmpi p _ => engineOk p
  | .andi p _ => engineOk p
  | .ori p _ => engineOk p
  | .xori p _ => engineOk p
  | .shli p _ => engineOk p
  | .shri p _ => engineOk p
  | .sari p _ => engineOk p
  | .roli p _ => engineOk p
  | .muli p _ => engineOk p
  | .ldb p _ => engineOk p
  | .ldbs p _ => engineOk p
  | .ldh p _ => engineOk p
  | .ldhs p _ => engineOk p
  | .ldw p _ => engineOk p
  | .ldws p _ => engineOk p
  | .ldd p _ => engineOk p
  | .la p _ => engineOk p
  | .stb p _ => engineOk p
  | .sth p _ => engineOk p
  | .stw p _ => engineOk p
  | .std p _ => engineOk p
  | .ldq p _ => engineOk p
  | .stq p _ => engineOk p
  | .cas p _ => engineOk p
  | .ldx p _ => engineOk p
  | .stx p _ => engineOk p
  | .lax p _ => engineOk p
  | .fldx p _ => engineOk p
  | .fstx p _ => engineOk p
  | .ldp p _ => engineOk p
  | .stp p _ => engineOk p
  | .casx p _ => engineOk p
  | .fadd p _ => engineOk p
  | .fsub p _ => engineOk p
  | .fmul p _ => engineOk p
  | .fdiv p _ => engineOk p
  | .fsqrt p _ => engineOk p
  | .fma p _ => engineOk p
  | .fms p _ => engineOk p
  | .fnma p _ => engineOk p
  | .fcmp p _ => engineOk p
  | .fmin p _ => engineOk p
  | .fmax p _ => engineOk p
  | .fneg p _ => engineOk p
  | .fabs p _ => engineOk p
  | .fcvt p _ => engineOk p
  | .fmovg p _ => engineOk p
  | .gmovf p _ => engineOk p
  | .fldd p _ => engineOk p
  | .flds p _ => engineOk p
  | .fstd p _ => engineOk p
  | .fsts p _ => engineOk p
  | .lfpc p _ => engineOk p
  | .sfpc p _ => engineOk p
  | .addp p _ => engineOk p
  | .subp p _ => engineOk p
  | .mulp p _ => engineOk p
  | .divp p _ => engineOk p
  | .cmpp p _ => engineOk p
  | .shrp p _ => engineOk p
  | .cvbp p _ => engineOk p
  | .cvpb p _ => engineOk p
  | .editp p _ => engineOk p
  | .movp p _ => engineOk p
  | .bc p _ => engineOk p
  | .bal p _ => engineOk p
  | .br p _ => engineOk p
  | .balr p _ => engineOk p
  | .bct p _ => engineOk p
  | .movb p _ _ => engineOk p
  | .fillb p _ _ => engineOk p
  | .cmpb p _ _ => engineOk p
  | .scanb p _ _ => engineOk p
  | .translate p _ _ => engineOk p
  | .trtb p _ _ => engineOk p
  | .crcb p _ _ => engineOk p
  | .mulmb p _ _ => engineOk p
  | .mfk p _ => engineOk p
  | .mtk p _ => engineOk p
  | .wait p _ => engineOk p
  | .rfi p _ => engineOk p
  | .lra p _ => engineOk p
  | .tlbi p _ => engineOk p
  | .tlbia p _ => engineOk p
  | .invr p _ => engineOk p
  | .lockw p _ => engineOk p
  | .unlkw p _ => engineOk p
  | .undefinedOpcode p _ => engineOk p
  | .interruptionTake p _ => engineOk p
  | .clockComparator i v => instOk i && decide (v < 64)
  | .engineTimer i v => instOk i && decide (v < 64)
  | .timeSliceEnd p _ => engineOk p
  | .veDispatch p i v => engineOk p && instOk i && decide (v < 64)
  | .autoCommit p _ => engineOk p
  | .commitPointComplete p => engineOk p
  | .commitOnSteal p _ => engineOk p
  | .lineFillComplete p line => engineOk p && lineOk line
  | .domeScrub t line _ => decide (t < 8) && lineOk line
  | .checkpointScrub t slot _ => decide (t < 8) && decide (slot < 512)
  | .storeScrub line _ => lineOk line
  | .cacheError _ => true
  | .storeReadError line => lineOk line
  | .addressParityError port line => decide (port < 32) && lineOk line
  | .checkLineWriteback stack _ => decide (stack < 4)
  | .granuleZeroDone bulk gran => granOk bulk gran
  | .engineFaultDetected p _ _ => engineOk p
  | .engineCheckstop p _ => engineOk p
  | .quickCheckEnd p _ => engineOk p
  | .fuseReserveUp t => decide (t < 8)
  | .d2dModuleFail cd m => decide (cd < 4) && decide (m < 6)
  | .domeFail t _ => decide (t < 8)
  | .mainStoreChannelFail c => decide (c < 16)
  | .hbmStackFail st => decide (st < 4)
  | .hubBlockFail _ => true
  | .cheStop c => decide (c < 32)
  | .cipherEngineStop e => decide (e < 16)
  | .compressionEngineStop e => decide (e < 16)
  | .spireStop => true
  | .belfryStop => true
  | .selftestControllerStop => true
  | .timebaseCounterFail n => decide (n < 3)
  | .heartbeatLapse => true
  | .refclkLoss => true
  | .thermtrip sensor => decide (sensor < 64)
  | .thermalSample sensor _ => decide (sensor < 64)
  | .throttleRelease => true
  | .sleepEntry => true
  | .deepSleepEntry => true
  | .powerWake => true
  | .perstAssert _ => true
  | .perstDeassert _ => true
  | .startUpComplete _ => true
  | .headSigned => true
  | .vauxLoss => true
  | .warmReset _ => true
  | .warmResetEnd _ => true
  | .clkStatus => true
  | .gateRead => true
  | .health => true
  | .select _ => true
  | .eventRead => true
  | .alertAck _ => true
  | .objSelect _ => true
  | .objStatus => true
  | .objRead => true
  | .attestStart nonce => decide (nonce.length = 32)
  | .pkgWrite _ => true
  | .pkgCommit _ => true
  | .pkgStatus => true
  | .bistStatus => true
  | .calStatus => true
  | .eventMergeFlush event source unit => decide (event < 65536) && decide (source < 256) && decide (unit < 65536)
  | .rollingTestStart _ => true
  | .rollingTestEnd _ _ => true
  | .cheStartOperation che i sub => decide (che < 32) && instOk i && decide (sub < 65536)
  | .deviceCompletion i sub _ => instOk i && decide (sub < 65536)
  | .commandTimeout i sub => instOk i && decide (sub < 65536)
  | .pathLost path dev => pathOk path && dev.all (· < 1024)
  | .pathReissue i sub path => instOk i && decide (sub < 65536) && pathOk path
  | .pathWaitExpire i sub => instOk i && decide (sub < 65536)
  | .pathReturn path dev _ => pathOk path && dev.all (· < 1024)
  | .endEntryCommit i sub => instOk i && decide (sub < 65536)
  | .adapterMsix dev vec => decide (dev < 1024) && decide (vec < 2048)
  | .waitintTimeout i sub => instOk i && decide (sub < 65536)
  | .adapterDma dev _ _ _ _ => decide (dev < 1024)
  | .jalarnLinkUp _ lane => decide (lane < 8)
  | .ident _ => true
  | .jalarnFlitReceive flit => decide (flit.length = 256)
  | .pair _ _ => true
  | .protect _ => true
  | .copyDone i _ => instOk i
  | .surrender i _ => instOk i
  | .handover i _ => instOk i
  | .mirrorAck _ => true
  | .stagingApply => true
  | .mirrorRefill => true
  | .partnerLostTimeout => true
  | .fenceAsk _ => true
  | .fenceLatchSet => true
  | .fenceUnanswered => true
  | .takeover i => instOk i
  | .receiverLockLost => true
  | .hostTransferDone fn _ _ _ => isFn fn
  | .calNorWriteDone => true
  | .pkgCheckDone => true
  | .tapInstruction _ => true

end Sys2Proof
end

