-- ==== Sys2Proof/Tests/Slice0.lean ====
section
/-! SUPPORT. The model's own tests: ill-formed commands, states and operands that meet the hypotheses of the statements, and small tests of
single commands with results from the spec. -/

namespace Sys2Proof.Tests

set_option Elab.async false

open Sys2Proof Sys2Proof.Machine

/-! ## Small states -/

/-- Did an access succeed? -/
def isOk {α : Type} (e : Except Stop α) : Bool := match e with | .ok _ => true | .error _ => false

/-- What it left. -/
def okOr {α : Type} (d : α) (e : Except Stop α) : α := match e with | .ok x => x | .error _ => d

theorem okOr_eq {α : Type} (d : α) (e : Except Stop α) (h : isOk e = true) : e = .ok (okOr d e) := by
  cases e with
  | ok x => rfl
  | error x => cases h

/-- Absolute address of byte `a` of granule 0 of the main store. -/
def abs (a : Nat) : Nat := 0x2000000 + a

/-- A module that runs: instance 0 with one granule and one ring pair, its virtual engine 0 on engine 0 with the registers `c`. -/
def run (c : Ctx) : State :=
  { clk := { phase := .run }
    insts := [(0, { st := .running, vectors := 2, ringPairs := 1, main := [{ num := 0 }] })]
    ves := [(0, { hasCtx := true, placed := true, stopped := false, on := some 0, cur := c })]
    engines := [(0, { ve := some 0 })] }

/-- Registers with the program at 0x1000, and the values `l` in G. -/
def regs (l : List (BitVec 5 × Word)) : Ctx := l.foldl (fun c x => c.setG x.1 x.2) { ia := 0x1000 }

def cur : State := run (regs [(1, 0x2000), (2, 0x2100), (3, 1), (4, 7)])

/-- After the fetch of an instruction of `n` bytes. -/
def fetched (s : State) (n : Nat) : State := okOr s (fetchInstr s.quiet 0 0 n)

def aft : State := fetched cur 4
def aft8 : State := fetched cur 8

theorem fetched_of (s : State) (n : Nat) (h : running s.quiet 0 = some 0) (h' : isOk (fetchInstr s.quiet 0 0 n) = true) :
    Fetched s 0 0 n (fetched s n) := ⟨h, okOr_eq _ _ h'⟩

theorem test_fetched : Fetched cur 0 0 4 aft := fetched_of _ _ (by decide +kernel) (by decide +kernel)

theorem test_fetched8 : Fetched cur 0 0 8 aft8 := fetched_of _ _ (by decide +kernel) (by decide +kernel)

/-! ## Ill-formed commands -/

/-- One command out of range for each check of WellFormed. -/
theorem test_ill_formed_refused :
    ([.reqRingDoorbell 513 0 0 [0], .reqRingDoorbell 0 8 0 [0], .reqRingDoorbell 0 0 8 [0], .reqRingDoorbell 0 0 0 [],
       .keyStagingWrite 1 0x1000000 [0], .msixVectorUnmask 1 2048, .registerWrite 0 1 0 (.write [0]), .requestEntryArrive 0 0 [] false,
       .doeDiscovery 65536 0 [], .doeDiscovery 0 256 [], .quiesceComplete 512, .cipherJobStart 16, .nop 136 ⟨0, 0, 0, 0⟩, .clockComparator 0 64,
       .lineFillComplete 0 0x400000, .domeScrub 8 0 .clean, .checkpointScrub 0 512 .clean, .addressParityError 32 0, .checkLineWriteback 4 0,
       .granuleZeroDone false 3840, .granuleZeroDone true 43008, .fuseReserveUp 8, .d2dModuleFail 4 0, .d2dModuleFail 0 6,
       .mainStoreChannelFail 16, .hbmStackFail 4, .cheStop 32, .timebaseCounterFail 3, .thermtrip 64, .attestStart [],
       .eventMergeFlush 65536 0 0, .eventMergeFlush 0 256 0, .eventMergeFlush 0 0 65536, .cheStartOperation 32 0 0,
       .commandTimeout 0 65536, .pathLost 8 none, .pathLost 0 (some 1024), .adapterMsix 1024 0, .adapterMsix 0 2048, .jalarnLinkUp false 8,
       .jalarnFlitReceive []] : List Instr).all (fun c => !wellFormed c) = true := by decide +kernel

theorem test_well_formed_accepted : wellFormed (.nop 135 ⟨0, 0, 0, 0⟩) && wellFormed (.pathLost 0x107 (some 1023))
    && wellFormed (.reqRingDoorbell 512 7 7 [0]) && wellFormed .pfFlr = true := by decide +kernel

/-! ## Witnesses: the step and the registers -/

theorem test_witness_step : ({ pending := [.pfFlr] } : State).pending = .pfFlr :: [] := rfl

theorem test_witness_invariant : State.reset.Inv ∧ step State.reset = .next (idle State.reset) := by
  exact ⟨⟨by decide +kernel, by decide, by decide⟩, rfl⟩

theorem test_witness_integer : Fetched cur 0 0 4 aft ∧ (∃ f : FA, f.fn = 0 ∧ f.r3 = 0 ∧ odd5 f.r1 = false) ∧ ∃ f : FC, f.r2 = 0 :=
  ⟨test_fetched, ⟨⟨2, 1, 0, 0⟩, by decide +kernel⟩, ⟨⟨1, 0, 5⟩, by decide +kernel⟩⟩

/-- A zero divisor and the signed overflow both occur. -/
theorem test_witness_division : Fetched cur 0 0 4 aft ∧ (∃ f : FA, f.fn = 0 ∧ ((aft.resumeCtx 0).operands 0x27).G f.r3 = 0)
    ∧ ∃ f : FA, f.fn = 0 ∧ ((aft.resumeCtx 0).operands 0x27).G f.r3 = 7 :=
  ⟨test_fetched, ⟨⟨5, 1, 9, 0⟩, by decide +kernel⟩, ⟨⟨5, 1, 4, 0⟩, by decide +kernel⟩⟩

theorem test_witness_logic : Fetched cur 0 0 4 aft ∧ (∃ f : FA, f.fn = 0 ∧ f.r3 = 0) ∧ (∃ f : FA, f.fn = 0x080) ∧ (∃ f : FA, f.fn = 0x100)
    ∧ (∃ f : FA, f.fn ≠ 0 ∧ f.fn &&& 0x1F = 0) ∧ (∃ f : FC, f.imm14.toNat = 63) :=
  ⟨test_fetched, ⟨⟨5, 1, 0, 0⟩, by decide⟩, ⟨⟨5, 1, 0, 0x080⟩, by decide⟩, ⟨⟨5, 1, 0, 0x100⟩, by decide⟩, ⟨⟨5, 1, 2, 0x1E0⟩, by decide⟩,
    ⟨⟨5, 1, 63⟩, by decide⟩⟩

/-- A target that is a multiple of 4 and one that is not. -/
theorem test_witness_branches : Fetched cur 0 0 4 aft ∧ (∃ f : FJ, f.cond = 15) ∧ (∃ f : FA, f.fn &&& 0x1F = 0 ∧ f.r1 = 0 ∧ f.r3 = 0
      ∧ ((aft.ctx 0).G f.r2).toNat % 4 = 0) ∧ (∃ f : FA, f.fn = 0 ∧ ((aft.ctx 0).G f.r2).toNat % 4 ≠ 0)
    ∧ ∃ f : FC, f.r2 = 0 ∧ (aft.ctx 0).G f.r1 - 1 = 0 :=
  ⟨test_fetched, ⟨⟨15, 1⟩, by decide⟩, ⟨⟨0, 1, 0, 0x1E0⟩, by decide +kernel⟩, ⟨⟨5, 4, 0, 0⟩, by decide +kernel⟩, ⟨⟨3, 0, 1⟩, by decide +kernel⟩⟩

theorem test_witness_moves : Fetched cur 0 0 4 aft ∧ ∃ f : FA, f.fn = 0 ∧ f.r2.toNat ≤ 3 ∧ ((aft.ctx 0).G f.r2).toNat % 8 ≤ 4 :=
  ⟨test_fetched, ⟨⟨5, 3, 0, 0⟩, by decide +kernel⟩⟩

theorem test_witness_feature_words : Fetched cur 0 0 4 aft ∧ (∃ f : FA, f.fn = 0 ∧ f.r2.toNat = 3) ∧ ∃ f : FA, f.fn = 0 ∧ f.r2.toNat = 4 :=
  ⟨test_fetched, ⟨⟨5, 3, 0, 0⟩, by decide⟩, ⟨⟨5, 4, 0, 0⟩, by decide⟩⟩

theorem test_witness_floating : Fetched cur 0 0 4 aft ∧ (∃ f : FA, f.fn = 0 ∧ f.r3 = 0) ∧ (∃ f : FA, f.fn = 0x100 ∧ f.fn &&& 0xFF = 0)
    ∧ (∃ f : FA, f.fn = 0x010) ∧ ([0x20, 0x30, 0x40, 0x50, 0x60, 0x70].all fun n => (∃ m : BitVec 9, m &&& 0xFF = n)) :=
  ⟨test_fetched, ⟨⟨5, 1, 0, 0⟩, by decide⟩, ⟨⟨5, 1, 0, 0x100⟩, by decide⟩, ⟨⟨5, 1, 0, 0x010⟩, by decide⟩, by decide +kernel⟩

/-- The largest significand at the lowest and at the highest exponent that the statement admits. -/
theorem test_witness_rounding : 0 < 2 ^ 53 - 1 ∧ 2 ^ 53 - 1 < 2 ^ fmt64.p ∧ (fmt64.emin ≤ fmt64.emin ∧ fmt64.emin + fmt64.p ≤ fmt64.bias)
    ∧ (fmt64.emin ≤ fmt64.bias - fmt64.p ∧ (fmt64.bias : Int) - fmt64.p + fmt64.p ≤ fmt64.bias) := by decide +kernel

theorem test_witness_decimal : Fetched cur 0 0 4 aft ∧ 10 ^ 31 - 1 < 10 ^ 31
    ∧ (∃ f : FA, f.fn &&& 0x1E0 = 0 ∧ f.fn = 0 ∧ f.r3 = 0 ∧ f.r1.toNat < 8 ∧ f.r2.toNat < 8 ∧ odd5 f.r1 = false)
    ∧ (∃ f : FC, f.r1.toNat < 8 ∧ f.r2.toNat < 8 ∧ f.imm14.toNat / 16 % 16 = 0 ∧ f.imm14.toNat % 16 < 10 ∧ (f.imm14.extractLsb' 8 6).toInt = -31)
    ∧ (∃ f : FC, f.r1.toNat < 8 ∧ f.r2.toNat < 8 ∧ f.imm14.toNat / 16 % 16 = 0 ∧ f.imm14.toNat % 16 < 10 ∧ (f.imm14.extractLsb' 8 6).toInt = 31) :=
  ⟨test_fetched, by decide, ⟨⟨6, 7, 0, 0⟩, by decide⟩, ⟨⟨7, 0, 0x2109⟩, by decide⟩, ⟨⟨7, 0, 0x1F00⟩, by decide⟩⟩

/-! ## Witnesses: operands in the store -/

/-- Packed 123 in four bytes at 0x2000 of the instance, and a digit selector at 0x2100. -/
def dig : State := { cur with mem := { store := [(abs 0x2002, 0x12), (abs 0x2003, 0x3C), (abs 0x2100, 0x10)] } }

theorem test_fetched_dig : Fetched dig 0 0 4 (fetched dig 4) ∧ Fetched dig 0 0 8 (fetched dig 8) :=
  ⟨fetched_of _ _ (by decide +kernel) (by decide +kernel), fetched_of _ _ (by decide +kernel) (by decide +kernel)⟩

theorem test_witness_loads : Fetched cur 0 0 4 aft ∧ Fetched cur 0 0 8 aft8
    ∧ eaFB (aft.ctx 0) ⟨5, 0, 1, 0xFF0⟩ 8 true false = some (0x1FF0, none) ∧ isOk (loadOp aft 0 0 0x1FF0 16) = true
    ∧ eaFB (aft.ctx 0) ⟨5, 1, 1, 0⟩ 8 true false = some (0x2000, some 0x2008) ∧ isOk (loadOp aft 0 0 0x2000 8) = true
    ∧ eaFD (aft8.ctx 0) ⟨4, 0, 1, 0, 0, 0, 7, 0, 0x10⟩ 16 true true = some (0x2010, none) ∧ isOk (loadOp aft8 0 0 0x2010 16) = true
    ∧ eaFD ((fetched dig 8).ctx 0) ⟨2, 0, 1, 0, 0, 0, 3, 0, 0⟩ 4 false false = some (0x2000, none)
    ∧ isOk (loadOp (fetched dig 8) 0 0 0x2000 4) = true
    ∧ unpackDec (okOr ([], dig) (loadOp (fetched dig 8) 0 0 0x2000 4)).1 = some (123, false) := by
  refine ⟨test_fetched, test_fetched8, ?_⟩
  decide +kernel

/-- A store inside the instance's store, and one that goes out through a host window of the running instance. -/
def win : State := { aft with
  insts := [(0, { aft.inst 0 with windows := [(0, { write := true, busBase := 0x10000, pages := 1 })] })]
  hp := { fns := [(1, { bme := true })] } }

theorem test_witness_stores : Fetched cur 0 0 4 aft ∧ Fetched cur 0 0 8 aft8
    ∧ isOk (storeOp aft 0 0 0x2000 [1, 2, 3, 4, 5, 6, 7, 8]) = true ∧ isOk (storeOp aft8 0 0 0x2FF0 (toBE 16 7)) = true
    ∧ eaFB (aft.ctx 0) ⟨5, 0, 1, 0⟩ 8 true false = some (0x2000, none)
    ∧ eaFD (aft8.ctx 0) ⟨4, 0, 1, 0, 0, 0, 7, 0, 0xFF0⟩ 16 true true = some (0x2FF0, none)
    ∧ (aft8.eng 0).commit = none ∧ aft8.twinned 0 = false ∧ daVal ((aft8.ctx 0).DA 7) = some (0, false) := by
  refine ⟨test_fetched, test_fetched8, ?_⟩
  decide +kernel

theorem test_witness_window_store : (match storeOp win 0 0 0x20000000000 [1, 2] with | .ok (_, _ :: _) => true | _ => false) = true
    ∧ (win.eng 0).commit = none ∧ (win.fn 1).bme = true ∧ win.twinned 0 = false
    ∧ isOk (storeOp (commitNow win 0 0 [] false) 0 0 0x20000000000 [1, 2]) = true := by decide +kernel

/-- The doubleword at the address equals G[R1], and does not. -/
theorem test_witness_cas : Fetched cur 0 0 4 aft ∧ Fetched cur 0 0 8 aft8
    ∧ eaFB (aft.ctx 0) ⟨6, 0, 1, 0⟩ 8 true true = some (0x2000, none) ∧ eaFD (aft8.ctx 0) ⟨4, 0, 1, 0, 0, 0, 0, 0, 8⟩ 8 true true = some (0x2008, none)
    ∧ odd5 6 = false ∧ odd5 4 = false ∧ (aft.ctx 0).G 6 = 0 ∧ (aft8.ctx 0).G 4 = 7
    ∧ isOk (translateOp aft 0 0 .store 0x2000 8) = true
    ∧ (let x := okOr ([], aft) (translateOp aft 0 0 .store 0x2000 8)
       let y := okOr ([], aft) (loadPieces x.2 0 0 false x.1)
       isOk (loadPieces x.2 0 0 false x.1) = true ∧ beNat y.1 = 0 ∧ isOk (storePieces y.2 0 0 (toBE 8 0) false x.1) = true) := by
  refine ⟨test_fetched, test_fetched8, ?_⟩
  decide +kernel

theorem test_witness_memory : Memory.wf aft.mem.store = true ∧ (aft.eng 0).stream.active = false ∧ (aft.eng 0).stream.bufs = []
    ∧ isOk (storeLine aft 0 (abs 0x203C) [1, 2, 3, 4] 0) = true ∧ abs 0x203C % 64 + 4 ≤ 64
    ∧ isOk (loadLine aft 0 (abs 0x2000) 64 0) = true ∧ abs 0x2000 % 64 + 64 ≤ 64 := by decide +kernel

/-! ## Witnesses: block-repeat, control and system instructions -/

/-- Operand fields of a block-repeat instruction over G1 (destination), G2 (source), G3 (count 1) and G4. -/
def blk (rd rs rc rp : BitVec 5) (opt : BitVec 4) : FE := ⟨rd, rs, rc, rp, opt⟩

theorem test_witness_blocks : Fetched cur 0 0 4 aft ∧ (aft.ctx 0).G 5 = 0 ∧ (aft.ctx 0).G 3 = 1
    ∧ distinct [(1 : BitVec 5), 2, 5] = true ∧ distinct [(1 : BitVec 5), 2, 3, 4, 5] = true ∧ odd5 4 = false
    ∧ isOk (loadOp aft 0 0 0x2100 1) = true ∧ isOk (loadOp aft 0 0 0x2000 8) = true
    ∧ (let x := okOr ([], aft) (loadOp aft 0 0 0x2100 1)
       isOk (storeOp x.2 0 0 0x2000 x.1) = true ∧ isOk (loadOp x.2 0 0 0x2000 1) = true ∧ isOk (loadOp x.2 0 0 (7 + 0) 1) = true)
    ∧ isOk (storeOp aft 0 0 0x2000 (toBE 8 7)) = true := by
  refine ⟨test_fetched, ?_⟩
  decide +kernel

/-- EDITP of one digit selector with DA0, whose value is 0. -/
theorem test_witness_edit : Fetched dig 0 0 4 (fetched dig 4)
    ∧ (let t := fetched dig 4
       let x := okOr ([], t) (loadOp t 0 0 0x2100 1)
       let y := okOr ([], t) (translateOp x.2 0 0 .store 0x2000 1)
       (t.ctx 0).sb bRP = false ∧ distinct [(1 : BitVec 5), 2, 3, 4] = true
       ∧ ((t.ctx 0).G 3).toNat = 1 ∧ isOk (loadOp t 0 0 0x2100 1) = true ∧ isOk (translateOp x.2 0 0 .store 0x2000 1) = true
       ∧ editDigits x.1 = some 1 ∧ daVal ((t.ctx 0).DA 0) = some (0, false)
       ∧ isOk (storeOp y.2 0 0 0x2000 (editBytes 7 false x.1 [0] false)) = true) := by
  refine ⟨test_fetched_dig.1, ?_⟩
  decide +kernel

/-- The commit point of a COMMIT taken and not completed. -/
def committing : State := { cur with engines := [(0, { ve := some 0, commit := some { ctx := (cur.ve 0).cur, wait := true } })] }

theorem test_witness_commit : Fetched cur 0 0 4 aft ∧ (aft.eng 0).commit = none
    ∧ (committing.eng 0).commit = some { ctx := (cur.ve 0).cur, wait := true } ∧ (committing.eng 0).ve = some 0 ∧ committing.live = true
    ∧ (committing.eng 0).fenced = false ∧ (committing.eng 0).phase = .run ∧ committing.twinned (veInst 0) = false
    ∧ (committing.inst (veInst 0)).st ≠ .quiescing ∧ committing.css.subs = [] := by
  refine ⟨test_fetched, ?_⟩
  decide +kernel

/-- G1 to G4 name the functions of SIGNAL: COMPLETE of SEQ 5, which a virtual engine has taken, and of SEQ 6, which is not in hand; virtual
engine 1, with and without a signal held; virtual engine 63, which is not placed. -/
def sig (held : KV Word) : State :=
  let s := run (regs [(1, 0x0100000000000005), (2, 0x0100000000000006), (3, 0x0200000000000001), (4, 0x020000000000003F),
    (5, 0x0300000000000001), (6, 0x2000), (7, 0x030000000000003F)])
  { s with hp := { reqs := [{ fn := 1, k := 0, seq := 5, entry := zeros 64, stage := .taken }] }
           ves := s.ves ++ [(1, { hasCtx := true, placed := true, stopped := false, signals := held })] }

/-- The state after the opening commit point. -/
def opened (s : State) : State := commitNow (fetched s 4) 0 0 [] false

theorem test_witness_signal : Fetched (sig []) 0 0 4 (fetched (sig []) 4) ∧ Fetched (sig [(0, 1)]) 0 0 4 (fetched (sig [(0, 1)]) 4)
    ∧ ((fetched (sig []) 4).eng 0).commit = none ∧ (fetched (sig []) 4).twinned 0 = false
    ∧ isOk (loadOp (opened (sig [])) 0 0 0x2000 20) = true ∧ isOk (loadOp (opened (sig [])) 0 0 0x2000 64) = true
    ∧ (let u := (okOr ([], sig []) (loadOp (opened (sig [])) 0 0 0x2000 20)).2
       (u.req? 1 5).map (fun r => (r.stage, r.closing)) = some (.taken, false) ∧ u.req? 1 6 = none)
    ∧ (opened (sig [])).placed 0 1 = true ∧ (opened (sig [])).placed 0 63 = false
    ∧ kvFind ((opened (sig [])).ve (veKey 0 1)).signals 0 = none ∧ (kvFind ((opened (sig [(0, 1)])).ve (veKey 0 1)).signals 0).isSome = true := by
  refine ⟨fetched_of _ _ (by decide +kernel) (by decide +kernel), fetched_of _ _ (by decide +kernel) (by decide +kernel), ?_⟩
  decide +kernel

/-- The last virtual engine to arrive of a mask of one, and the first of a mask of two. -/
def bar (m : Word) : State :=
  let s := run (regs [(2, m)])
  { s with ves := s.ves ++ [(1, { hasCtx := true, placed := true, stopped := false })] }

theorem test_witness_barrier : Fetched (bar 1) 0 0 4 (fetched (bar 1) 4) ∧ Fetched (bar 3) 0 0 4 (fetched (bar 3) 4)
    ∧ [bar 1, bar 3].all (fun s => let t := fetched s 4
        let m := (t.ctx 0).G 2
        m.getLsbD (veNum 0) && (maskVes m).all (t.placed 0) && (t.inst 0).releases.isEmpty && (t.inst 0).arrivals.isEmpty) = true := by
  refine ⟨fetched_of _ _ (by decide +kernel) (by decide +kernel), fetched_of _ _ (by decide +kernel) (by decide +kernel), ?_⟩
  decide +kernel

/-- Way 3 of dome 0 is granted to instance 0 as handle 0, unlocked or locked. -/
def ways (l : Bool) : State := { cur with domes := [(0, { locks := [(3, { inst := 0, handle := 0, locked := l })] })] }

theorem test_witness_caches : Fetched cur 0 0 4 aft ∧ eaFB (aft.ctx 0) ⟨0, 0, 1, 0⟩ 64 false false = some (0x2000, none)
    ∧ (let x := okOr (none, aft) (maintLine aft 0 0 .load 0x2000)
       let y := okOr (none, aft) (maintLine aft 0 0 .store 0x2000)
       isOk (maintLine aft 0 0 .load 0x2000) = true ∧ x.1 = some (abs 0x2000 / 64) ∧ isOk (settle x.2 0 0 [abs 0x2000 / 64]) = true
       ∧ isOk (maintLine aft 0 0 .store 0x2000) = true ∧ y.1 = x.1 ∧ (cur.ctx 0).sb bPS = false
       ∧ otherOwners y.2 0 (abs 0x2000 / 64) = [] ∧ (y.2.ve 0).opened = false ∧ isOk (ownCommit y.2 0 0) = true)
    ∧ ((aft.ctx 0).G 3).toNat = 1
    ∧ (match realLines aft 0 0x2000 1048576 with | .ok _ => true | .error _ => false) = false
    ∧ (match realLines aft 0 0x2000 1 with | .ok ls => isOk (settle aft 0 0 ls) | .error _ => false) = true := by
  refine ⟨test_fetched, ?_⟩
  decide +kernel

theorem test_witness_way_locks : Fetched (ways false) 0 0 4 (fetched (ways false) 4) ∧ Fetched (ways true) 0 0 4 (fetched (ways true) 4)
    ∧ wayOf (fetched (ways false) 4) 0 0 0 = some (3, { inst := 0, handle := 0 })
    ∧ wayOf (fetched (ways true) 4) 0 0 0 = some (3, { inst := 0, handle := 0, locked := true })
    ∧ ((fetched (ways true) 4).ctx 0).G 2 = 0x2100 ∧ ((fetched (ways true) 4).ctx 0).G 3 = 1
    ∧ isOk (translate (fetched (ways true) 4) 0 0 .load 0x2100) = true
    ∧ isOk (placeLines (fetched (ways true) 4) 0 0 3 [abs 0x2100 / 64]) = true := by
  refine ⟨fetched_of _ _ (by decide +kernel) (by decide +kernel), fetched_of _ _ (by decide +kernel) (by decide +kernel), ?_⟩
  decide +kernel

theorem test_witness_privileged : Fetched cur 0 0 4 aft ∧ (cur.ctx 0).sb bPS = false ∧ (cur.ctx 0).sb bTE = false
    ∧ (∃ f : FA, f.fn = 0 ∧ f.r2.toNat = 15 ∧ f.r1.toNat = 15)
    ∧ absOf aft 0 (((aft.ctx 0).K 2).toNat + 0x80 + 0x40 * 4) = some (abs 0x180) ∧ isOk (loadLine aft 0 (abs 0x180) 16 0x180) = true
    ∧ (okOr ([], aft) (loadLine aft 0 (abs 0x180) 16 0x180)).1 = zeros 16
    ∧ eaFB (aft.ctx 0) ⟨5, 0, 1, 0⟩ 8 true false = some (0x2000, none) ∧ (resolve aft 0 0x2000).isSome = true
    ∧ (resolve aft 0 0x10000).isSome = false := by
  refine ⟨test_fetched, by decide +kernel, by decide +kernel, ⟨⟨15, 15, 0, 0⟩, by decide⟩, ?_⟩
  decide +kernel

/-- A save frame whose IA is no multiple of 4, and forms that RFI and UNLKW do not have. -/
def badFrame : State := { cur with mem := { store := [(abs 0x187, 1)] } }

theorem test_witness_refused_forms : Fetched badFrame 0 0 4 (fetched badFrame 4) ∧ (badFrame.ctx 0).sb bPS = false
    ∧ absOf (fetched badFrame 4) 0 ((((fetched badFrame 4).ctx 0).K 2).toNat + 0x80 + 0x40 * 4) = some (abs 0x180)
    ∧ isOk (loadLine (fetched badFrame 4) 0 (abs 0x180) 16 0x180) = true
    ∧ fieldBE (okOr ([], cur) (loadLine (fetched badFrame 4) 0 (abs 0x180) 16 0x180)).1 0 8 % 4 = 1
    ∧ wayOf aft (towerOf 0) (veInst 0) 3 = none ∧ (∃ f : FA, f.r3 ≠ 0) ∧ (∃ f : FA, 4 < f.fn.toNat / 64 ∧ 4 ≤ f.fn.toNat) := by
  refine ⟨fetched_of _ _ (by decide +kernel) (by decide +kernel), by decide +kernel, by decide +kernel, by decide +kernel, by decide +kernel,
    by decide +kernel, ⟨⟨0, 0, 1, 0⟩, by decide⟩, ⟨⟨0, 0, 0, 0x140⟩, by decide⟩⟩

/-- Problem state. -/
def prob : State := run ((regs []).setSb bPS true)

theorem test_witness_illegal : Fetched prob 0 0 4 (fetched prob 4) ∧ (prob.ctx 0).sb bPS = true ∧ Fetched cur 0 0 4 aft ∧ opDefined 0xFF = false
    ∧ ∃ f : FA, f.fn.getLsbD 0 = true :=
  ⟨fetched_of _ _ (by decide +kernel) (by decide +kernel), by decide +kernel, test_fetched, by decide, ⟨⟨0, 0, 0, 1⟩, by decide⟩⟩

/-! ## Witnesses: frames, calls and the events of an engine -/

theorem test_witness_accesses : Memory.wf cur.mem.store = true ∧ isOk (fetchInstr cur 0 0 8) = true ∧ isOk (loadOp cur 0 0 0x2FF0 64) = true
    ∧ isOk (storeOp cur 0 0 0x2FC0 (zeros 64)) = true
    ∧ (let x := okOr ([], cur) (translateOp cur 0 0 .store 0x2FC0 64)
       isOk (translateOp cur 0 0 .store 0x2FC0 64) = true ∧ x.1.map (fun y => y.2.2) = [64])
    ∧ (cur.eng 0).stream.active = false ∧ (cur.eng 0).stream.bufs = [] := by decide +kernel

theorem test_witness_register_frame : Memory.wf cur.mem.store = true ∧ running cur.quiet 0 = some 0
    ∧ (registerWrites 0 ⟨2, 3, 4, 0⟩ ⟨2, 3, 4⟩ ⟨15, 4⟩).all (fun e => match exec e.1 cur with | .next _ => true | _ => false) = true := by
  decide +kernel

/-- Call blocks of zeros at G2: their completion goes to the area at G3; a HASH of no bytes at G5 is queued. -/
def calls : State :=
  let s := run (regs [(2, 0x2000), (3, 0x2200), (4, 0x2100)])
  { s with mem := { store := [(abs 0x2100, 0x1A)] } }

theorem test_witness_calls : Fetched calls 0 0 4 (fetched calls 4) ∧ ((fetched calls 4).eng 0).commit = none
    ∧ (fetched calls 4).twinned (veInst 0) = false ∧ (fetched calls 4).variant.czes ≠ 0
    ∧ isOk (callEffects (opened calls) 0 0 ⟨0, 2, 3, 0⟩ false) = true ∧ isOk (callEffects (opened calls) 0 0 ⟨0, 2, 3, 0⟩ true) = true
    ∧ isOk (callEffects (opened calls) 0 0 ⟨0, 4, 3, 0⟩ false) = true
    ∧ (((fetched calls 4).ctx 0).G 2).toNat % 64 = 0 ∧ (((fetched calls 4).ctx 0).G 3).toNat % 32 = 0
    ∧ ((aft.ctx 0).G 4).toNat % 64 ≠ 0 ∧ ((aft.ctx 0).G 3).toNat % 32 ≠ 0
    ∧ Variant.m64l.czes = 0 := by
  refine ⟨fetched_of _ _ (by decide +kernel) (by decide +kernel), ?_⟩
  decide +kernel

/-- Virtual engine 0 at an interruptible point with interruptions that can be presented: a program exception, and a signal. -/
def raised (prog : Bool) : State :=
  let c := ((regs []).setSb bEXM true).setK 5 8
  let s := run c
  { s with ves := [(0, { hasCtx := true, placed := true, stopped := false, on := some 0, cur := c
                         prog := if prog then some { code := 0x202, ilen := 4, ia := 0x1000 } else none, signals := [(1, 9)] })] }

theorem test_witness_interruptions : atPoint (raised true).quiet 0 = some 0 ∧ atPoint (raised false).quiet 0 = some 0
    ∧ (match nextIntr (raised true).quiet 0 with | some (.prog _) => true | _ => false) = true
    ∧ (match nextIntr (raised false).quiet 0 with | some (.signal 1 9) => true | _ => false) = true
    ∧ microRow 0x27 = true ∧ microRow 0x98 = true ∧ microRow 0x20 = false
    ∧ (let q := (raised false).quiet
       let t : Intr := .signal 1 9
       (q.ve 0).barrier = none ∧ inMain q 0 ((q.ctx 0).K 2).toNat 4096 = true ∧ inMain q 0 ((q.ctx 0).K 8).toNat 256 = true
       ∧ absOf q 0 (((q.ctx 0).K 2).toNat + 0x10 * t.cls) = some (abs 0x30)
       ∧ absOf q 0 (((q.ctx 0).K 2).toNat + 0x80 + 0x40 * t.cls) = some (abs 0x140) ∧ abs 0x140 % 64 = 0
       ∧ otherOwners q 0 (abs 0x30 / 64) = [] ∧ (ownView q 0 (abs 0x30 / 64)).2 = false
       ∧ entryWordOk (slice (ownView q 0 (abs 0x30 / 64)).1 (abs 0x30 % 64) 16) = true
       ∧ isOk ((intrLines q 0 t).foldlM (fun s x => storeReal s 0 0 x.1 x.2) (takeCommit q 0 0 [] false false false)) = true)
    ∧ entryWordOk (toBE 8 1 ++ zeros 8) = false := by
  decide +kernel

/-- Engine 1 of tower 0 is free, and virtual engine 1 can run. -/
def spare : State := { cur with ves := cur.ves ++ [(1, { hasCtx := true, placed := true, stopped := false })] }

theorem test_witness_engine_events : cur.live = true ∧ (cur.ve (veKey 0 0)).hasCtx = true ∧ (cur.ve 0).on.isSome = true ∧ (cur.ve 0).stopped = false
    ∧ (cur.ctx 0).sb bWT = false ∧ timerHolds (cur.ctx 0) = false ∧ engineFree spare.quiet 1 = true ∧ runnable spare.quiet (veKey 0 1) = true
    ∧ (spare.ve (veKey 0 1)).tower = towerOf 1 ∧ atPoint cur.quiet 0 = some 0 ∧ exceptionFirst (cur.ve 0) = false
    ∧ cur.twinned (veInst 0) = false ∧ (cur.ve 0).icount < 65536 ∧ (cur.ve 0).tbCommit + 2000 < 2 ^ 64
    ∧ mayDispatch (rollWindow spare.quiet (towerOf 1)) 0 (towerOf 1) = true ∧ engineFree (rollWindow spare.quiet (towerOf 1)) 1 = true
    ∧ runnable (rollWindow spare.quiet (towerOf 1)) (veKey 0 1) = true ∧ (cur.ctx 0).resumes 0x27 = false
    ∧ ({ cur with engines := [(0, { ve := some 0, steal := true })] }.eng 0).steal = true
    ∧ atPoint ({ cur with engines := [(0, { ve := some 0, steal := true })] } : State).quiet 0 = some 0 := by decide +kernel

/-- Fills of both kinds, dropped or not. -/
def filling (k : FillKind) (d : Bool) : State := { cur with engines := [(0, { ve := some 0, fills := [{ line := 5, kind := k, drop := d }] })] }

theorem test_witness_fills :
    ((filling .fetch false).eng 0).fills.find? (·.line == 5) = some { line := 5, kind := .fetch, drop := false }
    ∧ ((filling .load true).eng 0).fills.find? (·.line == 5) = some { line := 5, kind := .load, drop := true }
    ∧ ownersOf (filling .load false) 5 = []
    ∧ [FillKind.fetch, .load].all (fun k => match domeHave ((filling k false).quiet.setEng 0 { (filling k false).eng 0 with fills := [] }) 0 5 false with
        | .inr w => (l1Room w 0 5).isSome | .inl _ => false) = true := by decide +kernel

/-! ## Witnesses: requests -/

/-- An entry of 64 bytes with the opcode and the fields at their offsets. -/
def entry (op : Byte) (l : List (Nat × List Byte)) : List Byte := l.foldl (fun e x => patch e x.1 x.2) (op :: zeros 63)

/-- Function 1 in service with ring pair 0 enabled, as the driver leaves it. -/
def fn1 : Fn := { mse := true, bme := true, rings := [(0, { rqEn := true, cqEn := true, rqTail := 1, cqBase := 0x8000 })] }

/-- PF 0 in service with its command ring enabled. -/
def fn0 : Fn := { mse := true, bme := true, rings := [(0, { rqEn := true, cqEn := true, rqTail := 1, cqBase := 0x4000 })] }

/-- Key page 5 of instance 0, handle 0: slot 0 empty, slot 1 AES-128 for GCM, slot 2 exhausted, slot 3 HMAC-SHA-256 of class D, in use. -/
def keys : KV Page :=
  [(5, { inst := some 0, handle := 0, slots := [(1, { alg := 1, keylen := 16, state := 1, exportable := true, limit := 2 ^ 32 }),
    (2, { alg := 1, keylen := 16, state := 2, limit := 1, used := 1 }), (3, { alg := 3, keylen := 32, state := 1, limit := 100, used := 7, running := 1 })] })]

/-- The module with host functions, guarantees of each admission pool for instance 0, and the requests `l` in hand. -/
def asked (l : List Request) : State :=
  { cur with
    hp := { fns := [(0, fn0), (1, fn1)], vfEnable := true, vfMse := true, reqs := l }
    insts := [(0, { cur.inst 0 with keyPages := [5], shares := [(poolDisp * 16, { guarantee := 4 }), (poolXce * 16, { guarantee := 4 }),
      (poolCze * 16, { guarantee := 4 }), (poolSub * 16, { guarantee := 1 }), (16, { guarantee := 4 })] })]
    pages := keys }

/-- The same with no unit of any pool. -/
def poor (l : List Request) : State := { asked l with insts := [(0, { cur.inst 0 with keyPages := [5] })] }

/-- A request of function 1 and a command of PF 0, both of SEQ 7. -/
def req (e : List Byte) : Request := { fn := 1, k := 0, seq := 7, entry := e }
def cmd (e : List Byte) : Request := { fn := 0, k := 0, seq := 7, entry := e }

theorem test_witness_completion_entry : (asked [req (entry 1 [])]).req? 1 7 = some (req (entry 1 []))
    ∧ ((asked [req (entry 1 [])]).ring 1 0).held = [] ∧ (asked [req (entry 1 [])]).twinned 0 = false
    ∧ ringReady (asked []) 1 0 = true ∧ ((asked []).ring 1 0).intEn = false ∧ ringReady cur 1 0 = false
    ∧ (∃ c : Completion, c.result.length = 16) :=
  ⟨by decide +kernel, by decide +kernel, by decide +kernel, by decide +kernel, by decide +kernel, by decide +kernel,
    ⟨{ status := 0, result := zeros 16 }, by decide⟩⟩

/-- Ring 0 of function 1 while an entry is being read after `a` failures. -/
def reading (a : Nat) : State :=
  { asked [] with hp := { (asked []).hp with fns := [(0, fn0), (1, { fn1 with rings := [(0, { rqEn := true, cqEn := true, rqTail := 1, reading := some a })] })] } }

theorem test_witness_fetch : canFetch (asked []).quiet 1 0 = true ∧ canFetch (asked []).quiet 0 0 = true ∧ (reading 0).live = true
    ∧ (reading 0).admits 1 = true ∧ ((reading 0).setInst 0 {}).admits 1 = false ∧ (((reading 0).setInst 0 {}).ring 1 0).reading = some 0
    ∧ (reading 0).hp.stopped = false ∧ ((reading 0).ring 1 0).reading = some 0 ∧ (entry 4 []).length = 64
    ∧ entryCheck (takeEntry (reading 0).quiet 1 0 (entry 0xFF [])).2 1 (entry 0xFF []) = some (.opcodeUndefined, 0)
    ∧ entryCheck (takeEntry (reading 0).quiet 1 0 (entry 4 [])).2 1 (entry 4 []) = none := by decide +kernel

theorem test_witness_entry_checks : requestForm (entry 0xFF []) = none ∧ commandForm .m128 (entry 0 []) = none
    ∧ needsAbsent { variant := .m64l } 1 (entry 0x20 []) = true ∧ (requestForm (entry 0x20 [])).isSome = true
    ∧ needsAbsent (asked []) 1 (entry 4 []) = false ∧ (requestForm (entry 4 [])).map (formFault (entry 4 [])) = some none
    ∧ (requestForm (entry 4 [(2, [0, 64])])).map (formFault (entry 4 [(2, [0, 64])])) = some (some 2)
    ∧ (commandForm .m128 (entry 0x46 [(63, [1])])).map (formFault (entry 0x46 [(63, [1])])) = some (some 63) := by decide +kernel

/-- A STORE_WRITE whose source is being read after `a` failures. -/
def sourcing (a : Nat) : State := asked [{ req (entry 2 [(24, toBE 4 64)]) with stage := .running, attempts := a }]

theorem test_witness_failed_reads : ((reading 1).ring 1 0).reading = some 1 ∧ ((reading 2).ring 1 0).reading = some 2
    ∧ (sourcing 1).live = true ∧ (sourcing 1).hp.stopped = false ∧ ((sourcing 1).req? 1 (7#32).toNat).isSome = true
    ∧ ((sourcing 2).req? 1 (7#32).toNat).map Request.attempts = some 2 ∧ running win.quiet 0 = some 0
    ∧ (reading 2).admits 1 = true ∧ ((sourcing 1).fn 1).bme = true ∧ ((sourcing 2).req? 1 (7#32).toNat).map (fun r => (r.closing, r.admitting)) = some (false, false)
    ∧ (let s := { sourcing 2 with xce := { jobs := [{ inst := 0, seq := 7, entry := entry 0x1A [] }] } }
       (s.xce.jobs.find? fun j => j.area.isNone && j.inst + 1 == 1 && j.seq == 7).isSome = true ∧ s.cze.jobs = [])
    ∧ (let s := { win with engines := [(0, { ve := some 0, winFails := 2 })] }
       running s.quiet 0 = some 0 ∧ (s.eng 0).winFails = 2
       ∧ (match translate s.quiet 0 0 .load 0x20000000000 with | .ok (.window _ _, t) => (t.eng 0).winFails == 2 | _ => false) = true)
    ∧ (match translate win.quiet 0 0 .load 0x20000000000 with | .ok (.window _ _, _) => true | _ => false) = true := by decide +kernel

theorem test_witness_messaging :
    (takeReq (asked [req (entry 1 [(3, [0])])]).quiet 1 7 1).isSome = true ∧ ((asked []).ve (veKey 0 0)).placed = true
    ∧ takeUnit (asked [req (entry 1 [])]) 0 poolDisp 0 ≠ .no ∧ (takeReq (poor [req (entry 1 [])]).quiet 1 7 1).isSome = true
    ∧ takeUnit (poor [req (entry 1 [])]) 0 poolDisp 0 = .no ∧ ((asked []).ve (veKey 0 63)).placed = false
    ∧ (takeReq (asked [req (entry 1 [(3, [63])])]).quiet 1 7 1).isSome = true
    ∧ (takeReq (asked [req (entry 4 [])]).quiet 1 7 4).isSome = true
    ∧ (takeReq (asked [req (entry 2 [(24, toBE 4 64)])]).quiet 1 7 2).isSome = true
    ∧ rangeBacked (asked []) 0 0 64 = true ∧ rangeBacked (asked []) 0 0xFFC1 64 = false ∧ ((asked []).fn 1).bme = true
    ∧ stagedBytes (entry 2 [(1, [0x80]), (24, toBE 4 64)]) ≠ 0 ∧ stagingFits (asked []) (entry 2 [(1, [0x80]), (24, toBE 4 64)]) = true
    ∧ (takeReq (asked [req (entry 3 [(28, toBE 4 64)])]).quiet 1 7 3).isSome = true
    ∧ (let s := asked [{ req (entry 2 [(1, [0x80]), (24, toBE 4 64)]) with stage := .staging }]
       s.live = true ∧ s.quiet.xce.jobs = [] ∧ s.quiet.cze.jobs = [] ∧ (s.req? 1 7).map Request.stage = some .staging
       ∧ stagingFits s (entry 2 [(1, [0x80]), (24, toBE 4 64)]) = true)
    ∧ (let s := asked ((List.range 32).map fun n => { req (entry 2 [(1, [0x80]), (24, toBE 4 1048576)]) with seq := n, stage := .running })
       stagingFits s (entry 2 [(1, [0x80]), (24, toBE 4 64)]) = false) := by decide +kernel

/-- A transfer that has ended. -/
def moved (fn : Nat) (e : List Byte) (d : List Byte) : State := asked [{ fn := fn, k := 0, seq := 7, entry := e, stage := .running, data := d }]

theorem test_witness_transfers :
    (let s := moved 1 (entry 2 [(24, toBE 4 64)]) []
     s.live = true ∧ s.hp.stopped = false ∧ s.bel.fatal = false ∧ (s.fn 1).bme = true ∧ instOwners s.quiet 0 0 64 = []
     ∧ partialEnds s.quiet 0 0 64 = [] ∧ (zeros 64).length = reqSrcLen (entry 2 [(24, toBE 4 64)]))
    ∧ partialEnds (moved 1 [] []) 0 1 62 ≠ [] ∧ (partialEnds (moved 1 [] []) 0 1 62).all (fun l => !(committed (moved 1 [] []) l).2) = true
    ∧ reqChk (entry 2 [(1, [0x80])]) = true ∧ (crc32c (zeros 64)).toNat ≠ reqCheck (entry 2 [(1, [0x80])])
    ∧ instOwners (moved 1 (entry 3 [(28, toBE 4 64)]) []).quiet 0 0 64 = [] ∧ instPoison (moved 1 (entry 3 [(28, toBE 4 64)]) []).quiet 0 0 64 = none
    ∧ ((moved 1 (entry 0x31 []) (zeros 24)).req? 1 7).map (fun r => reqOp r.entry) = some 0x31
    ∧ ((moved 0 (entry 0x63 []) (zeros 64)).req? 0 7).map (fun r => reqOp r.entry) = some 0x63
    ∧ ((moved 0 (entry 0x60 []) []).updInst 0 fun x => { x with exporting := some {} }).inst 0 ≠ (moved 0 (entry 0x60 []) []).inst 0
    ∧ takeFrames 16 (64 - 0) (zeros 80) ≠ [] ∧ reqSrcLen (entry 0x61 [(24, toBE 4 80)]) = (zeros 80).length := by decide +kernel

/-- Cipher requests on slot `n` of handle 0. -/
def gcm (n : Byte) : List Byte := entry 0x10 [(3, [n]), (24, toBE 4 16), (28, toBE 4 64), (36, [16])]

theorem test_witness_cipher :
    [(0x10 : Byte), 0x11, 0x12, 0x13, 0x14, 0x15, 0x16, 0x17, 0x18, 0x19, 0x1A].all (fun op => (takeReq (asked [req (entry op [])]).quiet 1 7 op.toNat).isSome) = true
    ∧ cipherStatus (asked []) 0 (gcm 0) = some (.keyAbsent, 0) ∧ cipherStatus (asked []) 0 (gcm 1) = none
    ∧ groupEngines (asked []) false 0 ≠ [] ∧ takeUnit (asked []) 0 poolXce 0 ≠ .no ∧ takeUnit (poor []) 0 poolXce 0 = .no
    ∧ pageOf (asked []) 0 (tgtHandle (gcm 1)) = some 5 ∧ pageOf (asked []) 0 (tgtHandle (gcm 0x10)) = none
    ∧ (let x := (asked []).slot 5 1
       x.state ≠ 0 ∧ serves x.alg 0x10 = true ∧ serves x.alg 0x18 = false ∧ tagLenOk x.alg 0x10 16 = true ∧ keyExhausted x (gcm 1) = false)
    ∧ keyExhausted ((asked []).slot 5 2) (gcm 2) = true ∧ serves ((asked []).slot 5 2).alg 0x10 = true := by decide +kernel

/-- KEY_LOAD of a plaintext key. -/
def plainLoad (alg : Byte) (len : Nat) (n : Byte) : List Byte := entry 0x30 [(3, [n]), (36, [alg, 1]), (48, toBE 2 len)]

theorem test_witness_keys :
    [(0x30 : Byte), 0x31, 0x32, 0x33].all (fun op => (takeReq (asked [req (entry op [(3, [1])])]).quiet 1 7 op.toNat).isSome) = true
    ∧ pageOf (asked []) 0 0 = some 5 ∧ ((asked []).fn 1).bme = true ∧ bit (par (plainLoad 1 16 0) 37) 0 = true
    ∧ (asked []).img.plainKeys = false ∧ ({ asked [] with img := { plainKeys := true } } : State).img.plainKeys = true
    ∧ ((asked []).slot 5 0).running = 0 ∧ ((asked []).slot 5 3).running = 1
    ∧ par (plainLoad 3 32 0) 36 = 3 ∧ (((asked []).slot 5 0).staging.take 32).take 16 = (((asked []).slot 5 0).staging.take 32).drop 16
    ∧ ((asked []).slot 5 0).state = 0 ∧ ((asked []).slot 5 1).exportable = true ∧ ((asked []).slot 5 2).exportable = false
    ∧ reqDstLen (entry 0x31 [(28, toBE 4 24)]) = ((asked []).slot 5 1).keylen + 8
    ∧ ((asked []).slot 5 3).classD = true ∧ ((asked []).slot 5 1).classD = false
    ∧ fieldBE (entry 0x33 [(40, toBE 8 7)]) 40 8 = ((asked []).slot 5 3).used ∧ fieldBE (entry 0x33 [(40, toBE 8 99)]) 40 8 < ((asked []).slot 5 3).limit := by
  decide +kernel

/-- A hash job and a compression job of instance 0 in their queues. -/
def hashJob : Job := { inst := 0, seq := 7, entry := entry 0x1A [(36, [1])] }
def zipJob : Job := { inst := 0, seq := 7, entry := entry 0x20 [(28, toBE 4 64), (37, [1])] }
def jobs : State := { asked [req hashJob.entry] with xce := { jobs := [hashJob] }, cze := { jobs := [zipJob] } }

/-- The job of priority 3 that waits while one of priority 0 runs on each engine of the group. -/
def crowded : State :=
  { asked [] with
    img := { groups := [1] }
    xce := { jobs := [{ hashJob with st := .running 0 }, { hashJob with seq := 8, entry := entry 0x1A [(1, [0x18]), (36, [1])] }] } }

theorem test_witness_job_starts :
    (takeReq (asked [req (entry 0x20 [])]).quiet 1 7 0x20).isSome = true ∧ (takeReq (asked [req (entry 0x21 [])]).quiet 1 7 0x21).isSome = true
    ∧ compressFault (asked []) (entry 0x20 [(3, [1])]) = some 2 ∧ compressFault (asked []) zipJob.entry = none
    ∧ groupEngines (asked []) true 0 ≠ [] ∧ takeUnit (asked []) 0 poolCze 0 ≠ .no ∧ takeUnit (poor []) 0 poolCze 0 = .no
    ∧ jobs.live = true ∧ 0 < accelCount jobs false ∧ takesJobs jobs false 0 = true ∧ jobOn jobs false 0 = none ∧ (nextJob jobs false 0).isSome = true
    ∧ 0 < accelCount jobs true ∧ takesJobs jobs true 0 = true ∧ jobOn jobs true 0 = none ∧ (nextJob jobs true 0).isSome = true
    ∧ crowded.live = true ∧ takesJobs crowded false 0 = true ∧ (nextJob crowded false 0).map Job.seq = some 8
    ∧ (jobOn crowded false 0).map Job.seq = some 7
    ∧ ((groupEngines crowded false 0).all fun q => (jobOn crowded false q).isSome) = true ∧ (victim crowded 0 3).map Job.seq = some 7 := by
  decide +kernel

/-- Jobs on engine 0 of each kind: HASH of a host request, KEY_RETIRE of a call, COMPRESS and DECOMPRESS. -/
def onEngine (x z : Job) : State :=
  { asked [req x.entry] with xce := { jobs := [{ x with st := .running 0 }] }, cze := { jobs := [{ z with st := .running 0 }] } }
def retireJob : Job := { inst := 0, seq := 7, entry := entry 0x32 [], area := some 0x2000 }
def unzipJob : Job := { zipJob with entry := entry 0x21 [(24, toBE 4 5), (28, toBE 4 64)] }

/-- Does a job's data come whole? -/
def dataOk (s : State) (j : Job) : Bool := match jobData s j [] [] none with | .ok _ _ => true | .failed .. => false

theorem test_witness_job_ends :
    (let s := onEngine hashJob zipJob
     s.live = true ∧ (jobOn s false 0).isSome = true ∧ (jobOn s true 0).isSome = true ∧ jobWaits s hashJob = false ∧ jobOwners s hashJob = []
     ∧ jobWaits s zipJob = false ∧ jobOwners s zipJob = [] ∧ dataOk s hashJob = true ∧ dataOk s zipJob = true ∧ chkOk hashJob.entry [] = true
     ∧ chkOk (entry 0x1A [(1, [0x80]), (35, [1])]) [] = false ∧ reqOp hashJob.entry < 0x30 ∧ chkOk zipJob.entry [] = true)
    ∧ (let s := onEngine retireJob unzipJob
       (jobOn s false 0).isSome = true ∧ jobWaits s retireJob = false ∧ jobOwners s retireJob = [] ∧ dataOk s retireJob = true
       ∧ 0x30 ≤ reqOp retireJob.entry ∧ dataOk s unzipJob = true)
    ∧ (let j : Job := { inst := 0, seq := 7, entry := entry 0x10 [(36, [16])], page := 5, slot := 2 }
       nonceJob j = true ∧ ((onEngine j zipJob).slot 5 2).state = 2 ∧ (jobOn (onEngine j zipJob) false 0).isSome = true ∧ jobWaits (onEngine j zipJob) j = false
       ∧ jobOwners (onEngine j zipJob) j = [] ∧ dataOk (jobZones (onEngine j zipJob) j) j = true ∧ chkOk j.entry [] = true ∧ nonceJob hashJob = false)
    ∧ (match inflate 0 [1, 0, 0, 0xFF, 0xFF] 64 with | .ok r => r.out.size == 0 | .error _ => false) = true
    ∧ (match inflate 0 [1, 1, 0, 0xFE, 0xFF, 0x41] 0 with | .error (.full _) => true | _ => false) = true
    ∧ (match inflate 0 [7] 64 with | .error (.stream _ _) => true | _ => false) = true := by decide +kernel

/-! ## Witnesses: manager commands -/

/-- Command `e` has its turn, instance 0 being `x`. -/
def told (e : List Byte) (x : Inst) : State := { asked [cmd e] with insts := [(0, x)], ves := [], engines := [] }

/-- Does the command's turn come, and does the instance accept it? -/
def turn (op : Byte) (x : Inst) : Bool × Bool :=
  ((takeCmd (told (entry op []) x).quiet 7 op.toNat).isSome, accepts op.toNat ((told (entry op []) x).inst 0))

theorem test_witness_turns :
    [0x41, 0x42, 0x43, 0x44, 0x45, 0x52, 0x60, 0x61, 0x62, 0x63, 0x64].all (fun op => turn op {} == (true, false)) = true
    ∧ turn 0x46 { role := .secondary } = (true, true)
    ∧ [0x50, 0x51].all (fun op => turn op { st := .faulted } == (true, false)) = true
    ∧ stateFields (told (entry 0x50 []) {}).quiet (entry 0x50 []) = none
    ∧ (told [] { st := .running }).spire.push.marker = false ∧ (told [] { st := .running }).inst 0 ≠ {}
    ∧ (let s := told (entry 0x41 []) {}
       (s.ring 0 0).held = [] ∧ (s.req? 0 7).isSome = true ∧ s.bel.stopped = false) := by decide +kernel

theorem test_witness_life :
    turn 0x40 {} = (true, true) ∧ turn 0x41 { st := .defined } = (true, true) ∧ turn 0x43 { st := .quiesced } = (true, true)
    ∧ turn 0x42 { st := .running } = (true, true) ∧ turn 0x44 { st := .faulted } = (true, true) ∧ turn 0x45 { st := .exported } = (true, true)
    ∧ (told [] {}).spire.push.marker = false ∧ subsIn (told [] {}) 0 (· == .held) = [] ∧ unended (told [] { st := .quiesced }) 0 = false
    ∧ (told [] {}).twinned 0 = false
    ∧ unended { told [] { st := .quiesced } with css := { subs := [(0, { st := .active })] } } 0 = true
    ∧ (let s := { told [] { st := .quiescing } with hp := { reqs := [{ cmd (entry 0x42 []) with stage := .running }] } }
       s.live = true ∧ (commandOn s.quiet 0 0x42).isSome = true ∧ quietInst s.quiet 0 = true) := by decide +kernel

/-- SET_ENGINES of one virtual engine on tower 0 with entitlement 16, and RESIZE of the dispatch pool to 2 with no shared cap. -/
def place : List Byte := entry 0x50 [(38, [1]), (40, toBE 2 16)]
def size (b : Byte) (g : Nat) : List Byte := entry 0x51 [(36, [b]), (40, toBE 4 g)]

theorem test_witness_placement :
    (takeCmd (told place { st := .defined }).quiet 7 0x50).isSome = true ∧ stateFields (told place { st := .defined }).quiet place = none
    ∧ accepts 0x50 { st := .defined } = true
    ∧ (let w := (told place { st := .defined }).quiet
       poolGuaranteed w 1 0 - ((w.inst 0).share 1 0).guarantee + 16 ≤ poolTotal w 1 0 ∧ slotsKept w 0 0 0 1 + 1 ≤ 480 ∧ 17 ≤ goodFree w 0
       ∧ poolTotal w 1 0 < poolGuaranteed w 1 0 - ((w.inst 0).share 1 0).guarantee + 65535)
    ∧ (let s := told (size 8 2) { st := .running }
       (takeCmd s.quiet 7 0x51).isSome = true ∧ stateFields s.quiet (size 8 2) = none ∧ accepts 0x51 (s.inst 0) = true ∧ s.spire.stopped = false
       ∧ s.twin.st ≠ .paired ∧ admission 8 = true ∧ overShare s.quiet 0 8 0 2 0 = false ∧ overShare s.quiet 0 8 0 70000 0 = true
       ∧ (match moveUnits s.quiet 0 8 0 2 with | .ok _ => true | _ => false) = true
       ∧ (match moveUnits s.quiet 0 2 0 70000 with | .ok _ => true | _ => false) = false)
    ∧ admission 2 = false ∧ ((told [] { st := .running, shares := [(32, { guarantee := 3 })] }).inst 0).share 2 0 = { guarantee := 3 }
    ∧ shrinkWaits (told [] {}) 0 8 0 2 0 0 = false
    ∧ (let s := told [] { shrinks := [{ pool := 8, tower := 0, seq := 9 }] }
       s.live = true ∧ ((s.inst 0).shrinks.find? fun k => !shrinkWaits s.quiet 0 k.pool k.tower ((s.inst 0).share k.pool k.tower).guarantee
          ((s.inst 0).share k.pool k.tower).cap k.tb) = some { pool := 8, tower := 0, seq := 9 }) := by decide +kernel

theorem test_witness_queries :
    turn 0x46 {} = (true, true) ∧ (takeCmd (told (entry 0x53 [(36, [1])]) {}).quiet 7 0x53).isSome = true ∧ turn 0x52 { st := .quiesced } = (true, true)
    ∧ turn 0x62 { st := .running } = (true, true) ∧ turn 0x64 { st := .running, log := some {} } = (true, true)
    ∧ turn 0x63 { st := .running, log := some { dirty := [3] } } = (true, true)
    ∧ (let s := told [] { st := .running, log := some { dirty := [3] } }
       0 < (harvestBytes s.quiet 0 { dirty := [3] }).length ∧ (harvestBytes s.quiet 0 { dirty := [3] }).length ≤ 65536)
    ∧ (let s := { told (entry 0x68 [(28, toBE 4 128)]) {} with bel := { log := [{ eseq := 4 }, { eseq := 5 }] } }
       (takeCmd s.quiet 7 0x68).isSome = true ∧ s.bel.stopped = false ∧ (logFrom s.bel 4 2).map LogEntry.eseq = [4, 5] ∧ logFrom s.bel 6 2 = [])
    ∧ (takeCmd (told (entry 0x69 [(36, [6])]) {}).quiet 7 0x69).isSome = true := by decide +kernel

/-- A package key in domain slot 0. -/
def keyed (e : List Byte) (x : Inst) : State := { told e x with spire := { dkeys := [some (zeros 32), none, none, none] } }

theorem test_witness_migration :
    turn 0x60 { st := .quiesced } = (true, true) ∧ dkeyOf (told [] {}) 0 = none ∧ (dkeyOf (keyed [] {}) 0).isSome = true
    ∧ (keyed [] {}).spire.stopped = false ∧ turn 0x61 { st := .defined } = (true, true)
    ∧ fieldBE (entry 0x60 [(47, [1])]) 40 8 ≠ 0 ∧ (keyed [] { st := .quiesced }).inst 0 ≠ {} ∧ ((keyed [] { st := .quiesced }).inst 0).exporting = none
    ∧ (keyed [] { st := .exported, exporting := some { dkey := 1 } }).inst 0 ≠ {} ∧ (1 : Nat) % 1048576 ≠ 0
    ∧ turn 0x60 { st := .exported, exporting := some { dkey := 1 } } = (true, true)
    ∧ turn 0x61 { st := .defined, importing := some { offset := 1048576 } } = (true, true) := by decide +kernel

/-- A twin command has its turn with the twin unit in `t`. -/
def twinned (e : List Byte) (t : Twin) (x : Inst) : State := { keyed e x with twin := t }

theorem test_witness_twin_commands :
    [0x70, 0x71, 0x72, 0x73, 0x74].all (fun op => (takeCmd (twinned (entry op []) {} {}).quiet 7 op.toNat).isSome) = true
    ∧ (let s := twinned (entry 0x71 []) { st := .linked, partnerPairs := some true } {}
       s.twin.pairing = none ∧ s.spire.stopped = false ∧ (dkeyOf s 0).isSome = true)
    ∧ (let s := twinned (entry 0x71 []) { st := .alone, link := 2 } {}
       s.twin.st = .alone ∧ 2 ≤ s.twin.link ∧ s.twin.partnerPairs = none ∧ (dkeyOf s 0).isSome = true)
    ∧ (twinned (entry 0x71 []) { st := .linked, partnerPairs := some false } {}).twin.partnerPairs = some false
    ∧ (let s := twinned (entry 0x72 []) { st := .paired } { st := .running, main := [{ num := 0 }] }
       s.twin.st = .paired ∧ (s.inst 0).role = .local_ ∧ (s.inst 0).importing = none ∧ (s.inst 0).main.any (fun g => !g.mir) = true)
    ∧ (let s := twinned (entry 0x72 []) { st := .paired } { st := .running, main := [{ num := 0, mir := true }] }
       (s.inst 0).main.any (fun g => !g.mir) = false ∧ (s.inst 0).bulk.any (fun g => !g.mir) = false)
    ∧ (let s := twinned (entry 0x73 []) { st := .paired } { st := .quiesced, role := .primary }
       (s.inst 0).role = .primary ∧ (s.inst 0).st = .quiesced)
    ∧ (let s := twinned (entry 0x74 []) { st := .alone, unanswered := true, partner := some 0 } {}
       s.twin.partner = some (fieldBE (entry 0x74 []) 40 8) ∧ fieldBE (entry 0x74 [(47, [1])]) 40 8 ≠ 0) := by decide +kernel

theorem test_witness_images :
    [0x78, 0x79, 0x7A, 0x7B, 0x7C, 0x7D, 0x7E].all (fun op => (takeCmd (told (entry op []) {}).quiet 7 op.toNat).isSome) = true
    ∧ (told [] {}).spire.stopped = false ∧ (told [] {}).spire.inForce = 0
    ∧ (let s := { told [] {} with spire := { slotB := { image := some (.bytes (zeros 256)), marker := true }, push := { image := none } } }
       regionHeader s (region s 1) ≠ [] ∧ regionState (region s 1) = 1 ∧ regionHeader s (region s 2) = [] ∧ regionState (region s 2) ≠ 1)
    ∧ (zeros 1).length = reqSrcLen (entry 0x79 [(24, toBE 4 1)])
    ∧ (∀ x ∈ ([] : KV Inst), x.2.st = .free) ∧ (((told [] { st := .defined }).insts.find? fun y => y.2.st != .free).isSome = true)
    ∧ (let s := { told [] {} with
         hp := { reqs := [{ cmd (entry 0x79 []) with stage := .running }] }
         spire := { slotB := { writing := some 7, new := [1] } } }
       (List.range 3).find? (fun k => (region s k).writing == some 7) = some 1 ∧ (s.req? 0 7).isSome = true ∧ s.live = true ∧ s.hp.stopped = false)
    ∧ ({ told [] {} with tst := { calBuffer := some [1], calWriter := some 7 } } : State).tst.calBuffer = some [1] := by decide +kernel

/-- CAL_WRITE of a page that is refused: it does not bear its magic. -/
theorem test_witness_calibration : ((calFault (told [] {}) (List.replicate 4096 0)).or (calReserved (List.replicate 4096 0))).isSome = true
    ∧ (List.replicate 4096 (0 : Byte)).length = 4096 := by decide +kernel

/-! ## Witnesses: the host port -/

/-- Function 1 served, its ring pair 0 enabled or not. -/
def ringed (en : Bool) : State :=
  { asked [] with
    insts := [(0, { (asked []).inst 0 with ringPairs := 1, vectors := 2 })]
    hp := { (asked []).hp with fns := [(0, fn0), (1, { fn1 with
      msixEn := true, vecs := [(0, { masked := true, pba := true })]
      rings := [(0, { rqEn := en, cqEn := en, intEn := true, coalTime := 1, gathered := 1 })] })] } }

theorem test_witness_host_registers :
    (ringed true).reach 1 = .served ∧ (ringed true).hasRing 1 0 = true ∧ (ringed true).reach 0 = .served ∧ (ringed true).hasRing 0 0 = true
    ∧ ((ringed true).ring 1 0).rqEn = true ∧ ((ringed false).ring 1 0).rqEn = false ∧ ((ringed false).ring 1 0).cqEn = false
    ∧ (63 + 2 ^ 6 - 0) % 2 ^ 6 > (0 + 2 ^ 6 - 0) % 2 ^ 6 ∧ 2 ^ 6 ≤ 64 ∧ ((ringed true).ring 1 0).reading = none
    ∧ (fieldBE (toBE 8 (0x80060000)) 0 8 / 2 ^ 16 % 16 = 6 ∧ (fieldBE (toBE 8 0x80060000) 0 8).testBit 31 = true)
    ∧ fieldBE (toBE 8 (0x1C0000)) 0 8 / 2 ^ 16 % 16 = 12 ∧ fieldBE (toBE 8 0xD0000) 0 8 / 2 ^ 16 % 16 = 13
    ∧ (1 < (ringed true).vectors 1) ∧ ((ringed true).inst 0).keyPages[0xFFF / 4096]? = some 5
    ∧ (ringed true).img.plainKeys = false ∧ kvGet {} ((ringed true).fn 1).vecs 0 = { masked := true, pba := true }
    ∧ ((ringed true).fn 1).msixEn = true ∧ ((ringed true).fn 1).fmask = false ∧ ((ringed true).fn 1).bme = true
    ∧ (kvGet ({} : Msix) ((ringed true).fn 1).vecs 15).pba = false
    ∧ (ringed true).live = true ∧ ((ringed true).ring 1 0).intEn = true ∧ ((ringed true).ring 1 0).coalTime ≠ 0 ∧ ((ringed true).ring 1 0).gathered ≠ 0
    ∧ (ringed true).hp.stopped = false ∧ (ringed true).present 1 = true ∧ (ringed true).present 512 = true ∧ cur.present 1 = false
    ∧ ((ringed true).setFn 1 { (ringed true).fn 1 with flr := true }).reach 1 = .ignored ∧ cur.reach 1 = .unsupported ∧ 65528 % 8 = 0 ∧ (3 : Nat) ∉ [1, 2, 4, 8]
    ∧ (ringed true).present 513 = false := by decide +kernel

theorem test_witness_host_resets : (ringed true).live = true ∧ (ringed true).hp.stopped = false ∧ (ringed true).present 1 = true
    ∧ (ringed true).hp.vfEnable = true ∧ ((ringed true).fn 1).flr = false
    ∧ ((((ringed true).setFn 0 { d3hot := true }).fn 0).d3hot = true) := by decide +kernel

/-- Writes of each size at the ends of the register, that change SIZE and that do not. -/
theorem test_witness_enabled_rings :
    (ringed true).reach 1 = .served ∧ (ringed true).hasRing 1 0 = true ∧ ((ringed true).ring 1 0).rqEn = true ∧ ((ringed true).ring 1 0).cqEn = true
    ∧ ((ringed false).ring 1 0).rqEn = false
    ∧ (let r := (ringed true).ring 1 0
       let size (v : Nat) (o : Nat) (d : List Byte) : Nat := beNat (patch (toBE 8 v) o d) / 2 ^ 16 % 16
       size r.rqCtl 5 [0x06] = r.rqSize ∧ size r.rqCtl 5 [0x0C] = 12 ∧ size r.rqCtl 4 [0, 0x0D] = 13 ∧ size r.cqCtl 0 (toBE 8 0x80060000) = 6
       ∧ size r.cqCtl 4 [0x80, 0x06, 0, 0] = 6 ∧ size r.cqCtl 5 [5] = 5
       ∧ beNat (patch (toBE 8 r.cqCtl) 5 [0x26]) / 2 ^ 20 % 16 = 2 ∧ (ringed true).vectors 1 = 2)
    ∧ (beNat (patch (toBE 8 ((ringed false).ring 1 0).rqCtl) 4 [0x80, 0x06])).testBit 31 = true := by decide +kernel

/-! ## Witnesses: the Spire, SMBus and self-test -/

/-- A Spire with its head signed, or a nonce in each lane. -/
def spired (p : Spire) : State := { asked [] with spire := p, hp := { fns := [(0, fn0)], doe := { busy := p.doeNonce.isSome } } }

theorem test_witness_attestation : doeReady (spired {}) = true ∧ (spired {}).spire.stopped = false ∧ (spired { stopped := true }).spire.stopped = true
    ∧ doeReady (spired { stopped := true }) = true
    ∧ [4, 8, 24, 40, 32].all (fun n => (zeros n).length == n) = true ∧ ((zeros 4).getD 0 0).toNat = 0 ∧ (([5, 0, 0, 0] : List Byte).getD 0 0).toNat = 5
    ∧ (spired { headSigned := true }).spire.headSigned = true ∧ fieldBE (zeros 24) 16 1 = 0 ∧ fieldBE (zeros 16 ++ [64] ++ zeros 7) 16 1 = 64
    ∧ fieldBE (zeros 16 ++ [65] ++ zeros 7) 16 1 = 65
    ∧ (let s := spired { doeNonce := some (.asked [1]), smbNonce := some (.asked [2]) }
       s.live = true ∧ s.spire.doeNonce = some (.asked [1]) ∧ s.hp.doe.busy = true ∧ s.hp.stopped = false ∧ s.spire.smbNonce = some (.asked [2])) := by decide +kernel

theorem test_witness_side_band : smbusUp cur = true ∧ smbusUp State.reset = false ∧ (zeros 9).length = 9 ∧ fieldBE ([4] ++ zeros 8) 0 1 = 4
    ∧ cur.spire.smbNonce = none ∧ (zeros 32).length = 32 ∧ 3 ≤ (zeros 243).length ∧ (zeros 243).length ≤ 243 ∧ cur.spire.stopped = false
    ∧ (spired { pkgState := 1 }).spire.pkgState = 1
    ∧ (let s := { cur with bel := { selSticky := true, sticky := [{}] } }
       s.bel.selSticky = true ∧ s.bel.sticky[s.bel.sel]? = some {})
    ∧ (let s := { cur with bel := { log := [{ eseq := 3 }], sel := 2 } }
       s.bel.selSticky = false ∧ (s.bel.log.find? fun e => decide (s.bel.sel ≤ e.eseq)) = some { eseq := 3 })
    ∧ ({ cur with tst := { hubLatch := some (3, ⟨4, 1, 0⟩) } } : State).tst.hubLatch = some (3, ⟨4, 1, 0⟩)
    ∧ cur.tst.hubLatch = none ∧ TapInsn.bypass ≠ .idcode := by decide +kernel

/-- SELFTEST_RUN of cipher engine 2 or of engine 5, with the tests `l` running. -/
def tested (e : List Byte) (l : List TestRun) : State := { told e {} with tst := { running := l } }
def testOf (src : Byte) (u : Nat) : List Byte := entry 0x75 [(36, [src]), (38, toBE 2 u)]

theorem test_witness_self_test :
    (let s := tested (testOf 9 2) [{ unit := ⟨9, 2, 0⟩ }]
     (takeCmd s.quiet 7 0x75).isSome = true ∧ s.tst.stopped = false ∧ (s.tst.running.find? fun x => x.unit == ⟨9, 2, 0⟩).isSome = true)
    ∧ (let s := tested (testOf 9 2) []
       (takeCmd s.quiet 7 0x75).isSome = true ∧ jobOn s false 2 = none ∧ par (testOf 9 2) 36 = 9 ∧ fieldBE (testOf 9 2) 38 2 = 2)
    ∧ (let s := { tested (testOf 1 5) [] with engines := [(5, { fenced := true })] }
       (takeCmd s.quiet 7 0x75).isSome = true ∧ (s.eng (engineOfUnit 5)).fenced = true ∧ (s.eng (engineOfUnit 5)).ve = none)
    ∧ (let s := tested (testOf 1 5) []
       (s.eng (engineOfUnit 5)).fenced = false ∧ (s.eng (engineOfUnit 5)).role = .dispatch ∧ idleSpare s (towerOf (engineOfUnit 5)) = none)
    ∧ [0x76, 0x77, 0x7F].all (fun op => (takeCmd (told (entry op []) {}).quiet 7 op.toNat).isSome) = true
    ∧ (par (entry 0x77 [(36, [2])]) 36).testBit 1 = true ∧ (par (entry 0x77 [(36, [1])]) 36).testBit 1 = false
    ∧ reqDstLen (entry 0x7F []) = 0 ∧ reqDstLen (entry 0x7F [(28, toBE 4 64)]) ≠ 0 ∧ par (entry 0x7F [(36, [1])]) 36 = 1
    ∧ (let s := asked []
       s.bel.fatal = false ∧ s.tst.rollOff = false ∧ s.clk.power = 0 ∧ rotationBusy s ⟨9, 0, 0⟩ = false ∧ rollable s ⟨9, 0, 0⟩ = true
       ∧ jobOn s false 0 = none ∧ s.live = true ∧ s.tst.stopped = false) := by decide +kernel

/-! ## Witnesses: faults, and units that stop -/

/-- Engine 0 in recovery, and engine 3 an idle structural spare. -/
def failing (ph : EPhase) : State := { cur with engines := [(0, { ve := some 0, phase := ph, recovery := { since := 5, ve := some 0 } }), (3, { role := .spare })] }

/-- Dome 0 holds lines 5 in E and 6 in M; engine 0 holds line 5. -/
def cached : State :=
  { cur with
    engines := [(0, { ve := some 0, l1d := [{ line := 5, st := .E }], l1i := [7] })]
    domes := [(0, { lines := [{ line := 5, st := .E, way := 0 }, { line := 6, st := .M, way := 0, data := zeros 64 }] })] }

theorem test_witness_recovery : cur.live = true ∧ (cur.eng 0).fenced = false ∧ (cur.eng 0).phase = .run ∧ towerOf 0 < cur.variant.towers
    ∧ towerOf 135 < Variant.m128.towers ∧ (cur.eng 0).role = .dispatch ∧ (cur.eng 0).lastStop = none
    ∧ damaged cur 0 = false ∧ lineExists cur 0x3FFFFF = true ∧ lineExists cur 5 = true
    ∧ ({ cur with mem := { poison := [5] } } : State).mem.poison.contains 5 = true
    ∧ (({ cur with mem := { checks := { buffer := [{ stack := 1, block := 2, fields := [], changed := some 9 }] } } } : State).mem.checks.find 1 2).bind (·.changed)
      = some 9
    ∧ (let s := { cur with engines := [(0, { ve := some 0, lastStop := some 0 })], clk := { phase := .run, tb := 100000000 } }
       (s.eng 0).lastStop = some 0 ∧ 0 + 100000000 ≤ s.clk.tb)
    ∧ (let s := failing .quickCheck
       (s.eng 0).fenced = false ∧ (s.eng 0).phase = .quickCheck ∧ (s.eng 0).ve = some 0 ∧ (s.inst (veInst 0)).st ≠ .quiescing ∧ s.bel.stopped = false
       ∧ idleSpare (s.updEng 0 fun x => { x with fenced := true, phase := .run, standFor := none }) (towerOf 0) = some 3)
    ∧ (let s := { cur with engines := [(135, { role := .reserve, phase := .bringUp 112 })] }
       (s.eng (128 + 7)).phase = .bringUp 112 ∧ (s.eng (128 + 7)).fenced = false)
    ∧ (cached.dome 0).stopped = false ∧ domeFind (cached.dome 0) 5 = some { line := 5, st := .E, way := 0 }
    ∧ (cached.dome 0).badSlots.contains 511 = false ∧ (∀ x ∈ cached.ves, ¬ (x.2.hasCtx = true ∧ x.2.tower = 0 ∧ x.2.slot = 511))
    ∧ cached.mem.poison.contains 5 = false ∧ (cached.domes.any fun d => d.2.lines.any fun x => x.line == 6 && x.st == .M) = true
    ∧ (cached.domes.any fun d => d.2.lines.any fun x => x.line == 5 && x.st == .M) = false
    ∧ (cached.domes.any fun d => d.2.lines.any fun x => x.line == 5 && (x.st == .S || x.st == .E)) = true
    ∧ (0x3FFFFF * 64 < 0x10000000 ∧ 0x3FFFFF * 64 / 64 % 32 = 31)
    ∧ (cached.eng 0).l1i.contains 7 = true ∧ l1Find (cached.eng 0) 5 = some { line := 5, st := .E }
    ∧ ({ cur with zeroing := [(true, 43007)] } : State).zeroing.contains (true, 43007) = true
    ∧ (let m : Merge := { event := 0x10, source := 2, unit := 1, tb0 := 9, count := 3, last := { event := 0x10, source := 2, unit := 1 } }
       [m].find? (fun m => m.event == 0x10 && m.source == 2 && m.unit == 1) = some m ∧ m.count ≠ 0) := by decide +kernel

theorem test_witness_stopped_units : cur.live = true ∧ cur.tst.fenced.contains ⟨4, 23, 0⟩ = false ∧ 3 * 2 < cur.variant.towers
    ∧ (cur.dome 7).stopped = false ∧ 7 < cur.variant.towers ∧ cur.twin.st ≠ .paired ∧ placedOn cur 0 0 ≠ 0 ∧ (cur.inst 0).st ≠ .free
    ∧ 3 < cur.variant.stacks ∧ cur.tst.fenced.contains ⟨6, 3, 0⟩ = false
    ∧ (let y : Inst := { st := .running, bulk := [{ num := 10752 }] }
       kvFind [(0, y)] 0 = some y ∧ y.bulk.any (fun g => g.num / 10752 == 1) = true)
    ∧ cur.bel.stopped = false ∧ cur.clk.badCounters.contains 2 = false ∧ cur.css.stopped = false ∧ cur.css.chesStopped.contains 31 = false
    ∧ 15 < cur.variant.xces ∧ cur.xce.fenced.contains 15 = false ∧ cur.cze.fenced.contains 0 = false ∧ 0 < cur.variant.czes := by decide +kernel

/-! ## Witnesses: clocks, power and resets -/

/-- What a start-up finds on a healthy module. -/
def good : StartResult := ⟨4000, 100, 0, 0, 0, 0, [], none, true, false, false, [], []⟩

theorem test_witness_clocks : cur.live = true ∧ cur.clk.phase ≠ .coldReset ∧ cur.bel.stopped = false
    ∧ (800 : Int) + 24 * ((1 : Int) - 1) - (if cur.clk.trimDefault then 40 else 0) = (800#16).toInt
    ∧ (let c : Clk := { phase := .run, throttle := 4, coolTb := [(4, 10)] }
       c.throttle ≠ 0 ∧ kvFind c.coolTb c.throttle = some 10 ∧ 10 + 1000000 < 2 ^ 64)
    ∧ ({ clk := { phase := .frozen } } : State).clk.phase ≠ .coldReset
    ∧ (let s : State := { clk := { phase := .run, power := 2 } }
       s.live = true ∧ moduleIdle s = true ∧ s.clk.power = 2 ∧ (s.fn 0).d3hot = false)
    ∧ moduleIdle { clk := { phase := .run } } = true ∧ cur.clk.power = 0
    ∧ (let s : State := { clk := { phase := .run, power := 1 }, hp := { fns := [(0, { d3hot := true })] } }
       s.live = true ∧ s.clk.power = 1 ∧ (s.fn 0).d3hot = true)
    ∧ (let s : State := { cur with clk := { phase := .run, power := 2 } }
       s.live = true ∧ s.clk.power ≠ 0 ∧ moduleIdle s = false)
    ∧ State.reset.clk.phase = .coldReset ∧ smbusUp cur = true ∧ cur.tst.running = []
    ∧ ({ clk := { phase := .warmReset } } : State).clk.phase = .warmReset ∧ good.entryWritten = true
    ∧ ({ clk := { phase := .startUp } } : State).clk.phase = .startUp := by decide +kernel

/-! ## Witnesses: the partner, and the channel subsystem -/

def linked (t : Twin) : State := { cur with twin := t }

/-- A flit of zeros, whose check is zero. -/
def flit : List Byte := zeros 256

theorem crc64_zeros (n : Nat) : crc64 (List.replicate n 0) = 0 := by
  induction n with
  | zero => rfl
  | succ n h => simpa [crc64, List.replicate_succ, List.range, List.range.loop] using h

theorem flit_check (s : State) : flitGood s flit = decide (s.twin.fseq = 0) := by
  have h : flit.take 242 = List.replicate 242 0 := by decide +kernel
  have h1 : fieldBE flit 242 8 = 0 ∧ fieldBE flit 1 2 = 0 ∧ bits (fieldBE flit 0 1) 7 6 < 2 := by decide +kernel
  have h2 : ((flitSlots flit).all fun x => decide (bits (fieldBE x 0 1) 7 4 < 6)) = true := by decide +kernel
  rw [flitGood, h, crc64_zeros, h1.1, h1.2.1, h2]
  simp [h1.2.2, Bool.beq_eq_decide_eq, eq_comm]

theorem test_witness_flits : linkUp (linked { link := 3 }) = true ∧ flit.length = 256 ∧ flitGood (linked { link := 3 }) flit = true
    ∧ flitGood (linked { link := 3, fseq := 1 }) flit = false ∧ (linked { link := 3 }).twin.st ≠ .paired :=
  ⟨by decide, by decide +kernel, by rw [flit_check]; decide, by rw [flit_check]; decide, by decide⟩

theorem test_witness_twin_events :
    (let s := { linked { link := 1 } with variant := .m128c, img := { twin := true } }
     s.live = true ∧ s.variant.jlk = true ∧ s.img.twin = true ∧ s.twin.link = 1)
    ∧ (let s := keyed [] {}
       (dkeyOf s 0).isSome = true)
    ∧ (let s := linked { link := 2, st := .paired, protecting := [(0, 7)], handing := [(0, 8)] }
       linkUp s = true ∧ s.twin.st = .paired ∧ (s.inst 511).st = .free ∧ granulesHere s ⟨511, 1, 0, [], [], [], true⟩ = true
       ∧ kvFind s.twin.protecting 0 = some 7 ∧ kvFind s.twin.copies 0 = none ∧ kvFind s.twin.handing 0 = some 8 ∧ (s.inst 0).role = .local_)
    ∧ (let g : Group := { inst := 0, source := 0, handle := some 0, lines := [], jsn := some 2, act := .completion 1 7 0 0 0 [] }
       let s := linked { link := 2, st := .paired, groups := [g], ackRx := 1 }
       (2#48) ≠ 0 ∧ serialBefore 48 2 3 = true ∧ serialBefore 48 2 s.twin.ackRx = false ∧ g.jsn = some (2#48).toNat ∧ s.twin.handing = []
       ∧ [true, false].all (fun cz => (endedJob s cz 0 7).isNone) = true)
    ∧ (let s := linked { link := 1, st := .paired, staged := [(3, 0, [])], asking := true, askTb := some 0 }
       s.live = true ∧ s.twin.st = .paired ∧ s.twin.staged = [(3, 0, [])] ∧ s.twin.asking = true ∧ s.twin.latch = false ∧ s.twin.askTb = some 0)
    ∧ (linked { posB := true }).twin.latch = false ∧ State.reset.live = false ∧ State.reset.clk.phase ≠ .frozen
    ∧ (let s := { linked { takeAll := some 0 } with insts := [(0, { st := .running, role := .secondary })] }
       s.live = true ∧ nextTake s 0 = true ∧ (s.inst 0).role = .secondary ∧ s.twin.staged = []) := by decide +kernel

/-- Subchannel 0 of instance 0 in state `x` with the channel program `c`, on device 0, a namespace with paths 0 and 1. -/
def chan (x : Sub) (c : List Byte) : State :=
  { cur with img := { devices := [{ kind := 1, paths := [0, 1] }] }, css := { subs := [(0, { x with prog := [c] })] } }
def cce (cmd : Byte) (n : Nat) : List Byte := [cmd] ++ zeros 3 ++ toBE 4 n ++ zeros 24

theorem clean_egress (s : State) (i : Nat) (x : Sub) (c : List Byte) (ps : List Piece) (h : s.domes = []) (h' : s.mem.poison = [])
    (h'' : s.tst.fenced = []) : egressPoison s i x c ps = none := by
  have none' (r n : Nat) : instPoison s i r n = none := by simp [instPoison, committed, stackDead, h, h', h'']
  unfold egressPoison
  simp only [none', ite_self]
  split <;> simp

theorem test_witness_egress : egressPoison (chan { st := .active } []) 0 { st := .active } (cce 2 512) [{ lba := 9, len := 512, off := 0 }] = none :=
  clean_egress _ _ _ _ _ rfl rfl rfl

theorem test_witness_channel :
    (let s := chan { st := .issued } []
     s.live = true ∧ s.css.stopped = false ∧ cheFree s 31 = true ∧ (s.sub 0 0).st = .issued ∧ (s.inst 0).st = .running ∧ firstIssued s 0 0 = true
     ∧ spaceForStart s = true)
    ∧ (let s := chan { st := .active, pieces := [{ lba := 9, len := 512, off := 0 }] } (cce 2 512)
       let x := s.sub 0 0
       x.pieces = [{ lba := 9, len := 512, off := 0 }] ∧ cceCmd (curCce x) = 2 ∧ x.onceOpen = false ∧ cceMore (curCce x) = false ∧ x.exposes = []
       ∧ x.lossWaits = false ∧ x.pieces.any (fun p => !p.done) = true ∧ (s.path (subPath s x)).down = false ∧ (s.path (subPath s x)).lostDevs.contains x.device = false)
    ∧ (let s := chan { st := .reissuing } (cce 2 512)
       let x := s.sub 0 0
       ((List.range (subDev s x).paths.length).find? fun k => pathNum s (((subDev s x).paths[k]?).getD 0) == 1) = some 1
       ∧ x.startJsn = none ∧ choosePath { s with css := { s.css with paths := [(0, { down := true })] } } x = some 1 ∧ choosePath s x = some 0)
    ∧ ((chan { st := .validating, che := 3 } []).sub 0 0).st = .validating
    ∧ (let s := chan { st := .held } []
       (s.sub 0 0).st = .held ∧ (s.inst 0).st = .running ∧ (s.sub 0 0).endWait = none)
    ∧ (({ cur with css := { paths := [(3, { down := true })] } } : State).path 3).down = true
    ∧ (let s := chan { st := .ending, status := 0x2000 } (cce 2 512)
       (s.sub 0 0).endWait = none ∧ rangeBacked s 0 0x2000 32 = true ∧ rangeBacked s 0 0xFFE1 32 = false ∧ instOwners s 0 0x2000 32 = []
       ∧ instPoison s 0 0x2000 32 = none)
    ∧ waiterOf cur 1023 2047 = none
    ∧ (let s := chan { st := .active, pieces := [{ lba := 0, len := 0, off := 0 }] } (cce 0x23 1)
       waiterOf s 0 0 = some (0 * 65536 + 0) ∧ cceCmd (curCce (s.sub 0 0)) = 0x23 ∧ (s.sub 0 0).pieces ≠ []
       ∧ (s.sub 0 0).onceOpen = false ∧ spaceForEntry s = true)
    ∧ exposeAt (2 ^ 54 - 1) = none ∧ exposeAt (2 ^ 54 + 512 * 2 ^ 44) = none ∧ exposeAt (2 ^ 54 + 15) = some (0, 0, 0, 15)
    ∧ (let s := chan { st := .active, exposes := [{ k := 0, base := 0x2000, len := 16, shortOk := false }] } (cce 0x23 1)
       ((s.sub 0 0).exposes.find? fun e => e.k == 0 && decide (15 + 1 ≤ e.len)).isSome = true ∧ instOwners s 0 (0x2000 + 15) 1 = []
       ∧ instPoison s 0 (0x2000 + 15) 1 = none) := by decide +kernel

/-! ## Commands on small states, with results that the spec works out -/

/-- The state that a command leaves. -/
def after (c : Instr) (s : State) : State := match exec c s with | .next u => u | _ => s

/-- Registers, and the flags Z, N, C, V, after an instruction on the registers `c`. -/
def gAfter (c : Ctx) (i : Instr) (r : BitVec 5) : Word := ((after i (run c)).ctx 0).G r
def flagsAfter (c : Ctx) (i : Instr) : List Bool := [bZ, bN, bC, bV].map (((after i (run c)).ctx 0).sb)

/-- 06_arithmetic.md, the table of 128-bit values: ADD, ADDC, MULWU, MULWS. -/
theorem test_add : gAfter (regs [(3, 0xFFFFFFFFFFFFFFF0), (5, 0x20)]) (.add 0 ⟨7, 3, 5, 0⟩) 7 = 0x10
    ∧ flagsAfter (regs [(3, 0xFFFFFFFFFFFFFFF0), (5, 0x20)]) (.add 0 ⟨7, 3, 5, 0⟩) = [false, false, true, false] := by decide +kernel

theorem test_addc : gAfter ((regs [(2, 1), (4, 2)]).setSb bC true) (.addc 0 ⟨6, 2, 4, 0⟩) 6 = 4
    ∧ flagsAfter ((regs [(2, 1), (4, 2)]).setSb bC true) (.addc 0 ⟨6, 2, 4, 0⟩) = [false, false, false, false] := by decide +kernel

theorem test_mulwu : gAfter (regs [(2, -1), (3, 2)]) (.mulwu 0 ⟨8, 2, 3, 0⟩) 8 = 1
    ∧ gAfter (regs [(2, -1), (3, 2)]) (.mulwu 0 ⟨8, 2, 3, 0⟩) 9 = -2
    ∧ flagsAfter (regs [(2, -1), (3, 2)]) (.mulwu 0 ⟨8, 2, 3, 0⟩) = [false, false, false, false] := by decide +kernel

theorem test_mulws : gAfter (regs [(2, -1), (3, 2)]) (.mulws 0 ⟨8, 2, 3, 0⟩) 8 = -1
    ∧ flagsAfter (regs [(2, -1), (3, 2)]) (.mulws 0 ⟨8, 2, 3, 0⟩) = [false, true, false, false] := by decide +kernel

/-- 06_arithmetic.md, the division of 1,000,000,007 by 97. -/
theorem test_divu_remu : gAfter (regs [(1, 1000000007), (2, 97)]) (.divu 0 ⟨3, 1, 2, 0⟩) 3 = 0x9D4E9E
    ∧ gAfter (regs [(1, 1000000007), (2, 97)]) (.remu 0 ⟨3, 1, 2, 0⟩) 3 = 41 := by decide +kernel

/-- 06_arithmetic.md, the interest computation: MULP, then SHRP with round digit 5. -/
theorem test_mulp_shrp :
    ((after (.mulp 0 ⟨2, 3, 0, 0⟩) (run (((regs []).setDA 2 0x123456789C).setDA 3 0x425C))).ctx 0).DA 2 = 0x52469135325C
    ∧ ((after (.shrp 0 ⟨2, 2, 0x3C05⟩) (run ((regs []).setDA 2 0x52469135325C))).ctx 0).DA 2 = 0x5246914C := by decide +kernel

/-- 06_arithmetic.md, EDITP of -1,234,567.89. -/
theorem test_editp : editBytes 0x20 true [0x10, 0x10, 0x2C, 0x10, 0x10, 0x10, 0x2C, 0x10, 0x10, 0x11, 0x2E, 0x11, 0x11, 0x12]
      [0, 1, 2, 3, 4, 5, 6, 7, 8, 9] false
    = [0x20, 0x31, 0x2C, 0x32, 0x33, 0x34, 0x2C, 0x35, 0x36, 0x37, 0x2E, 0x38, 0x39, 0x2D] := by decide +kernel

/-- 06_arithmetic.md, conversions of 2^64 - 1 in the modes RNE and RTZ, of the least binary32 value, and of the largest number to a
doubleword. -/
theorem test_fcvt : roundInt fmt64 0 false (2 ^ 64 - 1) 0 false = (0x43F0000000000000, 1) ∧ roundInt fmt64 4 false (2 ^ 64 - 1) 0 false = (0x43EFFFFFFFFFFFFF, 1)
    ∧ roundInt fmt32 0 false (2 ^ 64 - 1) 0 false = (0x5F800000, 1) ∧ (fpConv fmt32 fmt64 0 false (unpack fmt32 false 1)).1 = 0x36A0000000000000
    ∧ (fpToInt 0 true (unpack fmt64 false 0x7FEFFFFFFFFFFFFF)).1 = 0x7FFFFFFFFFFFFFFF := by decide +kernel

/-- 06_arithmetic.md, square roots at the edges of the range: of the least numbers and, toward positive, of the largest. -/
theorem test_fsqrt : fpSqrt fmt64 0 false (unpack fmt64 false 1) = (0x1E60000000000000, 0)
    ∧ fpSqrt fmt32 2 false (unpack fmt32 false 1) = (0x1A3504F4, 1)
    ∧ fpSqrt fmt64 2 false (unpack fmt64 false 0x7FEFFFFFFFFFFFFF) = (0x5FF0000000000000, 1) := by decide +kernel

/-- 08_caches_and_domes.md, LKST of 64 lines held in way 14, and after all 64 were removed. -/
theorem test_lkst : lkst 14 { inst := 0, handle := 1, locked := true, held := 64 } = 0x80000040000E0000
    ∧ lkst 14 { inst := 0, handle := 1, locked := true, removed := 64 } = 0xC0000000000E0040 := by decide +kernel

/-- 02_host_port.md, the bytes of the BUSY completion of ring 3 with PHASE 1. -/
theorem test_busy_completion : completionBytes { status := 1, k := 3, seq := 0x12A4D, tag := 0x7731, result := toBE 8 2000 ++ zeros 8 } true
    = [0x01, 0xB0, 0, 0, 0, 1, 0x2A, 0x4D, 0, 0, 0x77, 0x31, 0, 0, 0, 0, 0, 0, 0, 0, 0, 0, 0x07, 0xD0, 0, 0, 0, 0, 0, 0, 0, 0] := by decide +kernel

/-- R432: at 97 degrees on a module without factory trims the level is 1; CLK_STATE shows it (assumption log 64). -/
theorem test_clk_state :
    let s : State := { clk := { phase := .run, trimDefault := true } }
    (after (.thermalSample 0 776) s).clk.throttle = 1
    ∧ (after .clkStatus (after (.thermalSample 0 776) s)).out = [.smbus (toBE 8 0x03080110 ++ zeros 8)] := by decide +kernel

/-- 05_strings_and_interruptions.md, TRANSLATE of "b" by a table that maps it to "B". -/
theorem test_translate :
    let s := { run (regs [(10, 0x2000), (11, 0x2000), (12, 1), (13, 0x3000)]) with mem := { store := [(abs 0x2000, 0x62), (abs 0x3062, 0x42)] } }
    let u := after (.translate 0 ⟨10, 11, 12, 13, 0⟩ 1) s
    byteSeen u 0 (abs 0x2000) = 0x42 ∧ [10, 11, 12].map (fun r => (u.ctx 0).G r) = [0x2001, 0x2001, 0] := by decide +kernel

/-- A doorbell of a disabled ring sets DB_DISABLED; one out of range sets DB_RANGE (R53). -/
theorem test_doorbell : (after (.reqRingDoorbell 1 0 0 [0, 0, 0, 1]) (ringed false)).fn 1 ≠ (ringed false).fn 1
    ∧ ((after (.reqRingDoorbell 1 0 0 [0, 0, 0, 3]) (ringed true)).ring 1 0).rqTail = 3
    ∧ ((after (.reqRingDoorbell 1 0 0 [0, 0, 0, 64]) (ringed true)).ring 1 0).rqTail = 0 := by decide +kernel

/-- START of a DEFINED instance runs it and completes; QUERY shows its state (R69, R72). -/
theorem test_start : ((after (.start 7) (told (entry 0x41 []) { st := .defined })).inst 0).st = .running
    ∧ (after (.start 7) (told (entry 0x41 []) { st := .defined })).hp.reqs = [] := by decide +kernel

/-- IDCODE of the KG9-M128 at stepping 0 (R469). -/
theorem test_idcode : (after (.tapInstruction .idcode) State.reset).out = [.tap .idcode 0x0C9015B3] := by decide +kernel

/-- 04_engine_programming_model.md, the ledger posting: LDP DA2 of 8 bytes at G5 + 0x40, ADDP DA2, DA3, and STP, as words. -/
theorem test_olisy_words :
    let f : FD := ⟨2, 0, 5, 0, 0, 0, 7, 0, 0x40⟩
    decodeOlisy 3 0 0x65102800 0x70000040 = .ldp 3 f ∧ decodeOlisy 3 0 0x9010C000 0 = .addp 3 ⟨2, 3, 0, 0⟩
    ∧ decodeOlisy 3 0 0x66102800 0x70000040 = .stp 3 f ∧ decodeOlisy 3 0 0xFF000000 0 = .undefinedOpcode 3 0xFF := by decide +kernel

/-- R194: the four words of the ADDP routine pass the loader's checks, and one with a bit changed does not; +100.00 and -250.00 give -150.00
through the recomplement path. -/
theorem test_addp_routine :
    ([0x0405_2000_0000_0001_0040_0000_0000_0000_009C, 0x1185_2129_0400_0000_00C0_0000_0000_0000_00AE, 0x5800_0000_0000_0000_0300_0500_0000_0000_00A7,
      0x0405_2080_0000_0000_0140_0000_0000_0000_0199].all fun w => !wordBad false w) = true
    ∧ wordBad false 0x0405_2080_0000_0000_0140_0000_0000_0000_0198 = true
    ∧ (({} : MicroRegs).addRoutine false 0x10000C 0x25000D).map (fun r => r.decOut r.sign) = some 0x15000D := by decide +kernel

end Sys2Proof.Tests
end

/-! SUPPORT. Clocks, power and resets: what the operations of engines and hub leave of the clock unit, the self-test controller and the
Spire; throttle levels and power states; the steps of a start; and the statement about them, O58. -/

namespace Sys2Proof.Machine

open Sys2Proof

/-- A fold whose steps keep a projection of the state keeps it. -/
theorem foldl_keeps {α β τ : Type} (q : β → τ) {f : β → α → β} (h : ∀ s x, q (f s x) = q s) (l : List α) (s : β) :
    q (l.foldl f s) = q s :=
  List.foldlRecOn (motive := fun t => q t = q s) l f rfl fun t ht x _ => (h t x).trans ht

/-- The units that the engines and the hub never touch on the way to a commit point or a completion: the clock and reset unit, the self-test
controller and the Spire. -/
def State.upkeep (s : State) : Clk × Tst × Spire := (s.clk, s.tst, s.spire)

theorem State.upkeep_eq {s t : State} (hc : t.clk = s.clk) (ht : t.tst = s.tst) (hp : t.spire = s.spire) : t.upkeep = s.upkeep := by
  rw [State.upkeep, hc, ht, hp, State.upkeep]

variable (s : State)

@[simp] theorem State.setVe_upkeep (k : Nat) (x : VE) : (s.setVe k x).upkeep = s.upkeep := rfl
@[simp] theorem State.updVe_upkeep (k : Nat) (f : VE → VE) : (s.updVe k f).upkeep = s.upkeep := rfl
@[simp] theorem State.setInst_upkeep (i : Nat) (x : Inst) : (s.setInst i x).upkeep = s.upkeep := rfl
@[simp] theorem State.updInst_upkeep (i : Nat) (f : Inst → Inst) : (s.updInst i f).upkeep = s.upkeep := rfl
@[simp] theorem State.updEng_upkeep (p : Nat) (f : Engine → Engine) : (s.updEng p f).upkeep = s.upkeep := rfl
@[simp] theorem State.updDome_upkeep (t : Nat) (f : Dome → Dome) : (s.updDome t f).upkeep = s.upkeep := rfl
@[simp] theorem State.setSub_upkeep (i n : Nat) (x : Sub) : (s.setSub i n x).upkeep = s.upkeep := rfl
@[simp] theorem State.setSlot_upkeep (g n : Nat) (x : Slot) : (s.setSlot g n x).upkeep = s.upkeep := rfl
@[simp] theorem State.setRing_upkeep (n k : Nat) (r : Ring) : (s.setRing n k r).upkeep = s.upkeep := rfl
@[simp] theorem State.setReqs_upkeep (l : List Request) : (s.setReqs l).upkeep = s.upkeep := rfl
@[simp] theorem State.setStage_upkeep (n q : Nat) (g : Stage) : (s.setStage n q g).upkeep = s.upkeep := rfl
@[simp] theorem pushHold_upkeep (g t d : Nat) : (pushHold s g t d).upkeep = s.upkeep := rfl
@[simp] theorem mapP_upkeep (p : Nat) (f : DomeLine → DomeLine) : (mapP s p f).upkeep = s.upkeep := rfl

/-! ## Messages, the log and completions (R54, R61, R337) -/

@[simp] theorem sendMsix_upkeep (n v : Nat) : (sendMsix s n v).upkeep = s.upkeep := by
  obtain ⟨o, fs, h⟩ := sendMsix_frame s n v
  rw [h]; rfl

@[simp] theorem logWrite_upkeep (e : LogEntry) : (logWrite s e).upkeep = s.upkeep := by
  obtain ⟨o, fs, b, h, -⟩ := logWrite_frame s e
  rw [h]; rfl

@[simp] theorem logEvent_upkeep (e : LogEntry) : (logEvent s e).upkeep = s.upkeep := by
  obtain ⟨o, fs, b, h, -⟩ := logEvent_frame s e
  rw [h]; rfl

@[simp] theorem hostWrite_upkeep (n a : Nat) (d : List Byte) : (hostWrite s n a d).upkeep = s.upkeep := by
  obtain ⟨o, is, h⟩ := hostWrite_frame (s := s) n a d
  rw [h]; rfl

@[simp] theorem gather_upkeep (n k : Nat) : (gather s n k).upkeep = s.upkeep := by
  unfold gather
  dsimp only
  split
  · rfl
  · split <;> simp

@[simp] theorem writeCompletion_upkeep (n k : Nat) (c : Completion) : (writeCompletion s n k c).upkeep = s.upkeep := by
  unfold writeCompletion
  dsimp only
  split <;> simp

@[simp] theorem drainRing_upkeep (n k : Nat) : (drainRing s n k).upkeep = s.upkeep := by
  refine foldl_keeps State.upkeep (fun s c => ?_) _ _
  split <;> simp

@[simp] theorem completeNow_upkeep (n seq st d c : Nat) (b : List Byte) : (completeNow s n seq st d c b).upkeep = s.upkeep := by
  unfold completeNow
  split <;> simp

/-! ## Lines, groups and the journal (R201, R205, R261, R359) -/

@[simp] theorem writeBack_upkeep (l : Nat) : (writeBack s l).upkeep = s.upkeep := by
  unfold writeBack
  split <;> rfl

@[simp] theorem writeBacks_upkeep (ls : List Nat) : (ls.foldl writeBack s).upkeep = s.upkeep := foldl_keeps _ writeBack_upkeep ls s

@[simp] theorem sendLine_upkeep (p l : Nat) (d : List Byte) (q : Bool) : (sendLine s p l d q).upkeep = s.upkeep := by
  simp [sendLine]

@[simp] theorem drainStream_upkeep (p : Nat) : (drainStream s p).upkeep = s.upkeep := by
  refine foldl_keeps State.upkeep (fun s b => ?_) _ _
  split <;> simp

@[simp] theorem noteLine_upkeep (l : Nat) : (noteLine s l).upkeep = s.upkeep := by
  unfold noteLine
  split
  · rfl
  · split
    · split <;> rfl
    · rfl

@[simp] theorem mergeLine_upkeep (a : Nat) (d : List Byte) : (mergeLine s a d).upkeep = s.upkeep := by
  unfold mergeLine
  dsimp only
  split <;> exact noteLine_upkeep _ _

@[simp] theorem sendSlots_upkeep (l : List (List Byte)) : (sendSlots s l).upkeep = s.upkeep := by
  induction s, l using sendSlots.induct with
  | case1 s => rfl
  | case2 s a => rfl
  | case3 s a b => rfl
  | case4 s a b c l ih => exact ih.trans rfl

@[simp] theorem sendGroup_upkeep (k : Nat) : (sendGroup s k).upkeep = s.upkeep := by
  unfold sendGroup
  split
  · split
    · rfl
    · dsimp only
      split
      · exact sendSlots_upkeep _ _
      · rfl
  · rfl

@[simp] theorem closeHub_upkeep (i n : Nat) (a : Deferred) : (closeHub s i n a).upkeep = s.upkeep :=
  foldl_keeps State.upkeep sendGroup_upkeep _ _

@[simp] theorem complete_upkeep (n seq st d c : Nat) (b : List Byte) : (complete s n seq st d c b).upkeep = s.upkeep := by
  unfold complete
  split
  · split
    · rfl
    · split
      · rfl
      · exact closeHub_upkeep _ _ _ _
  · exact completeNow_upkeep s n seq st d c b

@[simp] theorem journalOne_upkeep (i n t : Nat) (d : Bool) : (journalOne s i n t d).upkeep = s.upkeep := by
  unfold journalOne
  extract_lets x e m l t
  split <;> exact State.upkeep_eq rfl rfl rfl

@[simp] theorem closeEntry_upkeep (i : Nat) (a : Deferred) : (closeEntry s i a).upkeep = s.upkeep := by
  unfold closeEntry
  split
  · exact closeHub_upkeep s i _ a
  · rfl

@[simp] theorem journal_upkeep (i n t : Nat) (d : Bool) (a : Deferred) : (journal s i n t d a).upkeep = s.upkeep := by
  have carry (s : State) : (carryOld s).upkeep = s.upkeep := by
    refine foldl_keeps State.upkeep (fun s e => ?_) _ _
    split
    · split <;> simp
    · rfl
  simp [journal, carry]

/-! ## What a commit point consumes and hands over (R322, R323) -/

@[simp] theorem releaseGroup_upkeep (i n : Nat) : (releaseGroup s i n).upkeep = s.upkeep := by
  unfold releaseGroup
  dsimp only
  split
  · rfl
  · split <;> simp

@[simp] theorem presentSub_upkeep (i n : Nat) (d : Bool) : (presentSub s i n d).upkeep = s.upkeep := by
  simp [presentSub]

@[simp] theorem freeDispatch_upkeep (r : Request) : (freeDispatch s r).upkeep = s.upkeep := by
  unfold freeDispatch
  split <;> simp

@[simp] theorem finishRestarts_upkeep (i v : Nat) (st : Status) : (finishRestarts s i v st).upkeep = s.upkeep :=
  foldl_keeps State.upkeep (fun s _ => complete_upkeep s _ _ _ _ _ _) _ _

@[simp] theorem consume_upkeep (k : Nat) (t : Taken) : (consume s k t).upkeep = s.upkeep := by
  cases t with
  | message seq =>
    unfold consume
    dsimp only
    split <;> simp
  | restart | io | signal | accel | deferred => simp [consume]

@[simp] theorem hubZone_upkeep (i r : Nat) : (hubZone s i r).upkeep = s.upkeep := by
  unfold hubZone
  split <;> rfl

@[simp] theorem writeArea_upkeep (i v a : Nat) (b : List Byte) (q : Bool) : (writeArea s i v a b q).upkeep = s.upkeep := by
  unfold writeArea pendAccel
  dsimp only
  split <;> split <;> simp

@[simp] theorem takeGroup_upkeep (i n : Nat) : (takeGroup s i n).upkeep = s.upkeep := by
  unfold takeGroup
  dsimp only
  split <;> simp

@[simp] theorem runEffect_upkeep (e : Effect) : (runEffect s e).upkeep = s.upkeep := by
  cases e with
  | startOp i n v b => exact (State.setSub_upkeep _ i n _).trans (takeGroup_upkeep s i n)
  | job j cz =>
    unfold runEffect
    dsimp only
    split
    · rfl
    · split <;> rfl
  | completion | signal | restart | areaWrite | hostStore => simp [runEffect]

/-! ## Commit points (R320, R321) -/

@[simp] theorem cleanEngine_upkeep (p : Nat) : (cleanEngine s p).upkeep = s.upkeep := by
  simp [cleanEngine]

@[simp] theorem takeCommit_upkeep (p k : Nat) (es : List Effect) (o w l : Bool) : (takeCommit s p k es o w l).upkeep = s.upkeep := by
  simp [takeCommit]

@[simp] theorem rollWindow_upkeep (t : Nat) : (rollWindow s t).upkeep = s.upkeep := by
  unfold rollWindow
  dsimp only
  split <;> simp

@[simp] theorem leaveEngine_upkeep (p k : Nat) : (leaveEngine s p k).upkeep = s.upkeep := by
  simp [leaveEngine, chargeTime]

@[simp] theorem writeKeyPage_upkeep (pg o : Nat) (d : List Byte) : (writeKeyPage s pg o d).upkeep = s.upkeep := by
  unfold writeKeyPage
  dsimp only
  split <;> simp

@[simp] theorem consumes_upkeep (k : Nat) (ts : List Taken) : (ts.foldl (fun s t => consume s k t) s).upkeep = s.upkeep :=
  foldl_keeps State.upkeep (fun s t => consume_upkeep s k t) _ _

@[simp] theorem runEffects_upkeep (es : List Effect) : (es.foldl runEffect s).upkeep = s.upkeep := foldl_keeps State.upkeep runEffect_upkeep _ _

@[simp] theorem finishCommit_upkeep (p k : Nat) (b : CommitBuf) : (finishCommit s p k b).upkeep = s.upkeep := by
  unfold finishCommit
  extract_lets dirty taken drained x slotted freed i released written consumed done
  have keys : written.upkeep = released.upkeep := by
    refine foldl_keeps State.upkeep (fun s w => ?_) _ _
    split <;> simp
  have h : done.upkeep = s.upkeep := by
    simp [done, consumed, keys, released, freed, slotted, drained, taken]
  split
  · simp [h]
  · split <;> simp [h]

@[simp] theorem commitNow_upkeep (p k : Nat) (es : List Effect) (l : Bool) : (commitNow s p k es l).upkeep = s.upkeep := by
  unfold commitNow
  dsimp only
  split <;> simp

@[simp] theorem moveVe_upkeep (p q : Nat) : (moveVe s p q).upkeep = s.upkeep := by
  unfold moveVe
  split
  · rfl
  · dsimp only
    split <;> simp

@[simp] theorem endStandIn_upkeep (p q : Nat) : (endStandIn s p q).upkeep = s.upkeep := by
  unfold endStandIn
  dsimp only
  split
  · split <;> simp
  · simp

/-! ## Runtime tests cut short (R437) -/

@[simp] theorem walkL1_upkeep (p : Nat) : (walkL1 s p).upkeep = s.upkeep := rfl

@[simp] theorem answerTest_upkeep (t : TestRun) (b : List Byte) : (answerTest s t b).upkeep = s.upkeep :=
  foldl_keeps State.upkeep (fun s q => complete_upkeep s 0 q 0 0 0 b) _ _

/-- A test cut short leaves the tests in progress and is counted. -/
theorem cutTest_upkeep (t : TestRun) (c g w : Nat) : (cutTest s t c g w).upkeep
    = (s.clk, { s.tst with running := s.tst.running.filter (·.unit != t.unit), incomplete := s.tst.incomplete + 1 }, s.spire) := by
  unfold cutTest
  extract_lets _ counted back p walked _ logged
  have hb : back.upkeep = counted.upkeep := by
    unfold back
    split <;> simp
  have hw : walked.upkeep = back.upkeep := by
    unfold walked
    split
    · simp
    · split <;> simp
  calc (answerTest logged t _).upkeep
    _ = logged.upkeep := answerTest_upkeep logged t _
    _ = walked.upkeep := logEvent_upkeep walked _
    _ = counted.upkeep := hw.trans hb

/-- One step of `cutAll`: the stand-in of an engine under test goes back, and the test is cut. -/
def cutOne (c : Nat) (s : State) (t : TestRun) : State :=
  cutFree (match t.unit.source, t.standIn with
    | 1, some q => endStandIn (s.updEng (engineOfUnit t.unit.unit) fun e => { e with phase := .run }) (engineOfUnit t.unit.unit) q
    | _, _ => s) t c

theorem cutAll_eq_foldl (c : Nat) : cutAll s c = s.tst.running.foldl (cutOne c) s := rfl

theorem cutOne_upkeep (c : Nat) (t : TestRun) : (cutOne c s t).upkeep
    = (s.clk, { s.tst with running := s.tst.running.filter (·.unit != t.unit), incomplete := s.tst.incomplete + 1 }, s.spire) := by
  have cut (u : State) (h : u.upkeep = s.upkeep) : (cutFree u t c).upkeep
      = (s.clk, { s.tst with running := s.tst.running.filter (·.unit != t.unit), incomplete := s.tst.incomplete + 1 }, s.spire) := by
    obtain ⟨hc, ht, hp⟩ : u.clk = s.clk ∧ u.tst = s.tst ∧ u.spire = s.spire := by simpa [State.upkeep] using h
    rw [← hc, ← ht, ← hp]
    exact cutTest_upkeep _ t c _ _
  unfold cutOne
  split
  · exact cut _ (by simp)
  · exact cut s rfl

@[simp] theorem cutAll_clk (c : Nat) : (cutAll s c).clk = s.clk :=
  foldl_keeps State.clk (fun s t => congrArg Prod.fst (cutOne_upkeep s c t)) _ s

@[simp] theorem cutAll_spire (c : Nat) : (cutAll s c).spire = s.spire :=
  foldl_keeps State.spire (fun s t => congrArg (·.2.2) (cutOne_upkeep s c t)) _ s

/-- What is left of the tests in progress once those of a list are cut. -/
theorem cutOne_foldl_running (c : Nat) (l : List TestRun) (s : State) :
    ∀ x ∈ (l.foldl (cutOne c) s).tst.running, x ∈ s.tst.running ∧ x ∉ l := by
  induction l generalizing s with
  | nil => simp
  | cons t l ih =>
    intro x hx
    obtain ⟨hin, hl⟩ := ih (cutOne c s t) x hx
    have hr : (cutOne c s t).tst.running = s.tst.running.filter (·.unit != t.unit) := congrArg (·.2.1.running) (cutOne_upkeep s c t)
    rw [hr, List.mem_filter] at hin
    obtain ⟨hs, hne⟩ := hin
    refine ⟨hs, List.not_mem_cons_of_ne_of_not_mem ?_ hl⟩
    rintro rfl
    simp at hne

@[simp] theorem cutAll_running (c : Nat) : (cutAll s c).tst.running = [] := by
  rw [cutAll_eq_foldl]
  refine List.eq_nil_iff_forall_not_mem.mpr fun x hx => ?_
  obtain ⟨hin, hout⟩ := cutOne_foldl_running c s.tst.running s x hx
  exact hout hin

theorem cutAll_of_idle {c : Nat} (h : s.tst.running = []) : cutAll s c = s := by
  rw [cutAll_eq_foldl, h, List.foldl_nil]

/-! ## Throttle levels (R432, R433) -/

theorem setThrottle_frame (n : Nat) : ∃ o fs b, setThrottle s n
    = { s with out := o, hp := { s.hp with fns := fs }, bel := b, clk := { s.clk with throttle := n } } := by
  unfold setThrottle
  split
  next h =>
    obtain rfl : s.clk.throttle = n := by simpa using h
    exact ⟨s.out, s.hp.fns, s.bel, rfl⟩
  next =>
    obtain ⟨o, fs, b, h, -⟩ := logEvent_frame { s with clk := { s.clk with throttle := n } }
      { s.entry 0x91 0 0x13 (hottest s).1 with param := paramAt 48 1 n + paramAt 50 2 (hottest s).2.toNat }
    exact ⟨o, fs, b, h⟩

/-- The level that a reading enters is the highest whose threshold it reaches, or 0. -/
theorem enterLevel_isGreatest (t : BitVec 16) : (enterLevel s t = 0 ∨ threshold s (enterLevel s t) ≤ t.toInt)
    ∧ ∀ n, 1 ≤ n → n ≤ 4 → threshold s n ≤ t.toInt → n ≤ enterLevel s t := by
  have hmax : (0 :: (List.range 5).filter fun n => n != 0 && decide (threshold s n ≤ t.toInt)).max? = some (enterLevel s t) :=
    List.max?_cons'
  obtain ⟨hmem, hle⟩ := List.max?_eq_some_iff.mp hmax
  simp only [List.mem_cons, List.mem_filter, List.mem_range, Bool.and_eq_true, bne_iff_ne, decide_eq_true_eq] at hmem hle
  refine ⟨hmem.imp_right fun h => h.2.2, fun n h1 h4 h => hle n (.inr ⟨by omega, by omega, h⟩)⟩

/-- A reading kept, and by level since when the hottest has been cool. -/
def sampled (s : State) (n : Nat) (x : BitVec 16) (cool : KV Nat) : State :=
  { s.quiet with clk := { s.clk with readings := kvSet s.clk.readings n x, coolTb := cool } }

/-- A sample in a live module: the reading is kept, and the hottest one may raise the level. -/
theorem execThermalSample_live (hl : s.live = true) (hb : s.bel.stopped = false) {n : Nat} (x : BitVec 16) (hn : n < 64) :
    ∃ cool, execThermalSample n x s = .next (setThrottle (sampled s n x cool)
      (max s.clk.throttle (enterLevel (sampled s n x cool) (hottest (sampled s n x cool)).2))) := by
  have hg : (!s.quiet.live || s.quiet.bel.stopped || decide (n ≥ 64)) = false := by
    rw [show s.quiet.live = true from hl, State.quiet_bel, hb]
    simp [hn]
  unfold execThermalSample
  simp only [hg, Bool.false_eq_true, if_false]
  exact ⟨_, rfl⟩

theorem thermalSample_enters (hl : s.live = true) (hb : s.bel.stopped = false) {n : Nat} (x : BitVec 16) (hn : n < 64) :
    ∃ u, execThermalSample n x s = .next u ∧ u.clk.readings = kvSet s.clk.readings n x ∧ s.clk.throttle ≤ u.clk.throttle
      ∧ (∀ l : Nat, 1 ≤ l → l ≤ 4 → threshold s l ≤ (hottest u).2.toInt → l ≤ u.clk.throttle)
      ∧ (s.clk.throttle < u.clk.throttle → threshold s u.clk.throttle ≤ (hottest u).2.toInt) := by
  obtain ⟨cool, h⟩ := execThermalSample_live s hl hb x hn
  obtain ⟨hreached, hgreatest⟩ := enterLevel_isGreatest (sampled s n x cool) (hottest (sampled s n x cool)).2
  generalize enterLevel (sampled s n x cool) (hottest (sampled s n x cool)).2 = entered at h hreached hgreatest
  obtain ⟨o, fs, b, hs⟩ := setThrottle_frame (sampled s n x cool) (max s.clk.throttle entered)
  refine ⟨_, h, ?_⟩
  rw [hs]
  refine ⟨rfl, le_max_left _ _, fun l h1 h4 hle => le_max_of_le_right (hgreatest l h1 h4 hle), fun hlt => ?_⟩
  have hup : s.clk.throttle < entered := (lt_max_iff.mp hlt).resolve_left (lt_irrefl _)
  dsimp only
  rw [max_eq_right hup.le]
  exact hreached.resolve_left (by omega)

theorem releasedLevel_le (cool : KV Nat) (tb n : Nat) : releasedLevel cool tb n ≤ n := by
  induction n with
  | zero => exact le_rfl
  | succ n ih =>
    unfold releasedLevel
    split
    · split
      · exact ih.trans n.le_succ
      · exact le_rfl
    · exact le_rfl

/-- The level in force is left once it has been cool for ten milliseconds. -/
theorem releasedLevel_lt {cool : KV Nat} {tb n t : Nat} (hn : n ≠ 0) (h : kvFind cool n = some t) (ht : t + 1000000 ≤ tb) :
    releasedLevel cool tb n < n := by
  obtain ⟨n, rfl⟩ := Nat.exists_eq_succ_of_ne_zero hn
  unfold releasedLevel
  simp only [h, ht, if_true]
  exact Nat.lt_succ_of_le (releasedLevel_le cool tb n)

/-- Time that passes changes the timebase and the engine timers. -/
theorem passUntil_frame (t : Nat) : ∃ vs tb, passUntil s t = { s with clk := { s.clk with tb := tb }, ves := vs }
    ∧ (t < 2 ^ 64 → tb = max s.clk.tb t) := by
  unfold passUntil
  split
  next h =>
    refine ⟨_, _, rfl, fun ht => ?_⟩
    rw [Nat.add_sub_cancel' h.le, Nat.mod_eq_of_lt ht, max_eq_right h.le]
  next h => exact ⟨s.ves, s.clk.tb, rfl, fun _ => (max_eq_left (not_lt.mp h)).symm⟩

theorem throttleRelease_leaves (hl : s.live = true) (hb : s.bel.stopped = false) {t : Nat} (h0 : s.clk.throttle ≠ 0)
    (h : kvFind s.clk.coolTb s.clk.throttle = some t) (ht : t + 1000000 < 2 ^ 64) :
    ∃ u, execThrottleRelease s = .next u ∧ u.clk.throttle < s.clk.throttle ∧ u.clk.tb = max s.clk.tb (t + 1000000) := by
  have hg : (!s.quiet.live || s.quiet.bel.stopped) = false := by
    rw [show s.quiet.live = true from hl, State.quiet_bel, hb]
    rfl
  obtain ⟨vs, tb, hp, htb⟩ := passUntil_frame s.quiet (t + 1000000)
  unfold execThrottleRelease
  simp only [hg, Bool.false_eq_true, if_false, State.quiet_clk, h, hp, htb ht]
  obtain ⟨o, fs, b, hs⟩ := setThrottle_frame
    { s.quiet with clk := { s.clk with tb := max s.clk.tb (t + 1000000) }, ves := vs }
    (releasedLevel s.clk.coolTb (max s.clk.tb (t + 1000000)) s.clk.throttle)
  refine ⟨_, rfl, ?_⟩
  rw [hs]
  exact ⟨releasedLevel_lt h0 h (le_max_right _ _), rfl⟩

/-! ## Power states (R420, R421) -/

theorem setPower_frame (n : Nat) : ∃ o fs b, setPower s n
    = { s with out := o, hp := { s.hp with fns := fs }, bel := b, clk := { s.clk with power := n } } := by
  unfold setPower
  split
  next h =>
    obtain rfl : s.clk.power = n := by simpa using h
    exact ⟨s.out, s.hp.fns, s.bel, rfl⟩
  next =>
    obtain ⟨o, fs, b, h, -⟩ := logEvent_frame { s with clk := { s.clk with power := n } }
      { s.entry 0x90 0 0x0F 0 with param := n * 2 ^ 56 + s.clk.power * 2 ^ 48 }
    exact ⟨o, fs, b, h⟩

theorem sleepEntry_sleeps (hp : s.clk.power = 0) (hi : moduleIdle s = true) :
    ∃ u, execSleepEntry s = .next u ∧ u.clk.power = 1 ∧ u.tst.running = [] ∧ u.clk.tb = (s.clk.tb + 5000) % 2 ^ 64 := by
  have hg : (s.quiet.clk.power == 0 && moduleIdle s.quiet) = true := by
    rw [State.quiet_clk, hp, show moduleIdle s.quiet = true from hi]
    rfl
  obtain ⟨o, fs, b, h⟩ := setPower_frame (tick (cutAll s.quiet 3) 5000) 1
  unfold execSleepEntry
  simp only [hg, if_true]
  refine ⟨_, rfl, ?_⟩
  rw [h]
  exact ⟨rfl, cutAll_running _ _, by simp [tick]⟩

theorem deepSleepEntry_sleeps (hl : s.live = true) (hp : s.clk.power = 1) (hd : (s.fn 0).d3hot = true) :
    ∃ u, execDeepSleepEntry s = .next u ∧ u.clk.power = 2 ∧ u.mem = s.mem ∧ u.domes = s.domes
      ∧ ∀ p, (u.eng p).l1d = [] ∧ (u.eng p).l1i = [] := by
  have hg : (s.quiet.live && s.quiet.clk.power == 1 && (s.quiet.fn 0).d3hot) = true := by
    rw [show s.quiet.live = true from hl, State.quiet_clk, hp, State.quiet_fn, hd]
    rfl
  unfold execDeepSleepEntry
  simp only [hg, if_true]
  refine ⟨_, rfl, ?_⟩
  obtain ⟨o, fs, b, h⟩ := setPower_frame (tick { s.quiet with
    engines := kvMap (fun _ e => { e with l1d := [], l1i := [], fills := [], tlb := [], zones := [] }) s.quiet.engines } 200000) 2
  rw [h]
  refine ⟨rfl, rfl, rfl, fun p => ?_⟩
  simp only [State.eng, kvGet, tick, kvFind_kvMap]
  cases kvFind s.quiet.engines p <;> exact ⟨rfl, rfl⟩

theorem powerWake_wakes (hl : s.live = true) (hp : s.clk.power ≠ 0)
    (hw : moduleIdle s = false ∨ (s.clk.power = 2 ∧ (s.fn 0).d3hot = false)) :
    ∃ u, execPowerWake s = .next u ∧ u.clk.power = 0 ∧ u.mem = s.mem ∧ u.domes = s.domes := by
  have hg : (s.quiet.live && s.quiet.clk.power != 0 && (!moduleIdle s.quiet || (s.quiet.clk.power == 2 && !(s.quiet.fn 0).d3hot))) = true := by
    rw [show s.quiet.live = true from hl, State.quiet_clk, State.quiet_fn, show moduleIdle s.quiet = moduleIdle s from rfl]
    rcases hw with h | ⟨h2, h⟩
    · simp [h, hp]
    · simp [h, h2]
  unfold execPowerWake
  simp only [hg, if_true]
  obtain ⟨o, fs, b, h⟩ := setPower_frame (tick s.quiet (if s.quiet.clk.power == 1 then 2000 else 300000)) 0
  refine ⟨_, rfl, ?_⟩
  rw [h]
  exact ⟨rfl, rfl, rfl⟩

/-! ## What a start keeps (R402) -/

/-- The boot counter, the timebase at which a warm reset began, and the image in force: what the steps of a start before the boot-record
entry leave alone, image selection apart. -/
def State.course (s : State) : Nat × Nat × Nat × NorImage := (s.spire.boot, s.clk.warmTb, s.spire.inForce, s.spire.image)

@[simp] theorem State.withTst_course (x : Tst) : ({ s with tst := x } : State).course = s.course := rfl
@[simp] theorem extendReg_course (n : Nat) (v : List Byte) : (extendReg s n v).course = s.course := rfl
@[simp] theorem measureRom_course : (measureRom s).course = s.course := rfl
@[simp] theorem applyPending_course (l : Bool) : (applyPending s l).course = s.course := rfl
@[simp] theorem loadMicrocode_course : (loadMicrocode s).course = s.course := rfl

@[simp] theorem setRegion_course (k : Nat) (r : Region) : (setRegion s k r).course = s.course := by
  unfold setRegion State.course
  dsimp only
  split
  · rfl
  · split <;> rfl

@[simp] theorem tryImage_course (k : Nat) (m : NorImage) : (tryImage s k m).2.course = s.course := by
  simp [tryImage]

@[simp] theorem tryImages_course (l : List (Nat × NorImage)) : (tryImages s l).2.course = s.course := by
  induction l generalizing s with
  | nil => rfl
  | cons e l ih =>
    have h := tryImage_course s e.1 e.2
    unfold tryImages
    split
    next t ht => rwa [ht] at h
    next t ht => rw [ht] at h; exact (ih t).trans h

@[simp] theorem selectImage_course (w : Bool) : (selectImage s w).2.course = s.course :=
  (tryImages_course _ _).trans rfl

@[simp] theorem putImage_course (k : Nat) (m : NorImage) : (putImage s k m).course = (s.spire.boot, s.clk.warmTb, k, m) := rfl

@[simp] theorem loadPackage_course (w l : Bool) : (loadPackage s w l).2.course = s.course := by
  unfold loadPackage
  dsimp only
  split
  · rfl
  · split <;> rfl

@[simp] theorem loadCal_course (w l : Bool) : (loadCal s w l).2.course = s.course := rfl

@[simp] theorem retrain_course (l : List (Nat × List Byte)) : (retrain s l).2.course = s.course := by
  unfold retrain
  dsimp only
  split <;> rfl

@[simp] theorem writeEntry_course (w : Bool) (ms : Nat) :
    (writeEntry s w ms).course = (s.spire.boot + 1, s.clk.warmTb, s.spire.inForce, s.spire.image) := rfl

/-! ## Tower release (R379, R425, R439) -/

/-- What tower release sets and the log of a start leaves: the phase, the timebase and the Spire. -/
def State.released (s : State) : Phase × Nat × Spire := (s.clk.phase, s.clk.tb, s.spire)

theorem State.released_of_upkeep {s t : State} (h : t.upkeep = s.upkeep) : t.released = s.released :=
  congrArg (fun u : Clk × Tst × Spire => (u.1.phase, u.1.tb, u.2.2)) h

@[simp] theorem logWrite_released (e : LogEntry) : (logWrite s e).released = s.released := State.released_of_upkeep (logWrite_upkeep s e)
@[simp] theorem logEvent_released (e : LogEntry) : (logEvent s e).released = s.released := State.released_of_upkeep (logEvent_upkeep s e)
@[simp] theorem State.updEng_released (p : Nat) (f : Engine → Engine) : (s.updEng p f).released = s.released := rfl
@[simp] theorem State.updDome_released (t : Nat) (f : Dome → Dome) : (s.updDome t f).released = s.released := rfl
@[simp] theorem fenceUnit_released (u : UnitId) : (fenceUnit s u).released = s.released := rfl
@[simp] theorem calWritten_released (d : Nat) : (calWritten s d).released = s.released := logEvent_released s _

@[simp] theorem unitFenced_released (c n u l : Nat) : (unitFenced s c n u l).1.released = s.released := logEvent_released s _
@[simp] theorem testFailed_released (u : UnitId) (c : Nat) : (testFailed s u c).released = s.released := logEvent_released _ _

@[simp] theorem scheduleFuse_released (u : UnitId) (k : Nat) : (scheduleFuse s u k).released = s.released := by
  unfold scheduleFuse
  split
  · rfl
  · split
    · rfl
    · split
      · simp
      · exact logEvent_released _ _

@[simp] theorem startRepair_released (u : UnitId) (k : Nat) : (startRepair s u k).released = s.released := by
  unfold startRepair
  dsimp only
  split <;> simp

@[simp] theorem fenceStart_released (u : UnitId) : (fenceStart s u).2.released = s.released := by
  unfold fenceStart
  split
  · dsimp only
    split <;> simp
  all_goals rfl

theorem fenceAll_released (l : List UnitId) : (fenceAll s l).2.released = s.released :=
  foldl_keeps (fun x : List (UnitId × Nat) × State => x.2.released) (fun x u => fenceStart_released x.2 u) l ([], s)

@[simp] theorem copyFatal_released (w : Bool) : (copyFatal s w).released = s.released := by
  unfold copyFatal
  extract_lets copied
  have h : copied.released = s.released := by
    unfold copied
    split <;> simp
  split <;> exact h

@[simp] theorem logLatches_released : (logLatches s).released = s.released := by
  have logged (u : State) (b : Bool) (e : LogEntry) : (if b = true then logEvent u e else u).released = u.released := by
    split <;> simp
  exact (logged _ _ _).trans ((logged _ _ _).trans (logged s _ _))

@[simp] theorem logHub_released : (logHub s).released = s.released := by
  unfold logHub
  split
  · split
    · rfl
    · exact logEvent_released _ _
  · rfl

@[simp] theorem logHead_released (w : Bool) : (logHead s w).released = s.released := by
  simp [logHead]

@[simp] theorem logStart_released (w : Bool) (r : StartResult) (l : List Repair) (f : List (UnitId × Nat)) (k c t : Bool) :
    (logStart s w r l f k c t).released = s.released := by
  have cond (u v : State) (b : Bool) (h : v.released = u.released) : (if b = true then v else u).released = u.released := by
    split
    · exact h
    · rfl
  have cold (u v : State) (h : v.released = u.released) : (if w = true then u else v).released = u.released := by
    split
    · rfl
    · exact h
  unfold logStart
  extract_lets head repaired fenced soft keys cal trained _ ended
  have hr : repaired.released = head.released := foldl_keeps State.released (fun s x => logEvent_released s _) _ _
  have hf : fenced.released = repaired.released := by
    refine foldl_keeps State.released (fun s x => ?_) _ _
    split
    · simp
    · exact (cond _ _ _ (scheduleFuse_released _ _ _)).trans (testFailed_released s _ _)
  have hs : soft.released = fenced.released := cold _ _ (foldl_keeps State.released (fun s x => startRepair_released s _ _) _ _)
  calc ended.released
    _ = trained.released := cold _ _ (logEvent_released _ _)
    _ = cal.released := cond _ _ _ (calWritten_released _ _)
    _ = keys.released := cond _ _ _ (logEvent_released _ _)
    _ = soft.released := cond _ _ _ (logEvent_released _ _)
    _ = s.released := hs.trans (hf.trans (hr.trans (logHead_released s w)))

theorem releaseState_released (w : Bool) (r : StartResult) :
    ∃ tb, (releaseState s w r).2.released = (.run, tb, { s.spire with releaseTb := tb })
      ∧ tb = if w then (s.clk.warmTb + 4200000) % 2 ^ 64 else Config.pick s.free % (r.ms.toNat * 100000 + 1) := by
  unfold releaseState
  dsimp only
  generalize hf : fenceAll _ r.fenced = fenced
  have h : fenced.2.released = _ := hf ▸ fenceAll_released _ r.fenced
  simp only [State.released, Prod.mk.injEq] at h
  obtain ⟨hphase, htb, hspire⟩ := h
  refine ⟨_, ?_, rfl⟩
  simp only [State.released, hphase, htb, hspire]
  rfl

/-! ## The ends of a start (R390, R402, R403, R426, R430, R440) -/

/-- The state in which a start selects the image: after a cold reset the pending fuse operations are applied first. -/
def startBase (s : State) (w : Bool) (r : StartResult) : State := measureRom (if w then s else applyPending s r.sealLost)

theorem startBase_course (w : Bool) (r : StartResult) : (startBase s w r).course = s.course := by
  unfold startBase
  cases w <;> rfl

/-- No image is good: start-up stops for good. -/
theorem startSteps_noImage {w : Bool} {r : StartResult} (h : (selectImage (startBase s w r) w).1 = none) :
    (startSteps s w r).clk.phase = .bringUp := by
  unfold startSteps
  unfold startBase at h
  dsimp only
  rw [h]
  rfl

/-- A failed hub stops a cold start for good, and is latched. -/
theorem startSteps_hubFailure {r : StartResult} {x : Nat × NorImage} {f : Nat × UnitId}
    (h : (selectImage (startBase s false r) false).1 = some x) (hf : r.hubFailure = some f) :
    (startSteps s false r).clk.phase = .bringUp ∧ (startSteps s false r).tst.hubLatch = some f := by
  unfold startSteps
  unfold startBase at h
  dsimp only
  simp only [Bool.false_eq_true, if_false] at h ⊢
  rw [h]
  simp only [hf]
  exact ⟨rfl, rfl⟩

/-- The image is in force and the hub is good: without its boot-record entry start-up stops, with it the towers are released. -/
theorem startSteps_image {w : Bool} {r : StartResult} {k : Nat} {m : NorImage} (h : (selectImage (startBase s w r) w).1 = some (k, m))
    (hf : (if w then none else r.hubFailure) = none) :
    ∃ v repairs keyLost calBad trained, v.course = (s.spire.boot, s.clk.warmTb, k, m) ∧ startSteps s w r =
      if !r.entryWritten then stayDown { v with bel := { v.bel with entryLost := true } }
      else logStart (releaseState (writeEntry v w r.entryMs.toNat) w r).2 w r repairs
        (releaseState (writeEntry v w r.entryMs.toNat) w r).1 keyLost calBad trained := by
  have hc : (selectImage (startBase s w r) w).2.course = s.course := (selectImage_course _ w).trans (startBase_course s w r)
  unfold startSteps
  unfold startBase at h hc
  dsimp only
  rw [h]
  generalize (selectImage _ w).2 = t at hc
  simp only [hf]
  obtain ⟨hboot, hwarm, -⟩ : t.spire.boot = s.spire.boot ∧ t.clk.warmTb = s.clk.warmTb ∧ _ := by
    simpa only [State.course, Prod.mk.injEq] using hc
  refine ⟨_, _, _, _, _, ?_, rfl⟩
  cases w <;> simp [hboot, hwarm]

theorem startSteps_noEntry {w : Bool} {r : StartResult} {x : Nat × NorImage} (h : (selectImage (startBase s w r) w).1 = some x)
    (hf : (if w then none else r.hubFailure) = none) (he : r.entryWritten = false) :
    (startSteps s w r).clk.phase = .bringUp ∧ (startSteps s w r).bel.entryLost = true ∧ (startSteps s w r).spire.boot = s.spire.boot := by
  obtain ⟨v, repairs, keyLost, calBad, trained, hc, hs⟩ := startSteps_image s h hf
  rw [hs, he]
  exact ⟨rfl, rfl, congrArg Prod.fst hc⟩

/-- The towers are released: the module runs, with one more boot, on the image that was selected. -/
theorem startSteps_runs {w : Bool} {r : StartResult} {k : Nat} {m : NorImage} (h : (selectImage (startBase s w r) w).1 = some (k, m))
    (hf : (if w then none else r.hubFailure) = none) (he : r.entryWritten = true) :
    ∃ tb p, (startSteps s w r).released = (.run, tb, p) ∧ p.boot = s.spire.boot + 1 ∧ p.inForce = k ∧ p.image = m
      ∧ if w then tb = (s.clk.warmTb + 4200000) % 2 ^ 64 else tb ≤ r.ms.toNat * 100000 := by
  obtain ⟨v, repairs, keyLost, calBad, trained, hc, hs⟩ := startSteps_image s h hf
  have hw : (writeEntry v w r.entryMs.toNat).course = (s.spire.boot + 1, s.clk.warmTb, k, m) := by
    simp only [State.course, Prod.mk.injEq] at hc
    obtain ⟨hboot, hwarm, hk, hm⟩ := hc
    rw [writeEntry_course, hboot, hwarm, hk, hm]
  generalize writeEntry v w r.entryMs.toNat = written at hs hw
  simp only [State.course, Prod.mk.injEq] at hw
  obtain ⟨hboot, hwarm, hk, hm⟩ := hw
  obtain ⟨tb, hr, htb⟩ := releaseState_released written w r
  refine ⟨tb, { written.spire with releaseTb := tb }, ?_, hboot, hk, hm, ?_⟩
  · rw [hs, he]
    exact (logStart_released _ _ _ _ _ _ _ _).trans hr
  · rw [htb, hwarm]
    cases w with
    | true => simp only [if_true]
    | false =>
      simp only [Bool.false_eq_true, if_false]
      exact Nat.lt_succ_iff.mp (Nat.mod_lt _ (Nat.succ_pos _))

/-! ## The commands (R33, R416, R424 to R430, R463) -/

theorem execHeartbeatLapse_live (h : s.live = true) :
    execHeartbeatLapse s = .next { s.quiet with clk := { s.clk with phase := .frozen, heartbeat := true } } := by
  unfold execHeartbeatLapse
  exact if_pos h

theorem execRefclkLoss_stops (h : s.clk.phase ≠ .coldReset) :
    execRefclkLoss s = .next { s.quiet with clk := { s.clk with phase := .frozen, refclkLost := true } } := by
  unfold execRefclkLoss
  exact if_pos (by simpa using h)

theorem execThermtrip_stops (h : s.clk.phase ≠ .coldReset) {n : Nat} (hn : n < 64) :
    execThermtrip n s = .next { s.quiet with clk := { s.clk with
      phase := .frozen, thermtripped := true, thermtripPin := true, readings := kvSet s.clk.readings n 960 } } := by
  unfold execThermtrip
  exact if_pos (by simpa [hn] using h)

theorem execPerstAssert_resets {rails : Bool} (h : rails = true ∨ s.clk.phase ≠ .coldReset) :
    execPerstAssert rails s = .next (coldState s.quiet (if rails then 0 else 1)) := by
  unfold execPerstAssert
  refine if_neg ?_
  rcases h with h | h <;> simp [h]

theorem execPerstDeassert_starts (strap : BitVec 2) (h : s.clk.phase = .coldReset) :
    execPerstDeassert strap s = .next { s.quiet with clk := { s.clk with phase := .startUp, strap := strap } } := by
  unfold execPerstDeassert
  exact if_pos (by simp [h])

theorem execWarmReset_up (v : Byte) (h : smbusUp s = true) :
    execWarmReset v s = .next (if v == 0x5A then warmState (cutAll s.quiet 2) else s.quiet) := by
  unfold execWarmReset smbusWrite
  exact congrArg Host.Outcome.next (if_pos h)

theorem warmReset_resets (h : smbusUp s = true) : ∃ u, execWarmReset 0x5A s = .next u ∧ u.clk.phase = .warmReset ∧ u.clk.warmTb = s.clk.tb
    ∧ u.clk.cause = 2 ∧ u.insts = [] ∧ u.ves = [] ∧ u.mem = {} ∧ u.hp.reqs = [] ∧ u.spire.boot = s.spire.boot
    ∧ (s.tst.running = [] → u.bel.log = s.bel.log ∧ u.bel.eseq = s.bel.eseq ∧ u.css.jsn = s.css.jsn) := by
  refine ⟨warmState (cutAll s.quiet 2), execWarmReset_up s 0x5A h, rfl, congrArg Clk.tb (cutAll_clk s.quiet 2), rfl, rfl, rfl, rfl, rfl,
    (congrArg Spire.boot (cutAll_spire s.quiet 2) :), fun hr => ?_⟩
  rw [cutAll_of_idle s.quiet hr]
  exact ⟨rfl, rfl, rfl⟩

theorem warmReset_ignored {v : Byte} (h : smbusUp s = true) (hv : v ≠ 0x5A) : execWarmReset v s = .next s.quiet := by
  rw [execWarmReset_up s v h, if_neg (by simpa using hv)]

theorem warmResetEnd_ends {r : StartResult} (h : s.clk.phase = .warmReset) (he : r.entryWritten = true) :
    ∃ u, execWarmResetEnd r s = .next u ∧ match (selectImage (measureRom s.quiet) true).1 with
      | none => u.clk.phase = .bringUp
      | some (k, m) => u.clk.phase = .run ∧ u.clk.tb = (s.clk.warmTb + 4200000) % 2 ^ 64 ∧ u.spire.boot = s.spire.boot + 1
          ∧ u.spire.inForce = k ∧ u.spire.image = m := by
  refine ⟨startSteps s.quiet true r, if_pos (by simp [h]), ?_⟩
  split
  next hsel => exact startSteps_noImage s.quiet hsel
  next k m hsel =>
    obtain ⟨tb, p, hr, hboot, hk, hm, htb⟩ := startSteps_runs s.quiet (w := true) hsel rfl he
    simp only [State.released, Prod.mk.injEq] at hr
    obtain ⟨hphase, htb', rfl⟩ := hr
    exact ⟨hphase, htb'.trans htb, hboot, hk, hm⟩

theorem startUpComplete_ends {r : StartResult} (h : s.clk.phase = .startUp) :
    ∃ u, execStartUpComplete r s = .next u ∧ match (selectImage (measureRom (applyPending s.quiet r.sealLost)) false).1, r.hubFailure with
      | none, _ => u.clk.phase = .bringUp
      | some _, some f => u.clk.phase = .bringUp ∧ u.tst.hubLatch = some f
      | some (k, m), none => if r.entryWritten
          then u.clk.phase = .run ∧ u.clk.tb ≤ r.ms.toNat * 100000 ∧ u.spire.boot = s.spire.boot + 1 ∧ u.spire.inForce = k
            ∧ u.spire.image = m
          else u.clk.phase = .bringUp ∧ u.bel.entryLost = true ∧ u.spire.boot = s.spire.boot := by
  refine ⟨startSteps s.quiet false r, if_pos (by simp [h]), ?_⟩
  split
  next hsel => exact startSteps_noImage s.quiet hsel
  next hsel hf => exact startSteps_hubFailure s.quiet hsel hf
  next k m hsel hf =>
    split
    next he =>
      obtain ⟨tb, p, hr, hboot, hk, hm, htb⟩ := startSteps_runs s.quiet (w := false) hsel hf he
      simp only [State.released, Prod.mk.injEq] at hr
      obtain ⟨hphase, htb', rfl⟩ := hr
      exact ⟨hphase, htb'.trans_le htb, hboot, hk, hm⟩
    next he => exact startSteps_noEntry s.quiet (w := false) hsel hf (by simpa using he)

/-- Settles O58: one lemma for each event, the start's two ends from the four outcomes of `startSteps`. -/
theorem clockAndResetResults : Obligations.ClockAndResetResults := by
  unfold Obligations.ClockAndResetResults
  intro s r
  extract_lets w c
  exact ⟨execHeartbeatLapse_live s,
    fun h => ⟨execRefclkLoss_stops s h, fun _ => execThermtrip_stops s h⟩,
    fun hl hb => ⟨fun _ x hn => thermalSample_enters s hl hb x hn, fun _ h0 h ht => throttleRelease_leaves s hl hb h0 h ht⟩,
    sleepEntry_sleeps s, deepSleepEntry_sleeps s, powerWake_wakes s,
    fun _ h => ⟨_, execPerstAssert_resets s h, by and_intros <;> rfl⟩,
    execPerstDeassert_starts s,
    ⟨_, rfl, by and_intros <;> rfl⟩,
    fun h => ⟨warmReset_resets s h, fun _ hv => warmReset_ignored s h hv⟩,
    warmResetEnd_ends s, startUpComplete_ends s⟩

end Sys2Proof.Machine

/-! SUPPORT. What the host sees: bytes, the registers of functions and rings, what is posted to the host, and requests in hand. -/

namespace Sys2Proof.Machine

open Sys2Proof

/-! ## Bytes -/

@[simp] theorem toLE_length (n v : Nat) : (toLE n v).length = n := by
  induction n generalizing v with
  | zero => rfl
  | succ n ih => simp [toLE, ih]

@[simp] theorem toBE_length (n v : Nat) : (toBE n v).length = n := by simp [toBE]

@[simp] theorem zeros_length (n : Nat) : (zeros n).length = n := List.length_replicate

@[simp] theorem padTo_length (n : Nat) (l : List Byte) : (padTo n l).length = n := by
  simp only [padTo, List.length_take, List.length_append, zeros_length]
  omega

theorem padTo_of_length {n : Nat} {l : List Byte} (h : l.length = n) : padTo n l = l := by
  rw [padTo, h, Nat.sub_self]
  simpa [zeros] using h.le

/-- A register written whole holds what was written. -/
theorem patch_whole {l d : List Byte} (h : d.length = l.length) : patch l 0 d = d := by
  simp [patch, h, List.take_of_length_le h.le]

theorem fieldBE_whole {d : List Byte} {n : Nat} (h : d.length = n) : fieldBE d 0 n = beNat d := by
  rw [fieldBE, slice, List.drop_zero, List.take_of_length_le h.le]

/-! ## Functions and rings -/

variable (s : State)

@[simp] theorem State.quiet_ring (n k : Nat) : s.quiet.ring n k = s.ring n k := rfl
@[simp] theorem State.quiet_req? (n q : Nat) : s.quiet.req? n q = s.req? n q := rfl

theorem State.fn_updFn (n m : Nat) (f : Fn → Fn) : (s.updFn n f).fn m = if n = m then f (s.fn m) else s.fn m := by
  rw [State.updFn, State.fn_setFn]
  split
  next h => rw [h]
  next => rfl

@[simp] theorem State.fn_updFn_same (n : Nat) (f : Fn → Fn) : (s.updFn n f).fn n = f (s.fn n) := by simp [State.fn_updFn]

theorem State.ring_setRing (n k m j : Nat) (r : Ring) :
    (s.setRing n k r).ring m j = if n = m ∧ k = j then r else s.ring m j := by
  unfold State.setRing State.ring
  rw [State.fn_updFn]
  by_cases hn : n = m
  · simp [hn, kvGet_kvSet]
  · simp [hn]

@[simp] theorem State.ring_setRing_same (n k : Nat) (r : Ring) : (s.setRing n k r).ring n k = r := by simp [State.ring_setRing]

@[simp] theorem State.setRing_out (n k : Nat) (r : Ring) : (s.setRing n k r).out = s.out := rfl
@[simp] theorem State.setRing_insts (n k : Nat) (r : Ring) : (s.setRing n k r).insts = s.insts := rfl
@[simp] theorem State.setRing_bel (n k : Nat) (r : Ring) : (s.setRing n k r).bel = s.bel := rfl
@[simp] theorem State.setRing_reqs (n k : Nat) (r : Ring) : (s.setRing n k r).hp.reqs = s.hp.reqs := rfl

/-- What the host has set of a ring: its registers but for what completions move. -/
def Ring.setup (r : Ring) : Ring := { r with cqTail := 0, phase := false, reserved := 0, gathered := 0, held := [] }

/-- What the host has set of a function and of one of its rings: the function's vectors left out, and of the rings what completions move. -/
def State.setup (n k : Nat) : Fn × Ring := ({ s.fn n with vecs := [], rings := [] }, (s.ring n k).setup)

/-- Two states in which function `n` and its ring `k` are set alike. -/
theorem setup_ext {s t : State} {n k : Nat} (h : t.setup n k = s.setup n k) :
    (t.fn n).bme = (s.fn n).bme ∧ (t.fn n).flr = (s.fn n).flr ∧ (t.fn n).d3hot = (s.fn n).d3hot ∧ (t.fn n).err = (s.fn n).err :=
  ⟨congrArg (fun x => x.1.bme) h, congrArg (fun x => x.1.flr) h, congrArg (fun x => x.1.d3hot) h, congrArg (fun x => x.1.err) h⟩

theorem setup_ring {s t : State} {n k : Nat} (h : t.setup n k = s.setup n k) : (t.ring n k).setup = (s.ring n k).setup := congrArg Prod.snd h

theorem Ring.setup_ext {r x : Ring} (h : r.setup = x.setup) : r.cqEn = x.cqEn ∧ r.intEn = x.intEn ∧ r.cqVec = x.cqVec ∧ r.cqSize = x.cqSize
    ∧ r.coalCnt = x.coalCnt ∧ r.coalTime = x.coalTime ∧ r.cqHead = x.cqHead := by
  simp only [Ring.setup, Ring.mk.injEq] at h
  simp [h]

theorem State.setRing_setup {n k : Nat} {r : Ring} (h : r.setup = (s.ring n k).setup) : (s.setRing n k r).setup = s.setup := by
  funext m j
  unfold State.setup
  refine Prod.ext ?_ ?_
  · simp only [State.setRing, State.fn_updFn]
    split <;> rfl
  · simp only [State.ring_setRing]
    split
    next e => obtain ⟨rfl, rfl⟩ := e; exact h
    next => rfl

theorem State.setup_of_vecs {n : Nat} (v : KV Msix) : (s.setFn n { s.fn n with vecs := v }).setup = s.setup := by
  funext m j
  simp only [State.setup, State.ring, State.fn_setFn]
  by_cases h : n = m
  · subst h; simp
  · simp [h]

@[simp] theorem sendMsix_ring (n v m k : Nat) : (sendMsix s n v).ring m k = s.ring m k := by
  rcases sendMsix_cases s n v with h | h <;> rw [h]
  · rfl
  · unfold State.ring
    rw [State.fn_setFn]
    split
    next e => rw [e]
    next => rfl

@[simp] theorem sendMsix_setup (n v : Nat) : (sendMsix s n v).setup = s.setup := by
  rcases sendMsix_cases s n v with h | h <;> rw [h]
  · rfl
  · exact State.setup_of_vecs s _

@[simp] theorem hostWrite_fn (n a : Nat) (d : List Byte) (m : Nat) : (hostWrite s n a d).fn m = s.fn m := by
  obtain ⟨o, is, h⟩ := hostWrite_frame (s := s) n a d
  rw [h]; rfl

@[simp] theorem hostWrite_ring (n a : Nat) (d : List Byte) (m k : Nat) : (hostWrite s n a d).ring m k = s.ring m k := by
  unfold State.ring
  rw [hostWrite_fn]

@[simp] theorem hostWrite_setup (n a : Nat) (d : List Byte) : (hostWrite s n a d).setup = s.setup := by
  funext m k
  simp [State.setup]

@[simp] theorem gather_setup (n k : Nat) : (gather s n k).setup = s.setup := by
  unfold gather
  dsimp only
  split
  · rfl
  · split
    · exact (sendMsix_setup _ _ _).trans (State.setRing_setup s rfl)
    · exact State.setRing_setup s rfl

@[simp] theorem writeCompletion_setup (n k : Nat) (c : Completion) : (writeCompletion s n k c).setup = s.setup := by
  have h (t : Nat) (p : Bool) (v : Nat) : ((hostWrite s n ((s.ring n k).cqBase + (s.ring n k).cqTail * 32)
      (completionBytes c (s.ring n k).phase)).setRing n k { s.ring n k with cqTail := t, phase := p, reserved := v }).setup = s.setup :=
    (State.setRing_setup _ (by rw [hostWrite_ring]; rfl)).trans (hostWrite_setup s _ _ _)
  unfold writeCompletion
  dsimp only
  split
  · exact h _ _ _
  · exact (gather_setup _ _ _).trans (h _ _ _)

@[simp] theorem drainRing_setup (n k : Nat) : (drainRing s n k).setup = s.setup := by
  refine foldl_keeps State.setup (fun s c => ?_) _ _
  split
  · exact (writeCompletion_setup _ _ _ _).trans (State.setRing_setup s rfl)
  · rfl

@[simp] theorem drainFn_setup (n : Nat) : (drainFn s n).setup = s.setup := foldl_keeps State.setup (fun s k => drainRing_setup s n k) _ _

@[simp] theorem completeNow_setup (n seq st d c : Nat) (b : List Byte) : (completeNow s n seq st d c b).setup = s.setup := by
  unfold completeNow
  split
  · rfl
  · exact (drainRing_setup _ _ _).trans (State.setRing_setup _ rfl)

/-! ## What is posted to the host -/

/-- What posting to function `n` of the host changes: what is sent, the functions' registers, and for a VF the dirty-page
logs. What was sent before stays. -/
def Posts (n : Nat) (s t : State) : Prop :=
  ∃ o fs is, t = { s with out := s.out ++ o, insts := is, hp := { s.hp with fns := fs } } ∧ (n = 0 → is = s.insts)

variable {s} {n : Nat} {t u : State}

theorem Posts.refl (n : Nat) (s : State) : Posts n s s := ⟨[], s.hp.fns, s.insts, by simp, fun _ => rfl⟩

theorem Posts.trans (h : Posts n s t) (g : Posts n t u) : Posts n s u := by
  obtain ⟨o, fs, is, rfl, hi⟩ := h
  obtain ⟨o', fs', is', rfl, hi'⟩ := g
  exact ⟨o ++ o', fs', is', by simp, fun h => (hi' h).trans (hi h)⟩

theorem Posts.of_fns (n : Nat) (s : State) (fs : KV Fn) : Posts n s { s with hp := { s.hp with fns := fs } } :=
  ⟨[], fs, s.insts, by simp, fun _ => rfl⟩

theorem Posts.foldl {α : Type} {f : State → α → State} (h : ∀ s x, Posts n s (f s x)) (l : List α) (s : State) : Posts n s (l.foldl f s) :=
  List.foldlRecOn (motive := Posts n s) l f (Posts.refl n s) fun t ht x _ => ht.trans (h t x)

theorem Posts.reqs (h : Posts n s t) : t.hp.reqs = s.hp.reqs := by obtain ⟨o, fs, is, rfl, -⟩ := h; rfl
theorem Posts.req? (h : Posts n s t) (m q : Nat) : t.req? m q = s.req? m q := by unfold State.req?; rw [h.reqs]
theorem Posts.doe (h : Posts n s t) : t.hp.doe = s.hp.doe := by obtain ⟨o, fs, is, rfl, -⟩ := h; rfl
theorem Posts.insts (h : Posts 0 s t) : t.insts = s.insts := by obtain ⟨o, fs, is, rfl, hi⟩ := h; exact hi rfl
theorem Posts.ves (h : Posts n s t) : t.ves = s.ves := by obtain ⟨o, fs, is, rfl, -⟩ := h; rfl
theorem Posts.mem (h : Posts n s t) : t.mem = s.mem := by obtain ⟨o, fs, is, rfl, -⟩ := h; rfl
theorem Posts.css (h : Posts n s t) : t.css = s.css := by obtain ⟨o, fs, is, rfl, -⟩ := h; rfl
theorem Posts.pages (h : Posts n s t) : t.pages = s.pages := by obtain ⟨o, fs, is, rfl, -⟩ := h; rfl
theorem Posts.bel (h : Posts n s t) : t.bel = s.bel := by obtain ⟨o, fs, is, rfl, -⟩ := h; rfl
theorem Posts.spire (h : Posts n s t) : t.spire = s.spire := by obtain ⟨o, fs, is, rfl, -⟩ := h; rfl
theorem Posts.twin (h : Posts n s t) : t.twin = s.twin := by obtain ⟨o, fs, is, rfl, -⟩ := h; rfl
theorem Posts.out_subset (h : Posts n s t) : s.out ⊆ t.out := by obtain ⟨o, fs, is, rfl, -⟩ := h; exact List.subset_append_left _ _

theorem sendMsix_posts (n m v : Nat) (s : State) : Posts n s (sendMsix s m v) := by
  rcases sendMsix_cases s m v with h | h <;> rw [h]
  · exact ⟨[_], s.hp.fns, s.insts, rfl, fun _ => rfl⟩
  · exact Posts.of_fns n s _

theorem hostWrite_posts (n a : Nat) (d : List Byte) (s : State) : Posts n s (hostWrite s n a d) := by
  unfold hostWrite
  split
  · exact Posts.refl n s
  · dsimp only
    split
    · exact ⟨[_], s.hp.fns, s.insts, rfl, fun _ => rfl⟩
    next h0 =>
      unfold logDirty
      split
      · exact ⟨[_], s.hp.fns, s.insts, rfl, fun _ => rfl⟩
      · exact ⟨[_], s.hp.fns, _, rfl, fun h => absurd h (by simpa using h0)⟩

theorem setRing_posts (n m k : Nat) (r : Ring) (s : State) : Posts n s (s.setRing m k r) := Posts.of_fns n s _

theorem gather_posts (n k : Nat) (s : State) : Posts n s (gather s n k) := by
  unfold gather
  dsimp only
  split
  · exact Posts.refl n s
  · split
    · exact (setRing_posts n n k _ s).trans (sendMsix_posts n n _ _)
    · exact setRing_posts n n k _ s

theorem writeCompletion_posts (n k : Nat) (c : Completion) (s : State) : Posts n s (writeCompletion s n k c) := by
  unfold writeCompletion
  dsimp only
  split
  · exact (hostWrite_posts n _ _ s).trans (setRing_posts n n k _ _)
  · exact ((hostWrite_posts n _ _ s).trans (setRing_posts n n k _ _)).trans (gather_posts n k _)

theorem drainRing_posts (n k : Nat) (s : State) : Posts n s (drainRing s n k) := by
  refine Posts.foldl (fun s c => ?_) _ _
  split
  · exact (setRing_posts n n k _ s).trans (writeCompletion_posts n k c _)
  · exact Posts.refl n s

theorem drainFn_posts (n : Nat) (s : State) : Posts n s (drainFn s n) := Posts.foldl (fun s k => drainRing_posts n k s) _ _

/-- A completion at once: the request leaves those in hand, the rest is posted. -/
theorem completeNow_posts (n seq st d c : Nat) (b : List Byte) (s : State) :
    Posts n (s.setReqs (s.hp.reqs.filter fun x => !(x.fn == n && x.seq == seq))) (completeNow s n seq st d c b) := by
  unfold completeNow
  split
  next h =>
    have hall : s.hp.reqs.filter (fun x => !(x.fn == n && x.seq == seq)) = s.hp.reqs := by
      rw [List.filter_eq_self]
      intro x hx
      rw [List.find?_eq_none.mp h x hx |> Bool.eq_false_iff.mpr, Bool.not_false]
    rw [hall]
    exact Posts.refl n s
  next => exact (setRing_posts n n _ _ _).trans (drainRing_posts n _ _)

/-! ## The event log -/

/-- The message of an entry, when it is sent, is posted after the entry. -/
theorem notify_posts (s : State) (c : Bool) (b : Belfry) (q : Option Nat) (v : Nat) : ∃ b' : Belfry,
    Posts 0 { s with bel := b' } (if c = true then sendMsix { s with bel := { b with outstanding := q } } 0 v else { s with bel := b })
      ∧ (if c = true then sendMsix { s with bel := { b with outstanding := q } } 0 v else { s with bel := b }).setup = s.setup
      ∧ b'.log = b.log ∧ b'.eseq = b.eseq ∧ b'.stopped = b.stopped := by
  cases c with
  | true => exact ⟨{ b with outstanding := q }, sendMsix_posts 0 0 v _, sendMsix_setup _ 0 v, rfl, rfl, rfl⟩
  | false => exact ⟨b, Posts.refl 0 _, rfl, rfl, rfl, rfl⟩

/-- An entry written: the Belfry changes, and a message may be posted. While the Belfry runs the entry takes the next number and stands last
in the log. -/
theorem logWrite_posts (s : State) (e : LogEntry) : ∃ b : Belfry, Posts 0 { s with bel := b } (logWrite s e) ∧ (logWrite s e).setup = s.setup
    ∧ (s.bel.stopped = false → b.stopped = false ∧ b.eseq = s.bel.eseq + 1 ∧ b.log.getLast? = some { e with eseq := s.bel.eseq }) := by
  unfold logWrite
  split
  next h => exact ⟨s.bel, Posts.refl 0 s, rfl, fun h' => absurd h (by simp [h'])⟩
  next h =>
    obtain ⟨b, hp, hs, hlog, heseq, hst⟩ := notify_posts s _ _ _ _
    refine ⟨b, hp, hs, fun h' => ⟨hst.trans h', heseq, ?_⟩⟩
    rw [hlog, List.getLast?_drop, if_neg (by simp), List.getLast?_concat]

theorem flushMerge_posts (s : State) (m : Merge) : ∃ b : Belfry, Posts 0 { s with bel := b } (flushMerge s m) ∧ (flushMerge s m).setup = s.setup := by
  unfold flushMerge
  dsimp only
  split
  · exact ⟨_, Posts.refl 0 _, rfl⟩
  · obtain ⟨b, hp, hs, -⟩ := logWrite_posts { s with bel := { s.bel with merges := s.bel.merges.filter fun x => !sameMerge m.last x } }
      { m.last with count := m.count }
    exact ⟨b, hp, hs⟩

theorem Posts.with_bel {n : Nat} {s t : State} (h : Posts n s t) (b : Belfry) : Posts n { s with bel := b } { t with bel := b } := by
  obtain ⟨o, fs, is, rfl, hi⟩ := h
  exact ⟨o, fs, is, rfl, hi⟩

/-- An event recorded: the Belfry changes, and messages may be posted. -/
theorem logEvent_posts (s : State) (e : LogEntry) :
    ∃ b : Belfry, Posts 0 { s with bel := b } (logEvent s e) ∧ (logEvent s e).setup = s.setup := by
  unfold logEvent
  split
  · obtain ⟨b, hp, hs, -⟩ := logWrite_posts s e
    exact ⟨b, hp, hs⟩
  · split
    next m _ =>
      split
      · exact ⟨_, Posts.refl 0 _, rfl⟩
      · obtain ⟨b, hp, hs⟩ := flushMerge_posts s m
        obtain ⟨b', hp', hs', -⟩ := logWrite_posts (flushMerge s m) e
        exact ⟨_, (hp.with_bel _).trans (hp'.with_bel _), hs'.trans hs⟩
    · obtain ⟨b, hp, hs, -⟩ := logWrite_posts s e
      exact ⟨_, hp.with_bel _, hs⟩

/-- An event of any class but 1 is written at once. -/
theorem logEvent_eq_logWrite (s : State) {e : LogEntry} (h : e.cls ≠ 1) : logEvent s e = logWrite s e := by
  unfold logEvent
  rw [if_pos (by simpa using h)]

/-! ## Requests in hand -/

theorem req?_setReqs (s : State) (l : List Request) (n q : Nat) : (s.setReqs l).req? n q = l.find? fun r => r.fn == n && r.seq == q := rfl

/-- A request in hand has the function and the number under which it is found. -/
theorem req?_key {n q : Nat} {r : Request} (h : s.req? n q = some r) : r.fn = n ∧ r.seq = q := by
  simpa using List.find?_some h

theorem req?_filter_of_none (p : Request → Bool) {n q : Nat} (h : s.req? n q = none) : (s.setReqs (s.hp.reqs.filter p)).req? n q = none := by
  simp only [State.req?, List.find?_eq_none] at h ⊢
  exact fun x hx => h x (List.mem_of_mem_filter hx)

/-- A completed request is in hand no more. -/
theorem completeNow_req?_same (s : State) (n seq st d c : Nat) (b : List Byte) : (completeNow s n seq st d c b).req? n seq = none := by
  rw [(completeNow_posts n seq st d c b s).req?, req?_setReqs, List.find?_eq_none]
  exact fun x hx => by simpa only [Bool.not_eq_true, Bool.not_eq_true'] using (List.mem_filter.mp hx).2

theorem completeNow_req?_none {m q : Nat} (h : s.req? m q = none) (n seq st d c : Nat) (b : List Byte) :
    (completeNow s n seq st d c b).req? m q = none := by
  rw [(completeNow_posts n seq st d c b s).req?]
  exact req?_filter_of_none _ h

/-- A request replaced is found in the place of the one before. -/
theorem req?_putReq {n q : Nat} {r x : Request} (h : s.req? n q = some x) (hn : r.fn = n) (hq : r.seq = q) :
    (s.putReq r).req? n q = some r := by
  subst hn hq
  have hf (p : Request → Bool) (l : List Request) (hp : p r = true) (hx : l.find? p = some x) :
      (l.map fun y => if p y then r else y).find? p = some r := by
    induction l with
    | nil => simp at hx
    | cons y l ih =>
      simp only [List.map_cons, List.find?_cons] at hx ⊢
      cases hy : p y with
      | true => simp [hp]
      | false =>
        simp only [hy] at hx ⊢
        simpa [hy] using ih hx
  exact hf (fun y => y.fn == r.fn && y.seq == r.seq) s.hp.reqs (by simp) h

end Sys2Proof.Machine

/-! SUPPORT. Completion entries and request entries: O32 to O34. -/

namespace Sys2Proof.Machine

open Sys2Proof

/-! ## Completion entries (R54, R58, R61, R91) -/

theorem completionBytes_length (c : Completion) (b : Bool) : (completionBytes c b).length = 32 := by simp [completionBytes]

/-- May a ring take a completion depends on the function and the ring, not on what is held. -/
theorem ringReady_congr {s t : State} {n k : Nat} (h : t.setup n k = s.setup n k) (hs : t.hp.stopped = s.hp.stopped)
    (ht : (t.ring n k).cqTail = (s.ring n k).cqTail) : ringReady t n k = ringReady s n k := by
  obtain ⟨hbme, hflr, -⟩ := setup_ext h
  obtain ⟨hen, -, -, hsize, -, -, hhead⟩ := Ring.setup_ext (setup_ring h)
  have hun : (t.ring n k).unreleased = (s.ring n k).unreleased := by unfold Ring.unreleased; rw [ht, hsize, hhead]
  simp only [ringReady, hbme, hflr, hen, hsize, hs, hun]

/-- The one completion that a ring holds is written if the ring can take it. -/
theorem drainRing_single {s : State} {n k : Nat} {c : Completion} (h : (s.ring n k).held = [c]) :
    drainRing s n k = if ringReady s n k then writeCompletion (s.setRing n k { s.ring n k with held := [] }) n k c else s := by
  simp [drainRing, h]

/-- Without INT_EN or with NOINT no message counts a completion: it is written at the tail, and the tail moves on. -/
theorem writeCompletion_uncounted {s : State} {n k : Nat} {c : Completion} (h : (s.ring n k).intEn = false ∨ c.noint = true) :
    let r := s.ring n k
    let t := (r.cqTail + 1) % 2 ^ r.cqSize
    writeCompletion s n k c = (hostWrite s n (r.cqBase + r.cqTail * 32) (completionBytes c r.phase)).setRing n k
      { r with cqTail := t, phase := if t == 0 then !r.phase else r.phase, reserved := r.reserved - 1 } := by
  dsimp only [writeCompletion]
  split
  · rfl
  next hn =>
    have hi : (s.ring n k).intEn = false := h.resolve_right hn
    simp [gather, hi]

/-- Bytes sent to the host stand last in what is sent. -/
theorem hostWrite_out {s : State} (n a : Nat) {d : List Byte} (h : d ≠ []) : (hostWrite s n a d).out = s.out ++ [.hostWrite n a d] := by
  unfold hostWrite
  rw [if_neg (by simpa using h)]
  dsimp only
  split
  · rfl
  · unfold logDirty
    split <;> rfl

/-- The entry that a completed request leaves in the hands of its ring. -/
def completionOf (n seq st d count : Nat) (result : List Byte) (r : Request) : Completion :=
  { status := st, detail := d, k := if n == 0 then 0 else r.k, seq := seq, tag := reqTag r.entry, count := count, result := result
    noint := reqNoint r.entry }

/-- The state in which a completion waits at its ring. -/
def withCompletion (s : State) (n k seq : Nat) (c : Completion) : State :=
  (s.setReqs (s.hp.reqs.filter fun x => !(x.fn == n && x.seq == seq))).setRing n k { s.ring n k with held := (s.ring n k).held ++ [c] }

theorem completeNow_some {s : State} {n seq st d count : Nat} {result : List Byte} {r : Request} (h : s.req? n seq = some r) :
    completeNow s n seq st d count result = drainRing (withCompletion s n r.k seq (completionOf n seq st d count result r)) n r.k := by
  unfold completeNow
  rw [h]
  rfl

@[simp] theorem withCompletion_ring (s : State) (n k seq : Nat) (c : Completion) :
    (withCompletion s n k seq c).ring n k = { s.ring n k with held := (s.ring n k).held ++ [c] } := State.ring_setRing_same _ n k _

@[simp] theorem withCompletion_out (s : State) (n k seq : Nat) (c : Completion) : (withCompletion s n k seq c).out = s.out := rfl

theorem withCompletion_setup (s : State) (n k seq : Nat) (c : Completion) : (withCompletion s n k seq c).setup = s.setup := by
  unfold withCompletion
  exact State.setRing_setup (s.setReqs _) rfl

theorem withCompletion_ready (s : State) (n k seq : Nat) (c : Completion) : ringReady (withCompletion s n k seq c) n k = ringReady s n k :=
  ringReady_congr (by rw [withCompletion_setup]) rfl (by rw [withCompletion_ring])

section
variable {s : State} {n seq st d count : Nat} {result : List Byte} {r : Request} (hr : s.req? n seq = some r) (hh : (s.ring n r.k).held = [])
include hr hh

/-- A completion that its ring can take, and that no message counts. -/
theorem completeNow_written (hready : ringReady s n r.k = true) (hint : (s.ring n r.k).intEn = false ∨ reqNoint r.entry = true) :
    let g := s.ring n r.k
    let u := completeNow s n seq st d count result
    u.out = s.out ++ [.hostWrite n (g.cqBase + g.cqTail * 32) (completionBytes (completionOf n seq st d count result r) g.phase)]
      ∧ (u.ring n r.k).cqTail = (g.cqTail + 1) % 2 ^ g.cqSize ∧ (u.ring n r.k).held = []
      ∧ (u.ring n r.k).phase = (if (g.cqTail + 1) % 2 ^ g.cqSize = 0 then !g.phase else g.phase) := by
  intro g u
  generalize hc : completionOf n seq st d count result r = c
  have hn : c.noint = reqNoint r.entry := by rw [← hc]; rfl
  have hu : u = _ := completeNow_some hr
  rw [hc, drainRing_single (c := c) (by rw [withCompletion_ring, hh]; rfl), withCompletion_ready, if_pos hready] at hu
  rw [writeCompletion_uncounted (by simpa [hn] using hint)] at hu
  rw [hu]
  refine ⟨?_, ?_⟩
  · have ho := hostWrite_out (s := (withCompletion s n r.k seq c).setRing n r.k { (withCompletion s n r.k seq c).ring n r.k with held := [] })
      n (g.cqBase + g.cqTail * 32) (d := completionBytes c g.phase) (List.ne_nil_of_length_eq_add_one (completionBytes_length c g.phase))
    simpa only [State.setRing_out, State.ring_setRing_same, withCompletion_ring, withCompletion_out] using ho
  · simp [g]

/-- A completion that its ring cannot take is held. -/
theorem completeNow_held (hready : ringReady s n r.k = false) :
    let u := completeNow s n seq st d count result
    u.out = s.out ∧ (u.ring n r.k).cqTail = (s.ring n r.k).cqTail ∧ (u.ring n r.k).held.length = 1 := by
  intro u
  have hu : u = _ := completeNow_some hr
  rw [drainRing_single (by rw [withCompletion_ring, hh]; rfl), withCompletion_ready, if_neg (by simp [hready])] at hu
  rw [hu, withCompletion_ring, hh]
  exact ⟨rfl, rfl, rfl⟩

end

/-- Settles O32: `completeNow` puts the completion in the hands of its ring, which writes it or holds it. -/
theorem completionEntryIsWritten : Obligations.CompletionEntryIsWritten := by
  unfold Obligations.CompletionEntryIsWritten
  refine ⟨fun s n seq st d count result r hr hh hn => ?_, fun c b _ => completionBytes_length c b⟩
  rw [complete_local hn]
  refine ⟨completeNow_req?_same s n seq st d count result, fun hready hint => ?_, completeNow_held hr hh⟩
  simpa [completionBytes, completionOf] using completeNow_written hr hh (st := st) (d := d) (count := count) (result := result) hready hint

end Sys2Proof.Machine

namespace Sys2Proof.Machine

open Sys2Proof

/-! ## The checks of an entry (R56) -/

/-- The form of an entry: that of a manager command for function 0, that of a request for any other. -/
def entryForm (s : State) (n : Nat) (e : List Byte) : Option Form := if n = 0 then commandForm s.variant e else requestForm e

/-- DETAIL of an entry whose form fails at byte `b`: a byte that the present placement does not allow may come before it. -/
def faultDetail (s : State) (n : Nat) (e : List Byte) (b : Nat) : Nat := ((if n = 0 then stateFields s e else none).map (min b)).getD b

theorem faultDetail_le (s : State) (n : Nat) (e : List Byte) (b : Nat) : faultDetail s n e b ≤ b := by
  unfold faultDetail
  cases (if n = 0 then stateFields s e else none) with
  | none => exact le_rfl
  | some j => exact min_le_left b j

theorem faultDetail_vf {n : Nat} (hn : n ≠ 0) (s : State) (e : List Byte) (b : Nat) : faultDetail s n e b = b := by
  rw [faultDetail, if_neg hn]
  rfl

theorem entryCheck_undefined {s : State} {n : Nat} {e : List Byte} (h : entryForm s n e = none) :
    entryCheck s n e = some (.opcodeUndefined, 0) := by
  unfold entryCheck
  simp only [beq_iff_eq]
  rw [show (if n = 0 then commandForm s.variant e else requestForm e) = none from h]

theorem entryCheck_absent {s : State} {n : Nat} {e : List Byte} {f : Form} (h : entryForm s n e = some f) (ha : needsAbsent s n e = true) :
    entryCheck s n e = some (.featureAbsent, 0) := by
  unfold entryCheck
  simp only [beq_iff_eq]
  rw [show (if n = 0 then commandForm s.variant e else requestForm e) = some f from h]
  exact if_pos ha

theorem entryCheck_form {s : State} {n : Nat} {e : List Byte} {f : Form} (h : entryForm s n e = some f) (ha : needsAbsent s n e = false) :
    entryCheck s n e = (formFault e f).map fun b => (.fieldInvalid, faultDetail s n e b) := by
  unfold entryCheck
  simp only [beq_iff_eq]
  rw [show (if n = 0 then commandForm s.variant e else requestForm e) = some f from h]
  dsimp only
  rw [if_neg (by simp [ha])]
  congr 1
  funext b
  unfold faultDetail
  cases (if n = 0 then stateFields s e else none) <;> rfl

/-- The lowest failing byte lies in the entry, and no verdict on a byte before it is bad. -/
theorem formFault_lowest {e : List Byte} {f : Form} {b : Nat} (h : formFault e f = some b) :
    b < 64 ∧ ∀ x, x < b → ∀ y ∈ f.bad, y.1 = x → y.2 = false := by
  obtain ⟨-, hb, hbefore⟩ := List.find?_range_eq_some.mp h
  refine ⟨List.mem_range.mp hb, fun x hx y hy hyx => ?_⟩
  have hgood := hbefore x hx
  simp only [Bool.not_eq_true', Bool.or_eq_false_iff, List.any_eq_false] at hgood
  simpa [hyx] using hgood.2 y hy

/-- Settles O34: `entryCheck` judges the opcode, the absent units and the form in this order. -/
theorem entryChecksInOrder : Obligations.EntryChecksInOrder := by
  unfold Obligations.EntryChecksInOrder
  intro s n e
  refine ⟨entryCheck_undefined, fun f hform => ⟨entryCheck_absent hform, fun ha hf => ?_, fun ha b hf => ?_, fun ha hn b hf => ?_⟩⟩
  · rw [entryCheck_form hform ha, hf]
    rfl
  · exact ⟨_, by rw [entryCheck_form hform ha, hf]; rfl, faultDetail_le s n e b, (formFault_lowest hf).1⟩
  · refine ⟨?_, (formFault_lowest hf).2⟩
    rw [entryCheck_form hform ha, hf, Option.map_some, faultDetail_vf hn]

/-! ## Fetching and taking an entry (R54, R57, R62, R68) -/

theorem execRequestFetchStart_reads (s : State) {n k : Nat} (h : canFetch s.quiet n k = true) :
    execRequestFetchStart n k s = .next (readEntry (s.quiet.setRing n k
      { s.ring n k with reading := some 0, reserved := (s.ring n k).reserved + 1 }) n k) := if_pos h

theorem stopFetch_reading (s : State) (n k : Nat) : ((stopFetch s n).ring n k).reading = none := by
  unfold stopFetch State.ring
  rw [State.fn_updFn_same]
  simp only [kvGet, kvFind_kvMap]
  cases kvFind (s.fn n).rings k with
  | none => rfl
  | some r =>
    simp only [Option.map_some, Option.getD_some, Ring.cancelRead]
    cases h : r.reading <;> simp [h]

/-- The number that the next entry of function `n` takes. -/
def nextSeq (s : State) (n : Nat) : Nat := if n = 0 then s.hp.cmdSeq else (s.inst (n - 1)).seq

@[simp] theorem takeEntry_seq (s : State) (n k : Nat) (e : List Byte) : (takeEntry s n k e).1 = nextSeq s n := by
  unfold takeEntry nextSeq
  dsimp only
  cases n <;> rfl

theorem takeEntry_nextSeq (s : State) (n k : Nat) (e : List Byte) : nextSeq (takeEntry s n k e).2 n = (nextSeq s n + 1) % 2 ^ 32 := by
  unfold takeEntry nextSeq
  cases n with
  | zero => rfl
  | succ n =>
    simp only [Nat.succ_ne_zero, beq_iff_eq, if_false, Nat.add_sub_cancel]
    exact congrArg Inst.seq (State.inst_setInst_same _ n _)

theorem takeEntry_ring (s : State) (n k : Nat) (e : List Byte) :
    (takeEntry s n k e).2.ring n k = { s.ring n k with reading := none, rqHead := ((s.ring n k).rqHead + 1) % 2 ^ (s.ring n k).rqSize } := by
  unfold takeEntry
  dsimp only
  cases n <;> exact State.ring_setRing_same _ _ k _

theorem takeEntry_reqs (s : State) (n k : Nat) (e : List Byte) : (takeEntry s n k e).2.hp.reqs
    = s.hp.reqs ++ [{ fn := n, k := k, seq := nextSeq s n, entry := padTo 64 e, tb := s.clk.tb }] := by
  unfold takeEntry nextSeq
  dsimp only
  cases n <;> rfl

theorem not_refused_of_admits {s : State} {n : Nat} (h : s.admits n = true) : ¬(!s.quiet.admits n) = true := by
  rw [show s.quiet.admits n = true from h]
  simp

section
variable {s : State} {n k : Nat} (hlive : s.live = true) (hport : s.hp.stopped = false) (hread : (s.ring n k).reading.isSome = true)
include hlive hport hread

theorem requestEntryArrive_expected : ¬(!s.quiet.live || s.quiet.hp.stopped || (s.quiet.ring n k).reading.isNone) = true := by
  rw [show s.quiet.live = true from hlive, State.quiet_hp, hport, State.quiet_ring, ← Option.not_isSome, hread]
  simp

/-- What is no longer RUNNING takes no entry. -/
theorem requestEntryArrive_refused (ha : s.admits n = false) (e : List Byte) (p : Bool) :
    execRequestEntryArrive n k e p s = .next (stopFetch s.quiet n) := by
  unfold execRequestEntryArrive
  dsimp only
  rw [if_neg (requestEntryArrive_expected hlive hport hread), if_pos (by rw [show s.quiet.admits n = false from ha]; rfl)]

variable (ha : s.admits n = true)
include ha

theorem requestEntryArrive_poisoned (e : List Byte) : execRequestEntryArrive n k e true s
    = .next (complete (poisonIn (takeEntry s.quiet n k (zeros 64)).2 n) n (nextSeq s.quiet n) 0x0E 0x100 0 []) := by
  unfold execRequestEntryArrive
  dsimp only
  rw [if_neg (requestEntryArrive_expected hlive hport hread), if_neg (not_refused_of_admits ha), if_pos rfl,
    takeEntry_seq]
  rfl

theorem requestEntryArrive_rejected {e : List Byte} {st : Status} {d : Nat}
    (hc : entryCheck (takeEntry s.quiet n k e).2 n (padTo 64 e) = some (st, d)) :
    execRequestEntryArrive n k e false s = .next (complete (takeEntry s.quiet n k e).2 n (nextSeq s.quiet n) st.code d 0 []) := by
  unfold execRequestEntryArrive
  dsimp only
  rw [if_neg (requestEntryArrive_expected hlive hport hread), if_neg (not_refused_of_admits ha),
    if_neg Bool.false_ne_true, takeEntry_seq, hc]

theorem requestEntryArrive_admitted {e : List Byte} (hc : entryCheck (takeEntry s.quiet n k e).2 n (padTo 64 e) = none) :
    execRequestEntryArrive n k e false s = .next (admitMirrored (takeEntry s.quiet n k e).2 n (nextSeq s.quiet n)) := by
  unfold execRequestEntryArrive
  dsimp only
  rw [if_neg (requestEntryArrive_expected hlive hport hread), if_neg (not_refused_of_admits ha),
    if_neg Bool.false_ne_true, takeEntry_seq, hc]

end

/-- Settles O33: `takeEntry` says what an arrival leaves, and the checks of the entry which way it goes on. -/
theorem requestEntriesAreFetched : Obligations.RequestEntriesAreFetched := by
  unfold Obligations.RequestEntriesAreFetched
  refine ⟨fun s n k hf => ⟨_, execRequestFetchStart_reads s hf, ?_⟩, fun s n k e hlive hport hread he => ⟨fun ha => ⟨?_, ?_⟩, fun ha => ?_⟩⟩
  · simp [readEntry, State.ring, State.setRing, State.fn, State.updFn, State.setFn, State.emit, kvGet_kvSet]
  · exact requestEntryArrive_refused hlive hport hread ha e false
  · exact stopFetch_reading _ n k
  · have he' : padTo 64 e = e := padTo_of_length he
    have hring := takeEntry_ring s.quiet n k e
    have hreqs := takeEntry_reqs s.quiet n k e
    rw [he'] at hreqs
    exact ⟨takeEntry_seq s.quiet n k e, takeEntry_nextSeq s.quiet n k e, by rw [hring]; rfl, by rw [hring], hreqs,
      fun st d hc => requestEntryArrive_rejected hlive hport hread ha (he'.symm ▸ hc),
      fun hc => requestEntryArrive_admitted hlive hport hread ha (he'.symm ▸ hc),
      requestEntryArrive_poisoned hlive hport hread ha e⟩

end Sys2Proof.Machine

namespace Sys2Proof.Machine

open Sys2Proof

/-! ## Failed reads of the host (R62, R335) -/

variable (s : State)

@[simp] theorem readFailed_out (n : Nat) : (readFailed s n).out = s.out := rfl
@[simp] theorem readFailed_req? (n m q : Nat) : (readFailed s n).req? m q = s.req? m q := rfl
@[simp] theorem readFailed_eng (n p : Nat) : (readFailed s n).eng p = s.eng p := rfl
@[simp] theorem readFailed_inst (n i : Nat) : (readFailed s n).inst i = s.inst i := rfl
@[simp] theorem readFailed_admits (n : Nat) : (readFailed s n).admits n = s.admits n := rfl

@[simp] theorem readFailed_ring (n k : Nat) : (readFailed s n).ring n k = s.ring n k := by
  unfold readFailed State.ring
  dsimp only
  rw [State.fn_updFn_same]
  rfl

@[simp] theorem logEvent_ve (e : LogEntry) (k : Nat) : (logEvent s e).ve k = s.ve k := by
  obtain ⟨o, fs, b, h, -⟩ := logEvent_frame s e
  rw [h]
  rfl

/-- A machine check is reported to its virtual engine, held or pending. -/
theorem machineCheck_mc (k code access ilen : Nat) (va : Option Word) (line : Nat) :
    ((machineCheck s k code access ilen va line).ve k).mc.map McInfo.code = some code := by
  unfold machineCheck
  dsimp only
  rw [logEvent_ve, State.ve_setVe_same]
  rfl

variable {s} (hlive : s.live = true) (hport : s.hp.stopped = false)
include hlive hport

theorem hostReadFailed_heard : ¬(!s.quiet.live || s.quiet.hp.stopped) = true := by
  rw [show s.quiet.live = true from hlive, State.quiet_hp, hport]
  simp

section
variable {n k a : Nat} (hr : (s.ring n k).reading = some a) (ha : s.admits n = true)
include hr ha

/-- The first and the second failure of the read of an entry repeat it. -/
theorem hostReadFailed_entry_again (h2 : a < 2) : execHostReadFailed (.entry n k) s
    = .next (readEntry ((readFailed s.quiet n).setRing n k { s.ring n k with reading := some (a + 1) }) n k) := by
  unfold execHostReadFailed
  dsimp only
  rw [if_neg (hostReadFailed_heard hlive hport), State.quiet_ring, hr]
  dsimp only
  rw [readFailed_admits, if_neg (not_refused_of_admits ha), if_pos h2]

/-- The third ends the entry. -/
theorem hostReadFailed_entry_ends (h2 : 2 ≤ a) : execHostReadFailed (.entry n k) s
    = .next (complete (takeEntry (readFailed s.quiet n) n k (zeros 64)).2 n (takeEntry (readFailed s.quiet n) n k (zeros 64)).1
        0x0E 0x101 0 []) := by
  unfold execHostReadFailed
  dsimp only
  rw [if_neg (hostReadFailed_heard hlive hport), State.quiet_ring, hr]
  dsimp only
  rw [readFailed_admits, if_neg (not_refused_of_admits ha), if_neg (Nat.not_lt.mpr h2)]
  rfl

end

section
variable {n : Nat} {q : BitVec 32} {x : Request} (hx : s.req? n q.toNat = some x) (hst : x.stage = .arrived ∨ x.stage = .running)
  (hc : x.closing = false) (ha : x.admitting = false) (hb : n = 0 ∨ (s.fn n).bme = true)
include hx hst hc ha hb

/-- A read for a request that still needs it: repeated twice, then the request ends. -/
theorem hostReadFailed_source : execHostReadFailed (.source n q) s = .next (if x.attempts < 2
    then ((readFailed s.quiet n).putReq { x with attempts := x.attempts + 1 }).emit (.hostRead n (reqSrc x.entry) (reqSrcLen x.entry))
    else sourceFailed (readFailed s.quiet n) x) := by
  have hneeds : ¬(!(x.stage == .arrived || x.stage == .running) || x.closing || x.admitting || (n != 0 && !(s.quiet.fn n).bme)) = true := by
    have h1 : (x.stage == .arrived || x.stage == .running) = true := by simpa using hst
    have h2 : (n != 0 && !(s.quiet.fn n).bme) = false := by simpa [or_iff_not_imp_left] using hb
    rw [h1, h2, hc, ha]
    simp
  unfold execHostReadFailed
  dsimp only
  rw [if_neg (hostReadFailed_heard hlive hport), State.quiet_req?, hx]
  dsimp only
  rw [if_neg hneeds]
  split <;> rfl

end

section
variable {p k len ilen w o : Nat} {va : Word} {bad : Bool} {t : State} (hk : running s.quiet p = some k)
  (ht : translate s.quiet p k .load va = .ok (.window w o, t))
include hk ht

/-- A poisoned answer, or the third failure of a read through a host window, is a machine check of the load. -/
theorem hostReadFailed_window_ends (h : bad = true ∨ 2 ≤ (t.eng p).winFails) :
    ∃ v, execHostReadFailed (.window p va len ilen bad) s = .next (machineCheck v k 3 0 ilen (some va) 0) := by
  unfold execHostReadFailed
  dsimp only
  rw [if_neg (hostReadFailed_heard hlive hport), hk]
  dsimp only
  rw [ht]
  cases bad with
  | true => exact ⟨_, rfl⟩
  | false =>
    have h2 : 2 ≤ (t.eng p).winFails := h.resolve_left Bool.false_ne_true
    dsimp only
    rw [if_neg Bool.false_ne_true, if_neg (Nat.not_lt.mpr h2)]
    exact ⟨_, rfl⟩

/-- The first and the second failure repeat the read. -/
theorem hostReadFailed_window_again (h2 : (t.eng p).winFails < 2) : execHostReadFailed (.window p va len ilen false) s
    = .next (((readFailed t (veInst k + 1)).updEng p fun e => { e with winFails := (t.eng p).winFails + 1 }).emit
        (.hostRead (veInst k + 1) ((kvGet {} (t.inst (veInst k)).windows w).busBase + o) len)) := by
  unfold execHostReadFailed
  dsimp only
  rw [if_neg (hostReadFailed_heard hlive hport), hk]
  dsimp only
  rw [ht]
  dsimp only
  rw [if_neg Bool.false_ne_true, if_pos h2]
  rfl

end

omit hlive hport in
/-- The third failure of a source ends the job that the request has, or else the request. -/
theorem sourceFailed_cases (w : State) {n q : Nat} {x : Request} (hf : x.fn = n) (hq : x.seq = q) :
    let mine (j : Job) : Bool := j.area.isNone && j.inst + 1 == n && j.seq == q
    (w.xce.jobs.find? mine = none → w.cze.jobs.find? mine = none → sourceFailed w x = complete w n q 0x0E 0x101 0 [])
    ∧ (∀ j, w.xce.jobs.find? mine = some j → sourceFailed w x = endJob w false j 0x0E 0x101 0 [])
    ∧ (∀ j, w.xce.jobs.find? mine = none → w.cze.jobs.find? mine = some j → sourceFailed w x = endJob w true j 0x0E 0x101 0 []) := by
  subst hf hq
  unfold sourceFailed
  refine ⟨fun h1 h2 => ?_, fun j h => ?_, fun j h1 h2 => ?_⟩
  · dsimp only
    rw [h1, h2]
    rfl
  · dsimp only
    rw [h]
    rfl
  · dsimp only
    rw [h1, h2]
    rfl

omit hlive hport in
/-- Settles O35: the three kinds of read, each repeated twice and then ended. -/
theorem failedHostReads : Obligations.FailedHostReads := by
  unfold Obligations.FailedHostReads
  intro s hlive hport
  refine ⟨fun n k a hr ha => ⟨fun h2 => ?_, hostReadFailed_entry_ends hlive hport hr ha⟩, fun n q x hx hst hc had hb => ?_,
    fun p va len ilen bad k w o t hk ht => ⟨fun h => ?_, fun hbad h2 => ?_⟩⟩
  · refine ⟨_, hostReadFailed_entry_again hlive hport hr ha h2, ?_⟩
    simp [readEntry, State.ring, State.setRing, State.fn, State.updFn, State.setFn, State.emit, kvGet_kvSet]
  · obtain ⟨hfn, hseq⟩ := req?_key hx
    have hend := hostReadFailed_source hlive hport hx hst hc had hb
    refine ⟨fun h2 => ?_, fun h2 => ?_⟩
    · rw [if_pos h2] at hend
      refine ⟨_, hend, ?_, rfl⟩
      exact congrArg (Option.map Request.attempts)
        (req?_putReq (s := readFailed s.quiet n) (r := { x with attempts := x.attempts + 1 }) hx hfn hseq)
    · rw [if_neg (Nat.not_lt.mpr h2)] at hend
      obtain ⟨hnone, hxce, hcze⟩ := sourceFailed_cases (readFailed s.quiet n) hfn hseq
      exact ⟨fun h1 h2 => by rw [← hnone h1 h2]; exact hend, fun j h => by rw [← hxce j h]; exact hend,
        fun j h1 h2 => by rw [← hcze j h1 h2]; exact hend⟩
  · obtain ⟨v, hv⟩ := hostReadFailed_window_ends (len := len) (ilen := ilen) hlive hport hk ht h
    have hmc := machineCheck_mc v k 3 0 ilen (some va) 0
    exact ⟨_, hv, by rw [← Option.isSome_map, hmc]; rfl, hmc⟩
  · subst hbad
    refine ⟨_, hostReadFailed_window_again hlive hport hk ht h2, ?_, rfl⟩
    exact congrArg Engine.winFails (State.eng_setEng_same _ p _)

end Sys2Proof.Machine

namespace Sys2Proof.Machine

open Sys2Proof

/-! ## Turns and refusals (R57, R59, R60, R69, R74) -/

/-- A fence lets a request pass when no earlier request of its ring is in hand and no earlier completion held. -/
theorem fenceHolds_eq_false_iff (s : State) (r : Request) : fenceHolds s r = false ↔
    (reqFence r.entry = true → (∀ x ∈ s.hp.reqs, x.fn = r.fn → x.k = r.k → serialBefore 32 x.seq r.seq = false)
      ∧ ∀ c ∈ (s.ring r.fn r.k).held, serialBefore 32 c.seq r.seq = false) := by
  simp only [fenceHolds, Bool.and_eq_false_imp, Bool.or_eq_false_iff, List.any_eq_false, Bool.and_eq_true, beq_iff_eq,
    Bool.not_eq_true, not_and, and_imp]

theorem takeReq_eq_some_iff (s : State) (n q op : Nat) (r : Request) :
    takeReq s n q op = some r ↔ s.req? n q = some r ∧ s.live = true ∧ s.hp.stopped = false ∧ s.bel.fatal = false ∧ n ≠ 0
      ∧ reqOp r.entry = op ∧ r.stage = .arrived ∧ r.admitting = false ∧ r.closing = false ∧ (s.inst (n - 1)).st = .running
      ∧ fenceHolds s r = false := by
  unfold takeReq
  cases hr : s.req? n q with
  | none => simp
  | some x =>
    simp only [Option.ite_none_right_eq_some, Option.some.injEq, Bool.and_eq_true, Bool.not_eq_true', bne_iff_ne, beq_iff_eq]
    constructor
    · rintro ⟨h, rfl⟩
      tauto
    · rintro ⟨rfl, h⟩
      tauto

theorem takeCmd_eq_some_iff (s : State) (q op : Nat) (r : Request) :
    takeCmd s q op = some r ↔ s.req? 0 q = some r ∧ s.live = true ∧ s.hp.stopped = false ∧ s.bel.fatal = false
      ∧ reqOp r.entry = op ∧ r.stage = .arrived
      ∧ (lineOf r.entry ≠ .atOnce → ∀ x ∈ s.hp.reqs, x.fn = 0 → lineOf x.entry = lineOf r.entry → serialBefore 32 x.seq q = false)
      ∧ fenceHolds s r = false := by
  have hline (r : Request) : (lineOf r.entry != .atOnce && s.hp.reqs.any fun x => x.fn == 0 && lineOf x.entry == lineOf r.entry
      && serialBefore 32 x.seq q) = false
      ↔ (lineOf r.entry ≠ .atOnce → ∀ x ∈ s.hp.reqs, x.fn = 0 → lineOf x.entry = lineOf r.entry → serialBefore 32 x.seq q = false) := by
    simp only [Bool.and_eq_false_imp, bne_iff_ne, List.any_eq_false, Bool.and_eq_true, beq_iff_eq, Bool.not_eq_true, not_and, and_imp]
  unfold takeCmd
  cases hr : s.req? 0 q with
  | none => simp
  | some x =>
    simp only [Option.ite_none_right_eq_some, Option.some.injEq, Bool.and_eq_true, Bool.not_eq_true', beq_iff_eq, hline]
    constructor
    · rintro ⟨h, rfl⟩
      tauto
    · rintro ⟨rfl, h⟩
      tauto

/-- The command that a turn gives is the manager's, under its number and with its code. -/
theorem takeCmd_key {s : State} {q op : Nat} {r : Request} (h : takeCmd s q op = some r) :
    s.req? 0 q = some r ∧ r.fn = 0 ∧ r.seq = q ∧ reqOp r.entry = op := by
  obtain ⟨hr, -, -, -, hop, -⟩ := (takeCmd_eq_some_iff s q op r).mp h
  obtain ⟨hfn, hseq⟩ := req?_key hr
  exact ⟨hr, hfn, hseq, hop⟩

theorem takeReq_key {s : State} {n q op : Nat} {r : Request} (h : takeReq s n q op = some r) :
    s.req? n q = some r ∧ r.fn = n ∧ r.seq = q ∧ reqOp r.entry = op := by
  obtain ⟨hr, -, -, -, -, hop, -⟩ := (takeReq_eq_some_iff s n q op r).mp h
  obtain ⟨hfn, hseq⟩ := req?_key hr
  exact ⟨hr, hfn, hseq, hop⟩

/-- A command that waits for channel operations is refused like any other in a state that does not accept it. -/
theorem afterOps_refused {s : State} {q : BitVec 32} {op : Nat} {body : State → Request → Nat → State} {r : Request}
    (h : takeCmd s.quiet q.toNat op = some r) (ha : accepts op (s.inst (reqTarget r.entry)) = false) :
    afterOps s q op body = .next (refuse s.quiet r (reqTarget r.entry) (s.inst (reqTarget r.entry)).st.code) := by
  unfold afterOps
  dsimp only
  rw [h]
  dsimp only
  rw [if_neg (by rw [State.quiet_inst, ha]; simp)]
  exact instCommand_refused h rfl ha

theorem execCreate_refused {s : State} {q : BitVec 32} {r : Request} (h : takeCmd s.quiet q.toNat 0x40 = some r)
    (hm : s.spire.push.marker = false) (hst : (s.inst (reqTarget r.entry)).st ≠ .free) :
    execCreate q s = .next (refuse s.quiet r (reqTarget r.entry) (s.inst (reqTarget r.entry)).st.code) := by
  have ha : accepts 0x40 (s.inst (reqTarget r.entry)) = false := by simp [accepts, legalIn, hst]
  unfold execCreate
  dsimp only
  rw [h]
  dsimp only
  rw [if_neg (by rw [State.quiet_spire, hm]; simp), State.quiet_inst, if_neg (by rw [ha]; simp)]

/-- A refusal leaves the log one entry longer and the command completed, and nothing else of the module changed. -/
theorem refuse_effect {s : State} {r : Request} (x d : Nat) (hfn : r.fn = 0) (hb : s.bel.stopped = false) :
    let u := refuse s r x d
    u.req? 0 r.seq = none ∧ u.insts = s.insts ∧ u.ves = s.ves ∧ u.mem = s.mem ∧ u.css = s.css ∧ u.pages = s.pages ∧ u.bel.eseq = s.bel.eseq + 1 := by
  intro u
  obtain ⟨b, hlog, -, hrun⟩ := logWrite_posts s { s.entry 0x42 0 0x12 0xFFFF with inst := x, detail := d, ref := r.seq }
  obtain ⟨-, heseq, -⟩ := hrun hb
  rw [← logEvent_eq_logWrite s (by simp [State.entry])] at hlog
  generalize hv : logEvent s _ = v at hlog
  have hu : u = completeNow v 0 r.seq Status.stateRefused.code d 0 [] := by
    rw [← hv]
    exact (congrArg (fun n => complete _ n r.seq _ d 0 []) hfn).trans (complete_local (.inl rfl))
  have hpost := completeNow_posts 0 r.seq Status.stateRefused.code d 0 [] v
  rw [← hu] at hpost
  refine ⟨hu ▸ completeNow_req?_same v 0 r.seq _ d 0 [], hpost.insts.trans hlog.insts, hpost.ves.trans hlog.ves, hpost.mem.trans hlog.mem,
    hpost.css.trans hlog.css, hpost.pages.trans hlog.pages, ?_⟩
  rw [hpost.bel]
  exact (congrArg Belfry.eseq hlog.bel).trans heseq

/-- Settles O43: the turns by their conditions, the refusals by the shape that the commands share. -/
theorem turnsAndRefusalsOfCommands : Obligations.TurnsAndRefusalsOfCommands := by
  unfold Obligations.TurnsAndRefusalsOfCommands
  refine ⟨fun s n q op r => ⟨?_, ?_⟩, fun s q => ⟨?_, ?_, fun r h hm hst => execCreate_refused h hm hst, ?_⟩⟩
  · rw [takeReq_eq_some_iff, fenceHolds_eq_false_iff]
  · rw [takeCmd_eq_some_iff, fenceHolds_eq_false_iff]
  · simp only [List.forall_mem_cons]
    exact ⟨fun r h ha => (instCommand_refused h rfl ha : execStart q s = _),
      fun r h ha => (instCommand_refused h rfl ha : execQuiesce q s = _),
      fun r h ha => (instCommand_refused h rfl ha : execResume q s = _), fun r h => afterOps_refused h, fun r h => afterOps_refused h,
      fun r h ha => (instCommand_refused h rfl ha : execQuery q s = _),
      fun r h ha => (instCommand_refused h rfl ha : execSetWindow q s = _),
      fun r h ha => (instCommand_refused h rfl ha : execExportInst q s = _),
      fun r h ha => (instCommand_refused h rfl ha : execImportInst q s = _),
      fun r h ha => (instCommand_refused h rfl ha : execLogEnable q s = _),
      fun r h ha => (instCommand_refused h rfl ha : execLogHarvest q s = _),
      fun r h ha => (instCommand_refused h rfl ha : execLogDisable q s = _), fun _ hc => absurd hc List.not_mem_nil⟩
  · simp only [List.forall_mem_cons]
    exact ⟨fun r h hf ha => (instCommand_refused h hf ha : execSetEngines q s = _),
      fun r h hf ha => (instCommand_refused h hf ha : execResize q s = _), fun _ hc => absurd hc List.not_mem_nil⟩
  · exact fun r x d hfn _ _ hb => refuse_effect x d hfn hb

end Sys2Proof.Machine

/-! SUPPORT. The registers of the host port: the register map, writes and reads of BAR 0, rings and doorbells; O50 and O52. -/

namespace Sys2Proof.Machine

open Sys2Proof

/-! ## Error registers (R14, R42, R48, R49) -/

section
variable (s : State)

@[simp] theorem setErrBit_ring (n b m k : Nat) : (setErrBit s n b).ring m k = s.ring m k := by
  have hset : (s.setFn n { s.fn n with err := (s.fn n).err ||| (1#7 <<< b) }).ring m k = s.ring m k := by
    unfold State.ring
    rw [State.fn_setFn]
    split
    next e => rw [e]
    next => rfl
  unfold setErrBit
  dsimp only
  split
  · rfl
  · split
    · rw [sendMsix_ring, hset]
    · exact hset

theorem sendMsix_err (n v m : Nat) : ((sendMsix s n v).fn m).err = (s.fn m).err :=
  (setup_ext (congrFun (congrFun (sendMsix_setup s n v) m) 0)).2.2.2

/-- A bit of an error register is set, and no other bit of any function's changes. -/
theorem setErrBit_err (n b m : Nat) (hb : b < 7) : ((setErrBit s n b).fn m).err = if n = m then (s.fn m).err ||| (1#7 <<< b) else (s.fn m).err := by
  have hset : ((s.setFn n { s.fn n with err := (s.fn n).err ||| (1#7 <<< b) }).fn m).err
      = if n = m then (s.fn m).err ||| (1#7 <<< b) else (s.fn m).err := by
    rw [State.fn_setFn]
    split
    next e => rw [e]
    next => rfl
  unfold setErrBit
  dsimp only
  split
  next h =>
    have hor : (s.fn n).err ||| (1#7 <<< b) = (s.fn n).err := by
      ext i hi
      simp only [BitVec.getElem_or, BitVec.getElem_shiftLeft, BitVec.getElem_one]
      by_cases hib : i = b
      · subst hib
        simpa [BitVec.getLsbD_eq_getElem hi] using h
      · by_cases hlt : i < b <;> simp [hlt]; omega
    split
    next e => rw [← e, hor]
    next => rfl
  next =>
    split
    · rw [sendMsix_err, hset]
    · exact hset

@[simp] theorem raiseErr_ring (n : Nat) (e : ErrKind) (m k : Nat) : (raiseErr s n e).ring m k = s.ring m k := by
  unfold raiseErr
  split
  · exact setErrBit_ring s 0 _ m k
  · cases e <;> simp

/-- An error of a VF sets its own bit of INS_ERR, and no other. -/
theorem raiseErr_err {n : Nat} (hn : n ≠ 0) (e : ErrKind) : ((raiseErr s n e).fn n).err = (s.fn n).err ||| (1#7 <<< e.insBit) := by
  have hown : ((setErrBit s n e.insBit).fn n).err = (s.fn n).err ||| (1#7 <<< e.insBit) := by
    rw [setErrBit_err s n e.insBit n (by cases e <;> decide), if_pos rfl]
  have hmgr (b : Nat) (hb : b < 7) : ((setErrBit (setErrBit s n e.insBit) 0 b).fn n).err = (s.fn n).err ||| (1#7 <<< e.insBit) := by
    rw [setErrBit_err _ 0 b n hb, if_neg hn.symm, hown]
  unfold raiseErr
  rw [if_neg (by simpa using hn)]
  cases e with
  | access | poisonIn | rsvdWrite => exact hmgr _ (by decide)
  | ringBusy | dbDisabled | dbRange => exact hown

end

/-! ## The register map (R44, R49, R53) -/

/-- The registers of PF 0 from its ring pair on. -/
theorem regAt_manager {s : State} {o : Nat} (h : 0x100 ≤ o) : regAt s 0 o =
    if o < 0x130 then ringReg 0 (o - 0x100) else if o = 0x1000 then .rqDb 0 else if o = 0x1008 then .cqDb 0 else .none := by
  unfold regAt
  rw [if_neg (by simp; omega), if_neg (by simp; omega), if_neg (by simp; omega), if_pos (beq_self_eq_true 0),
    if_neg (by simp; omega), if_neg (by simp; omega)]
  simp [h]

/-- The registers of a VF from its ring pairs on: the block or the doorbells of pair `k`. -/
theorem regAt_pair {s : State} {n k o : Nat} (hn : n ≠ 0) (h : 0x1000 ≤ o)
    (hk : (if 0x2000 ≤ o then (o - 0x2000) / 0x10 else (o - 0x1000) / 0x40) = k) (hring : s.hasRing n k = true) : regAt s n o =
      if 0x2000 ≤ o then (if o % 0x10 = 0 then .rqDb k else .cqDb k) else ringReg k ((o - 0x1000) % 0x40) := by
  unfold regAt
  rw [if_neg (by simp; omega), if_neg (by simp; omega), if_neg (by simp; omega), if_neg (by simpa using hn), if_neg (by simp; omega),
    if_neg (by simp; omega)]
  dsimp only
  rw [hk, hring, if_neg (by simp; omega)]
  simp

section
variable {s : State} {n k : Nat} (hring : s.hasRing n k = true) (hk : k < 8)
include hring hk

theorem ringMapped_of_hasRing : ringMapped n k = true := by
  unfold ringMapped
  unfold State.hasRing at hring
  split
  next h => simpa [h] using hring
  next => simpa using hk

theorem regAt_ringOff {c : Nat} (hc : c < 0x30) (h8 : c % 8 = 0) : regAt s n (ringOff n k + c) = ringReg k c := by
  by_cases hn : n = 0
  · obtain rfl : k = 0 := by simpa [State.hasRing, hn] using hring
    subst hn
    change regAt s 0 (0x100 + c) = ringReg 0 c
    rw [regAt_manager (Nat.le_add_right 0x100 c), if_pos (show 0x100 + c < 0x130 by omega), Nat.add_sub_cancel_left]
  · have ho : ringOff n k + c = 0x1000 + k * 0x40 + c := by simp [ringOff, hn]
    rw [ho, regAt_pair hn (by omega) (by rw [if_neg (by omega), show (0x1000 + k * 0x40 + c - 0x1000) / 0x40 = k by omega]) hring,
      if_neg (by omega), show (0x1000 + k * 0x40 + c - 0x1000) % 0x40 = c by omega]

theorem regAt_doorbellOff : regAt s n (doorbellOff n k) = .rqDb k ∧ regAt s n (doorbellOff n k + 8) = .cqDb k := by
  by_cases hn : n = 0
  · obtain rfl : k = 0 := by simpa [State.hasRing, hn] using hring
    subst hn
    exact ⟨rfl, rfl⟩
  · have ho : doorbellOff n k = 0x2000 + k * 0x10 := by simp [doorbellOff, hn]
    rw [ho]
    constructor
    · rw [regAt_pair hn (by omega) (by rw [if_pos (by omega), show (0x2000 + k * 0x10 - 0x2000) / 0x10 = k by omega]) hring,
        if_pos (by omega), if_pos (by omega)]
    · rw [regAt_pair hn (by omega) (by rw [if_pos (by omega), show (0x2000 + k * 0x10 + 8 - 0x2000) / 0x10 = k by omega]) hring,
        if_pos (by omega), if_neg (by omega)]

end

/-! ## Writes of BAR 0 (R42) -/

theorem hostRegWrite_bar0 {s : State} {n off : Nat} {d : List Byte} (h : s.reach n = .served) (ho : off < 65536) :
    hostRegWrite s n 0 off d = bar0Write s.quiet n off d := by
  unfold hostRegWrite
  dsimp only
  rw [show s.quiet.reach n = .served from h]
  exact if_pos ho

theorem hostRegWrite_bar2 {s : State} {n off : Nat} {d : List Byte} (h : s.reach n = .served) (hn : n ≠ 0) (ho : off < 65536) :
    hostRegWrite s n 2 off d = bar2Write s.quiet n off d := by
  unfold hostRegWrite
  dsimp only
  rw [show s.quiet.reach n = .served from h]
  exact if_pos (by simp [hn, ho])

theorem hostRegWrite_bar4 {s : State} {n off : Nat} {d : List Byte} (h : s.reach n = .served) (ho : off < 8192) :
    hostRegWrite s n 4 off d = bar4Write s.quiet n off d := by
  unfold hostRegWrite
  dsimp only
  rw [show s.quiet.reach n = .served from h]
  exact if_pos ho

theorem regAccessOk_iff {o l : Nat} : regAccessOk o l = true ↔ l ∈ [1, 2, 4, 8] ∧ o % l = 0 := by
  simp [regAccessOk, or_assoc]

theorem accessSize_dvd {l : Nat} (h : l ∈ [1, 2, 4, 8]) : 0 < l ∧ l ∣ 8 := by
  revert l
  decide

/-- A write of a wrong size or alignment sets ACCESS. -/
theorem bar0Write_badAccess {s : State} {n off : Nat} {d : List Byte} (h : ¬(d.length ∈ [1, 2, 4, 8] ∧ off % d.length = 0)) :
    bar0Write s n off d = raiseErr s n .access := by
  unfold bar0Write
  exact if_pos (by rwa [Bool.not_eq_true', ← Bool.not_eq_true, regAccessOk_iff])

/-- A write inside the register at offset `a`, which is no doorbell. -/
theorem bar0Write_reg {s : State} {n a o : Nat} {d : List Byte} {r : Reg} (hr : regAt s n a = r) (ha : a % 8 = 0)
    (hd : d.length ∈ [1, 2, 4, 8]) (ho : o % d.length = 0) (hfit : o + d.length ≤ 8) (hdb : ∀ k, r ≠ .rqDb k ∧ r ≠ .cqDb k) :
    bar0Write s n (a + o) d = regWrite s n r o d := by
  obtain ⟨hpos, h8⟩ := accessSize_dvd hd
  have halign : (a + o) % d.length = 0 := by
    rw [Nat.add_mod, ho, Nat.add_zero, Nat.mod_mod]
    exact Nat.mod_eq_zero_of_dvd (h8.trans (Nat.dvd_of_mod_eq_zero ha))
  have hoff : (a + o) % 8 = o := by omega
  unfold bar0Write
  dsimp only
  rw [if_neg (by simp [regAccessOk_iff.mpr ⟨hd, halign⟩]), hoff, Nat.add_sub_cancel, hr]
  split
  next k => exact absurd rfl (hdb k).1
  next k => exact absurd rfl (hdb k).2
  next => rfl

/-- A doorbell written by four bytes. -/
theorem bar0Write_doorbell {s : State} {n a : Nat} {d : List Byte} (ha : a % 8 = 0) (hd : d.length = 4) :
    (∀ k, regAt s n a = .rqDb k → bar0Write s n a d = ringRqDb s n k (fieldBE d 0 4))
    ∧ (∀ k, regAt s n a = .cqDb k → bar0Write s n a d = ringCqDb s n k (fieldBE d 0 4)) := by
  have hok : ¬(!regAccessOk a d.length) = true := by simp [regAccessOk_iff, hd]; omega
  have hlen : ¬d.length < 4 := by omega
  unfold bar0Write
  dsimp only
  rw [if_neg hok, ha, Nat.sub_zero]
  constructor <;> intro k hr <;> rw [hr]
  · exact (if_neg (by decide)).trans (if_neg hlen)
  · exact (if_neg (by decide)).trans (if_neg hlen)

/-! ## The registers of a ring pair (R50 to R53) -/

/-- The value of a register after a write of some of its bytes. -/
def mergedReg (v o : Nat) (d : List Byte) : Nat := beNat (patch (toBE 8 v) o d)

theorem mergedReg_whole {v : Nat} {d : List Byte} (h : d.length = 8) : mergedReg v 0 d = fieldBE d 0 8 := by
  rw [mergedReg, patch_whole (by simp [h]), fieldBE_whole h]

section
variable {s : State} {n k : Nat} (hserved : s.reach n = .served) (hring : s.hasRing n k = true) (hk : k < 8)
include hserved hring hk

/-- A write of a register of the block of ring pair `k`. -/
theorem hostRegWrite_ring {c o : Nat} {d : List Byte} (hc : c < 0x30) (h8 : c % 8 = 0) (hd : d.length ∈ [1, 2, 4, 8]) (ho : o % d.length = 0)
    (hfit : o + d.length ≤ 8) : hostRegWrite s n 0 (ringOff n k + c + o) d = regWrite s.quiet n (ringReg k c) o d := by
  have hbase : ringOff n k % 8 = 0 ∧ ringOff n k < 0x2000 := by unfold ringOff; split <;> omega
  obtain ⟨hpos, -⟩ := accessSize_dvd hd
  rw [hostRegWrite_bar0 hserved (by omega)]
  refine bar0Write_reg (regAt_ringOff (s := s.quiet) hring hk hc h8) (by omega) hd ho hfit fun j => ?_
  unfold ringReg
  constructor <;> split <;> simp

theorem ringBaseWrite_eq (cpl : Bool) {o : Nat} {d : List Byte} (hd : d.length ∈ [1, 2, 4, 8]) (ho : o % d.length = 0) (hfit : o + d.length ≤ 8) :
    execRingBaseWrite n k cpl o d s = .next (writeBase s.quiet n k cpl
      (mergedReg (if cpl then (s.ring n k).cqBase else (s.ring n k).rqBase) o d)) := by
  unfold execRingBaseWrite
  rw [if_pos (ringMapped_of_hasRing hring hk)]
  cases cpl with
  | true => exact congrArg _ (hostRegWrite_ring hserved hring hk (c := 0x18) (by omega) (by omega) hd ho hfit)
  | false => exact congrArg _ (hostRegWrite_ring hserved hring hk (c := 0) (by omega) (by omega) hd ho hfit)

theorem reqRingCtlWrite_eq {o : Nat} {d : List Byte} (hd : d.length ∈ [1, 2, 4, 8]) (ho : o % d.length = 0) (hfit : o + d.length ≤ 8) :
    execReqRingCtlWrite n k o d s = .next (writeRqCtl s.quiet n k (mergedReg (s.ring n k).rqCtl o d)) := by
  unfold execReqRingCtlWrite
  rw [if_pos (ringMapped_of_hasRing hring hk)]
  exact congrArg _ (hostRegWrite_ring hserved hring hk (c := 8) (by omega) (by omega) hd ho hfit)

theorem cplRingCtlWrite_eq {o : Nat} {d : List Byte} (hd : d.length ∈ [1, 2, 4, 8]) (ho : o % d.length = 0) (hfit : o + d.length ≤ 8) :
    execCplRingCtlWrite n k o d s = .next (writeCqCtl s.quiet n k (mergedReg (s.ring n k).cqCtl o d)) := by
  unfold execCplRingCtlWrite
  rw [if_pos (ringMapped_of_hasRing hring hk)]
  exact congrArg _ (hostRegWrite_ring hserved hring hk (c := 0x20) (by omega) (by omega) hd ho hfit)

theorem doorbells_eq {d : List Byte} (hd : d.length = 4) :
    execReqRingDoorbell n k 0 d s = .next (ringRqDb s.quiet n k (fieldBE d 0 4))
    ∧ execCplRingDoorbell n k 0 d s = .next (ringCqDb s.quiet n k (fieldBE d 0 4)) := by
  have hbase : doorbellOff n k % 8 = 0 ∧ doorbellOff n k + 8 < 65536 := by unfold doorbellOff; split <;> omega
  obtain ⟨hrq, hcq⟩ := regAt_doorbellOff (s := s.quiet) hring hk
  unfold execReqRingDoorbell execCplRingDoorbell
  rw [if_pos (ringMapped_of_hasRing hring hk), if_pos (ringMapped_of_hasRing hring hk), Nat.add_zero, Nat.add_zero,
    hostRegWrite_bar0 hserved (by omega), hostRegWrite_bar0 hserved hbase.2]
  exact ⟨congrArg _ ((bar0Write_doorbell hbase.1 hd).1 k hrq), congrArg _ ((bar0Write_doorbell (by omega) hd).2 k hcq)⟩

end

end Sys2Proof.Machine

namespace Sys2Proof.Machine

open Sys2Proof

/-! ## Rings under their rules (R52, R53) -/

theorem bits_low (v hi : Nat) : bits v hi 0 = v % 2 ^ (hi + 1) := by simp [bits]

theorem Ring.cancelRead_idle {r : Ring} (h : r.reading = none) : r.cancelRead = r := by simp [Ring.cancelRead, h]

section
variable (s : State) (n k : Nat)

theorem writeBase_enabled (cpl : Bool) (v : Nat) (h : (if cpl then (s.ring n k).cqEn else (s.ring n k).rqEn) = true) :
    writeBase s n k cpl v = raiseErr s n .ringBusy := if_pos h

theorem writeBase_disabled (cpl : Bool) (v : Nat) (h : (if cpl then (s.ring n k).cqEn else (s.ring n k).rqEn) = false) :
    writeBase s n k cpl v = s.setRing n k (if cpl then { s.ring n k with cqBase := v / 4096 * 4096 }
      else { s.ring n k with rqBase := v / 4096 * 4096 }) := if_neg (by simp [h])

section
variable {v z : Nat} (hz : bits v 19 16 = z)
include hz

theorem writeRqCtl_reserved (h : ¬(6 ≤ z ∧ z ≤ 12)) : writeRqCtl s n k v = raiseErr s n .rsvdWrite := by
  unfold writeRqCtl
  dsimp only
  rw [hz]
  exact if_pos (by simp; omega)

theorem writeRqCtl_busy (hsize : 6 ≤ z ∧ z ≤ 12) (hen : (s.ring n k).rqEn = true) (hne : z ≠ (s.ring n k).rqSize) :
    writeRqCtl s n k v = raiseErr s n .ringBusy := by
  unfold writeRqCtl
  dsimp only
  rw [hz, if_neg (by simp; omega), if_pos (by simp [hen, hne])]

theorem writeRqCtl_accepted (hsize : 6 ≤ z ∧ z ≤ 12) (h : (s.ring n k).rqEn = true → z = (s.ring n k).rqSize) :
    writeRqCtl s n k v = s.setRing n k { (if v.testBit 31 && !(s.ring n k).rqEn then { s.ring n k with rqHead := 0, rqTail := 0 }
      else if !v.testBit 31 then (s.ring n k).cancelRead else s.ring n k) with rqEn := v.testBit 31, rqSize := z } := by
  unfold writeRqCtl
  dsimp only
  rw [hz, if_neg (by simp; omega), if_neg (by simpa using h)]
  rfl

variable {x : Nat} (hx : bits v 23 20 = x)
include hx

theorem writeCqCtl_reserved (h : ¬(6 ≤ z ∧ z ≤ 12 ∧ x < s.vectors n)) : writeCqCtl s n k v = raiseErr s n .rsvdWrite := by
  unfold writeCqCtl
  dsimp only
  rw [hz, hx]
  exact if_pos (by simp; omega)

theorem writeCqCtl_busy (hfit : 6 ≤ z ∧ z ≤ 12 ∧ x < s.vectors n) (hen : (s.ring n k).cqEn = true) (hne : z ≠ (s.ring n k).cqSize) :
    writeCqCtl s n k v = raiseErr s n .ringBusy := by
  unfold writeCqCtl
  dsimp only
  rw [hz, hx, if_neg (by simp; omega), if_pos (by simp [hen, hne])]

theorem writeCqCtl_accepted (hfit : 6 ≤ z ∧ z ≤ 12 ∧ x < s.vectors n) (h : (s.ring n k).cqEn = true → z = (s.ring n k).cqSize) :
    writeCqCtl s n k v = drainRing (s.setRing n k { (if v.testBit 31 && !(s.ring n k).cqEn
        then { s.ring n k with cqTail := 0, cqHead := 0, phase := true, gathered := 0 } else s.ring n k) with
      cqEn := v.testBit 31, cqSize := z, cqVec := x, intEn := v.testBit 30, coalCnt := bits v 15 8, coalTime := bits v 7 0 }) n k := by
  unfold writeCqCtl
  dsimp only
  rw [hz, hx, if_neg (by simp; omega), if_neg (by simpa using h)]
  rfl

end

end

theorem setRing_err (s : State) (n k : Nat) (r : Ring) : ((s.setRing n k r).fn n).err = (s.fn n).err := by
  unfold State.setRing
  rw [State.fn_updFn_same]

theorem drainRing_err (s : State) (n k : Nat) : ((drainRing s n k).fn n).err = (s.fn n).err :=
  (setup_ext (k := 0) (congrFun (congrFun (drainRing_setup s n k) n) 0)).2.2.2

/-- Settles O52: a write of a ring register comes to `writeBase`, `writeRqCtl` or `writeCqCtl`, whose rules say the rest. -/
theorem enabledRingsKeepBaseAndSize : Obligations.EnabledRingsKeepBaseAndSize := by
  unfold Obligations.EnabledRingsKeepBaseAndSize
  intro s n k o d hn hserved hring hk hd ho hfit
  extract_lets r busy reserved written q c rq cq rqOk cqOk
  have hn0 : n ≠ 0 := by omega
  have hbase := ringBaseWrite_eq hserved hring hk (o := o) (d := d)
  have hrq : execReqRingCtlWrite n k o d s = .next (writeRqCtl s.quiet n k q) := reqRingCtlWrite_eq hserved hring hk hd ho hfit
  have hcq : execCplRingCtlWrite n k o d s = .next (writeCqCtl s.quiet n k c) := cplRingCtlWrite_eq hserved hring hk hd ho hfit
  have isBusy {i : Instr} (h : exec i s = .next (raiseErr s.quiet n .ringBusy)) : busy i :=
    ⟨_, h, raiseErr_ring s.quiet n _ n k, by rw [raiseErr_err s.quiet hn0]; simp [ErrKind.insBit]⟩
  have isReserved {i : Instr} (h : exec i s = .next (raiseErr s.quiet n .rsvdWrite)) : reserved i :=
    ⟨_, h, raiseErr_ring s.quiet n _ n k, by rw [raiseErr_err s.quiet hn0]; simp [ErrKind.insBit],
      by rw [raiseErr_err s.quiet hn0]; simp [ErrKind.insBit]⟩
  refine ⟨fun h => isBusy ?_, fun h => isBusy ?_, fun h => isReserved ?_, fun h => isReserved ?_, fun hen h hne => isBusy ?_,
    fun hen h hne => isBusy ?_, fun h hs => ?_, fun h hs => ?_⟩
  · exact (hbase false hd ho hfit).trans (congrArg _ (writeBase_enabled s.quiet n k false _ h))
  · exact (hbase true hd ho hfit).trans (congrArg _ (writeBase_enabled s.quiet n k true _ h))
  · exact hrq.trans (congrArg _ (writeRqCtl_reserved s.quiet n k rfl h))
  · exact hcq.trans (congrArg _ (writeCqCtl_reserved s.quiet n k rfl rfl h))
  · exact hrq.trans (congrArg _ (writeRqCtl_busy s.quiet n k rfl h hen hne))
  · exact hcq.trans (congrArg _ (writeCqCtl_busy s.quiet n k rfl rfl h hen hne))
  · refine ⟨_, hrq, ?_⟩
    rw [writeRqCtl_accepted s.quiet n k rfl h hs, setRing_err, State.ring_setRing_same]
    exact ⟨rfl, rfl, rfl⟩
  · refine ⟨_, hcq, ?_⟩
    rw [writeCqCtl_accepted s.quiet n k rfl rfl h hs, drainRing_err, setRing_err]
    refine ⟨rfl, ?_⟩
    obtain ⟨hen, hint, hvec, hsize, hcnt, htime, -⟩ := Ring.setup_ext (setup_ring (congrFun (congrFun (drainRing_setup _ n k) n) k))
    dsimp only
    rw [hen, hint, hvec, hsize, hcnt, htime, State.ring_setRing_same]
    exact ⟨rfl, rfl, rfl, rfl, rfl, bits_low c 7⟩

end Sys2Proof.Machine

namespace Sys2Proof.Machine

open Sys2Proof

/-! ## Doorbells (R53) -/

section
variable (s : State) (n k v : Nat)

theorem ringRqDb_cases : let r := s.ring n k
    (r.rqEn = false → ringRqDb s n k v = raiseErr s n .dbDisabled)
    ∧ (r.rqEn = true → 2 ^ r.rqSize ≤ v → ringRqDb s n k v = raiseErr s n .dbRange)
    ∧ (r.rqEn = true → v < 2 ^ r.rqSize → (v + 2 ^ r.rqSize - r.rqHead) % 2 ^ r.rqSize > (r.rqTail + 2 ^ r.rqSize - r.rqHead) % 2 ^ r.rqSize →
        ringRqDb s n k v = s.setRing n k { r with rqTail := v })
    ∧ (r.rqEn = true → v < 2 ^ r.rqSize → ¬(v + 2 ^ r.rqSize - r.rqHead) % 2 ^ r.rqSize > (r.rqTail + 2 ^ r.rqSize - r.rqHead) % 2 ^ r.rqSize →
        ringRqDb s n k v = s) := by
  unfold ringRqDb
  refine ⟨fun h => if_pos (by simp [h]), fun h hv => ?_, fun h hv ha => ?_, fun h hv ha => ?_⟩ <;> dsimp only <;> rw [if_neg (by simp [h])]
  · exact if_pos hv
  · rw [if_neg (Nat.not_le.mpr hv), if_pos ha]
  · rw [if_neg (Nat.not_le.mpr hv), if_neg ha]

theorem ringCqDb_cases : let r := s.ring n k
    (r.cqEn = false → ringCqDb s n k v = raiseErr s n .dbDisabled)
    ∧ (r.cqEn = true → (2 ^ r.cqSize ≤ v ∨ (v + 2 ^ r.cqSize - r.cqHead) % 2 ^ r.cqSize > (r.cqTail + 2 ^ r.cqSize - r.cqHead) % 2 ^ r.cqSize) →
        ringCqDb s n k v = raiseErr s n .dbRange)
    ∧ (r.cqEn = true → v < 2 ^ r.cqSize → ¬(v + 2 ^ r.cqSize - r.cqHead) % 2 ^ r.cqSize > (r.cqTail + 2 ^ r.cqSize - r.cqHead) % 2 ^ r.cqSize →
        ringCqDb s n k v = drainRing (s.setRing n k { r with cqHead := v }) n k) := by
  unfold ringCqDb
  refine ⟨fun h => if_pos (by simp [h]), fun h hv => ?_, fun h hv ha => ?_⟩ <;> dsimp only <;> rw [if_neg (by simp [h])]
  · split
    · rfl
    next hm => exact if_pos (hv.resolve_left hm)
  · rw [if_neg (Nat.not_le.mpr hv), if_neg ha]

end

/-! ## The ring registers written whole (R50 to R52) -/

section
variable {s : State} {n k : Nat} {d : List Byte} (hserved : s.reach n = .served) (hring : s.hasRing n k = true) (hk : k < 8)
  (hd : d.length = 8)
include hserved hring hk hd

theorem ringBaseWrite_whole (cpl : Bool) : execRingBaseWrite n k cpl 0 d s = .next (writeBase s.quiet n k cpl (fieldBE d 0 8)) := by
  rw [ringBaseWrite_eq hserved hring hk cpl (by simp [hd]) (Nat.zero_mod _) (by omega), mergedReg_whole hd]

theorem reqRingCtlWrite_whole : execReqRingCtlWrite n k 0 d s = .next (writeRqCtl s.quiet n k (fieldBE d 0 8)) := by
  rw [reqRingCtlWrite_eq hserved hring hk (by simp [hd]) (Nat.zero_mod _) (by omega), mergedReg_whole hd]

theorem cplRingCtlWrite_whole : execCplRingCtlWrite n k 0 d s = .next (writeCqCtl s.quiet n k (fieldBE d 0 8)) := by
  rw [cplRingCtlWrite_eq hserved hring hk (by simp [hd]) (Nat.zero_mod _) (by omega), mergedReg_whole hd]

theorem ringBaseWrite_results : let r := s.ring n k
    let x := fieldBE d 0 8
    (r.rqEn = true → execRingBaseWrite n k false 0 d s = .next (raiseErr s.quiet n .ringBusy))
    ∧ (r.rqEn = false → execRingBaseWrite n k false 0 d s = .next (s.quiet.setRing n k { r with rqBase := x / 4096 * 4096 }))
    ∧ (r.cqEn = true → execRingBaseWrite n k true 0 d s = .next (raiseErr s.quiet n .ringBusy))
    ∧ (r.cqEn = false → execRingBaseWrite n k true 0 d s = .next (s.quiet.setRing n k { r with cqBase := x / 4096 * 4096 })) := by
  have hw := ringBaseWrite_whole hserved hring hk hd
  exact ⟨fun h => (hw false).trans (congrArg _ (writeBase_enabled s.quiet n k false _ h)),
    fun h => (hw false).trans (congrArg _ (writeBase_disabled s.quiet n k false _ h)),
    fun h => (hw true).trans (congrArg _ (writeBase_enabled s.quiet n k true _ h)),
    fun h => (hw true).trans (congrArg _ (writeBase_disabled s.quiet n k true _ h))⟩

theorem reqRingCtlWrite_results : let r := s.ring n k
    let x := fieldBE d 0 8
    let size := x / 2 ^ 16 % 16
    (size < 6 ∨ 12 < size → execReqRingCtlWrite n k 0 d s = .next (raiseErr s.quiet n .rsvdWrite))
    ∧ (6 ≤ size → size ≤ 12 → r.rqEn = true → size ≠ r.rqSize → execReqRingCtlWrite n k 0 d s = .next (raiseErr s.quiet n .ringBusy))
    ∧ (6 ≤ size → size ≤ 12 → r.rqEn = false → x.testBit 31 = true → execReqRingCtlWrite n k 0 d s
        = .next (s.quiet.setRing n k { r with rqEn := true, rqSize := size, rqHead := 0, rqTail := 0 }))
    ∧ (6 ≤ size → size ≤ 12 → r.reading = none → r.rqEn = true → size = r.rqSize → execReqRingCtlWrite n k 0 d s
        = .next (s.quiet.setRing n k { r with rqEn := x.testBit 31, rqSize := size })) := by
  intro r x size
  have hz : bits x 19 16 = size := rfl
  clear_value size
  rw [reqRingCtlWrite_whole hserved hring hk hd]
  refine ⟨fun h => ?_, fun h6 h12 hen hne => ?_, fun h6 h12 hen hbit => ?_, fun h6 h12 hread hen hsize => ?_⟩
  · rw [writeRqCtl_reserved s.quiet n k hz (by omega)]
  · rw [writeRqCtl_busy s.quiet n k hz ⟨h6, h12⟩ hen hne]
  · rw [writeRqCtl_accepted s.quiet n k hz ⟨h6, h12⟩ fun h => absurd h (by rw [State.quiet_ring, hen]; simp)]
    simp only [State.quiet_ring, hbit, show (s.ring n k).rqEn = false from hen, Bool.not_false, Bool.and_self, if_true]
    rfl
  · rw [writeRqCtl_accepted s.quiet n k hz ⟨h6, h12⟩ fun _ => hsize]
    simp only [State.quiet_ring, show (s.ring n k).rqEn = true from hen, Bool.not_true, Bool.and_false, Bool.false_eq_true, if_false,
      Ring.cancelRead_idle (show (s.ring n k).reading = none from hread), ite_self]
    rfl

theorem cplRingCtlWrite_results : let r := s.ring n k
    let x := fieldBE d 0 8
    let size := x / 2 ^ 16 % 16
    (size < 6 ∨ 12 < size ∨ s.vectors n ≤ x / 2 ^ 20 % 16 → execCplRingCtlWrite n k 0 d s = .next (raiseErr s.quiet n .rsvdWrite))
    ∧ (6 ≤ size → size ≤ 12 → x / 2 ^ 20 % 16 < s.vectors n → r.cqEn = true → size ≠ r.cqSize →
        execCplRingCtlWrite n k 0 d s = .next (raiseErr s.quiet n .ringBusy))
    ∧ (6 ≤ size → size ≤ 12 → x / 2 ^ 20 % 16 < s.vectors n → r.cqEn = false → x.testBit 31 = true →
        execCplRingCtlWrite n k 0 d s = .next (drainRing (s.quiet.setRing n k { r with
          cqEn := true, cqSize := size, cqVec := x / 2 ^ 20 % 16, intEn := x.testBit 30, coalCnt := x / 256 % 256, coalTime := x % 256,
          cqTail := 0, cqHead := 0, phase := true, gathered := 0 }) n k)) := by
  intro r x size
  have hz : bits x 19 16 = size := rfl
  have hx : bits x 23 20 = x / 2 ^ 20 % 16 := rfl
  have hv : s.quiet.vectors n = s.vectors n := rfl
  clear_value size
  rw [cplRingCtlWrite_whole hserved hring hk hd]
  refine ⟨fun h => ?_, fun h6 h12 hvec hen hne => ?_, fun h6 h12 hvec hen hbit => ?_⟩
  · rw [writeCqCtl_reserved s.quiet n k hz hx (by rw [hv]; omega)]
  · rw [writeCqCtl_busy s.quiet n k hz hx ⟨h6, h12, hvec⟩ hen hne]
  · rw [writeCqCtl_accepted s.quiet n k hz hx ⟨h6, h12, hvec⟩ fun h => absurd h (by rw [State.quiet_ring, hen]; simp)]
    simp only [State.quiet_ring, hbit, show (s.ring n k).cqEn = false from hen, Bool.not_false, Bool.and_self,
      if_true, bits_low]
    rfl

end

end Sys2Proof.Machine

namespace Sys2Proof.Machine

open Sys2Proof

/-! ## Other registers of BAR 0 (R42 to R49) -/

/-- The error register clears the bits written 1, a read-only register stays, and PF 0's vector register takes its fields. -/
theorem registerWrite_results {s : State} {n : Nat} {d : List Byte} (hserved : s.reach n = .served) (hd : d.length = 8) :
    let w := s.quiet
    let x := fieldBE d 0 8
    execRegisterWrite n 0 0x10 (.write d) s = .next (w.updFn n fun f => { f with err := f.err &&& ~~~BitVec.ofNat 7 x })
    ∧ execRegisterWrite n 0 0 (.write d) s = .next w
    ∧ (∀ o, o < 65536 → o % 8 ≠ 0 → execRegisterWrite n 0 o (.write d) s = .next (raiseErr w n .access))
    ∧ (n = 0 → execRegisterWrite n 0 0x40 (.write d) s = .next (w.updFn 0 fun f => { f with vecEn := x.testBit 8, vec := x % 8 })) := by
  intro w x
  have hsize : d.length ∈ [1, 2, 4, 8] := by simp [hd]
  have hwhole {a : Nat} {r : Reg} (ha : a < 65536) (h8 : a % 8 = 0) (hr : regAt w n a = r) (hdb : ∀ k, r ≠ .rqDb k ∧ r ≠ .cqDb k) :
      execRegisterWrite n 0 a (.write d) s = .next (regWrite w n r 0 d) := by
    refine congrArg Host.Outcome.next ((hostRegWrite_bar0 hserved ha).trans ?_)
    exact bar0Write_reg (a := a) (o := 0) hr h8 hsize (Nat.zero_mod _) (by omega) hdb
  have hx : beNat (patch (zeros 8) 0 d) = x := by rw [patch_whole (by simp [hd]), ← fieldBE_whole hd]
  refine ⟨?_, hwhole (a := 0) (r := .id) (by omega) rfl rfl (by simp), fun o ho h8 => ?_, fun hn => ?_⟩
  · rw [hwhole (a := 0x10) (r := .err) (by omega) rfl rfl (by simp), regWrite, hx]
  · refine congrArg Host.Outcome.next ((hostRegWrite_bar0 hserved ho).trans (bar0Write_badAccess ?_))
    rw [hd]
    exact fun h => h8 h.2
  · subst hn
    rw [hwhole (a := 0x40) (r := .vec) (by omega) rfl rfl (by simp), regWrite, show beNat _ = x from mergedReg_whole hd]
    rfl

/-! ## Reads of BAR 0 and functions out of reach (R38, R42, R43, R63) -/

section
variable {s : State} {n : Nat}

theorem registerRead_answered {o l : Nat} (hserved : s.reach n = .served) (ho : o < 65536) (hl : l ∈ [1, 2, 4, 8]) (hal : o % l = 0) :
    execRegisterWrite n 0 o (.read l) s
      = .next (s.quiet.emit (.mmioData n (slice (toBE 8 (regRead s.quiet n (regAt s.quiet n (o / 8 * 8)))) (o % 8) l))) := by
  have hbar : barRead s.quiet n 0 o l = some (regBytes (regRead s.quiet n (regAt s.quiet n (o / 8 * 8))) o l) :=
    if_neg (by simp [regAccessOk_iff.mpr ⟨hl, hal⟩])
  unfold execRegisterWrite hostRegRead
  dsimp only
  rw [show s.quiet.reach n = .served from hserved]
  dsimp only
  rw [if_neg (by simp [inBar, ho]), hbar]
  rfl

theorem registerRead_aborted {o l : Nat} (hserved : s.reach n = .served) (ho : o < 65536) (hbad : l ∉ [1, 2, 4, 8] ∨ o % l ≠ 0) :
    execRegisterWrite n 0 o (.read l) s = .next
      ((raiseErr (s.quiet.updFn n fun f => { f with aer := { f.aer with abort := true } }) n .access).emit (.completerAbort n)) := by
  have hno : ¬regAccessOk o l = true := by rw [regAccessOk_iff]; tauto
  have hbar : barRead s.quiet n 0 o l = none := if_pos (by simpa using hno)
  unfold execRegisterWrite hostRegRead
  dsimp only
  rw [show s.quiet.reach n = .served from hserved]
  dsimp only
  rw [if_neg (by simp [inBar, ho]), hbar]

theorem registerAccess_ignored (h : s.reach n = .ignored) (bar o l : Nat) (d : List Byte) :
    execRegisterWrite n bar o (.read l) s = .next (s.quiet.emit (.mmioData n (zeros l)))
    ∧ execRegisterWrite n bar o (.write d) s = .next s.quiet := by
  have h' : s.quiet.reach n = .ignored := h
  constructor <;> simp only [execRegisterWrite, hostRegRead, hostRegWrite, h']

theorem registerAccess_unsupported (h : s.reach n = .unsupported) (bar o : Nat) (a : RegAccess) :
    execRegisterWrite n bar o a s = .next (unsupportedRequest s.quiet n) := by
  have h' : s.quiet.reach n = .unsupported := h
  cases a <;> simp only [execRegisterWrite, hostRegRead, hostRegWrite, h']

/-! ## Staging fields (R285) -/

theorem keyStagingWrite_results {o pg : Nat} {d : List Byte} (hserved : s.reach n = .served) (hn : n ≠ 0) (ho : o < 65536) (hd : d.length = 8)
    (h8 : o % 8 = 0) (hpg : (s.inst (n - 1)).keyPages[o / 4096]? = some pg) (hlo : 0x100 ≤ o % 4096) (hhi : o % 4096 < 0x900)
    (hst : 0x80 ≤ o % 0x100) :
    (s.img.plainKeys = false → execKeyStagingWrite n o d s = .next s.quiet)
    ∧ (s.img.plainKeys = true → execKeyStagingWrite n o d s = .next (s.quiet.setSlot pg (o % 4096 / 0x100 - 1)
        { s.slot pg (o % 4096 / 0x100 - 1) with staging := patch (s.slot pg (o % 4096 / 0x100 - 1)).staging (o % 0x100 - 0x80) d })) := by
  have hrun : execKeyStagingWrite n o d s = .next (writeKeyPage s.quiet pg (o % 4096) d) := by
    have hok : ¬(!regAccessOk o d.length) = true := by simp [regAccessOk_iff, hd, h8]
    rw [execKeyStagingWrite, hostRegWrite_bar2 hserved hn ho, bar2Write, if_neg hok, State.quiet_inst, hpg]
  have hmod : (o % 4096 - 0x100) % 0x100 = o % 0x100 := by omega
  have hdiv : (o % 4096 - 0x100) / 0x100 = o % 4096 / 0x100 - 1 := by omega
  rw [hrun, writeKeyPage]
  dsimp only
  rw [hmod, hdiv]
  exact ⟨fun hp => by rw [if_neg (by simp [hp])], fun hp => by rw [if_pos (by simp [hp, hlo, hhi, hst])]; rfl⟩

/-! ## Message vectors (R61) -/

/-- A vector unmasked, before a message that waits for it is sent. -/
def unmasked (s : State) (n k : Nat) : State :=
  s.setFn n { s.fn n with vecs := kvSet (s.fn n).vecs k { kvGet {} (s.fn n).vecs k with masked := false } }

theorem msixVectorUnmask_eq {k : Nat} (hserved : s.reach n = .served) (hk : k < if n = 0 then 8 else 16) :
    execMsixVectorUnmask n k s = .next (sendPending (unmasked s.quiet n k) n k) := by
  have hk16 : k < 16 := by split at hk <;> omega
  have htable : ¬(k * 16 + 12 ≥ 0x1000 ∨ k ≥ tableSize n) := by
    have hsize : k < tableSize n := by simpa [tableSize] using hk
    omega
  have hdiv : (k * 16 + 12) / 16 = k := by omega
  have hmod : (k * 16 + 12) % 16 / 4 = 3 := by omega
  have hal : (k * 16 + 12) % 4 = 0 := by omega
  have hdword : msixDword s.quiet n (k * 16 + 12) 0 = sendPending (unmasked s.quiet n k) n k := by
    unfold msixDword
    dsimp only
    rw [hdiv, hmod, if_neg (by simpa using htable)]
    rfl
  rw [execMsixVectorUnmask, hostRegWrite_bar4 hserved (by omega), bar4Write]
  dsimp only
  rw [if_neg (by simp [msixAccessOk, hal]), if_neg (by simp)]
  exact congrArg _ hdword

theorem msixVectorUnmask_results {k : Nat} (hserved : s.reach n = .served) (hk : k < if n = 0 then 8 else 16) :
    let e := kvGet {} (s.fn n).vecs k
    ∃ u, execMsixVectorUnmask n k s = .next u
      ∧ (e.pba = true → (s.fn n).msixEn = true → (s.fn n).fmask = false → (s.fn n).bme = true →
          u.out = [.msix n k e.addr e.data] ∧ kvGet {} (u.fn n).vecs k = { e with masked := false, pba := false })
      ∧ (e.pba = false ∨ (s.fn n).msixEn = false ∨ (s.fn n).fmask = true ∨ (s.fn n).bme = false →
          u.out = [] ∧ kvGet {} (u.fn n).vecs k = { e with masked := false }) := by
  intro e
  have hfn : (unmasked s.quiet n k).fn n = { s.fn n with vecs := kvSet (s.fn n).vecs k { e with masked := false } } := State.fn_setFn_same _ n _
  have hvec : kvGet {} ((unmasked s.quiet n k).fn n).vecs k = { e with masked := false } := by rw [hfn]; simp [kvGet_kvSet]
  refine ⟨_, msixVectorUnmask_eq hserved hk, fun hp hm hf hb => ?_, fun h => ?_⟩
  · have hsend : sendPending (unmasked s.quiet n k) n k = ((unmasked s.quiet n k).setFn n { (unmasked s.quiet n k).fn n with
        vecs := kvSet ((unmasked s.quiet n k).fn n).vecs k { e with masked := false, pba := false } }).emit (.msix n k e.addr e.data) := by
      unfold sendPending
      dsimp only
      rw [hvec, if_pos (by simp [hfn, hp, hm, hf, hb])]
    rw [hsend]
    refine ⟨rfl, ?_⟩
    change kvGet {} (State.fn (State.setFn _ n _) n).vecs k = _
    rw [State.fn_setFn_same]
    simp [kvGet_kvSet]
  · have hwait : sendPending (unmasked s.quiet n k) n k = unmasked s.quiet n k := by
      unfold sendPending
      dsimp only
      rw [hvec, if_neg (by rw [hfn]; rcases h with h | h | h | h <;> simp [h])]
    rw [hwait]
    exact ⟨rfl, hvec⟩

end

end Sys2Proof.Machine

namespace Sys2Proof.Machine

open Sys2Proof

/-! ## Bus Master Enable (R91) -/

section
variable (s : State) (n : Nat)

@[simp] theorem sendPending_setup (v : Nat) : (sendPending s n v).setup = s.setup := by
  unfold sendPending
  dsimp only
  split
  · exact State.setup_of_vecs s _
  · rfl

theorem sendPending_posts (m v : Nat) : Posts m s (sendPending s n v) := by
  unfold sendPending
  dsimp only
  split
  · exact ⟨[_], _, s.insts, rfl, fun _ => rfl⟩
  · exact Posts.refl m s

@[simp] theorem sendAllPending_setup : (sendAllPending s n).setup = s.setup := foldl_keeps State.setup (fun s v => sendPending_setup s n v) _ _

theorem sendAllPending_posts (m : Nat) : Posts m s (sendAllPending s n) := Posts.foldl (fun s v => sendPending_posts s n m v) _ _

/-- With Bus Master Enable set, held completions and messages are posted, and the virtual engines of the VF go on. -/
theorem setBme_posts : ∃ t, Posts n (s.updFn n fun f => { f with bme := true }) t ∧ t.setup = (s.updFn n fun f => { f with bme := true }).setup
    ∧ setBme s n = if n = 0 then t else { t with ves := kvMap (fun k v => if veInst k == n - 1 then { v with waitBme := false } else v) t.ves } := by
  refine ⟨sendAllPending (drainFn (s.updFn n fun f => { f with bme := true }) n) n, (drainFn_posts n _).trans (sendAllPending_posts _ n n), ?_, ?_⟩
  · rw [sendAllPending_setup, drainFn_setup]
  · unfold setBme
    dsimp only
    simp only [beq_iff_eq]

theorem setBme_bme : ((setBme s n).fn n).bme = true := by
  obtain ⟨t, -, hset, h⟩ := setBme_posts s n
  have ht : (t.fn n).bme = true := by
    rw [(setup_ext (congrFun (congrFun hset n) 0)).1, State.fn_updFn_same]
  rw [h]
  split <;> exact ht

theorem setBme_mem : (setBme s n).mem = s.mem := by
  obtain ⟨t, hp, -, h⟩ := setBme_posts s n
  rw [h]
  split <;> exact hp.mem

/-- No virtual engine of the VF waits for Bus Master Enable. -/
theorem setBme_waitBme {i v : Nat} (h : n = i + 1) (hv : v < 64) : ((setBme s n).ve (veKey i v)).waitBme = false := by
  obtain ⟨t, -, -, ht⟩ := setBme_posts s n
  have hi : veInst (veKey i v) = n - 1 := by simp only [veInst, veKey]; omega
  rw [ht, if_neg (by omega), State.ve, kvGet, kvFind_kvMap]
  cases kvFind t.ves (veKey i v) with
  | none => rfl
  | some x => simp [hi]

end

/-! ## Configuration space (R36, R38) -/

section
variable {s : State} (hlive : s.live = true) (hport : s.hp.stopped = false)
include hlive hport

/-- A request of configuration space in a running module is never left unanswered. -/
theorem reach_ne_silent (n : Nat) : s.quiet.reach n ≠ .silent := by
  have hphase : s.clk.phase = .run := by simpa [State.live] using hlive
  unfold State.reach
  dsimp only
  rw [if_neg (by simp [hport, hphase])]
  split
  · simp
  · split
    · simp
    · split_ifs <;> simp

theorem pcieConfigRequest_eq (n : Nat) (reg : CfgReg) (write : Bool) (y : BitVec 32) : execPcieConfigRequest n reg write y s
    = .next (if s.present n = false then s.quiet.emit (.unsupported n) else if write then cfgWrite s.quiet n reg y
      else s.quiet.emit (.cfgData n (cfgRead s.quiet n reg))) := by
  have hl : s.quiet.live = true := hlive
  have hp : s.quiet.present n = s.present n := rfl
  have hs := reach_ne_silent hlive hport n
  unfold execPcieConfigRequest
  dsimp only
  split
  next h => exact absurd h hs
  · rw [if_neg (by rw [hl]; simp), hp]
    cases s.present n with
    | false => rfl
    | true => cases write <;> rfl

end

/-- A dword of a BAR reads zero below the BAR's size, but for the type in its low dword. -/
theorem barDword_low {k b : Nat} (v : BitVec 32) (vf : Bool) (hm : (barMask vf k).toNat % 2 ^ b = 0) (h3 : 3 ≤ b)
    (h : k % 2 = 0 ∧ barMask vf k ≠ 0) : (barDword vf k v).toNat % 2 ^ b = 4 := by
  have hb : 4 < 2 ^ b := lt_of_lt_of_le (by decide) (Nat.pow_le_pow_right (by decide) h3)
  unfold barDword
  dsimp only
  rw [if_pos (by simpa using h), BitVec.toNat_or, BitVec.toNat_and, Nat.or_mod_two_pow, Nat.and_mod_two_pow, hm, Nat.and_zero, Nat.zero_or]
  exact Nat.mod_eq_of_lt hb

/-- The identity of PF 0, and the sizes that its BARs show (R36, R40). -/
theorem cfgRead_pf0 (s : State) : cfgRead s 0 .id = Config.deviceId ++ Config.vendorId ∧ (cfgRead s 0 (.bar 0)).toNat % 65536 = 4
    ∧ (cfgRead s 0 (.bar 4)).toNat % 8192 = 4 ∧ cfgRead s 0 (.bar 2) = 0 ∧ (cfgRead s 0 (.vfBar 2)).toNat % 65536 = 4 := by
  refine ⟨rfl, barDword_low (b := 16) _ false (by decide) (by decide) (by decide), barDword_low (b := 13) _ false (by decide) (by decide) (by decide), ?_,
    barDword_low (b := 16) _ true (by decide) (by decide) (by decide)⟩
  simp [cfgRead, barDword, barMask]

/-- A write of the command register takes Bus Master Enable, and for PF 0 Memory Space Enable. -/
theorem cfgWrite_command (s : State) (n : Nat) (y : BitVec 32) : ((cfgWrite s n .command y).fn n).bme = y.getLsbD 2
    ∧ (y.getLsbD 2 = false → n = 0 → ((cfgWrite s n .command y).fn 0).mse = y.getLsbD 1) := by
  unfold cfgWrite
  dsimp only
  generalize ht : (if (n == 0) = true then s.updFn 0 fun f => { f with mse := y.getLsbD 1 } else s) = t
  cases hy : y.getLsbD 2 with
  | true =>
    refine ⟨?_, by simp⟩
    rw [if_pos rfl]
    split
    next h => exact h
    next => exact setBme_bme t n
  | false =>
    rw [if_neg (by simp)]
    refine ⟨by rw [State.fn_updFn_same], fun _ hn => ?_⟩
    subst hn
    rw [State.fn_updFn_same, ← ht, if_pos (beq_self_eq_true 0), State.fn_updFn_same]

/-- VF Enable and VF Memory Space Enable are set. -/
theorem cfgWrite_sriovControl (s : State) {y : BitVec 32} (h : y.getLsbD 0 = true) :
    (cfgWrite s 0 .sriovControl y).hp.vfEnable = true ∧ (cfgWrite s 0 .sriovControl y).hp.vfMse = y.getLsbD 3 := by
  simp [cfgWrite, h]

theorem coalTimerExpire_sends {s : State} {n k : Nat} (hlive : s.live = true) (hcq : (s.ring n k).cqEn = true) (hint : (s.ring n k).intEn = true)
    (ht : (s.ring n k).coalTime ≠ 0) (hg : (s.ring n k).gathered ≠ 0) : execCoalTimerExpire n k s
      = .next (sendMsix (s.quiet.setRing n k { s.ring n k with gathered := 0 }) n (s.ring n k).cqVec) := by
  have hl : s.quiet.live = true := hlive
  unfold execCoalTimerExpire
  exact if_pos (by simp [hl, hcq, hint, ht, hg])

/-- Settles O50: one lemma for each register of the port. -/
theorem hostRegisterResults : Obligations.HostRegisterResults := by
  unfold Obligations.HostRegisterResults
  intro s n k d
  refine ⟨fun hserved hring hk => ⟨fun hd => ?_, fun hd => ?_⟩, fun hserved hd => registerWrite_results hserved hd, fun bar o l => ⟨?_, ?_, ?_⟩,
    fun o pg hserved hn ho hd h8 hpg hlo hhi hst => keyStagingWrite_results hserved hn ho hd h8 hpg hlo hhi hst,
    fun e hserved hk he => he ▸ msixVectorUnmask_results hserved hk, coalTimerExpire_sends, fun reg y hlive hport => ?_⟩
  · obtain ⟨hrq, hcq⟩ := doorbells_eq hserved hring hk hd
    obtain ⟨hdisabled, hrange, hahead, hbehind⟩ := ringRqDb_cases s.quiet n k (fieldBE d 0 4)
    obtain ⟨hcdisabled, hcrange, hctaken⟩ := ringCqDb_cases s.quiet n k (fieldBE d 0 4)
    exact ⟨fun h => hrq.trans (congrArg _ (hdisabled h)), fun h hv => hrq.trans (congrArg _ (hrange h hv)),
      fun h hv ha => hrq.trans (congrArg _ (hahead h hv ha)), fun h hv ha => hrq.trans (congrArg _ (hbehind h hv ha)),
      fun h => hcq.trans (congrArg _ (hcdisabled h)), fun h hv => hcq.trans (congrArg _ (hcrange h hv)),
      fun h hv ha => hcq.trans (congrArg _ (hctaken h hv ha))⟩
  · obtain ⟨hrb, hrd, hcb, hcd⟩ := ringBaseWrite_results hserved hring hk hd
    obtain ⟨hrres, hrbusy, hrset, hrkeep⟩ := reqRingCtlWrite_results hserved hring hk hd
    obtain ⟨hcres, hcbusy, hcset⟩ := cplRingCtlWrite_results hserved hring hk hd
    exact ⟨hrb, hrd, hcb, hcd, hrres, hrbusy, hrset, hrkeep, hcres, hcbusy, hcset⟩
  · exact fun hserved ho => ⟨registerRead_answered hserved ho, registerRead_aborted hserved ho⟩
  · exact fun h => registerAccess_ignored h bar o l d
  · exact fun h a _ => registerAccess_unsupported h bar o a
  · have hreq (m : Nat) (reg : CfgReg) (write : Bool) := pcieConfigRequest_eq hlive hport m reg write y
    refine ⟨fun hp wr => ?_, fun hp => ?_⟩
    · exact (hreq n reg wr).trans (by rw [if_pos hp])
    · have hwrite (reg : CfgReg) : execPcieConfigRequest n reg true y s = .next (cfgWrite s.quiet n reg y) :=
        (hreq n reg true).trans (by rw [if_neg (by simp [hp]), if_pos rfl])
      obtain ⟨hbme, hmse⟩ := cfgWrite_command s.quiet n y
      refine ⟨(hreq n reg false).trans (by rw [if_neg (by simp [hp])]; rfl), fun _ => cfgRead_pf0 s, fun a => hwrite (.other a),
        fun hy => ⟨_, hwrite .command, hbme.trans hy, hmse hy⟩, fun hy => ⟨_, hwrite .command, hbme.trans hy⟩,
        fun hy => ⟨_, ?_, cfgWrite_sriovControl s.quiet hy⟩⟩
      exact (hreq 0 .sriovControl true).trans (by rw [if_neg (by simp [State.present]), if_pos rfl])

end Sys2Proof.Machine

/-! ## Resets of functions and of the host port (R63, R91, R427) -/

namespace Sys2Proof.Machine

open Sys2Proof

section
variable {s : State}

theorem live_phase (h : s.live = true) : s.clk.phase = .run := by simpa [State.live] using h

/-- Every VF reset, its reset complete. -/
theorem resetVfs_fn (s : State) (j : Nat) : (resetVfs s).fn j
    = if j = 0 then s.fn 0 else { rings := kvMap (fun _ r => r.afterReset) (s.fn j).rings, aer := (s.fn j).aer } := by
  unfold resetVfs State.fn kvGet
  dsimp only
  rw [kvFind_kvMap]
  by_cases h0 : j = 0
  · subst h0
    cases kvFind s.hp.fns 0 <;> rfl
  · rw [if_neg h0]
    cases kvFind s.hp.fns j with
    | none => rfl
    | some f => simp [h0]

/-- A ring after a reset of its function: disabled, with the completions held for requests in hand. -/
theorem ring_resetFn (s : State) (f : Fn) (n k : Nat) (h : f.rings = kvMap (fun _ r => r.afterReset) (s.fn n).rings) :
    let r := (s.setFn n f).ring n k
    r.rqEn = false ∧ r.cqEn = false ∧ r.held = (s.ring n k).held := by
  dsimp only
  unfold State.ring kvGet
  rw [State.fn_setFn_same, h, kvFind_kvMap]
  cases kvFind (s.fn n).rings k <;> exact ⟨rfl, rfl, rfl⟩

theorem fnReset_eq {n : Nat} (hlive : s.live = true) (hport : s.hp.stopped = false) (hp : s.present n = true) :
    startFlr s.quiet n = s.quiet.setFn n
      { rings := kvMap (fun _ r => r.afterReset) (s.fn n).rings, aer := (s.fn n).aer, bars := (s.fn n).bars, flr := true } := by
  have hl : s.quiet.live = true := hlive
  have hq : s.quiet.present n = true := hp
  exact if_pos (by simp [hl, hport, hq])

theorem vfEnableClear_eq (hlive : s.live = true) (hport : s.hp.stopped = false) (h : s.hp.vfEnable = true) :
    execVfEnableClear s = .next (clearVfEnable s.quiet) := by
  have hl : s.quiet.live = true := hlive
  exact congrArg Host.Outcome.next (if_pos (by simp [hl, hport, h]))

theorem hostPortReset_eq (hlive : s.live = true) (hport : s.hp.stopped = false) :
    let t := clearVfEnable (resetFn s.quiet 0 false)
    execHostPortReset s
      = .next { t with hp := { t.hp with doe := {}, vfMse := false, fns := kvMap (fun _ f => { f with bars := [], aer := {} }) t.hp.fns } } :=
  if_neg (by simp [live_phase hlive, hport])

/-- After a host-port reset every function keeps of its rings what is held for requests in hand, and nothing else. -/
theorem hostPortReset_fn (s : State) (j : Nat) :
    kvGet {} (kvMap (fun _ f => { f with bars := [], aer := {} }) (clearVfEnable (resetFn s 0 false)).hp.fns) j
      = { rings := kvMap (fun _ r => r.afterReset) (s.fn j).rings } := by
  have hfn : (clearVfEnable (resetFn s 0 false)).fn j = _ := resetVfs_fn (resetFn s 0 false) j
  have hmap : kvGet {} (kvMap (fun _ f => { f with bars := [], aer := {} }) (clearVfEnable (resetFn s 0 false)).hp.fns) j
      = { (clearVfEnable (resetFn s 0 false)).fn j with bars := [], aer := {} } := by
    unfold State.fn kvGet
    rw [kvFind_kvMap]
    cases kvFind (clearVfEnable (resetFn s 0 false)).hp.fns j <;> rfl
  rw [hmap, hfn]
  by_cases h0 : j = 0
  · subst h0
    rw [if_pos rfl, resetFn, State.fn_updFn_same]
  · rw [if_neg h0, resetFn, State.fn_updFn, if_neg (Ne.symm h0)]

theorem busMasterEnableSet_eq {n : Nat} (hlive : s.live = true) (hport : s.hp.stopped = false) (hp : s.present n = true)
    (hflr : (s.fn n).flr = false) : execBusMasterEnableSet n s = .next (setBme s.quiet n) := by
  have hl : s.quiet.live = true := hlive
  have hq : s.quiet.present n = true := hp
  exact congrArg Host.Outcome.next (if_pos (by simp [hl, hport, hq, hflr]))

theorem setPower_setup (s : State) (p : Nat) : (setPower s p).setup = s.setup := by
  unfold setPower
  split
  · rfl
  · dsimp only
    obtain ⟨b, -, h⟩ := logEvent_posts { s with clk := { s.clk with power := p } }
      { State.entry { s with clk := { s.clk with power := p } } 0x90 0 0x0F 0 with param := p * 2 ^ 56 + s.clk.power * 2 ^ 48 }
    exact h

theorem setPower_power (s : State) (p : Nat) : (setPower s p).clk.power = p := by
  obtain ⟨o, fs, b, h⟩ := setPower_frame (s := s) p
  rw [h]

theorem pf0D0Return_eq (hlive : s.live = true) (hport : s.hp.stopped = false) (h : (s.fn 0).d3hot = true) :
    execPf0D0Return s = .next (setPower (s.quiet.updFn 0 fun f => { f with d3hot := false }) 0) := by
  have hl : s.quiet.live = true := hlive
  exact if_pos (by simp [hl, hport, h])

end

/-- Settles O51: the resets write the tables of functions, the other commands what they name. -/
theorem hostPortResetResults : Obligations.HostPortResetResults := by
  unfold Obligations.HostPortResetResults
  intro s n hlive hport
  have hl : s.quiet.live = true := hlive
  refine ⟨fun hp hn => ?_, ?_, rfl, fun k => ring_resetFn s.quiet _ n k rfl, fun hvf => ?_, ?_, fun hp hflr => ?_, ?_, fun hd => ?_, ?_⟩
  · exact congrArg Host.Outcome.next ((if_neg (by simpa using hn)).trans (fnReset_eq hlive hport hp))
  · exact congrArg Host.Outcome.next (fnReset_eq hlive hport rfl)
  · exact ⟨_, vfEnableClear_eq hlive hport hvf, rfl, ⟨rfl, rfl, rfl, rfl, rfl, rfl⟩, (resetVfs_fn s.quiet 0).trans (if_pos rfl),
      fun j hj => (resetVfs_fn s.quiet j).trans (if_neg hj)⟩
  · exact ⟨_, hostPortReset_eq hlive hport, rfl, rfl, rfl, ⟨rfl, rfl, rfl, rfl, rfl, rfl⟩, hostPortReset_fn s.quiet⟩
  · exact ⟨_, busMasterEnableSet_eq hlive hport hp hflr, setBme_bme s.quiet n, setBme_mem s.quiet n,
      fun i v hi hv => setBme_waitBme s.quiet n hi hv⟩
  · exact congrArg Host.Outcome.next (if_pos (by simp [hl, hport]))
  · obtain ⟨-, -, hd3, -⟩ := setup_ext (congrFun (congrFun (setPower_setup (s.quiet.updFn 0 fun f => { f with d3hot := false }) 0) 0) 0)
    exact ⟨_, pf0D0Return_eq hlive hport hd, hd3.trans (congrArg Fn.d3hot (State.fn_updFn_same _ _ _)), setPower_power _ 0⟩
  · exact congrArg Host.Outcome.next (if_pos (by simp [hl, hport]))

end Sys2Proof.Machine

/-! ## Queries, host windows and the logs (R65, R66, R72, R77, R118, R343, R344) -/

namespace Sys2Proof.Machine

open Sys2Proof

section
variable {s : State} {q : BitVec 32} {r : Request}

theorem State.inst_updInst_same (s : State) (i : Nat) (f : Inst → Inst) : (s.updInst i f).inst i = f (s.inst i) := State.inst_setInst_same s i _

theorem queryResult_eq (s : State) (i : Nat) : queryResult s i = [BitVec.ofNat 8 (s.inst i).st.code,
    BitVec.ofNat 8 (b2n (s.inst i).importing.isSome * 4 + b2n (decide ((s.inst i).shrinks ≠ [])) * 2 + b2n (s.inst i).log.isSome),
    BitVec.ofNat 8 (s.ves.filter fun x => veInst x.1 == i && x.2.placed).length, 0]
      ++ toBE 4 (subsIn s i SubState.started).length ++ toBE 8 (s.inst i).label := by
  have hb : ((s.inst i).shrinks != []) = decide ((s.inst i).shrinks ≠ []) := by cases (s.inst i).shrinks <;> rfl
  unfold queryResult
  dsimp only
  rw [hb]

theorem poolQuery_eq (h : takeCmd s.quiet q.toNat 0x53 = some r) :
    execPoolQuery q s = .next (done s.quiet r 0 (poolResult s.quiet (par r.entry 36) (par r.entry 37))) := by
  unfold execPoolQuery
  dsimp only
  rw [h]

/-- The host windows that SET_WINDOW leaves. -/
theorem setWindow_results (h : takeCmd s.quiet q.toNat 0x52 = some r) (ha : accepts 0x52 (s.inst (reqTarget r.entry)) = true) :
    ∃ u, execSetWindow q s = .next (complete u r.fn r.seq 0 0 0 [])
      ∧ (∀ n, n = fieldBE r.entry 48 4 → n ≠ 0 → kvFind (u.inst (reqTarget r.entry)).windows (par r.entry 36)
          = some { write := bit (par r.entry 37) 0, busBase := fieldBE r.entry 40 8, pages := n })
      ∧ (fieldBE r.entry 48 4 = 0 → (kvGet {} (u.inst (reqTarget r.entry)).windows (par r.entry 36)).pages = 0)
      ∧ u.ves = s.ves ∧ u.mem = s.mem := by
  refine ⟨_, (instCommand_accepted h rfl ha : execSetWindow q s = _), fun n hn h0 => ?_, fun h0 => ?_, rfl, rfl⟩
  · rw [State.inst_updInst_same, ← hn, if_neg (by simpa using h0), kvFind_kvSet, if_pos rfl]
  · rw [State.inst_updInst_same, if_pos (by simpa using h0), kvGet, kvFind_kvDel, if_pos rfl]
    rfl

theorem logHarvest_eq (h : takeCmd s.quiet q.toNat 0x63 = some r) (ha : accepts 0x63 (s.inst (reqTarget r.entry)) = true)
    {l : DirtyLog} (hl : (s.inst (reqTarget r.entry)).log = some l) :
    let i := reqTarget r.entry
    let d := l.settled (logRegions s.quiet i)
    let b := harvestBytes s.quiet i d
    execLogHarvest q s = .next (if reqDstLen r.entry < b.length then answer s.quiet r .resourceLimit 0
      else (s.quiet.updInst i fun x => { x with log := some { interval := d.interval + 1, tbStart := s.clk.tb } }).putReq
        { r with stage := .running, data := b }) := by
  refine (instCommand_accepted h rfl ha : execLogHarvest q s = _).trans ?_
  dsimp only
  rw [State.quiet_inst, hl]
  rfl

/-- LOG_HARVEST settles the interval into its buffer, which its transfer then writes, and begins the next. -/
theorem logHarvest_results (h : takeCmd s.quiet q.toNat 0x63 = some r) (ha : accepts 0x63 (s.inst (reqTarget r.entry)) = true)
    {l : DirtyLog} (hl : (s.inst (reqTarget r.entry)).log = some l) :
    let i := reqTarget r.entry
    let d := l.settled (logRegions s.quiet i)
    let b := harvestBytes s.quiet i d
    (reqDstLen r.entry < b.length → execLogHarvest q s = .next (answer s.quiet r .resourceLimit 0))
    ∧ (b.length ≤ reqDstLen r.entry → ∃ u, execLogHarvest q s = .next u
        ∧ (u.inst i).log = some { interval := d.interval + 1, tbStart := s.clk.tb }
        ∧ ∀ x, u.req? 0 r.seq = some x → x.stage = .running ∧ x.data = b) := by
  intro i d b
  obtain ⟨hreq, hfn, hseq, -⟩ := takeCmd_key h
  refine ⟨fun hb => (logHarvest_eq h ha hl).trans (congrArg _ (if_pos hb)),
    fun hb => ⟨_, (logHarvest_eq h ha hl).trans (congrArg _ (if_neg (Nat.not_lt.mpr hb))), ?_, fun x hx => ?_⟩⟩
  · exact congrArg Inst.log (State.inst_updInst_same s.quiet i fun x => { x with log := some { interval := d.interval + 1, tbStart := s.clk.tb } })
  · have hreq' : s.req? 0 r.seq = some r := hseq ▸ hreq
    have hput := req?_putReq (s := s.quiet.updInst i fun x => { x with log := some { interval := d.interval + 1, tbStart := s.clk.tb } })
      (r := { r with stage := .running, data := b }) hreq' hfn rfl
    obtain rfl := Option.some.inj (hput.symm.trans hx)
    exact ⟨rfl, rfl⟩

/-- LOG_READ while the Belfry runs: the entries go to the host, and the message outstanding is answered when one of them is as new. -/
theorem logRead_results (h : takeCmd s.quiet q.toNat 0x68 = some r) (hb : s.bel.stopped = false) {l : List LogEntry}
    (hl : logFrom s.bel (fieldBE r.entry 40 8) (reqDstLen r.entry / 64) = l) :
    ∃ u lost b, execLogRead q s = .next (complete (hostWrite u 0 (reqDst r.entry) (l.flatMap logBytes)) 0 r.seq 0 lost
        (l.flatMap logBytes).length b)
      ∧ u.bel.log = s.bel.log
      ∧ (∀ o, s.bel.outstanding = some o → l.any (fun y => decide (o ≤ y.eseq)) = true → u.bel.outstanding = none)
      ∧ (l = [] → u.bel = s.bel)
      ∧ ∀ x xs z, l = x :: xs → l.getLast? = some z → b = toBE 8 x.eseq ++ toBE 8 (z.eseq + 1) := by
  unfold execLogRead
  dsimp only
  rw [h]
  dsimp only
  rw [if_neg (by simp [hb]), State.quiet_bel, hl]
  refine ⟨_, _, _, rfl, ?_, fun o ho hany => ?_, fun hnil => ?_, fun x xs z hx hz => ?_⟩
  · split
    · split <;> rfl
    · rfl
  · have ho' : s.quiet.fresh.2.bel.outstanding = some o := ho
    rw [ho']
    exact congrArg (fun t : State => t.bel.outstanding) (if_pos hany)
  · subst hnil
    split <;> rfl
  · subst hx
    rw [hz]

end

/-- Settles O46: one lemma for each command. -/
theorem queryWindowAndLogCommands : Obligations.QueryWindowAndLogCommands := by
  unfold Obligations.QueryWindowAndLogCommands
  intro s q r
  refine ⟨fun ⟨h, ha⟩ => ?_, fun h => poolQuery_eq h, fun ⟨h, ha⟩ => setWindow_results h ha,
    fun ⟨h, ha⟩ => (instCommand_accepted h rfl ha : execLogEnable q s = _), fun ⟨h, ha⟩ => (instCommand_accepted h rfl ha : execLogDisable q s = _),
    fun ⟨h, ha⟩ l hl => logHarvest_results h ha hl, fun h => ⟨fun hb => ?_, fun hb x xs z hx hz => ?_, fun hb hnil => ?_⟩, fun h hb => ?_⟩
  · exact (instCommand_accepted h rfl ha : execQuery q s = _).trans (congrArg (fun b => Host.Outcome.next (done s.quiet r 0 b)) (queryResult_eq s.quiet _))
  · change execLogRead q s = _
    unfold execLogRead
    dsimp only
    rw [h]
    exact if_pos hb
  · obtain ⟨u, lost, b, heq, hlog, hout, -, hres⟩ := logRead_results h hb hx
    exact ⟨u, lost, hres x xs z rfl hz ▸ heq, hlog, fun o ho _ hany => hout o ho hany⟩
  · obtain ⟨u, lost, b, heq, -, -, hbel, -⟩ := logRead_results h hb hnil
    exact ⟨u, lost, b, heq, hbel rfl⟩
  · change execLogNotify q s = _
    unfold execLogNotify
    dsimp only
    rw [h]
    exact if_neg (by simp [hb])

end Sys2Proof.Machine

/-! ## The ends of host transfers (R58, R66, R93, R95, R140, R238, R239, R290) -/

namespace Sys2Proof.Machine

open Sys2Proof

section
variable {s : State} {r : Request} {data : List Byte}

theorem holdRange_of_unowned {i a n : Nat} (h : instOwners s i a n = []) : holdRange s i a n = none := by
  unfold holdRange
  rw [h]
  rfl

/-- STORE_WRITE whose lines hold, with its data. -/
theorem storeWriteDone_eq (ho : instOwners s (r.fn - 1) (fieldBE r.entry 40 8) (reqSrcLen r.entry) = [])
    (hl : ∀ l ∈ partialEnds s (r.fn - 1) (fieldBE r.entry 40 8) (reqSrcLen r.entry), (committed s l).2 = false)
    (hd : data.length = reqSrcLen r.entry) : storeWriteDone s r data none
      = if chkOk r.entry data = false then answer s r .tagMismatch 1
        else done (instWrite s (r.fn - 1) (fieldBE r.entry 40 8) data) r (reqSrcLen r.entry) [] := by
  have hfind : (partialEnds s (r.fn - 1) (storeAddr r.entry) (reqSrcLen r.entry)).find? (fun l => (committed s l).2) = none := by
    rw [List.find?_eq_none]
    intro l hm
    rw [hl l hm]
    exact Bool.false_ne_true
  unfold storeWriteDone
  dsimp only
  rw [holdRange_of_unowned (a := storeAddr r.entry) ho]
  dsimp only
  rw [hfind]
  dsimp only
  rw [padTo_of_length hd]
  cases chkOk r.entry data <;> rfl

/-- What the check of a buffer compares (R58). -/
theorem chkOk_eq_false_iff (e d : List Byte) : chkOk e d = false ↔ reqChk e = true ∧ (crc32c d).toNat ≠ reqCheck e := by
  unfold chkOk
  cases reqChk e <;> simp

/-- STORE_READ whose lines hold. -/
theorem storeReadDone_eq (ho : instOwners s (r.fn - 1) (fieldBE r.entry 40 8) (reqDstLen r.entry) = [])
    (hp : instPoison s (r.fn - 1) (fieldBE r.entry 40 8) (reqDstLen r.entry) = none) :
    let i := r.fn - 1
    let a := fieldBE r.entry 40 8
    let n := reqDstLen r.entry
    storeReadDone s r none = done (hostWrite (hubUse s i a n) r.fn (reqDst r.entry) ((instRead s i a n).take n)) r n []
      ∧ storeReadDone s r (some .hostReadFailed) = endFault s r .hostReadFailed
      ∧ storeReadDone s r (some .hostPoisoned) = endFault s r .hostPoisoned := by
  have hread : instPoison s (r.fn - 1) (storeAddr r.entry) (reqDstLen r.entry) = none := hp
  unfold storeReadDone
  dsimp only
  rw [holdRange_of_unowned (a := storeAddr r.entry) ho]
  dsimp only
  rw [hread]
  exact ⟨rfl, rfl, rfl⟩

/-- EXPORT's segment written: EXPORTED, but with KEEP. -/
theorem exportDone_eq {x : Session} (h : (s.inst (reqTarget r.entry)).exporting = some x) :
    let v := hostWrite s 0 (reqDst r.entry) r.data
    exportDone s r none = done (if bit (par r.entry 36) 0 = true then v else v.updInst (reqTarget r.entry) fun y => { y with st := .exported }) r
      r.data.length (toBE 8 (streamTotal x.stream.length) ++ toBE 8 (fieldBE r.entry 40 8 + r.data.length)) := by
  unfold exportDone
  dsimp only
  rw [h]
  rfl

/-- IMPORT with all its data. -/
theorem importDone_results (hd : data.length = reqSrcLen r.entry) :
    let i := reqTarget r.entry
    let x := ((s.inst i).importing).getD {}
    let head := x.stream ++ data
    let total := fieldBE head 2 8
    let dk := (dkeyOf s (par r.entry 37)).getD []
    let fs := takeFrames 16 (total - x.offset) data
    let tags := checkFrames (kdf dk "KG9 MIG TAG" (slice head 232 24) 32) (x.offset / 1048576) x.tag fs
    let next := x.offset + (fs.map List.length).sum
    let stream := x.stream ++ fs.flatMap fun f => f.take (f.length - 16)
    fs ≠ [] → (tags = none → importDone s r data none = answer s r .authFailed 0)
      ∧ ∀ tag, tags = some tag → shortPool head (placeBits + windowBits) (holdings (s.inst i)) = none →
        importDone s r data none = done (if total ≤ next then applyStream s i (kdf dk "KG9 MIG WRAP" (slice head 232 24) 32) stream
          else s.updInst i fun y => { y with
            importing := some { offset := next, tag := tag, dkey := par r.entry 37, salt := slice head 232 24, stream := stream } }) r
          (next - x.offset) (zeros 8 ++ toBE 8 next) := by
  intro i x head total dk fs tags next stream hfs
  have hfs' : ¬ fs.isEmpty = true := by simpa using hfs
  unfold importDone
  dsimp only
  rw [padTo_of_length hd]
  refine ⟨fun ht => (if_neg hfs').trans ?_, fun tag ht hs => (if_neg hfs').trans ?_⟩
  · split
    next => rfl
    next h => exact nomatch ht.symm.trans h
  · split
    next h => exact nomatch ht.symm.trans h
    next tag' h =>
      obtain rfl : tag = tag' := Option.some.inj (ht.symm.trans h)
      split
      next h => exact nomatch hs.symm.trans h
      next => rfl

/-- How the end of a transfer is taken: by its request's opcode, of the manager or of a VF. -/
theorem hostTransferDone_eq {n : Nat} {q : BitVec 32} (fault : Option JobFault) (h : s.req? n q.toNat = some r) (hlive : s.live = true)
    (hport : s.hp.stopped = false) (hbel : s.bel.fatal = false) (hst : r.stage = .running) (hcl : r.closing = false)
    (hbme : n = 0 ∨ (s.fn n).bme = true) :
    (n = 0 → reqOp r.entry = 0x60 → execHostTransferDone n q data fault s = .next (exportDone s.quiet r fault))
    ∧ (n = 0 → reqOp r.entry = 0x61 → execHostTransferDone n q data fault s = .next (importDone s.quiet r data fault))
    ∧ (n = 0 → reqOp r.entry = 0x63 → execHostTransferDone n q data fault s = .next (harvestDone s.quiet r fault))
    ∧ (n ≠ 0 → reqOp r.entry = 2 → execHostTransferDone n q data fault s = .next (storeWriteDone s.quiet r data fault))
    ∧ (n ≠ 0 → reqOp r.entry = 3 → execHostTransferDone n q data fault s = .next (storeReadDone s.quiet r fault))
    ∧ (n ≠ 0 → reqOp r.entry = 0x31 → execHostTransferDone n q data fault s = .next (keyWrapDone s.quiet r fault)) := by
  have hl : s.quiet.live = true := hlive
  have hguard : ¬(!s.quiet.live || s.quiet.hp.stopped || s.quiet.bel.fatal || r.stage != .running || r.closing
      || (n != 0 && !(s.quiet.fn n).bme)) = true := by
    rcases hbme with h0 | h0 <;> simp [hl, hport, hbel, hst, hcl, h0]
  unfold execHostTransferDone
  dsimp only
  rw [State.quiet_req?, h]
  dsimp only
  rw [if_neg hguard]
  refine ⟨fun hn ho => ?_, fun hn ho => ?_, fun hn ho => ?_, fun hn ho => ?_, fun hn ho => ?_, fun hn ho => ?_⟩
  · subst hn; simp only [ho]
  · subst hn; simp only [ho]
  · subst hn; simp only [ho]
  · obtain ⟨m, rfl⟩ := Nat.exists_eq_succ_of_ne_zero hn; simp only [ho]
  · obtain ⟨m, rfl⟩ := Nat.exists_eq_succ_of_ne_zero hn; simp only [ho]
  · obtain ⟨m, rfl⟩ := Nat.exists_eq_succ_of_ne_zero hn; simp only [ho]

end

/-- Settles O37: the end that each opcode has, one lemma for each that moves data. -/
theorem hostTransferResults : Obligations.HostTransferResults := by
  unfold Obligations.HostTransferResults
  intro s n q data fault r hr hlive hport hbel hst hcl hbme
  dsimp only
  obtain ⟨hfn, -⟩ := req?_key hr
  subst hfn
  obtain ⟨hexport, himport, hharvest, hwrite, hread, hwrap⟩ := hostTransferDone_eq (data := data) fault hr hlive hport hbel hst hcl hbme
  refine ⟨fun hn ho how hl hf hd => ?_, fun hn ho how hp hf => ?_, fun hn ho hf => ?_, fun hn ho hf => ?_, fun hn ho hf x hx => ?_,
    fun hn ho hf hd => ?_, fun hn ho => ?_⟩
  · subst hf
    have heq := (hwrite hn ho).trans (congrArg Host.Outcome.next (storeWriteDone_eq how hl hd))
    refine ⟨fun h => heq.trans (congrArg _ (if_pos ((chkOk_eq_false_iff _ _).mpr h))), fun h => heq.trans (congrArg _ (if_neg fun hc => ?_))⟩
    obtain ⟨hchk, hcrc⟩ := (chkOk_eq_false_iff _ _).mp hc
    exact h.elim (fun hb => Bool.false_ne_true (hb.symm.trans hchk)) hcrc
  · subst hf
    exact (hread hn ho).trans (congrArg _ (storeReadDone_eq how hp).1)
  · subst hf
    exact hwrap hn ho
  · subst hf
    exact hharvest hn ho
  · subst hf
    exact (hexport hn ho).trans (congrArg _ (exportDone_eq hx))
  · subst hf
    have hres := importDone_results (s := s.quiet) (r := r) hd
    refine ⟨fun hfs ht => (himport hn ho).trans (congrArg _ ((hres hfs).1 ht)), fun hfs tag ht hp => ⟨fun hlt => ?_, fun hle => ?_⟩⟩
    · exact (himport hn ho).trans (congrArg _ (((hres hfs).2 tag ht hp).trans (congrArg (done · r _ _) (if_neg (Nat.not_le.mpr hlt)))))
    · exact (himport hn ho).trans (congrArg _ (((hres hfs).2 tag ht hp).trans (congrArg (done · r _ _) (if_pos hle))))
  · rcases ho with ho | ⟨ho, how, hp⟩
    · exact ⟨fun hf => by subst hf; exact hwrap hn ho, fun hf => by subst hf; exact hwrap hn ho⟩
    · obtain ⟨-, hfailed, hpoisoned⟩ := storeReadDone_eq (s := s.quiet) (r := r) how hp
      exact ⟨fun hf => by subst hf; exact (hread hn ho).trans (congrArg _ hfailed),
        fun hf => by subst hf; exact (hread hn ho).trans (congrArg _ hpoisoned)⟩

end Sys2Proof.Machine

/-! ## Key requests (R60, R288 to R290, R293, R358) -/

namespace Sys2Proof.Machine

open Sys2Proof

theorem State.slot_setSlot_same (s : State) (pg n : Nat) (x : Slot) : (s.setSlot pg n x).slot pg n = x := by
  unfold State.slot State.setSlot
  rw [State.page_setPage_same, kvGet_kvSet, if_pos rfl]

theorem noteKey_slot (s : State) (i n : Nat) (x : Slot) (pg sl : Nat) : (noteKey s i n x).slot pg sl = s.slot pg sl := by
  unfold noteKey
  split <;> rfl

theorem keyRefused_eq {s : State} {st : Status} (i q : Nat) (h : st ≠ .stateRefused) : keyRefused s i q st = s := by
  unfold keyRefused
  rw [if_pos (by simpa using h)]

section
variable {s : State} {n q op pg : Nat} {data : List Byte} {r : Request}

/-- When a key request has its turn: one that moves data waits for Bus Master Enable. -/
theorem keyRequest_bme (hm : op = 0x31 ∨ (op = 0x30 ∧ bit (par r.entry 37) 0 = false) → (s.fn n).bme = true) :
    ¬ ((op == 0x31 || (op == 0x30 && !bit (par r.entry 37) 0)) && !(s.fn n).bme) = true := by
  simpa using hm

/-- A key operation that its checks end changes no slot and completes with its status. -/
theorem keyRequest_ended (h : takeReq s.quiet n q op = some r)
    (hm : op = 0x31 ∨ (op = 0x30 ∧ bit (par r.entry 37) 0 = false) → (s.fn n).bme = true) {st : Status} {d : Nat}
    (hk : keyOp s.quiet (n - 1) r.entry data 0 = { s := s.quiet, st := st, detail := d }) (hst : st ≠ .done) :
    keyRequest s n q op data = .next (complete (keyRefused s.quiet (n - 1) q st) n q st.code d 0 []) := by
  have hne : (st == Status.done) = false := by simpa using hst
  unfold keyRequest
  dsimp only
  rw [h]
  dsimp only
  rw [if_neg (by exact keyRequest_bme hm), hk]
  dsimp only
  rw [hne, Bool.and_false, if_neg Bool.false_ne_true, Bool.false_and]
  split <;> rfl

/-- A key operation that changes its slot completes DONE, and the slot's new state joins the next mirror group. -/
theorem keyRequest_changed (h : takeReq s.quiet n q op = some r) (hp : pageOf s.quiet (n - 1) (tgtHandle r.entry) = some pg)
    (hm : op = 0x31 ∨ (op = 0x30 ∧ bit (par r.entry 37) 0 = false) → (s.fn n).bme = true) (hc : keyChange op = true) {y : Slot}
    (hk : keyOp s.quiet (n - 1) r.entry data 0 = { s := s.quiet.setSlot pg (tgtSlot r.entry) y, st := .done }) :
    keyRequest s n q op data = .next (complete (noteKey (s.quiet.setSlot pg (tgtSlot r.entry) y) (n - 1) (tgtSlot r.entry) y) n q 0 0 0 []) := by
  have hop : (op == 0x31) = false := by
    rw [beq_eq_false_iff_ne]
    rintro rfl
    exact absurd hc (by decide)
  have hp' : pageOf (s.quiet.setSlot pg (tgtSlot r.entry) y) (n - 1) (tgtHandle r.entry) = some pg := hp
  unfold keyRequest
  dsimp only
  rw [h]
  dsimp only
  rw [if_neg (by exact keyRequest_bme hm), hk]
  dsimp only
  rw [hop, Bool.false_and, if_neg Bool.false_ne_true, keyRefused_eq _ _ (by decide), hp']
  dsimp only
  rw [hc, State.slot_setSlot_same]
  rfl

/-- KEY_WRAP of an exportable key that its buffer holds waits to be written. -/
theorem keyWrap_waits (h : takeReq s.quiet n q 0x31 = some r) (hb : (s.fn n).bme = true) {out : List Byte}
    (hk : keyOp s.quiet (n - 1) r.entry [] 0 = { s := s.quiet, st := .done, out := out }) :
    keyRequest s n q 0x31 [] = .next (s.quiet.putReq { r with stage := .running, data := out }) := by
  unfold keyRequest
  dsimp only
  rw [h]
  dsimp only
  rw [if_neg (by exact keyRequest_bme fun _ => hb), hk]
  rfl

end

/-! The key operations on a slot of a page that is held. -/

section
variable {s : State} {i pg own : Nat} {e data : List Byte}

theorem keyOp_load (h : reqOp e = 0x30) : keyOp s i e data own = keyLoad s i e data own := by simp only [keyOp, h]
theorem keyOp_wrap (h : reqOp e = 0x31) : keyOp s i e data own = keyWrapOp s i e := by simp only [keyOp, h]
theorem keyOp_retire (h : reqOp e = 0x32) : keyOp s i e data own = keyRetire s i e own := by simp only [keyOp, h]
theorem keyOp_limit (h : reqOp e = 0x33) : keyOp s i e data own = keyLimit s i e := by simp only [keyOp, h]

/-- The key that KEY_LOAD loads: from the staging field, or unwrapped from what the host gave. -/
def loadedKey (s : State) (i : Nat) (e data : List Byte) (x : Slot) : Option (List Byte) :=
  if bit (par e 37) 0 = true then some (x.staging.take (fieldBE e 48 2)) else keyUnwrap (kekOf s i) (padTo (fieldBE e 48 2 + 8) data)

/-- The slot that KEY_LOAD leaves. -/
def loadedSlot (e key : List Byte) (running : Nat) : Slot :=
  { alg := par e 36, keylen := fieldBE e 48 2, state := 1, exportable := bit (par e 37) 1, plain := bit (par e 37) 0, unit := bit (par e 37) 2
    limit := if par e 36 ≤ 2 then 2 ^ 48 else if fieldBE e 40 8 = 0 then 2 ^ 36 else fieldBE e 40 8
    key := key, kcv := fieldBE (sha256 key) 0 4, running := running }

/-- KEY_LOAD of a key in the clear, where the image does not allow it. -/
theorem keyLoad_plainDenied (hp : pageOf s i (tgtHandle e) = some pg) (h : bit (par e 37) 0 = true) (him : s.img.plainKeys = false) :
    keyLoad s i e data 0 = { s := s, st := .accessDenied } := by
  unfold keyLoad
  rw [hp]
  exact if_pos (by simp [h, him])

section
variable (hp : pageOf s i (tgtHandle e) = some pg) (hplain : bit (par e 37) 0 = false ∨ s.img.plainKeys = true)
include hp hplain

/-- KEY_LOAD into a slot in use. -/
theorem keyLoad_running (h : 0 < (s.slot pg (tgtSlot e)).running) : keyLoad s i e data 0 = { s := s, st := .stateRefused } := by
  unfold keyLoad
  rw [hp]
  exact (if_neg (by rcases hplain with h | h <;> simp [h])).trans (if_pos h)

variable (h0 : (s.slot pg (tgtSlot e)).running = 0)
include h0

/-- KEY_LOAD of a key that does not unwrap. -/
theorem keyLoad_unwrapFails (hk : loadedKey s i e data (s.slot pg (tgtSlot e)) = none) :
    keyLoad s i e data 0 = { s := s, st := .authFailed } := by
  unfold loadedKey at hk
  unfold keyLoad
  rw [hp]
  dsimp only
  rw [if_neg (by rcases hplain with h | h <;> simp [h]), if_neg (by omega), hk]

/-- KEY_LOAD of a key that unwraps: an XTS key of two equal halves is no key. -/
theorem keyLoad_unwrapped {key : List Byte} (hk : loadedKey s i e data (s.slot pg (tgtSlot e)) = some key) :
    keyLoad s i e data 0
      = if (par e 36 = 3 ∨ par e 36 = 4) ∧ key.take (fieldBE e 48 2 / 2) = key.drop (fieldBE e 48 2 / 2)
        then { s := s, st := .fieldInvalid, detail := 48 }
        else { s := s.setSlot pg (tgtSlot e) (loadedSlot e key (s.slot pg (tgtSlot e)).running), st := .done } := by
  unfold loadedKey at hk
  unfold keyLoad
  rw [hp]
  dsimp only
  rw [if_neg (by rcases hplain with h | h <;> simp [h]), if_neg (by omega), hk]
  simp only [Bool.and_eq_true, Bool.or_eq_true, beq_iff_eq]
  rfl

end

/-- KEY_WRAP by the state of its slot and the room of its buffer. -/
theorem keyWrapOp_eq (hp : pageOf s i (tgtHandle e) = some pg) : let x := s.slot pg (tgtSlot e)
    keyWrapOp s i e = if x.state = 0 then { s := s, st := .keyAbsent } else if x.exportable = false then { s := s, st := .accessDenied }
      else if reqDstLen e < x.keylen + 8 then { s := s, st := .fieldInvalid, detail := 28 }
      else { s := s, st := .done, out := keyWrap (kekOf s i) x.key } := by
  unfold keyWrapOp
  rw [hp]
  simp only [beq_iff_eq, Bool.not_eq_true']

theorem keyRetire_eq (hp : pageOf s i (tgtHandle e) = some pg) : keyRetire s i e 0 = if 0 < (s.slot pg (tgtSlot e)).running
    then { s := s, st := .stateRefused } else { s := s.setSlot pg (tgtSlot e) {}, st := .done } := by
  unfold keyRetire
  rw [hp]
  dsimp only
  by_cases h : 0 < (s.slot pg (tgtSlot e)).running
  · rw [if_pos h, if_pos h]
  · rw [if_neg h, if_neg h, Nat.eq_zero_of_not_pos h]

theorem keyLimit_eq (hp : pageOf s i (tgtHandle e) = some pg) : let x := s.slot pg (tgtSlot e)
    let lim := fieldBE e 40 8
    keyLimit s i e = if lim = 0 ∨ x.limit ≤ lim ∨ x.classD = false then { s := s, st := .fieldInvalid, detail := 40 }
      else { s := s.setSlot pg (tgtSlot e) { x with limit := lim, state := if lim ≤ x.used then 2 else x.state }, st := .done } := by
  unfold keyLimit
  rw [hp]
  simp only [Bool.or_eq_true, beq_iff_eq, decide_eq_true_eq, Bool.not_eq_true', ge_iff_le, or_assoc]

end

/-- Settles O39: each operation by its checks, each answer by the one way in which key requests end. -/
theorem keyRequestResults : Obligations.KeyRequestResults := by
  unfold Obligations.KeyRequestResults
  intro s n q data r pg w i e sl hp x hx
  subst hx
  dsimp only
  refine ⟨fun h hm => ?_, fun h hb => ?_, fun h => ?_, fun h => ?_⟩
  · obtain ⟨-, -, -, hop⟩ := takeReq_key h
    have hkey : keyOp w i e data 0 = keyLoad w i e data 0 := keyOp_load hop
    have hm' : 0x30 = 0x31 ∨ (0x30 = 0x30 ∧ bit (par r.entry 37) 0 = false) → (s.fn n).bme = true := by
      rintro (h | ⟨-, h⟩)
      · exact absurd h (by decide)
      · exact hm.resolve_right (by simp [e, h])
    have hend {st : Status} {d : Nat} (hk : keyLoad w i e data 0 = { s := w, st := st, detail := d }) (hst : st ≠ .done) :
        execKeyLoad n q data s = .next (complete (keyRefused w i q.toNat st) n q.toNat st.code d 0 []) :=
      keyRequest_ended h hm' (hkey.trans hk) hst
    refine ⟨fun hb him => ?_, fun hplain => ⟨fun hr => ?_, fun h0 hk => ?_, fun h0 key hk => ⟨fun hh => ?_, fun hh => ?_⟩⟩⟩
    · exact (hend (keyLoad_plainDenied hp hb him) (by decide)).trans (by rw [keyRefused_eq _ _ (by decide)])
    · exact hend (keyLoad_running hp hplain hr) (by decide)
    · exact (hend (keyLoad_unwrapFails hp hplain h0 hk) (by decide)).trans (by rw [keyRefused_eq _ _ (by decide)])
    · exact (hend ((keyLoad_unwrapped hp hplain h0 hk).trans (if_pos hh)) (by decide)).trans (by rw [keyRefused_eq _ _ (by decide)])
    · refine ⟨_, _, keyRequest_changed h hp hm' (by decide) (hkey.trans ((keyLoad_unwrapped hp hplain h0 hk).trans (if_neg hh))),
        (noteKey_slot _ _ _ _ _ _).trans (State.slot_setSlot_same _ _ _ _), rfl, rfl, rfl, rfl, rfl, rfl, rfl⟩
  · obtain ⟨-, -, -, hop⟩ := takeReq_key h
    have hkey : keyOp w i e [] 0 = keyWrapOp w i e := keyOp_wrap hop
    have hend {st : Status} {d : Nat} (hk : keyWrapOp w i e = { s := w, st := st, detail := d }) (hst : st ≠ .done) (hst' : st ≠ .stateRefused) :
        execKeyWrap n q s = .next (complete w n q.toNat st.code d 0 []) :=
      (keyRequest_ended h (fun _ => hb) (hkey.trans hk) hst).trans (by rw [keyRefused_eq _ _ hst'])
    have hw := keyWrapOp_eq hp
    refine ⟨fun h0 => hend (hw.trans (if_pos h0)) (by decide) (by decide),
      fun h0 hx => hend (hw.trans ((if_neg h0).trans (if_pos hx))) (by decide) (by decide), fun h0 hx hl => ?_, fun h0 hx hl => ?_⟩
    · exact hend (hw.trans ((if_neg h0).trans ((if_neg fun h => nomatch h.symm.trans hx).trans (if_pos hl)))) (by decide) (by decide)
    · exact keyWrap_waits h hb (hkey.trans (hw.trans ((if_neg h0).trans ((if_neg fun h => nomatch h.symm.trans hx).trans (if_neg (Nat.not_lt.mpr hl))))))
  · obtain ⟨-, -, -, hop⟩ := takeReq_key h
    have hkey : keyOp w i e [] 0 = keyRetire w i e 0 := keyOp_retire hop
    refine ⟨fun hr => ?_, fun h0 => ?_⟩
    · exact keyRequest_ended h (by simp) (hkey.trans ((keyRetire_eq hp).trans (if_pos hr))) (by decide)
    · exact keyRequest_changed h hp (by simp) (by decide) (hkey.trans ((keyRetire_eq hp).trans (if_neg (Nat.not_lt.mpr h0.le))))
  · obtain ⟨-, -, -, hop⟩ := takeReq_key h
    have hkey : keyOp w i e [] 0 = keyLimit w i e := keyOp_limit hop
    refine ⟨fun hl => ?_, fun h0 hl hd => ?_⟩
    · exact (keyRequest_ended h (by simp) (hkey.trans ((keyLimit_eq hp).trans (if_pos hl))) (by decide)).trans
        (by rw [keyRefused_eq _ _ (by decide)])
    · refine keyRequest_changed h hp (by simp) (by decide) (hkey.trans ((keyLimit_eq hp).trans (if_neg ?_)))
      rintro (hz | hle | hc)
      · exact h0.ne' hz
      · exact Nat.not_le.mpr hl hle
      · exact nomatch hc.symm.trans hd

end Sys2Proof.Machine

/-! ## The mailbox and attestation (R64, R404 to R412) -/

namespace Sys2Proof.Machine

open Sys2Proof

theorem fieldBE_drop (b : List Byte) (k o n : Nat) : fieldBE (b.drop k) o n = fieldBE b (k + o) n := by
  rw [fieldBE, slice, List.drop_drop]
  rfl

theorem firstNonzero_eq_none {m : List Byte} {lo hi : Nat} (h : ∀ i, lo ≤ i → i < hi → m.getD i 0 = 0) : firstNonzero m lo hi = none := by
  unfold firstNonzero
  rw [List.find?_eq_none]
  simp only [List.mem_map, List.mem_range, forall_exists_index, and_imp]
  rintro _ k hk rfl
  rw [h (k + lo) (by omega) (by omega)]
  decide

/-! What a command sends is no part of what the Spire answers from. -/

theorem oldestBoot_quiet (s : State) : oldestBoot s.quiet = oldestBoot s := by unfold oldestBoot; rw [State.quiet_spire]

theorem bootEntry?_quiet (s : State) (b : Nat) : bootEntry? s.quiet b = bootEntry? s b := by unfold bootEntry?; rw [State.quiet_spire]

theorem entriesFrom_quiet (s : State) (k n : Nat) : entriesFrom s.quiet k n = entriesFrom s k n := by
  simp only [entriesFrom, oldestBoot_quiet, bootEntry?_quiet, State.quiet_spire]

/-! Requests of the mailbox. -/

theorem doeBody_of_length {b : List Byte} {n : Nat} (h : b.length = 8 + n) : doeBody b n = some (b.drop 8) := if_pos (by simpa using h)

theorem doeBody_bad {b : List Byte} {n : Nat} (h : b.length ≠ 8 + n) : doeBody b n = none := if_neg (by simpa using h)

section
variable {s : State} {b : List Byte} (hready : doeReady s = true)
include hready

theorem doe_reached : ¬ (!doeReady s.quiet) = true := by
  have hr : doeReady s.quiet = true := hready
  simp [hr]

/-- Discovery lists the types by number (R64). -/
theorem doeDiscovery_listed (hl : b.length = 4) {k : Nat} (hk : k = (b.getD 0 0).toNat) (h5 : k ≤ 5) :
    execDoeDiscovery 1 0 b s = .next { s with out := [.doe
      ((if k = 0 then [1, 0] else toLE 2 Config.vendorId.toNat) ++ [BitVec.ofNat 8 k, if k = 5 then 0 else BitVec.ofNat 8 (k + 1)])] } := by
  have hnext : toBE 1 (if (k == 5) = true then 0 else k + 1) = [if k = 5 then 0 else BitVec.ofNat 8 (k + 1)] := by
    by_cases h : k = 5 <;> simp [h, toBE, toLE]
  unfold execDoeDiscovery
  dsimp only
  rw [if_neg (doe_reached hready), if_neg (by simp [hl]), ← hk, if_neg (by omega), hnext]
  simp only [beq_iff_eq, List.append_assoc]
  rfl

theorem doeDiscovery_bad (hl : b.length ≠ 4) (v t : Nat) : execDoeDiscovery v t b s = .next (doeError s.quiet) := by
  unfold execDoeDiscovery
  dsimp only
  rw [if_neg (doe_reached hready), if_pos (by simp [hl])]

/-- An object of a wrong length sets the Error bit. -/
theorem doe_wrongLength : (b.length ≠ 8 → execBootHead b s = .next (doeError s.quiet) ∧ execIdentityCert b s = .next (doeError s.quiet)
      ∧ execMeasure b s = .next (doeError s.quiet))
    ∧ (b.length ≠ 24 → execBootEntries b s = .next (doeError s.quiet)) ∧ (b.length ≠ 40 → execAttest b s = .next (doeError s.quiet)) := by
  have hout := doe_reached hready
  refine ⟨fun h => ?_, fun h => ?_, fun h => ?_⟩
  · have hn : (doeBody b 0).isNone = true := by rw [doeBody_bad h]; rfl
    exact ⟨(if_neg hout).trans (if_pos hn), (if_neg hout).trans (if_pos hn), (if_neg hout).trans (if_pos hn)⟩
  · unfold execBootEntries
    dsimp only
    rw [if_neg hout, doeBody_bad h]
  · unfold execAttest
    dsimp only
    rw [if_neg hout, doeBody_bad h]

/-- The three objects without a body: a stopped Spire answers MEASURE only. -/
theorem doe_short (h : b.length = 8) :
    execMeasure b s = .next (doeAnswer s.quiet .done 0 0 s.spire.mreg.flatten)
    ∧ (s.spire.stopped = true → execBootHead b s = .next (doeAnswer s.quiet .deviceError 0 0 [])
        ∧ execIdentityCert b s = .next (doeAnswer s.quiet .deviceError 0 0 []))
    ∧ (s.spire.stopped = false → execIdentityCert b s = .next (doeAnswer s.quiet .done 0 0 (Config.certificate s.spire.modid))
        ∧ (s.spire.headSigned = true → execBootHead b s = .next (doeAnswer s.quiet .done 0 0 (headEntry s ++ headSignature s)))
        ∧ (s.spire.headSigned = false → execBootHead b s
            = .next (doeAnswer s.quiet .busy 0 (s.spire.releaseTb + 4500000 - s.clk.tb) []))) := by
  have hout := doe_reached hready
  have hn : ¬ (doeBody b 0).isNone = true := by rw [doeBody_of_length h]; simp
  have hcert : execIdentityCert b s = _ := (if_neg hout).trans (if_neg hn)
  have hhead : execBootHead b s = _ := (if_neg hout).trans (if_neg hn)
  refine ⟨(if_neg hout).trans (if_neg hn), fun hs => ⟨hhead.trans (if_pos hs), hcert.trans (if_pos hs)⟩, fun hs => ?_⟩
  have hrun : ¬ s.quiet.spire.stopped = true := by simp [hs]
  exact ⟨hcert.trans (if_neg hrun), fun hh => hhead.trans ((if_neg hrun).trans (if_neg (by simp [hh]))),
    fun hh => hhead.trans ((if_neg hrun).trans (if_pos (by simp [hh])))⟩

/-- BOOT_ENTRIES by the number of entries asked for. -/
theorem bootEntries_results (h : b.length = 24) : let n := fieldBE b 16 1
    (s.spire.stopped = true → execBootEntries b s = .next (doeAnswer s.quiet .deviceError 0 0 []))
    ∧ (s.spire.stopped = false → n = 0 ∨ 64 < n → execBootEntries b s = .next (doeAnswer s.quiet .fieldInvalid 8 0 []))
    ∧ (s.spire.stopped = false → 0 < n → n ≤ 64 → (∀ i, 17 ≤ i → i < 24 → b.getD i 0 = 0) → execBootEntries b s
        = .next (doeAnswer s.quiet .done (if fieldBE b 8 8 < oldestBoot s then 1 else 0) 0 (entriesFrom s (fieldBE b 8 8) n))) := by
  intro n
  have hn : fieldBE (b.drop 8) 8 1 = n := fieldBE_drop b 8 8 1
  have hfirst : fieldBE (b.drop 8) 0 8 = fieldBE b 8 8 := fieldBE_drop b 8 0 8
  unfold execBootEntries
  dsimp only
  rw [if_neg (doe_reached hready), doeBody_of_length h]
  dsimp only
  rw [hn, hfirst]
  refine ⟨fun hs => if_pos hs, fun hs hbad => ?_, fun hs h0 h64 hz => ?_⟩
  · exact (if_neg (by simp [hs])).trans (if_pos (by simpa using hbad))
  · have hnz : nonzeroIn (b.drop 8) 9 16 = none := firstNonzero_eq_none fun i hlo hhi => by
      have hi := hz (8 + i) (by omega) (by omega)
      rwa [List.getD_eq_getElem?_getD, List.getElem?_drop, ← List.getD_eq_getElem?_getD]
    rw [hnz]
    have hlost : b2n (decide (fieldBE b 8 8 < oldestBoot s)) = if fieldBE b 8 8 < oldestBoot s then 1 else 0 := by simp [b2n]
    refine (if_neg (by simp [hs])).trans ((if_neg (by simp; omega)).trans ?_)
    rw [oldestBoot_quiet, entriesFrom_quiet, hlost]

/-- ATTEST takes the report to sign. -/
theorem attest_results (h : b.length = 40) :
    (s.spire.stopped = true → execAttest b s = .next (doeAnswer s.quiet .deviceError 0 0 []))
    ∧ (s.spire.stopped = false → execAttest b s = .next { s.quiet with
        hp := { s.hp with doe := { s.hp.doe with busy := true } }
        spire := { s.spire with doeNonce := some (askReport s 0 (b.drop 8)) } }) := by
  unfold execAttest
  dsimp only
  rw [if_neg (doe_reached hready), doeBody_of_length h]
  exact ⟨fun hs => if_pos hs, fun hs => if_neg (by simp [hs])⟩

end

/-! The lanes, and the Spire's stop. -/

/-- An entry of any class but 1 leaves the Spire as it is, and stands last in a log that is written. -/
theorem logEvent_written (s : State) {e : LogEntry} (h : e.cls ≠ 1) : (logEvent s e).spire = s.spire
    ∧ (s.bel.stopped = false → (logEvent s e).bel.stopped = false
      ∧ (logEvent s e).bel.log.getLast? = some { e with eseq := s.bel.eseq }) := by
  obtain ⟨b, hp, -, hb⟩ := logWrite_posts s e
  rw [logEvent_eq_logWrite s h, hp.bel]
  refine ⟨hp.spire, fun hs => ?_⟩
  obtain ⟨hstop, -, hlast⟩ := hb hs
  exact ⟨hstop, hlast⟩

/-- What an entry of the log leaves of the Spire, the mailbox and the requests in hand. -/
theorem logEvent_keeps (s : State) (e : LogEntry) : (logEvent s e).spire = s.spire ∧ (logEvent s e).hp.doe = s.hp.doe
    ∧ (∀ n q, (logEvent s e).req? n q = s.req? n q) ∧ s.out ⊆ (logEvent s e).out := by
  obtain ⟨b, hp, -⟩ := logEvent_posts s e
  exact ⟨hp.spire, hp.doe, hp.req?, hp.out_subset⟩

/-- Image writes in progress end with a stop of the Spire. -/
def endWrites (s : State) (l : List Nat) : State := l.foldl (fun s q => completeNow s 0 q Status.deviceError.code 0 0 []) s

theorem endWrites_spire (s : State) (l : List Nat) : (endWrites s l).spire = s.spire :=
  foldl_keeps State.spire (fun s q => (completeNow_posts 0 q _ _ _ _ s).spire) _ _

theorem endWrites_req?_none {s : State} {q : Nat} (l : List Nat) (h : s.req? 0 q = none) : (endWrites s l).req? 0 q = none :=
  List.foldlRecOn (motive := fun t : State => t.req? 0 q = none) l _ h fun _ ht x _ => completeNow_req?_none ht 0 x _ _ _ _

theorem endWrites_req?_mem {q : Nat} {l : List Nat} (s : State) (h : q ∈ l) : (endWrites s l).req? 0 q = none := by
  induction l generalizing s with
  | nil => exact absurd h List.not_mem_nil
  | cons x l ih =>
    rcases List.mem_cons.mp h with rfl | h
    · exact endWrites_req?_none l (completeNow_req?_same s 0 q _ _ _ _)
    · exact ih _ h

/-- A region whose write is cut short. -/
def Region.cut (r : Region) : Region := if r.writing.isSome then { r with writing := none, new := [] } else r

/-- The Spire stopped: its reports dropped, its writes cut, a package in its check rejected for reason `k`. -/
def haltSpire (s : State) (k : Nat) : State :=
  { s with spire := { s.spire with
    stopped := true, doeNonce := none, smbNonce := none, slotA := s.spire.slotA.cut, slotB := s.spire.slotB.cut, push := s.spire.push.cut
    pkgState := if s.spire.pkgState = 1 then 3 else s.spire.pkgState
    pkgReason := if s.spire.pkgState = 1 then k else s.spire.pkgReason } }

/-- An ATTEST in progress is answered DEVICE_ERROR. -/
def endAttest (s : State) : State := { s with out := s.out ++ [.doe (14 :: zeros 7)], hp := { s.hp with doe := { s.hp.doe with busy := false } } }

/-- The image writes in progress. -/
def imageWrites (p : Spire) : List Nat := [p.slotA, p.slotB, p.push].filterMap (·.writing)

section
variable {s : State} (hlive : s.live = true) (hrun : s.spire.stopped = false)
include hlive hrun

theorem spire_runs : ¬ (!s.quiet.live || s.quiet.spire.stopped) = true := by
  have hl : s.quiet.live = true := hlive
  simp [hl, hrun]

theorem attestSigned_doe {x : Report} (hx : s.spire.doeNonce = some x) (hb : s.hp.doe.busy = true) (hport : s.hp.stopped = false) :
    execAttestSigned false s = .next { s with
      out := [.doe (zeros 8 ++ signReport s (beginReport s 0 x))], hp := { s.hp with doe := { s.hp.doe with busy := false } }
      spire := { s.spire with doeNonce := none } } := by
  unfold execAttestSigned
  dsimp only
  rw [if_neg (spire_runs hlive hrun), if_neg Bool.false_ne_true, State.quiet_spire, hx]
  dsimp only
  rw [if_pos (by simp [hb, hport])]
  rfl

theorem attestSigned_smbus {x : Report} (hx : s.spire.smbNonce = some x) (hh : s.spire.headSigned = true) :
    execAttestSigned true s = .next { s.quiet with
      spire := { s.spire with smbNonce := none, smbReport := some (signReport s (beginReport s 1 x)) } } := by
  unfold execAttestSigned
  dsimp only
  rw [if_neg (spire_runs hlive hrun), if_pos rfl, State.quiet_spire, hx]
  dsimp only
  rw [if_neg (by simp [hh])]
  rfl

theorem spireStop_eq : ∃ k, execSpireStop s = .next (
    let t := endWrites (logEvent (haltSpire s.quiet.fresh.2 k) ((haltSpire s.quiet.fresh.2 k).entry 0xA6 4 0x0D 0)) (imageWrites s.spire)
    let v := if (s.spire.doeNonce.isSome && s.hp.doe.busy) = true then endAttest t else t
    logEvent v { v.entry 0x31 4 0x0D 0 with param := paramAt 48 2 0 }) := by
  refine ⟨Config.pick s.free % 256, ?_⟩
  unfold execSpireStop
  dsimp only
  rw [if_neg (spire_runs hlive hrun)]
  simp only [beq_iff_eq]
  rfl

/-- A stop of the Spire: what it held is dropped, its writes and the mailbox's ATTEST end. -/
theorem spireStop_results : ∃ u, execSpireStop s = .next u
    ∧ u.spire = { s.spire with
        stopped := true, doeNonce := none, smbNonce := none, slotA := s.spire.slotA.cut, slotB := s.spire.slotB.cut, push := s.spire.push.cut
        pkgState := if s.spire.pkgState = 1 then 3 else s.spire.pkgState, pkgReason := u.spire.pkgReason }
    ∧ (s.spire.pkgState ≠ 1 → u.spire.pkgReason = s.spire.pkgReason)
    ∧ (∀ q ∈ imageWrites s.spire, u.req? 0 q = none)
    ∧ (s.spire.doeNonce ≠ none → s.hp.doe.busy = true → .doe (14 :: zeros 7) ∈ u.out ∧ u.hp.doe.busy = false) := by
  obtain ⟨k, heq⟩ := spireStop_eq hlive hrun
  refine ⟨_, heq, ?_⟩
  dsimp only
  generalize ht : endWrites _ (imageWrites s.spire) = t
  generalize hv : (if (s.spire.doeNonce.isSome && s.hp.doe.busy) = true then endAttest t else t) = v
  obtain ⟨hspire, hdoe, hreq, hout⟩ := logEvent_keeps v { v.entry 0x31 4 0x0D 0 with param := paramAt 48 2 0 }
  have htspire : t.spire = (haltSpire s.quiet.fresh.2 k).spire := by
    rw [← ht, endWrites_spire]
    exact (logEvent_keeps _ _).1
  have hvspire : v.spire = t.spire := by rw [← hv]; split <;> rfl
  have hvreq (q : Nat) : v.req? 0 q = t.req? 0 q := by rw [← hv]; split <;> rfl
  rw [hspire, hvspire, htspire, hdoe]
  refine ⟨rfl, fun hp => if_neg hp, fun q hq => ?_, fun hn hb => ?_⟩
  · rw [hreq, hvreq, ← ht]
    exact endWrites_req?_mem _ hq
  · rw [if_pos (by simp [Option.isSome_iff_ne_none, hn, hb])] at hv
    subst hv
    exact ⟨hout (by simp [endAttest]), rfl⟩

/-- The head signed, and the reports that have waited begun. -/
def headSign (s : State) : State :=
  { s with spire := { s.spire with
    headSigned := true, doeNonce := s.spire.doeNonce.map fun r => .signing (beginReport s 0 r)
    smbNonce := s.spire.smbNonce.map fun r => .signing (beginReport s 1 r) } }

/-- When the head is signed, the reports that have waited begin, and the log says so. -/
theorem headSigned_results (hh : s.spire.headSigned = false) : ∃ u, execHeadSigned s = .next u
    ∧ u.spire = { s.spire with
        headSigned := true, doeNonce := s.spire.doeNonce.map fun r => .signing (beginReport s 0 r)
        smbNonce := s.spire.smbNonce.map fun r => .signing (beginReport s 1 r) }
    ∧ (s.bel.stopped = false → u.bel.log.getLast?.map (fun e => (e.event, e.ref)) = some (0xA0, s.spire.boot)) := by
  have hguard : ¬ (!s.quiet.live || s.quiet.spire.stopped || s.quiet.spire.headSigned) = true := by
    have hl : s.quiet.live = true := hlive
    simp [hl, hrun, hh]
  have hentry (v : State) (hb : s.bel.stopped = false → v.bel.stopped = false) (hv : v.spire.boot = s.spire.boot) :
      let u := logEvent v { v.entry 0xA0 0 0x0D 0 with ref := v.spire.boot }
      u.spire = v.spire ∧ (s.bel.stopped = false → u.bel.log.getLast?.map (fun e => (e.event, e.ref)) = some (0xA0, s.spire.boot)) := by
    obtain ⟨hspire, hlog⟩ := logEvent_written v (e := { v.entry 0xA0 0 0x0D 0 with ref := v.spire.boot }) (by simp [State.entry])
    refine ⟨hspire, fun h => ?_⟩
    obtain ⟨-, hlast⟩ := hlog (hb h)
    rw [hlast, hv]
    rfl
  refine ⟨_, if_neg hguard, ?_⟩
  split
  · exact hentry _ id rfl
  · obtain ⟨hspire, hlog⟩ := logEvent_written (headSign s.quiet) (e := s.entry 0xA5 4 0x0D 0) (by simp [State.entry])
    obtain ⟨hu, hlast⟩ := hentry _ (fun h => (hlog h).1) ((congrArg Spire.boot hspire).trans rfl)
    exact ⟨hu.trans hspire, hlast⟩

end

/-- Settles O53: the mailbox object by object, then the lanes and the stop of the Spire. -/
theorem attestationResults : Obligations.AttestationResults := by
  unfold Obligations.AttestationResults
  intro s b
  refine ⟨fun hready => ?_, fun hlive hrun => ?_⟩
  · obtain ⟨hshort, hentries, hattest⟩ := doe_wrongLength (b := b) hready
    refine ⟨fun hl k hk h5 => doeDiscovery_listed hready hl hk h5, fun hl v t => doeDiscovery_bad hready hl v t, hshort, hentries, hattest,
      fun hl => (doe_short hready hl).1, fun hs => ⟨fun hl => (doe_short hready hl).2.1 hs, fun hl => (bootEntries_results hready hl).1 hs,
        fun hl => (attest_results hready hl).1 hs⟩, fun hs => ⟨fun hl => (doe_short hready hl).2.2 hs, fun hl n hn => ?_,
        fun hl => (attest_results hready hl).2 hs⟩⟩
    subst hn
    obtain ⟨-, hbad, hgood⟩ := bootEntries_results hready hl
    exact ⟨hbad hs, hgood hs⟩
  · refine ⟨fun x hx hb hport => attestSigned_doe hlive hrun hx hb hport, fun x hx hh => attestSigned_smbus hlive hrun hx hh, ?_,
      headSigned_results hlive hrun⟩
    obtain ⟨u, heq, hspire, hreason, hreq, hdoe⟩ := spireStop_results hlive hrun
    exact ⟨u, heq, hspire, hreason, fun r hr q hq => hreq q (List.mem_filterMap.mpr ⟨r, hr, hq⟩), hdoe⟩

end Sys2Proof.Machine

/-! SUPPORT. The invariant of the machine: what each operation of the model makes of it, in the model's order, what each command makes of
it, and the statement about steps, O4. The invariant speaks of the stores, the log and the sticky array alone, so a lemma about an operation
that leaves them says no more than that the states are equal there; the operations that write them rest on the laws of `Memory` and `Log`. -/

namespace Sys2Proof.Machine

open Sys2Proof

/-- A fold keeps the invariant when each of its steps does. -/
theorem foldl_inv {α : Type} {f : State → α → State} {l : List α} {s : State} (h : s.Inv) (hf : ∀ s x, s.Inv → (f s x).Inv) :
  (l.foldl f s).Inv := by
  induction l generalizing s with
  | nil => exact h
  | cons x l ih => exact ih (hf s x h)

/-- A branch keeps the invariant when both of its sides do. -/
theorem ite_inv {c : Prop} [Decidable c] {s t : State} (hs : s.Inv) (ht : t.Inv) : (if c then s else t).Inv := by
  split
  · exact hs
  · exact ht

/-- Both branches go on from the state `x`. -/
theorem branch_inv {c : Prop} [Decidable c] {x s t : State} (hs : x.Inv → s.Inv) (ht : x.Inv → t.Inv) (h : x.Inv) :
    (if c then s else t).Inv :=
  ite_inv (hs h) (ht h)

/-- `logEvent_inv` with its entry left to unification, as the lemmas below have their arguments. -/
theorem logEvent_inv' {s : State} {e : LogEntry} (h : s.Inv) : (logEvent s e).Inv :=
  logEvent_inv h e

theorem raiseErr_inv' {s : State} {n : Nat} {e : ErrKind} (h : s.Inv) : (raiseErr s n e).Inv :=
  raiseErr_inv h n e

/-- The state that a command leads to meets the invariant. -/
def NextInv : Res → Prop
  | .next s => s.Inv
  | _ => True

theorem snd_inv {α : Type} {p : α × State} {a : α} {s : State} (e : p = (a, s)) (h : p.2.Inv) : s.Inv := by
  subst e
  exact h

theorem fst_inv {α : Type} {p : State × α} {a : α} {s : State} (e : p = (s, a)) (h : p.1.Inv) : s.Inv := by
  subst e
  exact h

section
variable {s : State} {pd : List Instr} {ot : List Output} {vr : Variant} {sp fr : Nat} {hp : HostPort} {is : KV Inst} {vs : KV VE}
  {es : KV Engine} {ds : KV Dome} {zr : List (Bool × Nat)} {hz : List ZoneTag} {cs : Css} {pg : KV Page} {xc cz : Accel} {hd : KV (List Nat)}
  {im : Img} {tw : Twin} {sr : Spire} {ck : Clk} {ts : Tst}

/-- An update of other fields than the stores and the Belfry keeps the invariant. -/
theorem frame_inv (h : s.Inv) : (State.mk pd ot vr sp fr hp is vs es ds s.mem zr hz cs pg xc cz hd im s.bel tw sr ck ts).Inv :=
  h

/-- A line written to its store, whatever else changes with it. -/
theorem line_inv {tb l : Nat} {d : List Byte} {q : Bool} (h : s.Inv) :
    (State.mk pd ot vr sp fr hp is vs es ds (s.mem.setLine tb l d q) zr hz cs pg xc cz hd im s.bel tw sr ck ts).Inv :=
  setLine_inv h tb l d q

theorem State.updVe_inv {k : Nat} {f : VE → VE} (h : s.Inv) : (s.updVe k f).Inv := h
theorem State.setVe_inv {k : Nat} {x : VE} (h : s.Inv) : (s.setVe k x).Inv := h
theorem State.setCtx_inv {k : Nat} {c : Ctx} (h : s.Inv) : (s.setCtx k c).Inv := h
theorem State.updInst_inv {i : Nat} {f : Inst → Inst} (h : s.Inv) : (s.updInst i f).Inv := h
theorem State.setInst_inv {i : Nat} {x : Inst} (h : s.Inv) : (s.setInst i x).Inv := h
theorem State.updEng_inv {p : Nat} {f : Engine → Engine} (h : s.Inv) : (s.updEng p f).Inv := h
theorem State.setEng_inv {p : Nat} {x : Engine} (h : s.Inv) : (s.setEng p x).Inv := h
theorem State.updDome_inv {t : Nat} {f : Dome → Dome} (h : s.Inv) : (s.updDome t f).Inv := h
theorem State.setDome_inv {t : Nat} {x : Dome} (h : s.Inv) : (s.setDome t x).Inv := h
theorem State.updFn_inv {n : Nat} {f : Fn → Fn} (h : s.Inv) : (s.updFn n f).Inv := h
theorem State.setFn_inv {n : Nat} {f : Fn} (h : s.Inv) : (s.setFn n f).Inv := h
theorem State.setRing_inv {n k : Nat} {r : Ring} (h : s.Inv) : (s.setRing n k r).Inv := h
theorem State.setSub_inv {i n : Nat} {x : Sub} (h : s.Inv) : (s.setSub i n x).Inv := h
theorem State.setPage_inv {n : Nat} {x : Page} (h : s.Inv) : (s.setPage n x).Inv := h
theorem State.setSlot_inv {g n : Nat} {x : Slot} (h : s.Inv) : (s.setSlot g n x).Inv := h
theorem State.emit_inv {o : Output} (h : s.Inv) : (s.emit o).Inv := h
theorem State.quiet_inv (h : s.Inv) : s.quiet.Inv := h
theorem State.setReqs_inv {l : List Request} (h : s.Inv) : (s.setReqs l).Inv := h
theorem State.putReq_inv {r : Request} (h : s.Inv) : (s.putReq r).Inv := h
theorem State.setStage_inv {n q : Nat} {g : Stage} (h : s.Inv) : (s.setStage n q g).Inv := h
end

/-- The states that a stop carries meet the invariant. -/
def Stop.Inv : Stop → Prop
  | .wait s | .hold s => s.Inv
  | .after s st => s.Inv ∧ st.Inv
  | _ => True

/-- An access or the body of an instruction ends with `P`, or in a stop whose states meet the invariant. -/
def Ends {α : Type} (P : α → Prop) : Except Stop α → Prop
  | .ok a => P a
  | .error e => e.Inv

theorem Ends.bind {α β : Type} {P : α → Prop} {Q : β → Prop} {x : Except Stop α} {f : α → Except Stop β} (hx : Ends P x)
    (hf : ∀ a, P a → Ends Q (f a)) : Ends Q (x >>= f) := by
  cases x with
  | ok a => exact hf a hx
  | error e => exact hx

theorem Ends.ite_bind {α β : Type} {P : α → Prop} {Q : β → Prop} {c : Prop} [Decidable c] {x y : Except Stop α} {f : α → Except Stop β}
    (hx : Ends P x) (hy : Ends P y) (hf : ∀ a, P a → Ends Q (f a)) : Ends Q (if c then x >>= f else y >>= f) := by
  split
  · exact hx.bind hf
  · exact hy.bind hf

theorem Ends.ok {α : Type} {P : α → Prop} {x : Except Stop α} {a : α} (e : x = .ok a) (h : Ends P x) : P a := by
  subst e
  exact h

theorem Ends.error {α : Type} {P : α → Prop} {x : Except Stop α} {st : Stop} (e : x = .error st) (h : Ends P x) : st.Inv := by
  subst e
  exact h

theorem Ends.foldlM {α : Type} {f : State → α → Except Stop State} (hf : ∀ s x, s.Inv → Ends State.Inv (f s x)) (l : List α) {s : State}
    (h : s.Inv) : Ends State.Inv (l.foldlM f s) := by
  induction l generalizing s with
  | nil => exact h
  | cons x l ih => exact Ends.bind (hf s x h) fun t ht => ih ht

/-! ## Tables, messages and the log -/

theorem State.fresh_inv {s : State} (h : s.Inv) : (State.fresh s).2.Inv :=
  h

theorem tick_inv {s : State} {d : Nat} (h : s.Inv) : (tick s d).Inv :=
  h

theorem passUntil_inv {s : State} {t : Nat} (h : s.Inv) : (passUntil s t).Inv :=
  ite_inv (tick_inv h) h

theorem idle_inv {s : State} (h : s.Inv) : (idle s).Inv :=
  ite_inv (tick_inv h) h

theorem sendMsix_inv {s : State} {n v : Nat} (h : s.Inv) : (sendMsix s n v).Inv :=
  ite_inv h h

theorem logWrite_inv {s : State} {e : LogEntry} (h : s.Inv) : (logWrite s e).Inv := by
  obtain ⟨o, fs, b, he, hl, hs⟩ := logWrite_frame s e
  rw [he]
  exact ⟨h.1, hl h.2.1, hs h.2.2⟩

theorem flushMerge_inv {s : State} {m : Merge} (h : s.Inv) : (flushMerge s m).Inv :=
  ite_inv h (logWrite_inv h)

theorem setPower_inv {s : State} {n : Nat} (h : s.Inv) : (setPower s n).Inv :=
  ite_inv h (logEvent_inv' h)

/-! ## Stores and caches -/

theorem dropL1_inv {s : State} {l : Nat} {q : Nat → Bool} {icache : Bool} (h : s.Inv) : (dropL1 s l q icache).Inv :=
  h

theorem writeBack_inv {s : State} {l : Nat} (h : s.Inv) : (writeBack s l).Inv := by
  unfold writeBack
  split
  · exact line_inv h
  · exact h

theorem dropDomes_inv {s : State} {l : Nat} {t : Nat → Bool} (h : s.Inv) : (dropDomes s l t).Inv :=
  frame_inv (dropL1_inv h)

theorem makeRoom_inv {s u : State} {t l w : Nat} (h : s.Inv) (e : makeRoom s t l = .inr (w, u)) : u.Inv := by
  unfold makeRoom at e
  dsimp only at e
  split at e
  · cases e
    exact h
  · split at e
    · cases e
      exact State.updDome_inv (dropL1_inv (writeBack_inv (State.fresh_inv h)))
    · split at e
      · split at e <;> cases e
      · cases e

theorem domeHave_inv {s u : State} {t l : Nat} {excl : Bool} (h : s.Inv) (e : domeHave s t l excl = .inr u) : u.Inv := by
  unfold domeHave at e
  dsimp only at e
  have h' : (if excl = true then dropDomes (writeBack s l) l fun x => x != t else s).Inv := ite_inv (dropDomes_inv (writeBack_inv h)) h
  split at e
  · split at e <;> cases e <;> exact h'
  · split at e
    · cases e
    next hr =>
      cases e
      have h1 := makeRoom_inv h' hr
      have h2 := ite_inv (c := excl = true) h1 (writeBack_inv (l := l) h1)
      exact State.updDome_inv (ite_inv (frame_inv h2) h2)

theorem l1Room_inv {s u : State} {p l : Nat} (h : s.Inv) (e : l1Room s p l = some u) : u.Inv := by
  unfold l1Room at e
  dsimp only at e
  split at e
  · cases e
    exact h
  · split at e <;> cases e
    exact h

theorem l1Put_inv {s : State} {p : Nat} {x : L1Line} (h : s.Inv) : (l1Put s p x).Inv :=
  h

theorem askCommit_inv {s : State} {ps : List Nat} (h : s.Inv) : (askCommit s ps).Inv :=
  h

theorem waitOn_inv {s : State} {w : Nat ⊕ Unit} (h : s.Inv) : (waitOn s w).Inv := by
  cases w <;> exact h

theorem makeDirty_inv {s : State} {p l : Nat} {data : List Byte} (h : s.Inv) : Ends State.Inv (makeDirty s p l data) := by
  unfold makeDirty
  dsimp only
  split
  · exact waitOn_inv h
  next h8 =>
    split
    · exact l1Put_inv (domeHave_inv (dropL1_inv h) h8)
    · split
      · exact askCommit_inv h
      next h12 =>
        exact l1Put_inv (l1Room_inv (domeHave_inv (dropL1_inv h) h8) h12)

theorem openLine_inv {s : State} {p l : Nat} (h : s.Inv) : Ends State.Inv (openLine s p l) := by
  unfold openLine
  split
  · exact waitOn_inv h
  next h7 =>
    exact domeHave_inv (dropL1_inv h) h7

theorem sendLine_inv {s : State} {p l : Nat} {d : List Byte} {poison : Bool} (h : s.Inv) : (sendLine s p l d poison).Inv :=
  State.updEng_inv (State.updDome_inv (writeBack_inv h))

theorem drainStream_inv {s : State} {p : Nat} (h : s.Inv) : (drainStream s p).Inv :=
  foldl_inv h fun _ _ h => ite_inv (State.updEng_inv (sendLine_inv h)) h

theorem leaveStream_inv {s : State} {p : Nat} (h : s.Inv) : Ends State.Inv (leaveStream s p) := by
  unfold leaveStream
  dsimp only
  split
  · exact State.updEng_inv (drainStream_inv h)
  · split
    · exact h
    · split
      · exact sendLine_inv (State.updEng_inv (drainStream_inv h))
      · exact makeDirty_inv (State.updEng_inv (drainStream_inv h))

theorem storeLine_inv {s : State} {p a : Nat} {d : List Byte} {va : Word} (h : s.Inv) : Ends State.Inv (storeLine s p a d va) := by
  unfold storeLine
  dsimp only
  split
  · exact askCommit_inv h
  · split
    · split
      · exact drainStream_inv h
      · split
        · exact h
        · refine Ends.bind (openLine_inv h) ?_
          intro s1 h1
          exact drainStream_inv h1
    · split
      · refine Ends.bind (leaveStream_inv h) ?_
        intro s1 h1
        split
        · exact trivial
        · refine Ends.bind (makeDirty_inv h1) ?_
          intro s2 h2
          exact h2
      · refine Ends.bind (P := State.Inv) h ?_
        intro s1 h1
        split
        · exact trivial
        · refine Ends.bind (makeDirty_inv h1) ?_
          intro s2 h2
          exact h2

theorem addFill_inv {s : State} {p l : Nat} {k : FillKind} (h : s.Inv) : (addFill s p l k).Inv :=
  h

theorem loadLine_inv {s : State} {p a n : Nat} {va : Word} (h : s.Inv) : Ends (·.2.Inv) (loadLine s p a n va) := by
  unfold loadLine
  dsimp only
  split
  · exact askCommit_inv h
  · split
    · exact trivial
    · split
      · exact h
      · split
        · refine Ends.bind (leaveStream_inv h) ?_
          intro s1 h1
          split
          · exact h1
          · exact addFill_inv h1
        · refine Ends.bind (P := State.Inv) h ?_
          intro s1 h1
          split
          · exact h1
          · exact addFill_inv h1

theorem noteLine_inv {s : State} {l : Nat} (h : s.Inv) : (noteLine s l).Inv := by
  unfold noteLine
  dsimp only
  split
  · exact h
  · split
    · exact ite_inv h h
    · exact h

theorem hubLine_inv {s : State} {a : Nat} {d : List Byte} (h : s.Inv) : (hubLine s a d).Inv :=
  noteLine_inv (line_inv (dropDomes_inv h))

theorem hubWrite_inv {s : State} {a : Nat} {d : List Byte} (h : s.Inv) : (hubWrite s a d).Inv :=
  foldl_inv h fun _ _ h => hubLine_inv h

theorem mergeLine_inv {s : State} {a : Nat} {d : List Byte} (h : s.Inv) : (mergeLine s a d).Inv :=
  ite_inv (hubLine_inv h) (noteLine_inv (line_inv h))

/-! ## Completions -/

theorem logDirty_inv {s : State} {i addr n : Nat} (h : s.Inv) : (logDirty s i addr n).Inv := by
  unfold logDirty
  dsimp only
  split <;> exact h

theorem hostWrite_inv {s : State} {n addr : Nat} {data : List Byte} (h : s.Inv) : (hostWrite s n addr data).Inv :=
  ite_inv h (ite_inv h (logDirty_inv h))

theorem gather_inv {s : State} {n k : Nat} (h : s.Inv) : (gather s n k).Inv :=
  ite_inv h (ite_inv (sendMsix_inv h) h)

theorem writeCompletion_inv {s : State} {n k : Nat} {c : Completion} (h : s.Inv) : (writeCompletion s n k c).Inv :=
  ite_inv (State.setRing_inv (hostWrite_inv h)) (gather_inv (State.setRing_inv (hostWrite_inv h)))

theorem drainRing_inv {s : State} {n k : Nat} (h : s.Inv) : (drainRing s n k).Inv :=
  foldl_inv h fun _ _ h => ite_inv (writeCompletion_inv h) h

theorem drainFn_inv {s : State} {n : Nat} (h : s.Inv) : (drainFn s n).Inv :=
  foldl_inv h fun _ _ h => drainRing_inv h

theorem completeNow_inv {s : State} {n seq st detail count : Nat} {result : List Byte} (h : s.Inv) :
    (completeNow s n seq st detail count result).Inv := by
  unfold completeNow
  dsimp only
  split
  · exact h
  · exact drainRing_inv h

/-! ## The sending side of the mirror -/

theorem sendFlit_inv {s : State} {slots : List (List Byte)} (h : s.Inv) : (sendFlit s slots).Inv :=
  State.emit_inv (frame_inv (State.fresh_inv h))

theorem sendSlots_inv {s : State} {l : List (List Byte)} (h : s.Inv) : (sendSlots s l).Inv := by
  induction s, l using sendSlots.induct with
  | case1 s => exact h
  | case2 s a => exact sendFlit_inv h
  | case3 s a b => exact sendFlit_inv h
  | case4 s a b c l ih => exact ih (sendFlit_inv h)

theorem sendUnder_inv {s : State} {k : Nat} {g : Group} {hd : Nat} (h : s.Inv) : (sendUnder s k g hd).Inv :=
  sendSlots_inv h

theorem sendGroup_inv {s : State} {k : Nat} (h : s.Inv) : (sendGroup s k).Inv := by
  unfold sendGroup
  dsimp only
  split
  · split
    · exact h
    · split
      · exact sendUnder_inv (State.fresh_inv h)
      · exact State.fresh_inv h
  · exact h

theorem sendGroups_inv {s : State} (h : s.Inv) : (sendGroups s).Inv :=
  foldl_inv h fun _ _ h => sendGroup_inv h

theorem closeGroup_inv {s : State} {i source : Nat} {lines : List MLine} {act : Deferred} (h : s.Inv) : (closeGroup s i source lines act).Inv :=
  sendGroups_inv (frame_inv (State.fresh_inv h))

theorem closeHub_inv {s : State} {i source : Nat} {act : Deferred} (h : s.Inv) : (closeHub s i source act).Inv :=
  closeGroup_inv h

theorem complete_inv {s : State} {n seq st detail count : Nat} {result : List Byte} (h : s.Inv) :
    (complete s n seq st detail count result).Inv := by
  unfold complete
  split
  · split
    · exact h
    · exact ite_inv h (closeHub_inv h)
  · exact completeNow_inv h

/-! ## Pools, the journal and commit points -/

theorem pushHold_inv {s : State} {pool t dt : Nat} (h : s.Inv) : (pushHold s pool t dt).Inv :=
  h

theorem freeDispatch_inv {s : State} {r : Request} (h : s.Inv) : (freeDispatch s r).Inv :=
  ite_inv (pushHold_inv h) h

theorem journalOne_inv {s : State} {i n type : Nat} {discard : Bool} (h : s.Inv) : (journalOne s i n type discard).Inv :=
  ite_inv (line_inv h) (line_inv h)

theorem closeEntry_inv {s : State} {i : Nat} {act : Deferred} (h : s.Inv) : (closeEntry s i act).Inv :=
  ite_inv (closeHub_inv h) h

theorem carryOld_inv {s : State} (h : s.Inv) : (carryOld s).Inv := by
  unfold carryOld
  refine foldl_inv h ?_
  intro s1 x h1
  split
  · exact ite_inv (closeEntry_inv (journalOne_inv h1)) h1
  · exact h1

theorem journal_inv {s : State} {i n type : Nat} {discard : Bool} {act : optParam Deferred Deferred.nothing} (h : s.Inv) :
    (journal s i n type discard act).Inv :=
  carryOld_inv (closeEntry_inv (journalOne_inv h))

theorem releaseGroup_inv {s : State} {i n : Nat} (h : s.Inv) : (releaseGroup s i n).Inv := by
  unfold releaseGroup
  dsimp only
  split
  · exact h
  · exact ite_inv h (State.updInst_inv (pushHold_inv h))

theorem presentSub_inv {s : State} {i n : Nat} {discard : Bool} (h : s.Inv) : (presentSub s i n discard).Inv :=
  releaseGroup_inv (State.setSub_inv (journal_inv h))

theorem engineZone_inv {s : State} {p i r : Nat} (h : s.Inv) : (engineZone s p i r).Inv := by
  unfold engineZone
  split <;> exact h

theorem hubZone_inv {s : State} {i r : Nat} (h : s.Inv) : (hubZone s i r).Inv := by
  unfold hubZone
  split <;> exact h

theorem pendAccel_inv {s : State} {i v area : Nat} (h : s.Inv) : (pendAccel s i v area).Inv :=
  h

theorem writeArea_inv {s : State} {i v area : Nat} {bytes : List Byte} {noint : Bool} (h : s.Inv) : (writeArea s i v area bytes noint).Inv := by
  unfold writeArea
  dsimp only
  split
  · split
    · exact mergeLine_inv (hubZone_inv h)
    · exact h
  · split
    · exact pendAccel_inv (mergeLine_inv (hubZone_inv h))
    · exact pendAccel_inv h

theorem takeGroup_inv {s : State} {i n : Nat} (h : s.Inv) : (takeGroup s i n).Inv :=
  ite_inv h h

theorem runEffect_inv {s : State} {e : Effect} (h : s.Inv) : (runEffect s e).Inv := by
  unfold runEffect
  dsimp only
  split
  · exact complete_inv h
  · exact h
  · exact h
  · exact State.setSub_inv (frame_inv (takeGroup_inv h))
  · exact ite_inv h (ite_inv h h)
  · exact writeArea_inv h
  · exact hostWrite_inv h

theorem finishRestarts_inv {s : State} {i v : Nat} {st : Status} (h : s.Inv) : (finishRestarts s i v st).Inv :=
  foldl_inv h fun _ _ h => complete_inv h

theorem consume_inv {s : State} {k : Nat} {t : Taken} (h : s.Inv) : (consume s k t).Inv := by
  unfold consume
  dsimp only
  split
  · exact finishRestarts_inv h
  · exact presentSub_inv h
  · exact h
  · split
    · exact freeDispatch_inv h
    · exact h
  · exact h
  · exact h

theorem writeKeyPage_inv {s : State} {pg off : Nat} {d : List Byte} (h : s.Inv) : (writeKeyPage s pg off d).Inv :=
  ite_inv h h

theorem mapP_inv {s : State} {p : Nat} {f : DomeLine → DomeLine} (h : s.Inv) : (mapP s p f).Inv :=
  h

theorem cleanEngine_inv {s : State} {p : Nat} (h : s.Inv) : (cleanEngine s p).Inv :=
  State.updEng_inv (State.updDome_inv (foldl_inv h fun _ _ h => writeBack_inv h))

theorem takeCommit_inv {s : State} {p k : Nat} {effects : List Effect} {opening wait leave : Bool} (h : s.Inv) :
    (takeCommit s p k effects opening wait leave).Inv :=
  State.updEng_inv (State.setVe_inv (mapP_inv (cleanEngine_inv h)))

theorem rollWindow_inv {s : State} {t : Nat} (h : s.Inv) : (rollWindow s t).Inv :=
  ite_inv h h

theorem chargeTime_inv {s : State} {t k : Nat} (h : s.Inv) : (chargeTime s t k).Inv :=
  frame_inv (rollWindow_inv h)

theorem leaveEngine_inv {s : State} {p k : Nat} (h : s.Inv) : (leaveEngine s p k).Inv :=
  State.updEng_inv (State.updVe_inv (chargeTime_inv h))

theorem finishCommit_inv {s : State} {p k : Nat} {b : CommitBuf} (h : s.Inv) : (finishCommit s p k b).Inv := by
  unfold finishCommit
  dsimp only
  generalize hx : b.effects.foldl runEffect _ = x
  have h : x.Inv := by
    subst hx
    refine foldl_inv (foldl_inv (foldl_inv ?_ fun s w h => ?_) fun _ _ h => consume_inv h) fun _ _ h => runEffect_inv h
    · exact State.updInst_inv (State.updEng_inv (State.setVe_inv (drainStream_inv (foldl_inv (mapP_inv h) fun _ _ h => writeBack_inv h))))
    · split
      · exact writeKeyPage_inv h
      · exact h
  exact ite_inv (leaveEngine_inv h) (ite_inv (takeCommit_inv h) h)

theorem commitNow_inv {s : State} {p k : Nat} {effects : List Effect} {leave : Bool} (h : s.Inv) : (commitNow s p k effects leave).Inv := by
  unfold commitNow
  dsimp only
  split
  · exact finishCommit_inv (takeCommit_inv h)
  · exact takeCommit_inv h

theorem commitWait_inv {s : State} {p k : Nat} {leave : Bool} (h : s.Inv) : (commitWait s p k leave).Inv :=
  ite_inv (takeCommit_inv h) (commitNow_inv h)

theorem parkBme_inv {s : State} {p k : Nat} (h : s.Inv) : (parkBme s p k).Inv :=
  ite_inv h (commitWait_inv h)

theorem rollback_inv {s : State} {p : Nat} (h : s.Inv) : (rollback s p).Inv := by
  unfold rollback
  dsimp only
  split
  · exact State.updVe_inv (State.updEng_inv (foldl_inv h fun s x h => dropDomes_inv h))
  · exact State.updEng_inv (foldl_inv h fun s x h => dropDomes_inv h)

theorem walkL1_inv {s : State} {p : Nat} (h : s.Inv) : (walkL1 s p).Inv :=
  h

theorem walkDome_inv {s : State} {t : Nat} (h : s.Inv) : (walkDome s t).Inv :=
  frame_inv (foldl_inv h fun _ _ h => dropDomes_inv (writeBack_inv h))

/-! ## Operands -/

theorem walk_inv {s : State} {p i org : Nat} {va : Word} {lv : Nat} (h : s.Inv) : Ends (·.2.Inv) (walk s p i va org lv) := by
  induction lv generalizing s org with
  | zero => exact trivial
  | succ lv ih =>
    unfold walk
    dsimp only
    split
    · exact trivial
    · have hl {a} := loadLine_inv (p := p) (a := a) (n := 8) (va := va)
        (engineZone_inv (p := p) (i := i) (r := org + levelIndex (lv + 1) va.toNat * 8) h)
      split
      · exact trivial
      next e => exact Ends.error e hl
      next e =>
        have hs := Ends.ok e hl
        split
        · exact trivial
        · split
          · exact hs
          · exact ih hs

theorem xlatVa_inv {s : State} {p k : Nat} {va : Word} (h : s.Inv) : Ends (·.2.Inv) (xlatVa s p k va) := by
  unfold xlatVa
  dsimp only
  have hw := walk_inv (p := p) (i := veInst k) (va := va) (org := bits ((s.ctx k).K 0).toNat 43 13 * 8192) (lv := 4) (State.fresh_inv h)
  split
  · split
    next e =>
      split
      · exact (Ends.ok e hw :)
      · exact h
    next e =>
      split
      · exact Ends.error e hw
      · exact h
  · refine Ends.bind hw ?_
    rintro ⟨x, s1⟩ h1
    exact h1

theorem translate_inv {s : State} {p k : Nat} {acc : Access} {va : Word} (h : s.Inv) : Ends (·.2.Inv) (translate s p k acc va) := by
  unfold translate
  dsimp only
  split
  · split
    · exact trivial
    · refine Ends.bind (xlatVa_inv h) ?_
      rintro ⟨x, s1⟩ h1
      dsimp only
      split
      · exact trivial
      · split
        · exact trivial
        · refine Ends.bind (P := fun _ => True) ?_ fun _ _ => engineZone_inv h1
          split
          · split <;> exact trivial
          · exact trivial
  · split
    · exact trivial
    · refine Ends.bind (P := fun _ => True) ?_ fun _ _ => engineZone_inv h
      split
      · split <;> exact trivial
      · exact trivial

theorem translateOp_inv {s : State} {p k n : Nat} {acc : Access} {va : Word} (h : s.Inv) : Ends (·.2.Inv) (translateOp s p k acc va n) := by
  unfold translateOp
  dsimp only
  refine Ends.bind (translate_inv h) ?_
  rintro ⟨x, s1⟩ h1
  dsimp only
  split
  · exact h1
  · refine Ends.bind (translate_inv h1) ?_
    rintro ⟨y, s2⟩ h2
    exact h2

theorem loadChunks_inv {s : State} {p fuel a n : Nat} {va : Word} (h : s.Inv) : Ends (·.2.Inv) (loadChunks s p va fuel a n) := by
  induction fuel generalizing s a n va with
  | zero => exact h
  | succ fuel ih =>
    unfold loadChunks
    dsimp only
    split
    · exact h
    · refine Ends.bind (loadLine_inv h) ?_
      rintro ⟨d, s1⟩ h1
      exact Ends.bind (ih h1) fun _ h2 => h2

theorem loadPiece_inv {s : State} {p k n : Nat} {va : Word} {ph : Phys} {keys : Bool} (h : s.Inv) :
    Ends (·.2.Inv) (loadPiece s p k va ph n keys) := by
  unfold loadPiece
  dsimp only
  split
  · exact loadChunks_inv h
  · split
    · exact trivial
    · exact h
  · split
    · exact parkBme_inv h
    · exact h

theorem loadPieces_inv {s : State} {p k : Nat} {keys : Bool} {l : List (Word × Phys × Nat)} (h : s.Inv) :
    Ends (·.2.Inv) (loadPieces s p k keys l) := by
  induction l generalizing s with
  | nil => exact h
  | cons x l ih =>
    obtain ⟨va, ph, n⟩ := x
    exact Ends.bind (loadPiece_inv h) fun _ h1 => Ends.bind (ih h1) fun _ h2 => h2

theorem loadOp_inv {s : State} {p k : Nat} {va : Word} {n : Nat} {keys : optParam Bool false} (h : s.Inv) :
    Ends (·.2.Inv) (loadOp s p k va n keys) :=
  Ends.bind (translateOp_inv h) fun _ h1 => loadPieces_inv h1

theorem storeChunks_inv {s : State} {p : Nat} {va : Word} {l : List (Nat × List Byte)} (h : s.Inv) : Ends State.Inv (storeChunks s p va l) := by
  induction l generalizing s va with
  | nil => exact h
  | cons x l ih => exact Ends.bind (storeLine_inv h) fun s1 h1 => ih h1

theorem storePieces_inv {s : State} {p k : Nat} {d : List Byte} {keys : Bool} {l : List (Word × Phys × Nat)} (h : s.Inv) :
    Ends (·.1.Inv) (storePieces s p k d keys l) := by
  induction l generalizing s d with
  | nil => exact h
  | cons x l ih =>
    obtain ⟨va, ph, n⟩ := x
    unfold storePieces
    dsimp only
    split
    · exact Ends.bind (storeChunks_inv h) fun s1 h1 => ih h1
    · split
      · exact trivial
      · exact ih h
    · refine Ends.bind (ih h) ?_
      rintro ⟨s1, es⟩ h1
      exact h1

theorem withSteals_inv {s w : State} (h : s.Inv) : (withSteals s w).Inv :=
  h

theorem wholeStore_inv {s : State} {r : Except Stop (State × List Effect)} (h : s.Inv) (hr : Ends (·.1.Inv) r) :
    Ends (·.1.Inv) (wholeStore s r) := by
  unfold wholeStore
  split
  · exact withSteals_inv h
  · exact hr

theorem storeOp_inv {s : State} {p k : Nat} {va : Word} {d : List Byte} {keys : optParam Bool false} (h : s.Inv) :
    Ends (·.1.Inv) (storeOp s p k va d keys) := by
  unfold storeOp
  refine Ends.bind (translateOp_inv h) ?_
  rintro ⟨x, y⟩ h1
  refine wholeStore_inv h1 ?_
  exact storePieces_inv h1

theorem raiseProg_inv {s : State} {k code ilen fp : Nat} {tea : Option Word} (h : s.Inv) : (raiseProg s k code ilen fp tea).Inv :=
  h

theorem machineCheck_inv {s : State} {k code access ilen : Nat} {va : Option Word} {line : Nat} (h : s.Inv) :
    (machineCheck s k code access ilen va line).Inv :=
  logEvent_inv' h

theorem State.skipFree_inv {s : State} (h : s.Inv) : (State.skipFree s).Inv :=
  h

theorem stopInstr_inv {s : State} {k ilen : Nat} {st : Stop} (h : s.Inv) (hst : st.Inv) : (stopInstr s k ilen st).Inv := by
  induction st generalizing s with
  | exc code tea => exact raiseProg_inv h
  | mc code access va line => exact machineCheck_inv (State.skipFree_inv h)
  | wait s1 => exact hst
  | hold s1 => exact hst
  | after s1 st ih => exact ih hst.1 hst.2

theorem fetchInstr_inv {s : State} {p k n : Nat} (h : s.Inv) : Ends State.Inv (fetchInstr s p k n) := by
  unfold fetchInstr
  refine Ends.bind (translateOp_inv h) ?_
  rintro ⟨ps, s1⟩ h1
  refine Ends.foldlM (fun s x h => ?_) ps h1
  dsimp only
  split
  · split
    · exact askCommit_inv h
    · split
      · exact trivial
      · split
        · exact h
        · exact addFill_inv h
  · exact trivial
  · exact h

theorem advance_inv {s : State} {k n : Nat} (h : s.Inv) : (advance s k n).Inv :=
  h

theorem clearRp_inv {s : State} {k : Nat} (h : s.Inv) : (clearRp s k).Inv :=
  ite_inv h h

theorem stopBody_inv {s : State} {k ilen : Nat} {st : Stop} (h : s.Inv) (hst : st.Inv) : (stopBody s k ilen st).Inv := by
  induction st generalizing s with
  | exc code tea => exact stopInstr_inv h hst
  | mc code access va line => exact stopInstr_inv h hst
  | wait s1 => exact clearRp_inv hst
  | hold s1 => exact hst
  | after s1 st ih => exact ih hst.1 hst.2

theorem instr_inv {s : State} {p n : Nat} {priv : Bool} {body : State → Nat → Except Stop Done} (h : s.Inv)
    (hb : ∀ s k, s.Inv → Ends (·.s.Inv) (body s k)) : NextInv (instr s p n priv body) := by
  unfold instr
  dsimp only
  split
  · exact h
  next k _ =>
    split
    next e he => exact stopInstr_inv h (Ends.error he (fetchInstr_inv h))
    next s1 hf =>
      have h1 : s1.Inv := Ends.ok hf (fetchInstr_inv h)
      split
      · exact stopInstr_inv h1 trivial
      · split
        next e he => exact stopBody_inv h1 (Ends.error he (hb s1 k h1))
        next d hd =>
          have h2 : (if d.moved = true then d.s else advance d.s k n).Inv :=
            ite_inv (Ends.ok hd (hb s1 k h1) :) (advance_inv (Ends.ok hd (hb s1 k h1) :))
          split
          · exact raiseProg_inv h2
          · exact h2

theorem regInstr_inv {s : State} {p n : Nat} {priv : Bool} {f : Ctx → RegRes} (h : s.Inv) : NextInv (regInstr s p n priv f) := by
  unfold regInstr
  refine instr_inv h ?_
  intro s1 k h1
  dsimp only
  split
  · exact h1
  · exact h1
  · exact trivial

theorem keepRp_inv {st : Stop} (h : st.Inv) : st.keepRp.Inv := by
  induction st with
  | after s st ih => exact ⟨h.1, ih h.2⟩
  | _ => exact h

theorem loadInstr_inv {s : State} {p n : Nat} {ea : Ctx → Option (Word × Option Word)} {size : Nat} {b : BitVec 5} {aligned : Nat}
    {f : Ctx → List Byte → RegRes} {keys : optParam Bool false} (h : s.Inv) : NextInv (loadInstr s p n ea size b aligned f keys) := by
  unfold loadInstr
  refine instr_inv h ?_
  intro s1 k h1
  dsimp only
  split
  · exact trivial
  · split
    · exact trivial
    · refine Ends.bind (loadOp_inv h1) ?_
      rintro ⟨x, y⟩ h2
      split
      · exact h2
      · exact h2
      · exact trivial

theorem withEffects_inv {s : State} {p k n : Nat} {q : Bool} {act : State → Except Stop (State × List Effect)} (h : s.Inv)
    (ha : ∀ s, s.Inv → Ends (·.1.Inv) (act s)) : Ends (·.s.Inv) (withEffects s p k n q act) := by
  unfold withEffects
  dsimp only
  split
  · exact h
  · split
    · exact parkBme_inv h
    · split
      · split
        · refine Ends.bind (ha s h) ?_
          rintro ⟨s1, es⟩ h1
          exact takeCommit_inv (State.updVe_inv (advance_inv h1))
        · exact takeCommit_inv h
      · have hc : (commitNow s p k [] false).Inv := commitNow_inv h
        split
        next e he => exact ⟨hc, Ends.error he (ha _ hc)⟩
        next s1 es he => exact commitNow_inv (advance_inv (Ends.ok he (ha _ hc) :))

theorem storeInstr_inv {s : State} {p n : Nat} {ea : Ctx → Option (Word × Option Word)} {b : BitVec 5} {aligned : Nat} {d : Ctx → Except
    (Nat × Nat) (List Byte × Ctx)} {keys : optParam Bool false} (h : s.Inv) : NextInv (storeInstr s p n ea b aligned d keys) := by
  unfold storeInstr
  refine instr_inv h ?_
  intro s1 k h1
  dsimp only
  split
  · exact trivial
  · split
    · exact trivial
    · split
      · split
        next h24 =>
          exact Ends.error h24 (translateOp_inv h1)
        · exact trivial
      · refine Ends.bind (P := (fun x => x.1.Inv)) ?_ ?_
        · refine Ends.bind (storeOp_inv h1) ?_
          rintro ⟨x, y⟩ h2
          exact h2
        · rintro ⟨x, y⟩ h2
          split
          · exact h2
          · refine withEffects_inv h1 ?_
            intro s2 h3
            exact Ends.bind (storeOp_inv h3) fun _ h4 => h4

/-! ## The host port -/

theorem writeBase_inv {s : State} {n k : Nat} {cpl : Bool} {v : Nat} (h : s.Inv) : (writeBase s n k cpl v).Inv :=
  ite_inv (raiseErr_inv' h) h

theorem stopFetch_inv {s : State} {n : Nat} (h : s.Inv) : (stopFetch s n).Inv :=
  h

theorem writeRqCtl_inv {s : State} {n k v : Nat} (h : s.Inv) : (writeRqCtl s n k v).Inv :=
  ite_inv (raiseErr_inv' h) (ite_inv (raiseErr_inv' h) h)

theorem writeCqCtl_inv {s : State} {n k v : Nat} (h : s.Inv) : (writeCqCtl s n k v).Inv :=
  ite_inv (raiseErr_inv' h) (ite_inv (raiseErr_inv' h) (drainRing_inv h))

theorem ringRqDb_inv {s : State} {n k v : Nat} (h : s.Inv) : (ringRqDb s n k v).Inv :=
  ite_inv (raiseErr_inv' h) (ite_inv (raiseErr_inv' h) (ite_inv h h))

theorem ringCqDb_inv {s : State} {n k v : Nat} (h : s.Inv) : (ringCqDb s n k v).Inv :=
  ite_inv (raiseErr_inv' h) (ite_inv (raiseErr_inv' h) (ite_inv (raiseErr_inv' h) (drainRing_inv h)))

theorem writeVec_inv {s : State} {n v : Nat} (h : s.Inv) : (writeVec s n v).Inv :=
  ite_inv h (ite_inv (raiseErr_inv' h) h)

theorem regWrite_inv {s : State} {n : Nat} {r : Reg} {o : Nat} {d : List Byte} (h : s.Inv) : (regWrite s n r o d).Inv := by
  unfold regWrite
  dsimp only
  split
  · exact h
  · exact writeVec_inv h
  · exact writeBase_inv h
  · exact writeBase_inv h
  · exact writeRqCtl_inv h
  · exact writeCqCtl_inv h
  · exact h

theorem bar0Write_inv {s : State} {n off : Nat} {d : List Byte} (h : s.Inv) : (bar0Write s n off d).Inv := by
  unfold bar0Write
  dsimp only
  split
  · exact raiseErr_inv' h
  · split
    · exact ite_inv h (ite_inv (raiseErr_inv' h) (ringRqDb_inv h))
    · exact ite_inv h (ite_inv (raiseErr_inv' h) (ringCqDb_inv h))
    · exact regWrite_inv h

theorem bar2Write_inv {s : State} {n off : Nat} {d : List Byte} (h : s.Inv) : (bar2Write s n off d).Inv := by
  unfold bar2Write
  split
  · exact raiseErr_inv' h
  · split
    · exact writeKeyPage_inv h
    · exact h

theorem sendPending_inv {s : State} {n v : Nat} (h : s.Inv) : (sendPending s n v).Inv :=
  ite_inv h h

theorem sendAllPending_inv {s : State} {n : Nat} (h : s.Inv) : (sendAllPending s n).Inv :=
  foldl_inv h fun _ _ h => sendPending_inv h

theorem msixDword_inv {s : State} {n off v : Nat} (h : s.Inv) : (msixDword s n off v).Inv :=
  ite_inv h (sendPending_inv h)

theorem bar4Write_inv {s : State} {n off : Nat} {d : List Byte} (h : s.Inv) : (bar4Write s n off d).Inv :=
  ite_inv (raiseErr_inv' h) (ite_inv (msixDword_inv (msixDword_inv h)) (msixDword_inv h))

theorem unsupportedRequest_inv {s : State} {n : Nat} (h : s.Inv) : (unsupportedRequest s n).Inv :=
  h

theorem hostRegWrite_inv {s : State} {n bar off : Nat} {d : List Byte} (h : s.Inv) : (hostRegWrite s n bar off d).Inv := by
  unfold hostRegWrite
  dsimp only
  split
  · exact h
  · exact h
  · exact unsupportedRequest_inv h
  · split
    · exact ite_inv (bar0Write_inv h) h
    · exact ite_inv (bar2Write_inv h) h
    · exact ite_inv (bar4Write_inv h) h
    · exact h

theorem hostRegRead_inv {s : State} {n bar off l : Nat} (h : s.Inv) : (hostRegRead s n bar off l).Inv := by
  unfold hostRegRead
  dsimp only
  split
  · exact h
  · exact h
  · exact unsupportedRequest_inv h
  · split
    · exact h
    · split
      · exact h
      · exact State.emit_inv (raiseErr_inv' h)

theorem execReqRingDoorbell_inv {fn k off : Nat} {data : List Byte} {s : State} (h : s.Inv) : NextInv (execReqRingDoorbell fn k off data s) :=
  ite_inv (hostRegWrite_inv h) h

theorem execCplRingDoorbell_inv {fn k off : Nat} {data : List Byte} {s : State} (h : s.Inv) : NextInv (execCplRingDoorbell fn k off data s) :=
  ite_inv (hostRegWrite_inv h) h

theorem execRingBaseWrite_inv {fn k : Nat} {cpl : Bool} {off : Nat} {data : List Byte} {s : State} (h : s.Inv) :
    NextInv (execRingBaseWrite fn k cpl off data s) :=
  ite_inv (hostRegWrite_inv h) h

theorem execReqRingCtlWrite_inv {fn k off : Nat} {data : List Byte} {s : State} (h : s.Inv) : NextInv (execReqRingCtlWrite fn k off data s) :=
  ite_inv (hostRegWrite_inv h) h

theorem execCplRingCtlWrite_inv {fn k off : Nat} {data : List Byte} {s : State} (h : s.Inv) : NextInv (execCplRingCtlWrite fn k off data s) :=
  ite_inv (hostRegWrite_inv h) h

theorem execKeyStagingWrite_inv {fn off : Nat} {data : List Byte} {s : State} (h : s.Inv) : NextInv (execKeyStagingWrite fn off data s) :=
  hostRegWrite_inv h

theorem execMsixVectorUnmask_inv {fn vec : Nat} {s : State} (h : s.Inv) : NextInv (execMsixVectorUnmask fn vec s) :=
  hostRegWrite_inv h

theorem execRegisterWrite_inv {fn bar off : Nat} {acc : RegAccess} {s : State} (h : s.Inv) : NextInv (execRegisterWrite fn bar off acc s) := by
  unfold execRegisterWrite
  split
  · exact hostRegWrite_inv h
  · exact hostRegRead_inv h

theorem execCoalTimerExpire_inv {fn k : Nat} {s : State} (h : s.Inv) : NextInv (execCoalTimerExpire fn k s) := by
  unfold execCoalTimerExpire
  dsimp only
  split
  · exact sendMsix_inv h
  · exact h

theorem resetFn_inv {s : State} {n : Nat} {busy : Bool} (h : s.Inv) : (resetFn s n busy).Inv :=
  h

theorem startFlr_inv {s : State} {n : Nat} (h : s.Inv) : (startFlr s n).Inv :=
  ite_inv (resetFn_inv h) h

theorem execVfFlr_inv {fn : Nat} {s : State} (h : s.Inv) : NextInv (execVfFlr fn s) :=
  ite_inv h (startFlr_inv h)

theorem execPfFlr_inv {s : State} (h : s.Inv) : NextInv (execPfFlr s) :=
  startFlr_inv h

theorem execFlrComplete_inv {fn : Nat} {s : State} (h : s.Inv) : NextInv (execFlrComplete fn s) :=
  h

theorem resetVfs_inv {s : State} (h : s.Inv) : (resetVfs s).Inv :=
  h

theorem clearVfEnable_inv {s : State} (h : s.Inv) : (clearVfEnable s).Inv :=
  frame_inv (resetVfs_inv h)

theorem execVfEnableClear_inv {s : State} (h : s.Inv) : NextInv (execVfEnableClear s) :=
  ite_inv (clearVfEnable_inv h) h

theorem execHostPortReset_inv {s : State} (h : s.Inv) : NextInv (execHostPortReset s) := by
  unfold execHostPortReset
  dsimp only
  split
  · exact h
  · exact frame_inv (clearVfEnable_inv (resetFn_inv h))

theorem setBme_inv {s : State} {n : Nat} (h : s.Inv) : (setBme s n).Inv :=
  ite_inv (sendAllPending_inv (drainFn_inv h)) (frame_inv (sendAllPending_inv (drainFn_inv h)))

theorem execBusMasterEnableSet_inv {fn : Nat} {s : State} (h : s.Inv) : NextInv (execBusMasterEnableSet fn s) :=
  ite_inv (setBme_inv h) h

theorem execPf0D3hotEnter_inv {s : State} (h : s.Inv) : NextInv (execPf0D3hotEnter s) :=
  ite_inv h h

theorem execPf0D0Return_inv {s : State} (h : s.Inv) : NextInv (execPf0D0Return s) := by
  unfold execPf0D0Return
  dsimp only
  split
  · exact setPower_inv h
  · exact h

theorem doeAbort_inv {s : State} (h : s.Inv) : (doeAbort s).Inv :=
  h

theorem execDoeAbort_inv {s : State} (h : s.Inv) : NextInv (execDoeAbort s) :=
  ite_inv (doeAbort_inv h) h

theorem cfgWrite_inv {s : State} {n : Nat} {r : CfgReg} {v : BitVec 32} (h : s.Inv) : (cfgWrite s n r v).Inv := by
  unfold cfgWrite
  dsimp only
  split
  · exact ite_inv (ite_inv (ite_inv h h) (setBme_inv (ite_inv h h))) (State.updFn_inv (ite_inv h h))
  · exact ite_inv h h
  · exact ite_inv h h
  · exact ite_inv h (ite_inv h (ite_inv (clearVfEnable_inv h) h))
  · exact sendAllPending_inv h
  · exact ite_inv (startFlr_inv (ite_inv h h)) (ite_inv h h)
  · exact h
  · exact h
  · exact h
  · exact h
  · exact h
  · exact h
  · exact h
  · exact h
  · exact h
  · exact h
  · exact h
  · split
    · exact h
    · exact ite_inv (setPower_inv h) h
    · exact h
  · exact ite_inv (doeAbort_inv h) h
  · exact h

theorem execPcieConfigRequest_inv {fn : Nat} {reg : CfgReg} {write : Bool} {data : BitVec 32} {s : State} (h : s.Inv) :
    NextInv (execPcieConfigRequest fn reg write data s) := by
  unfold execPcieConfigRequest
  dsimp only
  split
  · exact h
  · split
    · exact h
    · split
      · exact h
      · split
        · exact cfgWrite_inv h
        · exact h

/-! ## Request entries -/

theorem readEntry_inv {s : State} {n k : Nat} (h : s.Inv) : (readEntry s n k).Inv :=
  h

theorem execRequestFetchStart_inv {fn k : Nat} {s : State} (h : s.Inv) : NextInv (execRequestFetchStart fn k s) := by
  unfold execRequestFetchStart
  dsimp only
  split
  · exact readEntry_inv h
  · exact h

theorem takeEntry_inv {s : State} {n k : Nat} {e : List Byte} (h : s.Inv) : (takeEntry s n k e).2.Inv :=
  State.setReqs_inv (ite_inv h h)

theorem admitMirrored_inv {s : State} {n seq : Nat} (h : s.Inv) : (admitMirrored s n seq).Inv := by
  unfold admitMirrored
  split
  · split
    · exact closeHub_inv h
    · exact h
  · exact h

theorem poisonIn_inv {s : State} {n : Nat} (h : s.Inv) : (poisonIn s n).Inv :=
  raiseErr_inv' h

theorem execRequestEntryArrive_inv {fn k : Nat} {entry : List Byte} {poisoned : Bool} {s : State} (h : s.Inv) :
    NextInv (execRequestEntryArrive fn k entry poisoned s) := by
  unfold execRequestEntryArrive
  dsimp only
  split
  · exact h
  · split
    · exact stopFetch_inv h
    · split
      · exact complete_inv (poisonIn_inv (takeEntry_inv h))
      · split
        · exact complete_inv (takeEntry_inv h)
        · exact admitMirrored_inv (takeEntry_inv h)

theorem readFailed_inv {s : State} {n : Nat} (h : s.Inv) : (readFailed s n).Inv :=
  State.updFn_inv (State.fresh_inv h)

theorem answer_inv {s : State} {r : Request} {st : Status} {detail : Nat} (h : s.Inv) : (answer s r st detail).Inv :=
  complete_inv h

theorem done_inv {s : State} {r : Request} {count : Nat} {result : List Byte} (h : s.Inv) : (done s r count result).Inv :=
  complete_inv h

theorem refuse_inv {s : State} {r : Request} {inst detail : Nat} (h : s.Inv) : (refuse s r inst detail).Inv :=
  answer_inv (logEvent_inv' h)

theorem wake_inv {s : State} (h : s.Inv) : (wake s).Inv :=
  setPower_inv h

/-! ## The stores of an instance -/

theorem hubUse_inv {s : State} {i r n : Nat} (h : s.Inv) : (hubUse s i r n).Inv :=
  foldl_inv h fun _ _ h => hubZone_inv h

theorem writePieces_inv {s : State} {l : List (Nat × Nat)} {d : List Byte} (h : s.Inv) : (writePieces s l d).Inv := by
  induction l generalizing s d with
  | nil => exact h
  | cons x l ih => exact ih (hubWrite_inv h)

theorem instWrite_inv {s : State} {i r : Nat} {d : List Byte} (h : s.Inv) : (instWrite s i r d).Inv :=
  writePieces_inv (hubUse_inv h)

theorem logPoison_inv {s : State} {i l detail ref : Nat} (h : s.Inv) : (logPoison s i l detail ref).Inv :=
  logEvent_inv' h

/-! ## Accelerator jobs -/

theorem State.setAccel_inv {s : State} {cz : Bool} {a : Accel} (h : s.Inv) : (State.setAccel s cz a).Inv :=
  ite_inv h h

theorem State.setJobs_inv {s : State} {cz : Bool} {l : List Job} (h : s.Inv) : (State.setJobs s cz l).Inv :=
  State.setAccel_inv h

theorem State.putJob_inv {s : State} {cz : Bool} {j : Job} (h : s.Inv) : (State.putJob s cz j).Inv :=
  State.setJobs_inv h

theorem countRunning_inv {s : State} {pg n : Nat} (h : s.Inv) : (countRunning s pg n).Inv :=
  h

theorem addJob_inv {s : State} {cz : Bool} {j : Job} (h : s.Inv) : (addJob s cz j).Inv :=
  runEffect_inv h

theorem noteKey_inv {s : State} {i n : Nat} {x : Slot} (h : s.Inv) : (noteKey s i n x).Inv :=
  ite_inv h (frame_inv (State.fresh_inv h))

theorem leaveJob_inv {s : State} {cz : Bool} {j : Job} {st : Nat} (h : s.Inv) : (leaveJob s cz j st).Inv :=
  branch_inv id (fun h => countRunning_inv (State.setSlot_inv h)) (ite_inv (pushHold_inv (State.setJobs_inv h)) (State.setJobs_inv h))

theorem areaDone_inv {s : State} {j : Job} {st detail count : Nat} {result : List Byte} (h : s.Inv) :
    (areaDone s j st detail count result).Inv := by
  unfold areaDone
  split
  · exact writeArea_inv h
  · exact h

theorem endJob_inv {s : State} {cz : Bool} {j : Job} {st detail count : Nat} {result : List Byte} (h : s.Inv) :
    (endJob s cz j st detail count result).Inv :=
  branch_inv complete_inv (fun h => ite_inv (closeHub_inv h) (areaDone_inv h)) (branch_inv State.setJobs_inv leaveJob_inv (ite_inv (ite_inv
    (noteKey_inv h) (ite_inv (noteKey_inv h) h)) h))

theorem endedJob_inv {s u : State} {cz : Bool} {i seq : Nat} {j : Job} (h : s.Inv) (e : endedJob s cz i seq = some (j, u)) : u.Inv := by
  unfold endedJob at e
  split at e
  · split at e <;> cases e
    exact leaveJob_inv h
  · cases e

theorem abortQueued_inv {s : State} {cz : Bool} {i : Nat} (h : s.Inv) : (abortQueued s cz i).Inv :=
  foldl_inv h fun _ _ h => endJob_inv h

theorem writeReal_inv {s : State} {i : Nat} {l : List (Nat × Nat)} {d : List Byte} (h : s.Inv) : (writeReal s i l d).Inv := by
  induction l generalizing s d with
  | nil => exact h
  | cons x l ih => exact ih (instWrite_inv h)

theorem jobWrite_inv {s : State} {j : Job} {d : List Byte} (h : s.Inv) : (jobWrite s j d).Inv := by
  unfold jobWrite
  split
  · exact hostWrite_inv h
  · exact writeReal_inv h

theorem jobZones_inv {s : State} {j : Job} (h : s.Inv) : (jobZones s j).Inv :=
  ite_inv h (foldl_inv h fun _ _ h => hubUse_inv h)

theorem startJob_inv {s : State} {cz : Bool} {j : Job} {e : Nat} (h : s.Inv) : (startJob s cz j e).Inv :=
  State.putJob_inv (State.setAccel_inv h)

theorem offerJob_inv {s : State} {r : Request} {cz : Bool} {j : Job} (h : s.Inv) : (offerJob s r cz j).Inv := by
  unfold offerJob
  dsimp only
  split
  · exact answer_inv h
  · split
    · exact complete_inv h
    · exact addJob_inv h

theorem sourceFailed_inv {s : State} {x : Request} (h : s.Inv) : (sourceFailed s x).Inv := by
  unfold sourceFailed
  dsimp only
  split
  · exact endJob_inv h
  · exact endJob_inv h
  · exact complete_inv h

theorem execHostReadFailed_inv {r : HostRead} {s : State} (h : s.Inv) : NextInv (execHostReadFailed r s) := by
  unfold execHostReadFailed
  dsimp only
  split
  · exact h
  · split
    · split
      · exact h
      · split
        · exact stopFetch_inv (readFailed_inv h)
        · split
          · exact readEntry_inv (State.setRing_inv (readFailed_inv h))
          · exact complete_inv (takeEntry_inv (readFailed_inv h))
    · split
      · exact h
      · split
        · exact h
        · split
          · exact State.emit_inv (State.putReq_inv (readFailed_inv h))
          · exact sourceFailed_inv (readFailed_inv h)
    · split
      · exact h
      · split
        next h17 =>
          split
          · exact machineCheck_inv (poisonIn_inv (Ends.ok h17 (translate_inv h) :))
          · split
            · exact State.emit_inv (State.updEng_inv (readFailed_inv (Ends.ok h17 (translate_inv h) :)))
            · exact machineCheck_inv (State.updEng_inv (readFailed_inv (Ends.ok h17 (translate_inv h) :)))
        · exact h

theorem execStagingSpaceFree_inv {fn : Nat} {seq : BitVec 32} {s : State} (h : s.Inv) : NextInv (execStagingSpaceFree fn seq s) := by
  unfold execStagingSpaceFree
  dsimp only
  split
  · exact ite_inv (State.putJob_inv h) h
  · exact ite_inv (State.putJob_inv h) h
  · split
    · split <;> exact h
    · exact h

/-! ## The channel subsystem -/

theorem endWith_inv {after : SubState} {s : State} {i n : Nat} {st : Status} {detail devstat : Nat} (h : s.Inv) :
    (endWith after s i n st detail devstat).Inv :=
  journal_inv h

theorem endSub_inv {s : State} {i n : Nat} {st : Status} {detail devstat : Nat} (h : s.Inv) : (endSub s i n st detail devstat).Inv :=
  endWith_inv h

theorem writeStatus_inv {s : State} {i n : Nat} (h : s.Inv) : (writeStatus s i n).Inv :=
  State.setSub_inv (ite_inv (instWrite_inv h) h)

theorem sendPieces_inv {s : State} {i n : Nat} {c : List Byte} {ps : List Piece} (h : s.Inv) : (sendPieces s i n c ps).Inv :=
  h

theorem endPoisoned_inv {s : State} {i n l : Nat} (h : s.Inv) : (endPoisoned s i n l).Inv :=
  endSub_inv (logPoison_inv h)

theorem endError_inv {s : State} {i n : Nat} {e : Nat × Nat × Nat} (h : s.Inv) : (endError s i n e).Inv :=
  endSub_inv h

theorem losePath_inv {s : State} {i n : Nat} (h : s.Inv) : (losePath s i n).Inv := by
  unfold losePath
  dsimp only
  split
  · exact endError_inv h
  · exact ite_inv h (ite_inv (endSub_inv h) (ite_inv h (journal_inv h)))

theorem finishCce_inv {s : State} {i n : Nat} (h : s.Inv) : (finishCce s i n).Inv :=
  ite_inv (journal_inv h) h

theorem endProgram_inv {s : State} {i n : Nat} (h : s.Inv) : (endProgram s i n).Inv :=
  ite_inv (endSub_inv h) (endSub_inv h)

/-- The states in which a CCE goes on or waits for its once-only entry. -/
def Ready.Inv : Ready → Prop
  | .go s | .hold s => s.Inv

theorem onceIssue_inv {s : State} {i n : Nat} (h : s.Inv) : (onceIssue s i n).Inv := by
  unfold onceIssue
  dsimp only
  split
  · exact h
  · split
    · exact h
    · split <;> exact journal_inv (State.setSub_inv h)

theorem runCces_inv {s : State} {fuel i n : Nat} (h : s.Inv) : (runCces fuel s i n).Inv := by
  induction fuel generalizing s with
  | zero => exact h
  | succ fuel ih =>
    have next {t : State} {c : List Byte} {x : Sub} (ht : t.Inv) :
        (if cceMore c = true then runCces fuel ((finishCce t i n).setSub i n x) i n else endProgram (finishCce t i n) i n).Inv :=
      ite_inv (ih (State.setSub_inv (finishCce_inv ht))) (endProgram_inv (finishCce_inv ht))
    unfold runCces
    dsimp only
    refine ite_inv h (ite_inv (losePath_inv h) (ite_inv (askCommit_inv h) ?_))
    split
    · exact endPoisoned_inv h
    · have ho : (onceIssue s i n).Inv := onceIssue_inv h
      split
      next u e =>
        rw [e] at ho
        exact ho
      next u e =>
        rw [e] at ho
        have hu : u.Inv := ho
        refine ite_inv (next hu) (ite_inv (ite_inv hu (ite_inv (next (State.setSub_inv hu)) (next hu))) (ite_inv ?_ ?_))
        · split
          · exact ite_inv hu (next (frame_inv hu))
          · exact State.setSub_inv hu
        · have hz := ite_inv (c := cmdSends (cceCmd (curCce (s.sub i n))) = true) (hubUse_inv (i := i) (r := cceAddr (curCce (s.sub i n)))
            (n := cceCount (curCce (s.sub i n))) hu) hu
          split
          · exact sendPieces_inv (ite_inv (passUntil_inv hz) hz)
          · exact sendPieces_inv hz

theorem runSub_inv {s : State} {i n : Nat} (h : s.Inv) : (runSub s i n).Inv :=
  runCces_inv h

theorem settleCce_inv {s : State} {i n : Nat} (h : s.Inv) : (settleCce s i n).Inv := by
  unfold settleCce
  dsimp only
  split
  · exact h
  · split
    · exact endError_inv h
    · exact ite_inv h (ite_inv (runSub_inv (State.setSub_inv (finishCce_inv h))) (endProgram_inv (finishCce_inv h)))

theorem validate_inv {s : State} {i n : Nat} (h : s.Inv) : (validate s i n).Inv := by
  unfold validate
  dsimp only
  split
  · exact askCommit_inv h
  · split
    · split
      · exact endSub_inv (logPoison_inv h)
      · exact endSub_inv h
    · exact runSub_inv (State.setSub_inv (hubUse_inv h))

theorem resumeOp_inv {s : State} {i n : Nat} (h : s.Inv) : (resumeOp s i n).Inv :=
  ite_inv (validate_inv h) (ite_inv h (ite_inv (losePath_inv h) (ite_inv (runSub_inv h) (settleCce_inv h))))

theorem resumeOps_inv {s : State} (h : s.Inv) : (resumeOps s).Inv :=
  ite_inv h (foldl_inv h fun _ _ h => resumeOp_inv h)

theorem execCheStartOperation_inv {che i sub : Nat} {s : State} (h : s.Inv) : NextInv (execCheStartOperation che i sub s) := by
  unfold execCheStartOperation
  dsimp only
  split
  · exact h
  · split
    · exact resumeOp_inv h
    · split
      · exact h
      · exact validate_inv (journal_inv h)

theorem loseDevice_inv {s : State} {dev path : Nat} (h : s.Inv) : (loseDevice s dev path).Inv :=
  foldl_inv (logEvent_inv' h) fun _ _ h => ite_inv (losePath_inv h) h

theorem execDeviceCompletion_inv {i sub : Nat} {c : DevCompletion} {s : State} (h : s.Inv) : NextInv (execDeviceCompletion i sub c s) := by
  unfold execDeviceCompletion
  dsimp only
  split
  · exact h
  · split
    · exact h
    · split
      · split
        · split
          · dsimp only
            split
            · exact askCommit_inv h
            · exact settleCce_inv (State.setSub_inv (instWrite_inv h))
          · dsimp only
            split
            · exact askCommit_inv h
            · exact settleCce_inv (State.setSub_inv (instWrite_inv h))
        · exact settleCce_inv h
      · exact loseDevice_inv h
      · split
        · exact loseDevice_inv h
        · split
          · exact endPoisoned_inv h
          · exact h
      · exact settleCce_inv h
      · exact settleCce_inv h
      · exact settleCce_inv h

theorem execCommandTimeout_inv {i sub : Nat} {s : State} (h : s.Inv) : NextInv (execCommandTimeout i sub s) := by
  unfold execCommandTimeout
  dsimp only
  split
  · exact loseDevice_inv (passUntil_inv h)
  · exact h

theorem loseLink_inv {s : State} {path : Nat} (h : s.Inv) : (loseLink s path).Inv :=
  foldl_inv (logEvent_inv' h) fun _ _ h => ite_inv (losePath_inv h) h

theorem execPathLost_inv {path : Nat} {dev : Option Nat} {s : State} (h : s.Inv) : NextInv (execPathLost path dev s) := by
  unfold execPathLost
  dsimp only
  split
  · exact h
  · split
    · exact loseLink_inv h
    · split
      · exact h
      · exact loseDevice_inv h

theorem execPathReissue_inv {i sub path : Nat} {s : State} (h : s.Inv) : NextInv (execPathReissue i sub path s) := by
  unfold execPathReissue
  dsimp only
  split
  · exact h
  · split
    · exact h
    · split
      · split
        · exact endPoisoned_inv (State.setSub_inv (ite_inv (passUntil_inv h) h))
        · exact State.setSub_inv (sendPieces_inv (State.setSub_inv (ite_inv (passUntil_inv h) h)))
      · exact runSub_inv (State.setSub_inv (ite_inv (passUntil_inv h) h))

theorem execPathWaitExpire_inv {i sub : Nat} {s : State} (h : s.Inv) : NextInv (execPathWaitExpire i sub s) := by
  unfold execPathWaitExpire
  dsimp only
  split
  · exact endSub_inv (passUntil_inv h)
  · exact h

theorem execPathReturn_inv {path : Nat} {dev : Option Nat} {identityOk : Bool} {s : State} (h : s.Inv) :
    NextInv (execPathReturn path dev identityOk s) := by
  unfold execPathReturn
  dsimp only
  split
  · split
    · exact h
    · split <;> exact logEvent_inv' h
  · split
    · exact h
    · split <;> exact logEvent_inv' h

theorem execEndEntryCommit_inv {i sub : Nat} {s : State} (h : s.Inv) : NextInv (execEndEntryCommit i sub s) := by
  unfold execEndEntryCommit
  dsimp only
  split
  · exact h
  · split
    · split
      · exact askCommit_inv h
      · exact resumeOps_inv (writeStatus_inv h)
    · split
      · exact askCommit_inv h
      · exact resumeOps_inv (writeStatus_inv h)

theorem endWaitint_inv {s : State} {i n : Nat} (h : s.Inv) : (endWaitint s i n).Inv :=
  settleCce_inv h

theorem execAdapterMsix_inv {dev vec : Nat} {s : State} (h : s.Inv) : NextInv (execAdapterMsix dev vec s) := by
  unfold execAdapterMsix
  dsimp only
  split
  · exact h
  · split
    · exact endWaitint_inv h
    · exact h

theorem execWaitintTimeout_inv {i sub : Nat} {s : State} (h : s.Inv) : NextInv (execWaitintTimeout i sub s) := by
  unfold execWaitintTimeout
  dsimp only
  split
  · exact endSub_inv (passUntil_inv h)
  · exact h

theorem execAdapterDma_inv {dev : Nat} {write : Bool} {addr len : Nat} {data : List Byte} {s : State} (h : s.Inv) :
    NextInv (execAdapterDma dev write addr len data s) := by
  unfold execAdapterDma
  dsimp only
  split
  · exact h
  · split
    · exact h
    · split
      · split
        · exact askCommit_inv h
        · exact State.setSub_inv (instWrite_inv h)
      · split
        · exact askCommit_inv h
        · split
          · split
            · exact endPoisoned_inv h
            · exact State.emit_inv (logPoison_inv h)
          · exact State.emit_inv (hubUse_inv h)

/-! ## The cipher engines -/

theorem cipherRequest_inv {s : State} {n q op : Nat} (h : s.Inv) : NextInv (cipherRequest s n q op) := by
  unfold cipherRequest
  dsimp only
  split
  · exact h
  · split
    · exact answer_inv h
    · exact offerJob_inv h

theorem execGcmEncrypt_inv {fn : Nat} {seq : BitVec 32} {s : State} (h : s.Inv) : NextInv (execGcmEncrypt fn seq s) :=
  cipherRequest_inv h

theorem execGcmDecrypt_inv {fn : Nat} {seq : BitVec 32} {s : State} (h : s.Inv) : NextInv (execGcmDecrypt fn seq s) :=
  cipherRequest_inv h

theorem execGmacGenerate_inv {fn : Nat} {seq : BitVec 32} {s : State} (h : s.Inv) : NextInv (execGmacGenerate fn seq s) :=
  cipherRequest_inv h

theorem execGmacVerify_inv {fn : Nat} {seq : BitVec 32} {s : State} (h : s.Inv) : NextInv (execGmacVerify fn seq s) :=
  cipherRequest_inv h

theorem execXtsEncrypt_inv {fn : Nat} {seq : BitVec 32} {s : State} (h : s.Inv) : NextInv (execXtsEncrypt fn seq s) :=
  cipherRequest_inv h

theorem execXtsDecrypt_inv {fn : Nat} {seq : BitVec 32} {s : State} (h : s.Inv) : NextInv (execXtsDecrypt fn seq s) :=
  cipherRequest_inv h

theorem execCmacGenerate_inv {fn : Nat} {seq : BitVec 32} {s : State} (h : s.Inv) : NextInv (execCmacGenerate fn seq s) :=
  cipherRequest_inv h

theorem execCmacVerify_inv {fn : Nat} {seq : BitVec 32} {s : State} (h : s.Inv) : NextInv (execCmacVerify fn seq s) :=
  cipherRequest_inv h

theorem execHmacGenerate_inv {fn : Nat} {seq : BitVec 32} {s : State} (h : s.Inv) : NextInv (execHmacGenerate fn seq s) :=
  cipherRequest_inv h

theorem execHmacVerify_inv {fn : Nat} {seq : BitVec 32} {s : State} (h : s.Inv) : NextInv (execHmacVerify fn seq s) :=
  cipherRequest_inv h

theorem execHash_inv {fn : Nat} {seq : BitVec 32} {s : State} (h : s.Inv) : NextInv (execHash fn seq s) :=
  cipherRequest_inv h

theorem keyLoad_inv {s : State} {i : Nat} {e data : List Byte} {own : Nat} (h : s.Inv) : (keyLoad s i e data own).s.Inv := by
  unfold keyLoad
  dsimp only
  split
  · exact h
  · split
    · exact h
    · split
      · exact h
      · split
        · exact h
        · split <;> exact h

theorem keyWrapOp_inv {s : State} {i : Nat} {e : List Byte} (h : s.Inv) : (keyWrapOp s i e).s.Inv := by
  unfold keyWrapOp
  dsimp only
  split
  · exact h
  · split
    · exact h
    · split
      · exact h
      · split <;> exact h

theorem keyRetire_inv {s : State} {i : Nat} {e : List Byte} {own : Nat} (h : s.Inv) : (keyRetire s i e own).s.Inv := by
  unfold keyRetire
  dsimp only
  split
  · exact h
  · split <;> exact h

theorem keyLimit_inv {s : State} {i : Nat} {e : List Byte} (h : s.Inv) : (keyLimit s i e).s.Inv := by
  unfold keyLimit
  dsimp only
  split
  · exact h
  · split <;> exact h

theorem keyOp_inv {s : State} {i : Nat} {e data : List Byte} {own : Nat} (h : s.Inv) : (keyOp s i e data own).s.Inv := by
  unfold keyOp
  split
  · exact keyLoad_inv h
  · exact keyWrapOp_inv h
  · exact keyRetire_inv h
  · exact keyLimit_inv h

theorem keyRefused_inv {s : State} {i seq : Nat} {st : Status} (h : s.Inv) : (keyRefused s i seq st).Inv :=
  ite_inv h (logEvent_inv' h)

theorem keyRequest_inv {s : State} {n q op : Nat} {data : List Byte} (h : s.Inv) : NextInv (keyRequest s n q op data) := by
  unfold keyRequest
  dsimp only
  split
  · exact h
  · split
    · exact h
    · split
      · exact State.putReq_inv (keyOp_inv h)
      · split
        · exact complete_inv (ite_inv (noteKey_inv (keyRefused_inv (keyOp_inv h))) (keyRefused_inv (keyOp_inv h)))
        · exact complete_inv (keyRefused_inv (keyOp_inv h))

theorem execKeyLoad_inv {fn : Nat} {seq : BitVec 32} {data : List Byte} {s : State} (h : s.Inv) : NextInv (execKeyLoad fn seq data s) :=
  keyRequest_inv h

theorem execKeyWrap_inv {fn : Nat} {seq : BitVec 32} {s : State} (h : s.Inv) : NextInv (execKeyWrap fn seq s) :=
  keyRequest_inv h

theorem execKeyRetire_inv {fn : Nat} {seq : BitVec 32} {s : State} (h : s.Inv) : NextInv (execKeyRetire fn seq s) :=
  keyRequest_inv h

theorem execKeyLimit_inv {fn : Nat} {seq : BitVec 32} {s : State} (h : s.Inv) : NextInv (execKeyLimit fn seq s) :=
  keyRequest_inv h

theorem execCipherJobStart_inv {e : Nat} {s : State} (h : s.Inv) : NextInv (execCipherJobStart e s) := by
  unfold execCipherJobStart
  dsimp only
  split
  · exact h
  · split
    · exact h
    · split
      · exact startJob_inv h
      · split
        · split
          · exact startJob_inv (State.putJob_inv h)
          · exact h
        · exact h

theorem partialOut_inv {s : State} {j : Job} {x : Slot} {src fixed : List Byte} {good : Nat} (h : s.Inv) :
  (partialOut s j x src fixed good).Inv :=
  ite_inv h (jobWrite_inv (State.fresh_inv h))

theorem execCipherJobDone_inv {e : Nat} {src aad : List Byte} {fault : Option JobFault} {s : State} (h : s.Inv) :
    NextInv (execCipherJobDone e src aad fault s) := by
  unfold execCipherJobDone
  dsimp only
  split
  · exact h
  · split
    · exact h
    · split
      · exact askCommit_inv h
      · split
        · split
          · split
            · exact endJob_inv (partialOut_inv (logPoison_inv (ite_inv (poisonIn_inv (jobZones_inv h)) (jobZones_inv h))))
            · exact endJob_inv (partialOut_inv (ite_inv (poisonIn_inv (jobZones_inv h)) (jobZones_inv h)))
          · split
            · exact endJob_inv (logPoison_inv (ite_inv (poisonIn_inv (jobZones_inv h)) (jobZones_inv h)))
            · exact endJob_inv (ite_inv (poisonIn_inv (jobZones_inv h)) (jobZones_inv h))
        · split
          · exact endJob_inv (jobZones_inv h)
          · split
            · exact endJob_inv (jobZones_inv h)
            · split
              · exact endJob_inv (jobWrite_inv (keyRefused_inv (keyOp_inv (jobZones_inv h))))
              · exact endJob_inv (jobWrite_inv (jobZones_inv h))

/-! ## The compression engines -/

theorem compressRequest_inv {s : State} {n q op : Nat} (h : s.Inv) : NextInv (compressRequest s n q op) := by
  unfold compressRequest
  dsimp only
  split
  · exact h
  · split
    · exact answer_inv h
    · exact offerJob_inv h

theorem execCompress_inv {fn : Nat} {seq : BitVec 32} {s : State} (h : s.Inv) : NextInv (execCompress fn seq s) :=
  compressRequest_inv h

theorem execDecompress_inv {fn : Nat} {seq : BitVec 32} {s : State} (h : s.Inv) : NextInv (execDecompress fn seq s) :=
  compressRequest_inv h

theorem execCompressionJobStart_inv {e : Nat} {s : State} (h : s.Inv) : NextInv (execCompressionJobStart e s) := by
  unfold execCompressionJobStart
  dsimp only
  split
  · exact h
  · split
    · exact h
    · exact startJob_inv h

theorem undefinedDst_inv {s : State} {j : Job} (h : s.Inv) : (undefinedDst s j).Inv :=
  jobWrite_inv (State.fresh_inv (State.fresh_inv h))

theorem compressEnd_inv {s : State} {j : Job} {src : List Byte} (h : s.Inv) : (compressEnd s j src).Inv :=
  ite_inv (endJob_inv (undefinedDst_inv h)) (endJob_inv (jobWrite_inv h))

theorem decompressEnd_inv {s : State} {j : Job} {src : List Byte} (h : s.Inv) : (decompressEnd s j src).Inv := by
  unfold decompressEnd
  dsimp only
  split
  · exact endJob_inv (jobWrite_inv h)
  · exact endJob_inv h
  · exact endJob_inv h
  · exact endJob_inv h

theorem tagFailEnd_inv {s : State} {j : Job} {src : List Byte} {good : Nat} (h : s.Inv) : (tagFailEnd s j src good).Inv := by
  unfold tagFailEnd
  dsimp only
  split
  · exact endJob_inv (ite_inv h (undefinedDst_inv h))
  · split
    · exact endJob_inv h
    · exact endJob_inv h
    · exact endJob_inv h
    · exact decompressEnd_inv h

theorem execCompressionJobDone_inv {e : Nat} {src : List Byte} {fault : Option JobFault} {s : State} (h : s.Inv) :
    NextInv (execCompressionJobDone e src fault s) := by
  unfold execCompressionJobDone
  dsimp only
  split
  · exact h
  · split
    · exact h
    · split
      · exact askCommit_inv h
      · split
        · split
          · split
            · exact tagFailEnd_inv (logPoison_inv (ite_inv (poisonIn_inv (jobZones_inv h)) (jobZones_inv h)))
            · exact tagFailEnd_inv (ite_inv (poisonIn_inv (jobZones_inv h)) (jobZones_inv h))
          · split
            · exact endJob_inv (logPoison_inv (ite_inv (poisonIn_inv (jobZones_inv h)) (jobZones_inv h)))
            · exact endJob_inv (ite_inv (poisonIn_inv (jobZones_inv h)) (jobZones_inv h))
        · split
          · exact endJob_inv (jobZones_inv h)
          · split
            · exact compressEnd_inv (jobZones_inv h)
            · exact decompressEnd_inv (jobZones_inv h)

theorem callPieces_inv {s : State} {p k fuel n : Nat} {acc : Access} {va : Word} (h : s.Inv) :
    Ends (·.2.Inv) (callPieces s p k acc fuel va n) := by
  induction fuel generalizing s va n with
  | zero => exact h
  | succ fuel ih =>
    unfold callPieces
    dsimp only
    split
    · exact h
    · refine Ends.bind (translate_inv h) ?_
      rintro ⟨ph, s1⟩ h1
      dsimp only
      split
      · refine Ends.bind (ih h1) ?_
        rintro ⟨r, s2⟩ h2
        exact h2
      · exact trivial

theorem callOperand_inv {s : State} {p k : Nat} {acc : Access} {va : Word} {n : Nat} (h : s.Inv) : Ends (·.2.Inv) (callOperand s p k acc va n) :=
  callPieces_inv h

theorem callEffects_inv {s : State} {p k : Nat} {f : FA} {cz : Bool} (h : s.Inv) : Ends (·.1.Inv) (callEffects s p k f cz) := by
  unfold callEffects
  dsimp only
  refine Ends.bind (loadOp_inv h) ?_
  rintro ⟨e, s1⟩ h1
  refine Ends.bind (callOperand_inv h1) ?_
  rintro ⟨src, s2⟩ h2
  refine Ends.bind (callOperand_inv h2) ?_
  rintro ⟨aad, s3⟩ h3
  refine Ends.bind (callOperand_inv h3) ?_
  rintro ⟨dst, s4⟩ h4
  refine Ends.bind (callOperand_inv h4) ?_
  rintro ⟨area, s5⟩ h5
  dsimp only
  have now {c : Prop} [Decidable c] {ps : List Nat} {t : State} {l : List Effect} (ht : t.Inv) :
      Ends (fun x : State × List Effect => x.1.Inv) (if c then .error (.wait (askCommit s ps)) else .ok (t, l)) := by
    split
    · exact askCommit_inv h
    · exact ht
  split
  · exact now h5
  · split
    · exact now h5
    · split
      · exact now h5
      · split
        · exact now h5
        · exact h5

theorem callInstr_inv {p : Nat} {f : FA} {cz : Bool} {s : State} (h : s.Inv) : NextInv (callInstr p f cz s) := by
  unfold callInstr
  refine instr_inv h ?_
  intro s1 k h1
  split
  · exact trivial
  · split
    · exact trivial
    · refine withEffects_inv h1 ?_
      intro s2 h2
      exact callEffects_inv h2

theorem execXcall_inv {p : Nat} {f : FA} {s : State} (h : s.Inv) : NextInv (execXcall p f s) :=
  callInstr_inv h

theorem execZcall_inv {p : Nat} {f : FA} {s : State} (h : s.Inv) : NextInv (execZcall p f s) :=
  callInstr_inv h

/-! ## Integer, logical and branch instructions -/

theorem execAdd_inv {p : Nat} {f : FA} {s : State} (h : s.Inv) : NextInv (execAdd p f s) :=
  regInstr_inv h

theorem execAddc_inv {p : Nat} {f : FA} {s : State} (h : s.Inv) : NextInv (execAddc p f s) :=
  regInstr_inv h

theorem execSub_inv {p : Nat} {f : FA} {s : State} (h : s.Inv) : NextInv (execSub p f s) :=
  regInstr_inv h

theorem execSubb_inv {p : Nat} {f : FA} {s : State} (h : s.Inv) : NextInv (execSubb p f s) :=
  regInstr_inv h

theorem execMul_inv {p : Nat} {f : FA} {s : State} (h : s.Inv) : NextInv (execMul p f s) :=
  regInstr_inv h

theorem execMulwu_inv {p : Nat} {f : FA} {s : State} (h : s.Inv) : NextInv (execMulwu p f s) :=
  regInstr_inv h

theorem execMulws_inv {p : Nat} {f : FA} {s : State} (h : s.Inv) : NextInv (execMulws p f s) :=
  regInstr_inv h

theorem execDivu_inv {p : Nat} {f : FA} {s : State} (h : s.Inv) : NextInv (execDivu p f s) :=
  regInstr_inv h

theorem execDivs_inv {p : Nat} {f : FA} {s : State} (h : s.Inv) : NextInv (execDivs p f s) :=
  regInstr_inv h

theorem execRemu_inv {p : Nat} {f : FA} {s : State} (h : s.Inv) : NextInv (execRemu p f s) :=
  regInstr_inv h

theorem execRems_inv {p : Nat} {f : FA} {s : State} (h : s.Inv) : NextInv (execRems p f s) :=
  regInstr_inv h

theorem execCmp_inv {p : Nat} {f : FA} {s : State} (h : s.Inv) : NextInv (execCmp p f s) :=
  regInstr_inv h

theorem execNeg_inv {p : Nat} {f : FA} {s : State} (h : s.Inv) : NextInv (execNeg p f s) :=
  regInstr_inv h

theorem logicRR_inv {p : Nat} {f : FA} {s : State} {op : Word → Word → Word} (h : s.Inv) : NextInv (logicRR p f s op) :=
  regInstr_inv h

theorem execAnd_inv {p : Nat} {f : FA} {s : State} (h : s.Inv) : NextInv (execAnd p f s) :=
  logicRR_inv h

theorem execOr_inv {p : Nat} {f : FA} {s : State} (h : s.Inv) : NextInv (execOr p f s) :=
  logicRR_inv h

theorem execXor_inv {p : Nat} {f : FA} {s : State} (h : s.Inv) : NextInv (execXor p f s) :=
  logicRR_inv h

theorem execAndn_inv {p : Nat} {f : FA} {s : State} (h : s.Inv) : NextInv (execAndn p f s) :=
  logicRR_inv h

theorem execShl_inv {p : Nat} {f : FA} {s : State} (h : s.Inv) : NextInv (execShl p f s) :=
  logicRR_inv h

theorem execShr_inv {p : Nat} {f : FA} {s : State} (h : s.Inv) : NextInv (execShr p f s) :=
  logicRR_inv h

theorem execSar_inv {p : Nat} {f : FA} {s : State} (h : s.Inv) : NextInv (execSar p f s) :=
  logicRR_inv h

theorem execRol_inv {p : Nat} {f : FA} {s : State} (h : s.Inv) : NextInv (execRol p f s) :=
  logicRR_inv h

theorem unaryG_inv {p : Nat} {f : FA} {s : State} {op : Word → Word} (h : s.Inv) : NextInv (unaryG p f s op) :=
  regInstr_inv h

theorem execClz_inv {p : Nat} {f : FA} {s : State} (h : s.Inv) : NextInv (execClz p f s) :=
  unaryG_inv h

theorem execPopc_inv {p : Nat} {f : FA} {s : State} (h : s.Inv) : NextInv (execPopc p f s) :=
  unaryG_inv h

theorem execBswap_inv {p : Nat} {f : FA} {s : State} (h : s.Inv) : NextInv (execBswap p f s) :=
  unaryG_inv h

theorem execSext_inv {p : Nat} {f : FA} {s : State} (h : s.Inv) : NextInv (execSext p f s) :=
  regInstr_inv h

theorem execMov_inv {p : Nat} {f : FA} {s : State} (h : s.Inv) : NextInv (execMov p f s) :=
  regInstr_inv h

theorem execCsel_inv {p : Nat} {f : FA} {s : State} (h : s.Inv) : NextInv (execCsel p f s) :=
  regInstr_inv h

theorem execAddi_inv {p : Nat} {f : FC} {s : State} (h : s.Inv) : NextInv (execAddi p f s) :=
  regInstr_inv h

theorem execCmpi_inv {p : Nat} {f : FC} {s : State} (h : s.Inv) : NextInv (execCmpi p f s) :=
  regInstr_inv h

theorem logicRI_inv {p : Nat} {f : FC} {s : State} {op : Word → Word → Word} (h : s.Inv) : NextInv (logicRI p f s op) :=
  regInstr_inv h

theorem execAndi_inv {p : Nat} {f : FC} {s : State} (h : s.Inv) : NextInv (execAndi p f s) :=
  logicRI_inv h

theorem execOri_inv {p : Nat} {f : FC} {s : State} (h : s.Inv) : NextInv (execOri p f s) :=
  logicRI_inv h

theorem execXori_inv {p : Nat} {f : FC} {s : State} (h : s.Inv) : NextInv (execXori p f s) :=
  logicRI_inv h

theorem shiftRI_inv {p : Nat} {f : FC} {s : State} {op : Word → Nat → Word} (h : s.Inv) : NextInv (shiftRI p f s op) :=
  regInstr_inv h

theorem execShli_inv {p : Nat} {f : FC} {s : State} (h : s.Inv) : NextInv (execShli p f s) :=
  shiftRI_inv h

theorem execShri_inv {p : Nat} {f : FC} {s : State} (h : s.Inv) : NextInv (execShri p f s) :=
  shiftRI_inv h

theorem execSari_inv {p : Nat} {f : FC} {s : State} (h : s.Inv) : NextInv (execSari p f s) :=
  shiftRI_inv h

theorem execRoli_inv {p : Nat} {f : FC} {s : State} (h : s.Inv) : NextInv (execRoli p f s) :=
  shiftRI_inv h

theorem execMuli_inv {p : Nat} {f : FC} {s : State} (h : s.Inv) : NextInv (execMuli p f s) :=
  regInstr_inv h

theorem execNop_inv {p : Nat} {f : FA} {s : State} (h : s.Inv) : NextInv (execNop p f s) :=
  regInstr_inv h

theorem execBc_inv {p : Nat} {f : FJ} {s : State} (h : s.Inv) : NextInv (execBc p f s) :=
  regInstr_inv h

theorem execBal_inv {p : Nat} {f : FJ} {s : State} (h : s.Inv) : NextInv (execBal p f s) :=
  regInstr_inv h

theorem execBr_inv {p : Nat} {f : FA} {s : State} (h : s.Inv) : NextInv (execBr p f s) :=
  regInstr_inv h

theorem execBalr_inv {p : Nat} {f : FA} {s : State} (h : s.Inv) : NextInv (execBalr p f s) :=
  regInstr_inv h

theorem execBct_inv {p : Nat} {f : FC} {s : State} (h : s.Inv) : NextInv (execBct p f s) :=
  regInstr_inv h

theorem execGetf_inv {p : Nat} {f : FA} {s : State} (h : s.Inv) : NextInv (execGetf p f s) :=
  regInstr_inv h

theorem execSetf_inv {p : Nat} {f : FA} {s : State} (h : s.Inv) : NextInv (execSetf p f s) :=
  regInstr_inv h

theorem execFeat_inv {p : Nat} {f : FA} {s : State} (h : s.Inv) : NextInv (execFeat p f s) :=
  regInstr_inv h

theorem execTbr_inv {p : Nat} {f : FA} {s : State} (h : s.Inv) : NextInv (execTbr p f s) :=
  regInstr_inv h

/-! ## Binary floating point -/

theorem fpInstr_inv {p : Nat} {f : FA} {s : State} {ok : Bool} {op : Fmt → Nat → Bool → FVal → FVal → FVal → Nat × Nat} {micro : Option Byte}
    (h : s.Inv) : NextInv (fpInstr p f s ok op micro) :=
  regInstr_inv h

theorem execFadd_inv {p : Nat} {f : FA} {s : State} (h : s.Inv) : NextInv (execFadd p f s) :=
  fpInstr_inv h

theorem execFsub_inv {p : Nat} {f : FA} {s : State} (h : s.Inv) : NextInv (execFsub p f s) :=
  fpInstr_inv h

theorem execFmul_inv {p : Nat} {f : FA} {s : State} (h : s.Inv) : NextInv (execFmul p f s) :=
  fpInstr_inv h

theorem execFdiv_inv {p : Nat} {f : FA} {s : State} (h : s.Inv) : NextInv (execFdiv p f s) :=
  fpInstr_inv h

theorem execFsqrt_inv {p : Nat} {f : FA} {s : State} (h : s.Inv) : NextInv (execFsqrt p f s) :=
  fpInstr_inv h

theorem execFma_inv {p : Nat} {f : FA} {s : State} (h : s.Inv) : NextInv (execFma p f s) :=
  fpInstr_inv h

theorem execFms_inv {p : Nat} {f : FA} {s : State} (h : s.Inv) : NextInv (execFms p f s) :=
  fpInstr_inv h

theorem execFnma_inv {p : Nat} {f : FA} {s : State} (h : s.Inv) : NextInv (execFnma p f s) :=
  fpInstr_inv h

theorem execFmin_inv {p : Nat} {f : FA} {s : State} (h : s.Inv) : NextInv (execFmin p f s) :=
  fpInstr_inv h

theorem execFmax_inv {p : Nat} {f : FA} {s : State} (h : s.Inv) : NextInv (execFmax p f s) :=
  fpInstr_inv h

theorem execFcmp_inv {p : Nat} {f : FA} {s : State} (h : s.Inv) : NextInv (execFcmp p f s) :=
  regInstr_inv h

theorem signInstr_inv {p : Nat} {f : FA} {s : State} {op : Nat → Nat → Nat} (h : s.Inv) : NextInv (signInstr p f s op) :=
  regInstr_inv h

theorem execFneg_inv {p : Nat} {f : FA} {s : State} (h : s.Inv) : NextInv (execFneg p f s) :=
  signInstr_inv h

theorem execFabs_inv {p : Nat} {f : FA} {s : State} (h : s.Inv) : NextInv (execFabs p f s) :=
  signInstr_inv h

theorem execFcvt_inv {p : Nat} {f : FA} {s : State} (h : s.Inv) : NextInv (execFcvt p f s) :=
  regInstr_inv h

theorem execFmovg_inv {p : Nat} {f : FA} {s : State} (h : s.Inv) : NextInv (execFmovg p f s) :=
  regInstr_inv h

theorem execGmovf_inv {p : Nat} {f : FA} {s : State} (h : s.Inv) : NextInv (execGmovf p f s) :=
  regInstr_inv h

theorem execLfpc_inv {p : Nat} {f : FA} {s : State} (h : s.Inv) : NextInv (execLfpc p f s) :=
  regInstr_inv h

theorem execSfpc_inv {p : Nat} {f : FA} {s : State} (h : s.Inv) : NextInv (execSfpc p f s) :=
  regInstr_inv h

/-! ## Packed decimal -/

theorem decInstr_inv {p : Nat} {f : FA} {s : State} {mask : BitVec 9} {micro : Option Byte} {ok : Bool}
    {op : Ctx → Nat × Bool → Nat × Bool → RegRes} (h : s.Inv) : NextInv (decInstr p f s mask micro ok op) :=
  regInstr_inv h

theorem addSubP_inv {inv : Bool} {p : Nat} {f : FA} {s : State} (h : s.Inv) : NextInv (addSubP inv p f s) := by
  unfold addSubP
  refine instr_inv h ?_
  intro s1 k h1
  dsimp only
  split
  · exact trivial
  · split
    · split
      · exact h1
      · exact h1
      · exact trivial
    · exact trivial

theorem execAddp_inv {p : Nat} {f : FA} {s : State} (h : s.Inv) : NextInv (execAddp p f s) :=
  addSubP_inv h

theorem execSubp_inv {p : Nat} {f : FA} {s : State} (h : s.Inv) : NextInv (execSubp p f s) :=
  addSubP_inv h

theorem execMulp_inv {p : Nat} {f : FA} {s : State} (h : s.Inv) : NextInv (execMulp p f s) :=
  decInstr_inv h

theorem execDivp_inv {p : Nat} {f : FA} {s : State} (h : s.Inv) : NextInv (execDivp p f s) :=
  decInstr_inv h

theorem execCmpp_inv {p : Nat} {f : FA} {s : State} (h : s.Inv) : NextInv (execCmpp p f s) :=
  decInstr_inv h

theorem execMovp_inv {p : Nat} {f : FA} {s : State} (h : s.Inv) : NextInv (execMovp p f s) :=
  regInstr_inv h

theorem execShrp_inv {p : Nat} {f : FC} {s : State} (h : s.Inv) : NextInv (execShrp p f s) :=
  regInstr_inv h

theorem execCvbp_inv {p : Nat} {f : FA} {s : State} (h : s.Inv) : NextInv (execCvbp p f s) :=
  regInstr_inv h

theorem execCvpb_inv {p : Nat} {f : FA} {s : State} (h : s.Inv) : NextInv (execCvpb p f s) :=
  regInstr_inv h

theorem execLdp_inv {p : Nat} {f : FD} {s : State} (h : s.Inv) : NextInv (execLdp p f s) :=
  loadInstr_inv h

theorem execStp_inv {p : Nat} {f : FD} {s : State} (h : s.Inv) : NextInv (execStp p f s) :=
  storeInstr_inv h

theorem mapError_inv {c : Prop} [Decidable c] {x : Except Stop Done} (h : Ends (·.s.Inv) x) :
    Ends (fun d : Done => d.s.Inv) (if c then x.mapError Stop.keepRp else x) := by
  split
  · cases x with
    | ok d => exact h
    | error st => exact keepRp_inv h
  · exact h

theorem execEditp_inv {p : Nat} {f : FE} {s : State} (h : s.Inv) : NextInv (execEditp p f s) := by
  unfold execEditp
  refine instr_inv h fun s k h => ?_
  dsimp only
  split
  · exact trivial
  · refine Ends.ite_bind (P := fun x : List Byte × State => x.2.Inv) h (loadOp_inv h) ?_
    rintro ⟨pat, s1⟩ h1
    refine Ends.bind (translateOp_inv h1) ?_
    rintro ⟨_, s2⟩ h2
    dsimp only
    split
    · have run {t : State} {a : Word} {out : List Byte} {c : State × List Effect → Ctx} (ht : t.Inv) : Ends
        (fun x : State × List Effect => x.1.Inv)
          (storeOp t p k a out >>= fun x : State × List Effect => .ok (x.1.setCtx k (c x), x.2)) := by
        refine Ends.bind (storeOp_inv ht) ?_
        rintro ⟨s3, es⟩ h3
        exact h3
      refine mapError_inv (Ends.bind (run (t := s2) h2) ?_)
      rintro ⟨s3, es⟩ h3
      dsimp only
      split
      · exact h3
      · exact withEffects_inv h2 fun t ht => run ht
    · exact trivial

/-! ## Loads and stores -/

theorem loadG_inv {p : Nat} {f : FB} {s : State} {n : Nat} {signed : Bool} (h : s.Inv) : NextInv (loadG p f s n signed) :=
  loadInstr_inv h

theorem execLdb_inv {p : Nat} {f : FB} {s : State} (h : s.Inv) : NextInv (execLdb p f s) :=
  loadG_inv h

theorem execLdbs_inv {p : Nat} {f : FB} {s : State} (h : s.Inv) : NextInv (execLdbs p f s) :=
  loadG_inv h

theorem execLdh_inv {p : Nat} {f : FB} {s : State} (h : s.Inv) : NextInv (execLdh p f s) :=
  loadG_inv h

theorem execLdhs_inv {p : Nat} {f : FB} {s : State} (h : s.Inv) : NextInv (execLdhs p f s) :=
  loadG_inv h

theorem execLdw_inv {p : Nat} {f : FB} {s : State} (h : s.Inv) : NextInv (execLdw p f s) :=
  loadG_inv h

theorem execLdws_inv {p : Nat} {f : FB} {s : State} (h : s.Inv) : NextInv (execLdws p f s) :=
  loadG_inv h

theorem execLdd_inv {p : Nat} {f : FB} {s : State} (h : s.Inv) : NextInv (execLdd p f s) :=
  loadG_inv h

theorem storeG_inv {p : Nat} {f : FB} {s : State} {n : Nat} (h : s.Inv) : NextInv (storeG p f s n) :=
  storeInstr_inv h

theorem execStb_inv {p : Nat} {f : FB} {s : State} (h : s.Inv) : NextInv (execStb p f s) :=
  storeG_inv h

theorem execSth_inv {p : Nat} {f : FB} {s : State} (h : s.Inv) : NextInv (execSth p f s) :=
  storeG_inv h

theorem execStw_inv {p : Nat} {f : FB} {s : State} (h : s.Inv) : NextInv (execStw p f s) :=
  storeG_inv h

theorem execStd_inv {p : Nat} {f : FB} {s : State} (h : s.Inv) : NextInv (execStd p f s) :=
  storeG_inv h

theorem execLdq_inv {p : Nat} {f : FB} {s : State} (h : s.Inv) : NextInv (execLdq p f s) :=
  loadInstr_inv h

theorem execStq_inv {p : Nat} {f : FB} {s : State} (h : s.Inv) : NextInv (execStq p f s) :=
  storeInstr_inv h

theorem execLa_inv {p : Nat} {f : FB} {s : State} (h : s.Inv) : NextInv (execLa p f s) :=
  regInstr_inv h

theorem execLax_inv {p : Nat} {f : FD} {s : State} (h : s.Inv) : NextInv (execLax p f s) :=
  regInstr_inv h

theorem casInstr_inv {s : State} {p n : Nat} {ea : Ctx → Option (Word × Option Word)} {r1 b : BitVec 5} (h : s.Inv) :
    NextInv (casInstr s p n ea r1 b) := by
  unfold casInstr
  refine instr_inv h ?_
  intro s1 k h1
  dsimp only
  split
  · exact trivial
  · split
    · exact trivial
    · refine Ends.bind (P := (fun x : State × _ => x.1.Inv)) ?_ ?_
      · refine Ends.bind (translateOp_inv h1) ?_
        rintro ⟨x, y⟩ h2
        refine Ends.bind (loadPieces_inv h2) ?_
        rintro ⟨x1, y1⟩ h3
        split
        · refine Ends.bind (P := (fun x : State × _ => x.1.Inv)) ?_ ?_
          · refine wholeStore_inv h3 ?_
            exact storePieces_inv h3
          · rintro ⟨x2, y2⟩ h4
            exact h4
        · exact h3
      · rintro ⟨x, y⟩ h2
        split
        · exact h2
        · refine withEffects_inv h1 ?_
          intro s2 h3
          refine Ends.bind (translateOp_inv h3) ?_
          rintro ⟨x1, y1⟩ h4
          refine Ends.bind (loadPieces_inv h4) ?_
          rintro ⟨x2, y2⟩ h5
          split
          · refine Ends.bind (P := (fun x : State × _ => x.1.Inv)) ?_ ?_
            · refine wholeStore_inv h5 ?_
              exact storePieces_inv h5
            · rintro ⟨x3, y3⟩ h6
              exact h6
          · exact h5

theorem execCas_inv {p : Nat} {f : FB} {s : State} (h : s.Inv) : NextInv (execCas p f s) :=
  casInstr_inv h

theorem execCasx_inv {p : Nat} {f : FD} {s : State} (h : s.Inv) : NextInv (execCasx p f s) :=
  casInstr_inv h

theorem execLdx_inv {p : Nat} {f : FD} {s : State} (h : s.Inv) : NextInv (execLdx p f s) := by
  unfold execLdx
  split <;> exact loadInstr_inv h

theorem execStx_inv {p : Nat} {f : FD} {s : State} (h : s.Inv) : NextInv (execStx p f s) := by
  unfold execStx
  split <;> exact storeInstr_inv h

theorem loadF_inv {p : Nat} {f : FB} {s : State} {n : Nat} (h : s.Inv) : NextInv (loadF p f s n) :=
  loadInstr_inv h

theorem storeF_inv {p : Nat} {f : FB} {s : State} {n : Nat} (h : s.Inv) : NextInv (storeF p f s n) :=
  storeInstr_inv h

theorem execFldd_inv {p : Nat} {f : FB} {s : State} (h : s.Inv) : NextInv (execFldd p f s) :=
  loadF_inv h

theorem execFlds_inv {p : Nat} {f : FB} {s : State} (h : s.Inv) : NextInv (execFlds p f s) :=
  loadF_inv h

theorem execFstd_inv {p : Nat} {f : FB} {s : State} (h : s.Inv) : NextInv (execFstd p f s) :=
  storeF_inv h

theorem execFsts_inv {p : Nat} {f : FB} {s : State} (h : s.Inv) : NextInv (execFsts p f s) :=
  storeF_inv h

theorem execFldx_inv {p : Nat} {f : FD} {s : State} (h : s.Inv) : NextInv (execFldx p f s) := by
  unfold execFldx
  split <;> exact loadInstr_inv h

theorem execFstx_inv {p : Nat} {f : FD} {s : State} (h : s.Inv) : NextInv (execFstx p f s) := by
  unfold execFstx
  split <;> exact storeInstr_inv h

/-! ## Block-repeat instructions -/

theorem elemRun_inv {e : Elem} {s : State} {p k : Nat} (h : s.Inv) (he : ∀ s b, s.Inv → Ends (·.1.Inv) (e s b)) :
    Ends (·.1.Inv) (elemRun e s p k) := by
  unfold elemRun
  dsimp only
  refine Ends.bind (he s _ h) ?_
  rintro ⟨s1, es, fin⟩ h1
  dsimp only
  split
  · exact h1
  · split
    · exact h
    · split
      · exact parkBme_inv h
      · split
        · split
          · exact takeCommit_inv (State.updVe_inv h1)
          · exact takeCommit_inv h
        · have hc : (commitNow s p k [] false).Inv := commitNow_inv h
          split
          next hx => exact ⟨hc, Ends.error hx (he _ _ hc)⟩
          next hx => exact commitNow_inv (State.updVe_inv (Ends.ok hx (he _ _ hc) :))

/-- The states in which a run of elements ends. -/
def BlkEnd.Inv : BlkEnd → Prop
  | .done s | .more s => s.Inv
  | .stop s e => s.Inv ∧ e.Inv

theorem elems_inv {e : Elem} {s : State} {p k n : Nat} (h : s.Inv) (he : ∀ s b, s.Inv → Ends (·.1.Inv) (e s b)) :
    (elems e p k n s).Inv := by
  induction n generalizing s with
  | zero => exact h
  | succ n ih =>
    unfold elems
    split
    next hx => exact ⟨h, Ends.error hx (elemRun_inv h he)⟩
    next s1 fin waits hx =>
      have h1 : s1.Inv := (Ends.ok hx (elemRun_inv h he) :)
      split
      · exact h1
      · split
        · exact h1
        · exact ih (State.updVe_inv h1)

theorem blockInstr_inv {p : Nat} {s : State} {n : Nat} {ok : Bool} {rc : BitVec 5} {zero : Ctx → Bool → Ctx} {e : Nat → Elem} (h : s.Inv)
    (he : ∀ k s b, s.Inv → Ends (·.1.Inv) (e k s b)) : NextInv (blockInstr p s n ok rc zero e) := by
  unfold blockInstr
  refine instr_inv h fun s k h => ?_
  dsimp only
  split
  · exact trivial
  · split
    · exact h
    · have hr : (elems (e k) p k n s).Inv := elems_inv h (he k)
      split
      next hx =>
        rw [hx] at hr
        exact hr
      next hx =>
        rw [hx] at hr
        exact hr
      next hx =>
        rw [hx] at hr
        exact ⟨hr.1, keepRp_inv hr.2⟩

theorem loadByte_inv {s : State} {p k : Nat} {a : Word} (h : s.Inv) : Ends (·.2.Inv) (loadByte s p k a) :=
  Ends.bind (loadOp_inv h) fun _ h1 => h1

theorem movbElem_inv {p : Nat} {f : FE} {k : Nat} {s : State} {x4 : Bool} (h : s.Inv) : Ends (·.1.Inv) (movbElem p f k s x4) :=
  Ends.bind (loadByte_inv h) fun _ h1 => Ends.bind (storeOp_inv h1) fun _ h2 => h2

theorem execMovb_inv {p : Nat} {f : FE} {n : Nat} {s : State} (h : s.Inv) : NextInv (execMovb p f n s) :=
  blockInstr_inv h fun _ _ _ h1 => movbElem_inv h1

theorem fillbElem_inv {p : Nat} {f : FE} {k : Nat} {s : State} {x4 : Bool} (h : s.Inv) : Ends (·.1.Inv) (fillbElem p f k s x4) :=
  Ends.bind (storeOp_inv h) fun _ h1 => h1

theorem execFillb_inv {p : Nat} {f : FE} {n : Nat} {s : State} (h : s.Inv) : NextInv (execFillb p f n s) :=
  blockInstr_inv h fun _ _ _ h1 => fillbElem_inv h1

theorem cmpbElem_inv {p : Nat} {f : FE} {k : Nat} {s : State} {x4 : Bool} (h : s.Inv) : Ends (·.1.Inv) (cmpbElem p f k s x4) := by
  unfold cmpbElem
  dsimp only
  refine Ends.bind (loadByte_inv h) ?_
  rintro ⟨x, y⟩ h1
  refine Ends.bind (loadByte_inv h1) ?_
  rintro ⟨x1, y1⟩ h2
  split <;> exact h2

theorem execCmpb_inv {p : Nat} {f : FE} {n : Nat} {s : State} (h : s.Inv) : NextInv (execCmpb p f n s) :=
  blockInstr_inv h fun _ _ _ h1 => cmpbElem_inv h1

theorem scanbElem_inv {p : Nat} {f : FE} {k : Nat} {s : State} {x4 : Bool} (h : s.Inv) : Ends (·.1.Inv) (scanbElem p f k s x4) := by
  unfold scanbElem
  dsimp only
  refine Ends.bind (loadByte_inv h) ?_
  rintro ⟨x, y⟩ h1
  split <;> exact h1

theorem execScanb_inv {p : Nat} {f : FE} {n : Nat} {s : State} (h : s.Inv) : NextInv (execScanb p f n s) :=
  blockInstr_inv h fun _ _ _ h1 => scanbElem_inv h1

theorem translateElem_inv {p : Nat} {f : FE} {k : Nat} {s : State} {x4 : Bool} (h : s.Inv) : Ends (·.1.Inv) (translateElem p f k s x4) :=
  Ends.bind (loadByte_inv h) fun _ h1 => Ends.bind (loadByte_inv h1) fun _ h2 => Ends.bind (storeOp_inv h2) fun _ h3 => h3

theorem execTranslate_inv {p : Nat} {f : FE} {n : Nat} {s : State} (h : s.Inv) : NextInv (execTranslate p f n s) :=
  blockInstr_inv h fun _ _ _ h1 => translateElem_inv h1

theorem trtbElem_inv {p : Nat} {f : FE} {k : Nat} {s : State} {x4 : Bool} (h : s.Inv) : Ends (·.1.Inv) (trtbElem p f k s x4) := by
  unfold trtbElem
  dsimp only
  refine Ends.bind (loadByte_inv h) ?_
  rintro ⟨x, y⟩ h1
  refine Ends.bind (loadByte_inv h1) ?_
  rintro ⟨x1, y1⟩ h2
  split <;> exact h2

theorem execTrtb_inv {p : Nat} {f : FE} {n : Nat} {s : State} (h : s.Inv) : NextInv (execTrtb p f n s) :=
  blockInstr_inv h fun _ _ _ h1 => trtbElem_inv h1

theorem crcbElem_inv {p : Nat} {f : FE} {k : Nat} {s : State} {x4 : Bool} (h : s.Inv) : Ends (·.1.Inv) (crcbElem p f k s x4) :=
  Ends.bind (loadByte_inv h) fun _ h1 => h1

theorem execCrcb_inv {p : Nat} {f : FE} {n : Nat} {s : State} (h : s.Inv) : NextInv (execCrcb p f n s) :=
  blockInstr_inv h fun _ _ _ h1 => crcbElem_inv h1

theorem mulmbElem_inv {p : Nat} {f : FE} {k : Nat} {s : State} {x4 : Bool} (h : s.Inv) : Ends (·.1.Inv) (mulmbElem p f k s x4) := by
  unfold mulmbElem
  dsimp only
  refine Ends.bind (loadOp_inv h) ?_
  rintro ⟨x, y⟩ h1
  split
  · split
    · refine Ends.bind (translateOp_inv h1) ?_
      rintro ⟨x1, y1⟩ h2
      exact h2
    · refine Ends.bind (loadOp_inv h1) ?_
      rintro ⟨x1, y1⟩ h2
      refine Ends.bind (storeOp_inv h2) ?_
      rintro ⟨x2, y2⟩ h3
      exact h3
  · split
    · refine Ends.bind (translateOp_inv h1) ?_
      rintro ⟨x1, y1⟩ h2
      exact h2
    · refine Ends.bind (loadOp_inv h1) ?_
      rintro ⟨x1, y1⟩ h2
      exact Ends.bind (storeOp_inv h2) fun _ h3 => h3

theorem execMulmb_inv {p : Nat} {f : FE} {n : Nat} {s : State} (h : s.Inv) : NextInv (execMulmb p f n s) :=
  blockInstr_inv h fun _ _ _ h1 => mulmbElem_inv h1

/-! ## Control and cache instructions -/

theorem execCommit_inv {p : Nat} {f : FA} {s : State} (h : s.Inv) : NextInv (execCommit p f s) := by
  unfold execCommit
  refine instr_inv h ?_
  intro s1 k h1
  split
  · exact trivial
  · split
    · exact h1
    · exact takeCommit_inv (advance_inv h1)

theorem logRefusedAnswer_inv {s : State} {p k seq : Nat} (h : s.Inv) : (logRefusedAnswer s p k seq).Inv :=
  logEvent_inv' h

theorem signalInstr_inv {p : Nat} {f : FA} {s : State} (h : s.Inv) : NextInv (signalInstr p f s) := by
  unfold signalInstr
  refine instr_inv h ?_
  intro s1 k h1
  dsimp only
  split
  · exact trivial
  · refine withEffects_inv h1 ?_
    intro s2 h2
    split
    · refine Ends.bind (loadOp_inv h2) ?_
      rintro ⟨x, y⟩ h3
      split
      · split
        · exact h3
        · exact State.setCtx_inv (logRefusedAnswer_inv h3)
      · exact State.setCtx_inv (logRefusedAnswer_inv h3)
    · split
      · exact h2
      · split <;> exact h2
    · split <;> exact h2

theorem execSignalComplete_inv {p : Nat} {f : FA} {s : State} (h : s.Inv) : NextInv (execSignalComplete p f s) :=
  signalInstr_inv h

theorem execSignalVe_inv {p : Nat} {f : FA} {s : State} (h : s.Inv) : NextInv (execSignalVe p f s) :=
  signalInstr_inv h

theorem execRestartVe_inv {p : Nat} {f : FA} {s : State} (h : s.Inv) : NextInv (execRestartVe p f s) :=
  signalInstr_inv h

theorem execSstart_inv {p : Nat} {f : FA} {s : State} (h : s.Inv) : NextInv (execSstart p f s) := by
  unfold execSstart
  refine instr_inv h ?_
  intro s1 k h1
  dsimp only
  split
  · exact trivial
  · refine withEffects_inv h1 ?_
    intro s2 h2
    exact Ends.bind (loadOp_inv h2) fun _ h3 => h3

theorem releaseBarrier_inv {s : State} {i : Nat} {m : Word} (h : s.Inv) : (releaseBarrier s i m).Inv :=
  foldl_inv h fun _ _ h => ite_inv (branch_inv State.updVe_inv id (State.updVe_inv (advance_inv h))) h

theorem completeBarrier_inv {s : State} {i : Nat} {m : Word} {tw : Bool} (h : s.Inv) : (completeBarrier s i m tw).Inv :=
  ite_inv h (ite_inv (closeGroup_inv h) (releaseBarrier_inv h))

theorem execBarrier_inv {p : Nat} {f : FA} {s : State} (h : s.Inv) : NextInv (execBarrier p f s) := by
  unfold execBarrier
  refine instr_inv h ?_
  intro s1 k h1
  dsimp only
  split
  · exact trivial
  · split
    · exact h1
    · split
      · exact trivial
      · exact completeBarrier_inv (State.updVe_inv (clearRp_inv h1))

theorem maintLine_inv {s : State} {p k : Nat} {acc : Access} {a : Word} (h : s.Inv) : Ends (·.2.Inv) (maintLine s p k acc a) := by
  unfold maintLine
  refine Ends.bind (translate_inv h) ?_
  rintro ⟨ph, s1⟩ h1
  cases ph <;> exact h1

theorem maintInstr_inv {p : Nat} {f : FB} {s : State} {priv : Bool} {body : State → Nat → Word → Except Stop State} (h : s.Inv)
    (hb : ∀ s k a, s.Inv → Ends State.Inv (body s k a)) : NextInv (maintInstr p f s priv body) := by
  unfold maintInstr
  refine instr_inv h fun s k h => ?_
  split
  · exact trivial
  · split
    · exact trivial
    · exact Ends.bind (hb s k _ h) fun s1 h1 => h1

theorem ownCommit_inv {s : State} {p k : Nat} (h : s.Inv) : Ends State.Inv (ownCommit s p k) := by
  unfold ownCommit
  split
  · exact h
  · split
    · exact takeCommit_inv h
    · exact commitNow_inv h

theorem settle_inv {s : State} {p k : Nat} {ls : List Nat} (h : s.Inv) : Ends State.Inv (settle s p k ls) := by
  unfold settle
  dsimp only
  split
  · exact askCommit_inv h
  · split
    · exact ownCommit_inv h
    · exact h

theorem execPfetch_inv {p : Nat} {f : FB} {s : State} (h : s.Inv) : NextInv (execPfetch p f s) := by
  unfold execPfetch
  refine maintInstr_inv h ?_
  intro s1 k a h1
  split
  next h12 =>
    split
    · exact (Ends.ok h12 (maintLine_inv h1) :)
    · exact addFill_inv (Ends.ok h12 (maintLine_inv h1) :)
  next h11 =>
    exact (Ends.ok h11 (maintLine_inv h1) :)
  · exact h1

theorem execClnl_inv {p : Nat} {f : FB} {s : State} (h : s.Inv) : NextInv (execClnl p f s) := by
  unfold execClnl
  refine maintInstr_inv h ?_
  intro s1 k a h1
  refine Ends.bind (maintLine_inv h1) ?_
  rintro ⟨x, y⟩ h2
  dsimp only
  split
  · exact h2
  · refine Ends.bind (settle_inv h2) ?_
    intro s2 h3
    exact writeBack_inv h3

theorem execFlsl_inv {p : Nat} {f : FB} {s : State} (h : s.Inv) : NextInv (execFlsl p f s) := by
  unfold execFlsl
  refine maintInstr_inv h ?_
  intro s1 k a h1
  refine Ends.bind (maintLine_inv h1) ?_
  rintro ⟨x, y⟩ h2
  dsimp only
  split
  · exact h2
  · refine Ends.bind (settle_inv h2) ?_
    intro s2 h3
    exact dropDomes_inv (writeBack_inv h3)

theorem execIinvl_inv {p : Nat} {f : FB} {s : State} (h : s.Inv) : NextInv (execIinvl p f s) := by
  unfold execIinvl
  refine maintInstr_inv h ?_
  intro s1 k a h1
  refine Ends.bind (maintLine_inv h1) ?_
  rintro ⟨x, y⟩ h2
  dsimp only
  split <;> exact h2

theorem execInvl_inv {p : Nat} {f : FB} {s : State} (h : s.Inv) : NextInv (execInvl p f s) := by
  unfold execInvl
  refine maintInstr_inv h ?_
  intro s1 k a h1
  refine Ends.bind (translate_inv h1) ?_
  rintro ⟨x, y⟩ h2
  dsimp only
  split
  · refine Ends.bind (maintLine_inv h1) ?_
    rintro ⟨x, y1⟩ h3
    dsimp only
    split
    · exact h3
    · split
      · exact askCommit_inv h3
      · split
        · exact State.updVe_inv (dropDomes_inv h3)
        · refine Ends.bind (ownCommit_inv h3) ?_
          intro s2 h4
          exact dropDomes_inv h4
  · exact trivial

theorem execInvr_inv {p : Nat} {f : FA} {s : State} (h : s.Inv) : NextInv (execInvr p f s) := by
  unfold execInvr
  refine instr_inv h ?_
  intro s1 k h1
  dsimp only
  split
  · exact trivial
  · split
    · exact trivial
    · refine Ends.bind (settle_inv h1) ?_
      intro s2 h2
      exact foldl_inv h2 fun s x h => dropDomes_inv (writeBack_inv h)

theorem markLocked_inv {s : State} {t w l : Nat} (h : s.Inv) : (markLocked s t w l).Inv :=
  h

theorem placeLine.enter_inv {p w l : Nat} {s : State} {t : Nat} (h : s.Inv) : Ends (·.2.Inv) (placeLine.enter p w l s t) := by
  unfold placeLine.enter
  dsimp only
  split
  · exact markLocked_inv h
  · split
    · exact askCommit_inv h
    · exact markLocked_inv (State.updDome_inv (ite_inv (frame_inv (writeBack_inv h)) (writeBack_inv h)))

theorem placeLine_inv {s : State} {p t w l : Nat} (h : s.Inv) : Ends (·.2.Inv) (placeLine s p t w l) := by
  unfold placeLine
  dsimp only
  split
  · split
    · exact markLocked_inv h
    · split
      · exact h
      · split
        · exact askCommit_inv h
        · exact placeLine.enter_inv (State.updDome_inv (dropL1_inv (writeBack_inv h)))
  · exact placeLine.enter_inv h

theorem placeLines_inv {s : State} {p t w : Nat} {l : List Nat} (h : s.Inv) : Ends (·.2.Inv) (placeLines s p t w l) := by
  induction l generalizing s with
  | nil => exact h
  | cons x l ih =>
    exact Ends.bind (placeLine_inv h) fun _ h1 => Ends.bind (ih h1) fun _ h2 => h2

theorem execLockw_inv {p : Nat} {f : FA} {s : State} (h : s.Inv) : NextInv (execLockw p f s) := by
  unfold execLockw
  refine instr_inv h ?_
  intro s1 k h1
  dsimp only
  split
  · exact trivial
  · split
    · exact trivial
    · split
      · split
        · exact trivial
        · exact h1
      · split
        · exact trivial
        · refine Ends.bind (translate_inv h1) ?_
          rintro ⟨x, y⟩ h2
          split
          · refine Ends.bind (placeLines_inv (ite_inv h2 h2)) ?_
            rintro ⟨x, y1⟩ h3
            exact h3
          · exact trivial

theorem execUnlkw_inv {p : Nat} {f : FA} {s : State} (h : s.Inv) : NextInv (execUnlkw p f s) := by
  unfold execUnlkw
  refine instr_inv h ?_
  intro s1 k h1
  dsimp only
  split
  · exact trivial
  · split
    · exact trivial
    · exact h1

/-! ## Privileged instructions -/

theorem execMfk_inv {p : Nat} {f : FA} {s : State} (h : s.Inv) : NextInv (execMfk p f s) := by
  unfold execMfk
  refine instr_inv h ?_
  intro s1 k h1
  split
  · exact trivial
  · exact h1

theorem execMtk_inv {p : Nat} {f : FA} {s : State} (h : s.Inv) : NextInv (execMtk p f s) := by
  unfold execMtk
  refine instr_inv h ?_
  intro s1 k h1
  split
  · exact trivial
  · exact h1

theorem execWait_inv {p : Nat} {f : FA} {s : State} (h : s.Inv) : NextInv (execWait p f s) := by
  unfold execWait
  refine instr_inv h ?_
  intro s1 k h1
  split
  · exact trivial
  · exact h1

theorem execRfi_inv {p : Nat} {f : FA} {s : State} (h : s.Inv) : NextInv (execRfi p f s) := by
  unfold execRfi
  refine instr_inv h ?_
  intro s1 k h1
  dsimp only
  split
  · exact trivial
  · split
    · exact trivial
    · refine Ends.bind (loadLine_inv h1) ?_
      rintro ⟨x, y⟩ h2
      split
      · exact trivial
      · exact h2

theorem lraReal_inv {s : State} {p k : Nat} {va : Word} (h : s.Inv) : Ends (·.2.Inv) (lraReal s p k va) := by
  unfold lraReal
  dsimp only
  split
  · split
    · exact h
    · split
      next h11 =>
        exact (Ends.ok h11 (xlatVa_inv h) :)
      · exact h
      next h11 =>
        exact Ends.error h11 (xlatVa_inv h)
  · split <;> exact h

theorem execLra_inv {p : Nat} {f : FB} {s : State} (h : s.Inv) : NextInv (execLra p f s) := by
  unfold execLra
  refine instr_inv h ?_
  intro s1 k h1
  dsimp only
  split
  · exact trivial
  · refine Ends.bind (lraReal_inv h1) ?_
    rintro ⟨x, y⟩ h2
    exact h2

theorem dropTlb_inv {s : State} {q : TlbEntry → Bool} (h : s.Inv) : (dropTlb s q).Inv :=
  h

theorem execTlbi_inv {p : Nat} {f : FA} {s : State} (h : s.Inv) : NextInv (execTlbi p f s) := by
  unfold execTlbi
  refine instr_inv h ?_
  intro s1 k h1
  dsimp only
  split
  · exact trivial
  · exact dropTlb_inv h1

theorem execTlbia_inv {p : Nat} {f : FA} {s : State} (h : s.Inv) : NextInv (execTlbia p f s) := by
  unfold execTlbia
  refine instr_inv h ?_
  intro s1 k h1
  split
  · exact trivial
  · exact dropTlb_inv h1

theorem execUndefinedOpcode_inv {p : Nat} {op : Byte} {s : State} (h : s.Inv) : NextInv (execUndefinedOpcode p op s) := by
  unfold execUndefinedOpcode
  split
  · exact h
  · refine instr_inv h ?_
    intro s1 k h1
    exact trivial

/-! ## Interruptions and dispatch -/

theorem microTrap_inv {s : State} {p k : Nat} {m : MicroTrap} (h : s.Inv) : (microTrap s p k m).Inv :=
  ite_inv h h

theorem storeReal_inv {s : State} {p i r : Nat} {d : List Byte} (h : s.Inv) : Ends State.Inv (storeReal s p i r d) := by
  unfold storeReal
  dsimp only
  split
  · exact h
  · split
    · exact askCommit_inv h
    · split
      · refine Ends.bind (leaveStream_inv (engineZone_inv h)) ?_
        intro s1 h1
        refine Ends.bind (makeDirty_inv h1) ?_
        intro s2 h2
        exact h2
      · refine Ends.bind (P := State.Inv) (engineZone_inv h) ?_
        intro s1 h1
        exact Ends.bind (makeDirty_inv h1) fun _ h2 => h2

theorem notPresented_inv {s : State} {p k cls : Nat} (h : s.Inv) : (notPresented s p k cls).Inv :=
  logEvent_inv' h

theorem withdrawArrival_inv {s : State} {k : Nat} (h : s.Inv) : (withdrawArrival s k).Inv :=
  h

theorem takeIntr_inv {s : State} {p k : Nat} {t : Intr} (h : s.Inv) : (takeIntr s p k t).Inv := by
  unfold takeIntr
  dsimp only
  have h0 : (takeCommit s p k [] false false false).Inv := takeCommit_inv h
  have h1 := ite_inv (c := (s.ve k).barrier.isSome = true) (withdrawArrival_inv (k := k) h0) h0
  refine ite_inv (notPresented_inv h1) ?_
  split
  · exact notPresented_inv h1
  · refine ite_inv (askCommit_inv h) (ite_inv (notPresented_inv h1) ?_)
    have hl := Ends.foldlM (f := fun s w => storeReal s p (veInst k) w.1 w.2) (fun _ _ hs => storeReal_inv hs) (intrLines s k t) h1
    split
    · exact withSteals_inv h
    · exact h
    next hx => exact State.setVe_inv (Ends.ok hx hl)

theorem setRp_inv {s : State} {k : Nat} (h : s.Inv) : (setRp s k).Inv :=
  h

theorem execInterruptionTake_inv {p : Nat} {mt : Option MicroTrap} {s : State} (h : s.Inv) : NextInv (execInterruptionTake p mt s) := by
  unfold execInterruptionTake
  dsimp only
  split
  · exact h
  · split
    · exact h
    · split
      · exact takeIntr_inv h
      · exact takeIntr_inv h
      · exact takeIntr_inv (ite_inv (setRp_inv (microTrap_inv h)) h)
      · exact takeIntr_inv h

theorem execClockComparator_inv {i v : Nat} {s : State} (h : s.Inv) : NextInv (execClockComparator i v s) := by
  unfold execClockComparator
  dsimp only
  split
  · exact passUntil_inv h
  · exact h

theorem execEngineTimer_inv {i v : Nat} {s : State} (h : s.Inv) : NextInv (execEngineTimer i v s) := by
  unfold execEngineTimer
  dsimp only
  split
  · exact tick_inv h
  · exact h

theorem commitAt_inv {s : State} {p k : Nat} {mt : Option MicroTrap} {wait : Bool} (h : s.Inv) : (commitAt s p k mt wait).Inv := by
  unfold commitAt
  dsimp only
  split
  · exact ite_inv (State.updVe_inv (takeCommit_inv (setRp_inv (microTrap_inv h)))) (takeCommit_inv h)
  · exact takeCommit_inv h

theorem execAutoCommit_inv {p : Nat} {mt : Option MicroTrap} {s : State} (h : s.Inv) : NextInv (execAutoCommit p mt s) := by
  unfold execAutoCommit
  dsimp only
  split
  · exact h
  · split
    · exact h
    · exact commitAt_inv (ite_inv h (passUntil_inv h))

theorem execCommitOnSteal_inv {p : Nat} {mt : Option MicroTrap} {s : State} (h : s.Inv) : NextInv (execCommitOnSteal p mt s) := by
  unfold execCommitOnSteal
  dsimp only
  split
  · exact h
  · split
    · exact h
    · exact commitAt_inv h

theorem execVeDispatch_inv {p i v : Nat} {s : State} (h : s.Inv) : NextInv (execVeDispatch p i v s) := by
  unfold execVeDispatch
  dsimp only
  split
  · exact State.updEng_inv (State.updVe_inv (rollWindow_inv h))
  · exact rollWindow_inv h

theorem execTimeSliceEnd_inv {p : Nat} {mt : Option MicroTrap} {s : State} (h : s.Inv) : NextInv (execTimeSliceEnd p mt s) := by
  unfold execTimeSliceEnd
  dsimp only
  split
  · exact h
  · split
    · exact h
    · split
      · exact commitWait_inv (ite_inv (setRp_inv (microTrap_inv h)) h)
      · exact commitWait_inv h

theorem shareLine_inv {s : State} {l : Nat} (h : s.Inv) : (shareLine s l).Inv :=
  h

theorem install_inv {s u : State} {p line : Nat} {k : FillKind} (h : s.Inv) (e : install s p line k = some u) : u.Inv := by
  unfold install at e
  split at e
  · cases e
    exact State.updEng_inv (State.fresh_inv (shareLine_inv h))
  · split at e
    · cases e
      exact h
    · obtain ⟨v, hv, rfl⟩ := Option.map_eq_some_iff.mp e
      exact l1Put_inv (shareLine_inv (l1Room_inv h hv))

theorem execLineFillComplete_inv {p line : Nat} {s : State} (h : s.Inv) : NextInv (execLineFillComplete p line s) := by
  unfold execLineFillComplete
  dsimp only
  split
  · exact h
  next f _ =>
    generalize hs : (if line < bulkLine then _ else s.quiet) = s1
    have h1 : s1.Inv := by
      subst hs
      exact ite_inv h h
    split
    · exact State.setEng_inv h1
    · split
      · exact ite_inv (State.setEng_inv h1) (askCommit_inv h1)
      · exact State.setEng_inv h1
      next hd =>
        have h2 := domeHave_inv (State.setEng_inv h1) hd
        split
        next hi => exact install_inv h2 hi
        · exact ite_inv (State.setEng_inv h1) (askCommit_inv h1)

/-! ## Context slots -/

theorem execCommitPointComplete_inv {p : Nat} {s : State} (h : s.Inv) : NextInv (execCommitPointComplete p s) := by
  unfold execCommitPointComplete
  dsimp only
  split
  · split
    · exact h
    · split
      · split
        · exact h
        · split
          · exact askCommit_inv h
          · exact closeGroup_inv h
      · exact resumeOps_inv (finishCommit_inv h)
  · exact h

/-! ## Instances and their resources -/

theorem instCommand_inv {s : State} {seq : BitVec 32} {op : Nat} {early : State → Request → Option Nat}
    {body : State → Request → Nat → State} (h : s.Inv) (hb : ∀ s r i, s.Inv → (body s r i).Inv) : NextInv (instCommand s seq op early body) := by
  unfold instCommand
  dsimp only
  split
  · exact h
  · split
    · exact answer_inv h
    · split
      · exact hb _ _ _ h
      · exact refuse_inv h

theorem execCreate_inv {seq : BitVec 32} {s : State} (h : s.Inv) : NextInv (execCreate seq s) := by
  unfold execCreate
  dsimp only
  split
  · exact h
  · split
    · exact refuse_inv h
    · split
      · exact done_inv h
      · exact refuse_inv h

theorem execStart_inv {seq : BitVec 32} {s : State} (h : s.Inv) : NextInv (execStart seq s) :=
  instCommand_inv h fun _ _ _ h1 => done_inv (wake_inv h1)

theorem releaseHeld_inv {s : State} {i : Nat} (h : s.Inv) : (releaseHeld s i).Inv :=
  foldl_inv h fun _ _ h => ite_inv (writeStatus_inv h) h

theorem execResume_inv {seq : BitVec 32} {s : State} (h : s.Inv) : NextInv (execResume seq s) := by
  unfold execResume
  refine instCommand_inv h ?_
  intro s1 r i h1
  dsimp only
  exact done_inv (wake_inv (State.updInst_inv (releaseHeld_inv h1)))

theorem holdSub_inv {s : State} {i n : Nat} (h : s.Inv) : (holdSub s i n).Inv :=
  endWith_inv h

theorem commitOff_inv {s : State} {p k : Nat} (h : s.Inv) : (commitOff s p k).Inv :=
  ite_inv h (commitWait_inv h)

theorem withdrawAll_inv {s : State} {i : Nat} (h : s.Inv) : (withdrawAll s i).Inv :=
  h

theorem abortArrived_inv {s : State} {i : Nat} (h : s.Inv) : (abortArrived s i).Inv :=
  foldl_inv h fun _ _ h => answer_inv h

theorem execQuiesce_inv {seq : BitVec 32} {s : State} (h : s.Inv) : NextInv (execQuiesce seq s) := by
  unfold execQuiesce
  refine instCommand_inv h ?_
  intro s1 r i h1
  dsimp only
  exact foldl_inv (abortArrived_inv (abortQueued_inv (abortQueued_inv (foldl_inv (withdrawAll_inv (stopFetch_inv h1))
    fun s x h => commitOff_inv h)))) fun s x h => holdSub_inv h

theorem execQuiesceComplete_inv {i : Nat} {s : State} (h : s.Inv) : NextInv (execQuiesceComplete i s) := by
  unfold execQuiesceComplete
  dsimp only
  split
  · exact h
  · split
    · exact done_inv h
    · exact h

theorem discardStatuses_inv {s : State} {i : Nat} (h : s.Inv) : (discardStatuses s i).Inv :=
  foldl_inv h fun _ _ h => presentSub_inv h

theorem dropRequests_inv {s : State} {n : Nat} (h : s.Inv) : (dropRequests s n).Inv :=
  frame_inv (foldl_inv h fun _ _ h => freeDispatch_inv h)

theorem resetInst_inv {s : State} {i : Nat} (h : s.Inv) : (resetInst s i).Inv :=
  State.updInst_inv (frame_inv (foldl_inv (discardStatuses_inv (foldl_inv h fun _ _ h => answer_inv (freeDispatch_inv h)))
    fun _ _ h => releaseGroup_inv h))

theorem afterOps_inv {s : State} {seq : BitVec 32} {op : Nat} {body : State → Request → Nat → State} (h : s.Inv)
    (hb : ∀ s r i, s.Inv → (body s r i).Inv) : NextInv (afterOps s seq op body) := by
  unfold afterOps
  dsimp only
  split
  · exact h
  · split
    · exact h
    · exact instCommand_inv h hb

theorem execReset_inv {seq : BitVec 32} {s : State} (h : s.Inv) : NextInv (execReset seq s) :=
  afterOps_inv h fun _ _ _ h1 => done_inv (resetInst_inv h1)

theorem dropInstTlb_inv {s : State} {i : Nat} (h : s.Inv) : (dropInstTlb s i).Inv :=
  frame_inv (dropTlb_inv h)

theorem freeGranules_inv {s : State} {bulk : Bool} {l : List Granule} (h : s.Inv) : (freeGranules s bulk l).Inv :=
  h

theorem freePages_inv {s : State} {l : List Nat} (h : s.Inv) : (freePages s l).Inv :=
  foldl_inv h fun _ _ h => h

theorem freeWays_inv {s : State} {i t hd : Nat} (h : s.Inv) : (freeWays s i t hd).Inv :=
  h

theorem freeRings_inv {s : State} {i k : Nat} (h : s.Inv) : (freeRings s i k).Inv :=
  h

theorem logShrink_inv {s : State} {i pool seq : Nat} (h : s.Inv) : (logShrink s i pool seq).Inv :=
  logEvent_inv' h

theorem moveUnits_inv {s u : State} {i pool t g : Nat} (h : s.Inv) (e : moveUnits s i pool t g = .ok u) : u.Inv := by
  unfold moveUnits at e
  dsimp only at e
  split at e
  iterate 2
    split at e
    · cases e
      exact dropInstTlb_inv (freeGranules_inv h)
    · split at e
      · cases e
        exact h
      · split at e <;> cases e
  · split at e
    · cases e
      exact freePages_inv h
    · cases e
      exact State.setInst_inv (foldl_inv h fun _ _ h => h)
  · cases e
    exact freeRings_inv h
  · split at e
    · cases e
      exact freeWays_inv h
    · split at e <;> cases e
      exact h
  · cases e
    exact h

theorem regroup_inv {s : State} {i g : Nat} (h : s.Inv) : (regroup s i g).Inv :=
  h

theorem partnerRefuses_inv {s : State} {i : Nat} {grows : Bool} (h : s.Inv) : (partnerRefuses s i grows).2.Inv := by
  unfold partnerRefuses
  dsimp only
  split
  · exact State.fresh_inv h
  · exact h

theorem applyShare_inv {s : State} {r : Request} {i pool t g c : Nat} (h : s.Inv) : (applyShare s r i pool t g c).Inv :=
  branch_inv (fun h => done_inv (State.updInst_inv h)) (fun h => done_inv (ite_inv (logShrink_inv h) h)) (State.updInst_inv (ite_inv
    (regroup_inv h) h))

theorem resize_inv {s : State} {r : Request} {i : Nat} (h : s.Inv) : (resize s r i).Inv := by
  unfold resize
  dsimp only
  split
  · exact refuse_inv h
  · split
    · exact answer_inv h
    · split
      · exact answer_inv h
      · split
        · exact answer_inv (partnerRefuses_inv h)
        · split
          next h11 =>
            exact applyShare_inv (moveUnits_inv (partnerRefuses_inv h) h11)
          · exact answer_inv (partnerRefuses_inv h)
          · exact partnerRefuses_inv h

theorem execResize_inv {seq : BitVec 32} {s : State} (h : s.Inv) : NextInv (execResize seq s) :=
  instCommand_inv h fun _ _ _ h1 => resize_inv h1

theorem execShrinkComplete_inv {i : Nat} {s : State} (h : s.Inv) : NextInv (execShrinkComplete i s) := by
  unfold execShrinkComplete
  dsimp only
  split
  · exact h
  · split
    · exact logShrink_inv (ite_inv (freeRings_inv h) h)
    · exact h

theorem passStatuses_inv {s : State} {i : Nat} {waited : Bool} (h : s.Inv) : (passStatuses s i waited).Inv := by
  unfold passStatuses
  dsimp only
  split <;> exact h

theorem placeVe_inv {s : State} {t k : Nat} (h : s.Inv) : (placeVe s t k).Inv :=
  ite_inv h h

theorem setEngines_inv {s : State} {r : Request} {i : Nat} (h : s.Inv) : (setEngines s r i).Inv :=
  ite_inv (answer_inv h) (done_inv (passStatuses_inv (State.updInst_inv (foldl_inv h fun _ _ h => placeVe_inv h))))

theorem execSetEngines_inv {seq : BitVec 32} {s : State} (h : s.Inv) : NextInv (execSetEngines seq s) :=
  instCommand_inv h fun _ _ _ h1 => setEngines_inv h1

theorem execSetWindow_inv {seq : BitVec 32} {s : State} (h : s.Inv) : NextInv (execSetWindow seq s) := by
  unfold execSetWindow
  refine instCommand_inv h ?_
  intro s1 r i h1
  dsimp only
  exact done_inv h1

theorem execQuery_inv {seq : BitVec 32} {s : State} (h : s.Inv) : NextInv (execQuery seq s) :=
  instCommand_inv h fun _ _ _ h1 => done_inv h1

theorem execPoolQuery_inv {seq : BitVec 32} {s : State} (h : s.Inv) : NextInv (execPoolQuery seq s) := by
  unfold execPoolQuery
  dsimp only
  split
  · exact h
  · exact done_inv h

theorem destroyInst_inv {s : State} {i : Nat} (h : s.Inv) : (destroyInst s i).Inv :=
  State.setInst_inv (frame_inv (dropRequests_inv (freeRings_inv (foldl_inv (dropInstTlb_inv (freePages_inv (freeGranules_inv (freeGranules_inv
    (discardStatuses_inv h))))) fun _ _ h => freeWays_inv h))))

theorem execDestroy_inv {seq : BitVec 32} {s : State} (h : s.Inv) : NextInv (execDestroy seq s) := by
  unfold execDestroy
  refine afterOps_inv h ?_
  intro s1 r i h1
  dsimp only
  exact ite_inv (closeGroup_inv (done_inv (destroyInst_inv h1))) (done_inv (destroyInst_inv h1))

theorem execLogEnable_inv {seq : BitVec 32} {s : State} (h : s.Inv) : NextInv (execLogEnable seq s) :=
  instCommand_inv h fun _ _ _ h1 => done_inv h1

theorem execLogDisable_inv {seq : BitVec 32} {s : State} (h : s.Inv) : NextInv (execLogDisable seq s) :=
  instCommand_inv h fun _ _ _ h1 => done_inv h1

theorem execLogHarvest_inv {seq : BitVec 32} {s : State} (h : s.Inv) : NextInv (execLogHarvest seq s) := by
  unfold execLogHarvest
  refine instCommand_inv h ?_
  intro s1 r i h1
  dsimp only
  split
  · exact h1
  · exact ite_inv (answer_inv h1) h1

theorem execLogRead_inv {seq : BitVec 32} {s : State} (h : s.Inv) : NextInv (execLogRead seq s) := by
  unfold execLogRead
  dsimp only
  split
  · exact h
  · split
    · exact answer_inv h
    · exact complete_inv (hostWrite_inv (ite_inv (frame_inv (State.fresh_inv h)) (State.fresh_inv h)))

theorem execLogNotify_inv {seq : BitVec 32} {s : State} (h : s.Inv) : NextInv (execLogNotify seq s) := by
  unfold execLogNotify
  dsimp only
  split
  · exact h
  · split
    · exact answer_inv h
    · exact done_inv h

/-! ## Messaging requests -/

theorem execMsg_inv {fn : Nat} {seq : BitVec 32} {s : State} (h : s.Inv) : NextInv (execMsg fn seq s) := by
  unfold execMsg
  dsimp only
  split
  · exact h
  · split
    · exact answer_inv h
    · split
      · exact complete_inv h
      · exact h

theorem execStoreWrite_inv {fn : Nat} {seq : BitVec 32} {s : State} (h : s.Inv) : NextInv (execStoreWrite fn seq s) := by
  unfold execStoreWrite
  dsimp only
  split
  · exact h
  · split
    · exact answer_inv h
    · split
      · exact h
      · split <;> exact h

theorem execStoreRead_inv {fn : Nat} {seq : BitVec 32} {s : State} (h : s.Inv) : NextInv (execStoreRead fn seq s) := by
  unfold execStoreRead
  dsimp only
  split
  · exact h
  · split
    · exact answer_inv h
    · split <;> exact h

theorem execRestart_inv {fn : Nat} {seq : BitVec 32} {s : State} (h : s.Inv) : NextInv (execRestart fn seq s) := by
  unfold execRestart
  dsimp only
  split
  · exact h
  · split
    · exact answer_inv h
    · exact h

theorem endFault_inv {s : State} {r : Request} {f : JobFault} (h : s.Inv) : (endFault s r f).Inv := by
  unfold endFault
  dsimp only
  split
  · exact answer_inv (poisonIn_inv h)
  · exact answer_inv h

theorem holdRange_inv {s u : State} {i a n : Nat} (h : s.Inv) (e : holdRange s i a n = some u) : u.Inv := by
  unfold holdRange at e
  dsimp only at e
  split at e <;> cases e
  exact askCommit_inv h

theorem storeWriteDone_inv {s : State} {r : Request} {data : List Byte} {fault : Option JobFault} (h : s.Inv) :
    (storeWriteDone s r data fault).Inv := by
  unfold storeWriteDone
  dsimp only
  split
  next h8 =>
    exact holdRange_inv h h8
  · split
    · exact answer_inv (logPoison_inv h)
    · split
      · split
        · exact endFault_inv (ite_inv h (instWrite_inv (State.fresh_inv h)))
        · exact endFault_inv h
      · exact ite_inv (answer_inv h) (done_inv (instWrite_inv h))

theorem storeReadDone_inv {s : State} {r : Request} {fault : Option JobFault} (h : s.Inv) : (storeReadDone s r fault).Inv := by
  unfold storeReadDone
  dsimp only
  split
  next h7 =>
    exact holdRange_inv h h7
  · split
    · exact complete_inv (hostWrite_inv (hubUse_inv (logPoison_inv h)))
    · exact endFault_inv h
    · exact endFault_inv h
    · exact endFault_inv h
    · exact done_inv (hostWrite_inv (hubUse_inv h))

theorem keyWrapDone_inv {s : State} {r : Request} {fault : Option JobFault} (h : s.Inv) : (keyWrapDone s r fault).Inv := by
  unfold keyWrapDone
  split
  · exact endFault_inv h
  · exact done_inv (hostWrite_inv h)

theorem harvestDone_inv {s : State} {r : Request} {fault : Option JobFault} (h : s.Inv) : (harvestDone s r fault).Inv := by
  unfold harvestDone
  split
  · exact endFault_inv h
  · exact done_inv (hostWrite_inv h)

/-! ## EXPORT and IMPORT -/

theorem exportSegment_inv {s : State} {r : Request} {i : Nat} {x : Session} (h : s.Inv) : (exportSegment s r i x).Inv :=
  ite_inv (answer_inv h) h

theorem execExportInst_inv {seq : BitVec 32} {s : State} (h : s.Inv) : NextInv (execExportInst seq s) := by
  unfold execExportInst
  refine instCommand_inv h ?_
  intro s1 r i h1
  dsimp only
  split
  · exact refuse_inv h1
  · split
    · exact answer_inv h1
    · split
      · exact answer_inv h1
      · split
        · exact exportSegment_inv h1
        · split
          · exact h1
          · exact ite_inv (answer_inv h1) (exportSegment_inv h1)

theorem exportDone_inv {s : State} {r : Request} {fault : Option JobFault} (h : s.Inv) : (exportDone s r fault).Inv := by
  unfold exportDone
  dsimp only
  split
  · exact answer_inv (hostWrite_inv (State.fresh_inv h))
  · exact done_inv (ite_inv (hostWrite_inv h) (State.updInst_inv (hostWrite_inv h)))

theorem importContexts_inv {s : State} {i : Nat} {d : List Byte} (h : s.Inv) : (importContexts s i d).Inv :=
  foldl_inv h fun _ _ h => State.setVe_inv (State.fresh_inv h)

theorem importOps_inv {s : State} {i : Nat} {d : List Byte} (h : s.Inv) : (importOps s i d).Inv :=
  foldl_inv h fun _ _ h => ite_inv h (takeGroup_inv (State.setSub_inv (State.fresh_inv h)))

theorem importKeys_inv {s : State} {i : Nat} {wrap d : List Byte} (h : s.Inv) : (importKeys s i wrap d).Inv :=
  foldl_inv h fun _ _ h => foldl_inv h fun _ _ h => h

theorem importRequest_inv {s : State} {i : Nat} {l : List Byte} (h : s.Inv) : (importRequest s i l).Inv :=
  h

theorem importHeld_inv {s : State} {i : Nat} {l : List Byte} (h : s.Inv) : (importHeld s i l).Inv :=
  h

theorem importSignal_inv {s : State} {i : Nat} {l : List Byte} (h : s.Inv) : (importSignal s i l).Inv :=
  h

theorem importQueues_inv {s : State} {i n64 n32 n16 : Nat} {d : List Byte} (h : s.Inv) : (importQueues s i n64 n32 n16 d).Inv :=
  foldl_inv (foldl_inv (foldl_inv h fun _ _ h => importRequest_inv h) fun _ _ h => importHeld_inv h) fun _ _ h => importSignal_inv h

theorem importGranules_inv {s : State} {firsts : List Nat} {n : Nat} {d : List Byte} (h : s.Inv) : (importGranules s firsts n d).Inv :=
  foldl_inv h fun _ _ h => foldl_inv h fun _ _ h => line_inv (dropDomes_inv h)

theorem importSeq_inv {s : State} {i : Nat} {d : List Byte} (h : s.Inv) : (importSeq s i d).Inv :=
  foldl_inv h fun _ _ h => h

theorem reserveRings_inv {s : State} {i : Nat} (h : s.Inv) : (reserveRings s i).Inv :=
  foldl_inv h fun _ _ h => ite_inv h h

theorem importWindows_inv {s : State} {i : Nat} {hd : List Byte} (h : s.Inv) : (importWindows s i hd).Inv :=
  foldl_inv h fun _ _ h => ite_inv h h

theorem unlockWays_inv {s : State} {i : Nat} (h : s.Inv) : (unlockWays s i).Inv :=
  h

theorem applyStream_inv {s : State} {i : Nat} {wrap d : List Byte} (h : s.Inv) : (applyStream s i wrap d).Inv := by
  unfold applyStream
  dsimp only
  refine releaseHeld_inv (reserveRings_inv (State.updInst_inv (foldl_inv (frame_inv (importWindows_inv (unlockWays_inv
    (dropInstTlb_inv h)))) ?_)))
  intro s1 x h1
  split
  · exact importContexts_inv h1
  · exact importOps_inv h1
  · exact importKeys_inv h1
  · exact importQueues_inv h1
  · exact importGranules_inv h1
  · exact importGranules_inv h1
  · exact importSeq_inv h1
  · exact h1

theorem execImportInst_inv {seq : BitVec 32} {s : State} (h : s.Inv) : NextInv (execImportInst seq s) := by
  unfold execImportInst
  refine instCommand_inv h ?_
  intro s1 r i h1
  dsimp only
  split
  · exact answer_inv h1
  · exact ite_inv (answer_inv h1) (ite_inv (answer_inv h1) h1)

theorem importDone_inv {s : State} {r : Request} {data : List Byte} {fault : Option JobFault} (h : s.Inv) : (importDone s r data fault).Inv := by
  unfold importDone
  dsimp only
  split
  · exact endFault_inv h
  · split
    · exact ite_inv (answer_inv h) (answer_inv h)
    · split
      · exact answer_inv h
      · split
        · exact answer_inv h
        · exact done_inv (ite_inv (applyStream_inv h) h)

theorem execHostTransferDone_inv {fn : Nat} {seq : BitVec 32} {data : List Byte} {fault : Option JobFault} {s : State} (h : s.Inv) :
    NextInv (execHostTransferDone fn seq data fault s) := by
  unfold execHostTransferDone
  dsimp only
  split
  · exact h
  · split
    · exact h
    · split
      · exact exportDone_inv h
      · exact importDone_inv h
      · exact harvestDone_inv h
      · exact h
      · exact storeWriteDone_inv h
      · exact storeReadDone_inv h
      · exact keyWrapDone_inv h
      · exact h

/-! ## What a fault does -/

theorem stopInst_inv {s : State} {i : Nat} (h : s.Inv) : (stopInst s i).Inv :=
  frame_inv (withdrawAll_inv (foldl_inv h fun _ _ h => leaveEngine_inv (rollback_inv h)))

theorem dropJobs_inv {s : State} {i : Nat} (h : s.Inv) : (dropJobs s i).Inv :=
  foldl_inv (State.setJobs_inv (State.setJobs_inv (foldl_inv (foldl_inv h fun _ _ h => pushHold_inv h) fun _ _ h => pushHold_inv h)))
    fun _ _ h => h

theorem failRequests_inv {s : State} {n : Nat} (h : s.Inv) : (failRequests s n).Inv :=
  foldl_inv h fun _ _ h => completeNow_inv (freeDispatch_inv h)

theorem failCommands_inv {s : State} {i : Nat} (h : s.Inv) : (failCommands s i).Inv := by
  unfold failCommands
  refine foldl_inv h ?_
  intro s1 x h1
  split
  · exact answer_inv h1
  · exact h1

theorem faultNow_inv {s : State} {i : Nat} (h : s.Inv) : (faultNow s i).Inv :=
  ite_inv h (State.updInst_inv (failCommands_inv (dropJobs_inv (failRequests_inv (stopFetch_inv (stopInst_inv h))))))

theorem faultInst_inv {s : State} {i : Nat} {cause : LogEntry} (h : s.Inv) : (faultInst s i cause).Inv :=
  ite_inv h (logEvent_inv' (faultNow_inv h))

theorem sendControl_inv {s : State} {kind : Nat} {fields : List Nat} (h : s.Inv) : (sendControl s kind fields).Inv :=
  sendSlots_inv h

theorem leaveModule_inv {s : State} {i : Nat} (h : s.Inv) : (leaveModule s i).Inv := by
  unfold leaveModule
  dsimp only
  exact State.updInst_inv (failCommands_inv (frame_inv (dropRequests_inv (dropJobs_inv (stopFetch_inv (stopInst_inv h))))))

theorem surrender_inv {s : State} {i cls : Nat} (h : s.Inv) : (surrender s i cls).Inv := by
  unfold surrender
  dsimp only
  exact logEvent_inv' (ite_inv (sendControl_inv (leaveModule_inv h)) (leaveModule_inv h))

theorem loseInst_inv {s : State} {i : Nat} {cause : LogEntry} (h : s.Inv) : (loseInst s i cause).Inv := by
  unfold loseInst
  exact ite_inv (surrender_inv h) (faultInst_inv h)

theorem logged_inv {s : State} {e : LogEntry} (h : s.Inv) : (logged s e).1.Inv :=
  logEvent_inv' h

theorem deviceFatal_inv {s : State} {detail source unit : Nat} (h : s.Inv) : (deviceFatal s detail source unit).Inv := by
  unfold deviceFatal
  dsimp only
  exact foldl_inv (frame_inv (logEvent_inv' h)) fun s x h => ite_inv (surrender_inv h) (faultNow_inv h)

theorem fenceUnit_inv {s : State} {u : UnitId} (h : s.Inv) : (fenceUnit s u).Inv :=
  h

theorem unitFenced_inv {s : State} {cls source unit left : Nat} (h : s.Inv) : (unitFenced s cls source unit left).1.Inv :=
  logged_inv h

theorem raiseDeferred_inv {s : State} {i : Nat} {q : VE → Bool} {e : LogEntry} {left : Nat} (h : s.Inv) : (raiseDeferred s i q e left).Inv := by
  unfold raiseDeferred
  split <;> exact h

theorem loseLine_inv {s : State} {l : Nat} {unit : Nat × Nat} (h : s.Inv) : (loseLine s l unit).Inv := by
  unfold loseLine
  dsimp only
  split
  · exact loseInst_inv (logged_inv (line_inv (dropDomes_inv h)))
  · exact logged_inv (line_inv (dropDomes_inv h))

/-! ## The recovery ladder -/

theorem answerTest_inv {s : State} {t : TestRun} {result : List Byte} (h : s.Inv) : (answerTest s t result).Inv :=
  foldl_inv h fun _ _ h => complete_inv h

theorem cutTest_inv {s : State} {t : TestRun} {cause got want : Nat} (h : s.Inv) : (cutTest s t cause got want).Inv := by
  unfold cutTest
  dsimp only
  split
  · split <;> exact answerTest_inv (logEvent_inv' (State.updEng_inv (walkL1_inv h)))
  · split <;> split <;> exact answerTest_inv (logEvent_inv' h)

theorem cutFree_inv {s : State} {t : TestRun} {cause : Nat} (h : s.Inv) : (cutFree s t cause).Inv :=
  cutTest_inv (State.fresh_inv (State.fresh_inv h))

theorem scheduleFuse_inv {s : State} {u : UnitId} {kind : Nat} (h : s.Inv) : (scheduleFuse s u kind).Inv :=
  ite_inv h (ite_inv h (ite_inv (logEvent_inv' h) (logEvent_inv' h)))

theorem noteSpares_inv {s : State} {t : Nat} (h : s.Inv) : (noteSpares s t).Inv :=
  ite_inv h (ite_inv h (logEvent_inv' h))

theorem moveVe_inv {s : State} {p q : Nat} (h : s.Inv) : (moveVe s p q).Inv := by
  unfold moveVe
  dsimp only
  split
  · exact h
  · exact ite_inv (leaveEngine_inv h) h

theorem takePlace_inv {s : State} {p q kind : Nat} {r : Recovery} (h : s.Inv) : (takePlace s p q kind r).Inv :=
  noteSpares_inv (scheduleFuse_inv (logEvent_inv' (moveVe_inv (State.updEng_inv (walkL1_inv h)))))

theorem noSpare_inv {s : State} {p : Nat} {r : Recovery} (h : s.Inv) : (noSpare s p r).Inv := by
  unfold noSpare
  dsimp only
  split
  · exact foldl_inv (logged_inv (leaveEngine_inv h)) fun s x h => raiseDeferred_inv h
  · exact foldl_inv (logged_inv h) fun s x h => raiseDeferred_inv h

theorem dropCommitGroup_inv {s : State} {p : Nat} (h : s.Inv) : (dropCommitGroup s p).Inv :=
  h

theorem spareEngine_inv {s : State} {p : Nat} (h : s.Inv) : (spareEngine s p).Inv := by
  unfold spareEngine
  dsimp only
  split
  · exact takePlace_inv h
  · split
    · split
      · split
        · exact takePlace_inv (moveVe_inv (State.updEng_inv (ite_inv (dropCommitGroup_inv (rollback_inv (cutFree_inv h))) (commitNow_inv
            (cutFree_inv h)))))
        · exact takePlace_inv (moveVe_inv (State.updEng_inv (ite_inv (dropCommitGroup_inv (rollback_inv h)) (commitNow_inv h))))
      · split
        · exact takePlace_inv (moveVe_inv (State.updEng_inv (cutFree_inv h)))
        · exact takePlace_inv (moveVe_inv h)
    · split
      · exact h
      · exact noSpare_inv h

theorem loseSpare_inv {s : State} {p detail : Nat} (h : s.Inv) : (loseSpare s p detail).Inv := by
  unfold loseSpare
  dsimp only
  split
  · exact spareEngine_inv (noteSpares_inv (logEvent_inv' h))
  · exact noteSpares_inv (logEvent_inv' h)

theorem loseCheckpoint_inv {s : State} {t k : Nat} (h : s.Inv) : (loseCheckpoint s t k).Inv :=
  loseInst_inv (logged_inv h)

theorem checkstop_inv {s : State} {p : Nat} {cause : EngineCause} (h : s.Inv) : (checkstop s p cause).Inv := by
  unfold checkstop
  dsimp only
  split
  · exact h
  · split
    · exact loseSpare_inv h
    · split
      · exact branch_inv loseCheckpoint_inv id (branch_inv spareEngine_inv id (State.updEng_inv (dropCommitGroup_inv (rollback_inv h))))
      · exact branch_inv spareEngine_inv id (State.updEng_inv (dropCommitGroup_inv (rollback_inv h)))

theorem execEngineFaultDetected_inv {p : Nat} {cause : EngineCause} {attempts : Nat} {s : State} (h : s.Inv) :
    NextInv (execEngineFaultDetected p cause attempts s) := by
  unfold execEngineFaultDetected
  dsimp only
  split
  · dsimp only
    split
    · exact h
    · exact logEvent_inv' (ite_inv h h)
  · dsimp only
    split
    · exact h
    · exact logEvent_inv' (ite_inv h h)
  · dsimp only
    split
    · exact h
    · exact logEvent_inv' (ite_inv h h)
  · split
    · exact h
    · exact logEvent_inv' (ite_inv h h)

theorem execEngineCheckstop_inv {p : Nat} {cause : EngineCause} {s : State} (h : s.Inv) : NextInv (execEngineCheckstop p cause s) :=
  ite_inv (checkstop_inv h) h

theorem execQuickCheckEnd_inv {p : Nat} {pass : Bool} {s : State} (h : s.Inv) : NextInv (execQuickCheckEnd p pass s) := by
  unfold execQuickCheckEnd
  dsimp only
  split
  · exact h
  · split
    · split
      · exact logEvent_inv' (branch_inv leaveEngine_inv id (State.updEng_inv (passUntil_inv h)))
      · exact logEvent_inv' (State.updEng_inv (passUntil_inv h))
    · exact spareEngine_inv (passUntil_inv h)

theorem execFuseReserveUp_inv {t : Nat} {s : State} (h : s.Inv) : NextInv (execFuseReserveUp t s) := by
  unfold execFuseReserveUp
  dsimp only
  split
  · split
    · exact takePlace_inv (passUntil_inv h)
    · exact h
  · exact h

theorem logCache_inv {s : State} {source unit detail : Nat} (h : s.Inv) : (logCache s source unit detail).Inv :=
  logEvent_inv' h

theorem domeLost_inv {s : State} {t l : Nat} (h : s.Inv) : (domeLost s t l).Inv := by
  unfold domeLost
  split
  · exact h
  · split
    · exact checkstop_inv h
    · exact loseLine_inv h
    · exact logCache_inv (ite_inv h (dropDomes_inv h))

theorem domeError_inv {s : State} {t l : Nat} {e : LineError} (h : s.Inv) : (domeError s t l e).Inv := by
  unfold domeError
  split
  · exact h
  · split
    · exact h
    · exact logCache_inv h
    · exact domeLost_inv h
    · exact logCache_inv h
    · exact logCache_inv h

theorem execDomeScrub_inv {t line : Nat} {err : LineError} {s : State} (h : s.Inv) : NextInv (execDomeScrub t line err s) :=
  ite_inv (domeError_inv h) h

theorem storeFail_inv {s : State} {l : Nat} (h : s.Inv) : (storeFail s l).Inv := by
  unfold storeFail
  dsimp only
  split
  · exact h
  · split
    · exact logEvent_inv' h
    · split
      · exact ite_inv (logEvent_inv' h) (loseLine_inv h)
      · exact loseLine_inv h

theorem tagFail_inv {s : State} {l : Nat} {good : Bool} (h : s.Inv) : (tagFail s l good).Inv := by
  unfold tagFail
  dsimp only
  split
  · exact ite_inv (logCache_inv h) (domeLost_inv h)
  · exact ite_inv (logEvent_inv' h) (storeFail_inv h)

theorem execCacheError_inv {c : CacheFault} {s : State} (h : s.Inv) : NextInv (execCacheError c s) := by
  unfold execCacheError
  dsimp only
  split
  · exact h
  · split
    · split
      · exact logCache_inv h
      · exact h
    · exact logCache_inv h
    · split
      · exact h
      · split
        · exact checkstop_inv h
        · exact logCache_inv h
    · split
      · exact checkstop_inv h
      · exact logCache_inv h
    · exact domeError_inv h
    · exact domeError_inv h
    · exact tagFail_inv h

theorem execCheckpointScrub_inv {t slot : Nat} {err : LineError} {s : State} (h : s.Inv) : NextInv (execCheckpointScrub t slot err s) := by
  unfold execCheckpointScrub
  dsimp only
  split
  · exact h
  · split
    · exact h
    · exact logCache_inv h
    · exact logCache_inv h
    · exact logCache_inv h
    · split
      · exact h
      · split
        · split
          · split
            · exact logCache_inv h
            · exact commitWait_inv (logCache_inv h)
          · exact loseCheckpoint_inv h
        · exact loseCheckpoint_inv h

theorem logPoisoned_inv {s : State} {l : Nat} (h : s.Inv) : (logPoisoned s l).Inv :=
  logEvent_inv' h

theorem execStoreScrub_inv {line : Nat} {err : LineError} {s : State} (h : s.Inv) : NextInv (execStoreScrub line err s) := by
  unfold execStoreScrub
  dsimp only
  split
  · exact h
  · split
    · exact logPoisoned_inv h
    · split
      · exact h
      · exact logEvent_inv' h
      · exact storeFail_inv h

theorem execStoreReadError_inv {line : Nat} {s : State} (h : s.Inv) : NextInv (execStoreReadError line s) :=
  ite_inv (storeFail_inv h) h

theorem next_ite_inv {c : Prop} [Decidable c] {s t : State} (hs : s.Inv) (ht : t.Inv) : NextInv (if c then .next s else .next t) := by
  split
  · exact hs
  · exact ht

theorem execAddressParityError_inv {port line : Nat} {s : State} (h : s.Inv) : NextInv (execAddressParityError port line s) := by
  unfold execAddressParityError
  dsimp only
  split
  · exact h
  · exact next_ite_inv (deviceFatal_inv h) (logEvent_inv' h)

theorem execCheckLineWriteback_inv {stack block : Nat} {s : State} (h : s.Inv) : NextInv (execCheckLineWriteback stack block s) := by
  unfold execCheckLineWriteback
  dsimp only
  split
  · split
    · exact passUntil_inv h
    · exact h
  · exact h

theorem zeroRange_inv {s : State} {a n : Nat} (h : s.Inv) : (zeroRange s a n).Inv := by
  obtain ⟨hm, hl, hs⟩ := h
  exact ⟨(wf_filter _ _ hm).1, hl, hs⟩

theorem execGranuleZeroDone_inv {bulk : Bool} {gran : Nat} {s : State} (h : s.Inv) : NextInv (execGranuleZeroDone bulk gran s) := by
  unfold execGranuleZeroDone
  dsimp only
  split
  · split
    · exact zeroRange_inv h
    · exact zeroRange_inv h
  · exact h

theorem execEventMergeFlush_inv {event source unit : Nat} {s : State} (h : s.Inv) : NextInv (execEventMergeFlush event source unit s) := by
  unfold execEventMergeFlush
  dsimp only
  split
  · split
    · exact flushMerge_inv (passUntil_inv h)
    · exact h
  · exact h

/-! ## Blocks that stop -/

theorem execD2dModuleFail_inv {cd m : Nat} {s : State} (h : s.Inv) : NextInv (execD2dModuleFail cd m s) := by
  unfold execD2dModuleFail
  dsimp only
  split
  · exact h
  · exact unitFenced_inv (fenceUnit_inv h)

theorem stopTower_inv {s : State} {t source : Nat} (h : s.Inv) : (stopTower s t source).Inv :=
  ite_inv h (State.updDome_inv (foldl_inv (foldl_inv (foldl_inv (unitFenced_inv h) fun _ _ h => loseInst_inv h)
    fun _ _ h => loseLine_inv h) fun _ _ h => h))

theorem execDomeFail_inv {t : Nat} {w : TowerBlock} {s : State} (h : s.Inv) : NextInv (execDomeFail t w s) := by
  unfold execDomeFail
  dsimp only
  split
  · exact h
  · split
    · exact stopTower_inv h
    · exact stopTower_inv h
    · exact stopTower_inv (stopTower_inv h)

theorem execMainStoreChannelFail_inv {c : Nat} {s : State} (h : s.Inv) : NextInv (execMainStoreChannelFail c s) :=
  ite_inv (deviceFatal_inv h) h

theorem execHbmStackFail_inv {st : Nat} {s : State} (h : s.Inv) : NextInv (execHbmStackFail st s) := by
  unfold execHbmStackFail
  dsimp only
  split
  · exact h
  · exact foldl_inv (unitFenced_inv (fenceUnit_inv h)) fun s x h => loseInst_inv h

theorem execHubBlockFail_inv {b : HubBlock} {s : State} (h : s.Inv) : NextInv (execHubBlockFail b s) := by
  unfold execHubBlockFail
  dsimp only
  split
  · exact h
  · split <;> exact deviceFatal_inv h

theorem execBelfryStop_inv {s : State} (h : s.Inv) : NextInv (execBelfryStop s) := by
  unfold execBelfryStop
  dsimp only
  split
  · exact h
  · exact foldl_inv h fun s x h => ite_inv (surrender_inv h) (faultNow_inv h)

theorem execTimebaseCounterFail_inv {n : Nat} {s : State} (h : s.Inv) : NextInv (execTimebaseCounterFail n s) :=
  ite_inv h h

theorem moveOps_inv {s : State} {c : Nat} {others : List Nat} (h : s.Inv) : (moveOps s c others).Inv :=
  frame_inv (State.fresh_inv h)

theorem stopChe_inv {s : State} {c : Nat} (h : s.Inv) : (stopChe s c).Inv :=
  ite_inv h (ite_inv (deviceFatal_inv h) (unitFenced_inv (logEvent_inv' (moveOps_inv h))))

theorem execCheStop_inv {c : Nat} {s : State} (h : s.Inv) : NextInv (execCheStop c s) :=
  ite_inv (stopChe_inv h) h

theorem stopAccel_inv {s : State} {cz : Bool} {e : Nat} (h : s.Inv) : (stopAccel s cz e).Inv := by
  unfold stopAccel
  dsimp only
  split
  · exact h
  · split
    · exact foldl_inv (foldl_inv (unitFenced_inv (branch_inv id logEvent_inv' (State.putJob_inv (State.setAccel_inv h))))
        fun s x h => endJob_inv h) fun s x h => raiseDeferred_inv h
    · exact foldl_inv (foldl_inv (unitFenced_inv (State.setAccel_inv h)) fun s x h => endJob_inv h) fun s x h => raiseDeferred_inv h

theorem execCipherEngineStop_inv {e : Nat} {s : State} (h : s.Inv) : NextInv (execCipherEngineStop e s) :=
  ite_inv (stopAccel_inv h) h

theorem execCompressionEngineStop_inv {e : Nat} {s : State} (h : s.Inv) : NextInv (execCompressionEngineStop e s) :=
  ite_inv (stopAccel_inv h) h

/-! ## The Spire -/

theorem extendReg_inv {s : State} {n : Nat} {v : List Byte} (h : s.Inv) : (extendReg s n v).Inv :=
  h

theorem spireEvent_inv {s : State} {e : LogEntry} {hd : List Byte} (h : s.Inv) : (spireEvent s e hd).Inv :=
  ite_inv (logEvent_inv' h) (extendReg_inv (logEvent_inv' h))

theorem execSpireStop_inv {s : State} (h : s.Inv) : NextInv (execSpireStop s) := by
  unfold execSpireStop
  dsimp only
  split
  · exact h
  · exact unitFenced_inv (branch_inv (fun h => State.emit_inv (frame_inv h)) id (foldl_inv (logEvent_inv' (frame_inv (State.fresh_inv h)))
      fun s x h => completeNow_inv h))

theorem setRegion_inv {s : State} {k : Nat} {r : Region} (h : s.Inv) : (setRegion s k r).Inv :=
  h

theorem execImageQuery_inv {seq : BitVec 32} {s : State} (h : s.Inv) : NextInv (execImageQuery seq s) := by
  unfold execImageQuery
  dsimp only
  split
  · exact h
  · split
    · split
      · exact done_inv h
      · exact done_inv (hostWrite_inv h)
    · split
      · exact done_inv h
      · exact done_inv (hostWrite_inv h)

theorem rejectImage_inv {s : State} {r : Request} {k reason offset : Nat} (h : s.Inv) : (rejectImage s r k reason offset).Inv :=
  ite_inv (complete_inv h) (ite_inv (complete_inv h) (complete_inv h))

theorem writeRegion_inv {s : State} {r : Request} {k : Nat} {data : List Byte} (h : s.Inv) : (writeRegion s r k data).Inv :=
  frame_inv (setRegion_inv h)

theorem execImageWrite_inv {seq : BitVec 32} {data : List Byte} {s : State} (h : s.Inv) : NextInv (execImageWrite seq data s) := by
  unfold execImageWrite
  dsimp only
  split
  · exact h
  · split
    · exact answer_inv h
    · split
      · exact refuse_inv h
      · split
        · exact rejectImage_inv h
        · exact writeRegion_inv h

theorem execImagePush_inv {seq : BitVec 32} {data : List Byte} {s : State} (h : s.Inv) : NextInv (execImagePush seq data s) := by
  unfold execImagePush
  dsimp only
  split
  · exact h
  · split
    · exact answer_inv h
    · split
      · exact refuse_inv h
      · split
        · exact rejectImage_inv h
        · exact writeRegion_inv h

theorem execImageNorWriteDone_inv {seq : BitVec 32} {s : State} (h : s.Inv) : NextInv (execImageNorWriteDone seq s) := by
  unfold execImageNorWriteDone
  dsimp only
  split
  · split
    · exact h
    · exact done_inv (spireEvent_inv (setRegion_inv h))
  · exact h

theorem execImageSelect_inv {seq : BitVec 32} {s : State} (h : s.Inv) : NextInv (execImageSelect seq s) := by
  unfold execImageSelect
  dsimp only
  split
  · exact h
  · split
    · exact refuse_inv h
    · exact done_inv (spireEvent_inv (ite_inv h h))

theorem execHeadSigned_inv {s : State} (h : s.Inv) : NextInv (execHeadSigned s) := by
  unfold execHeadSigned
  dsimp only
  split
  · exact h
  · exact logEvent_inv' (ite_inv h (logEvent_inv' h))

theorem doeError_inv {s : State} (h : s.Inv) : (doeError s).Inv :=
  h

theorem doeAnswer_inv {s : State} {st : Status} {detail retry : Nat} {body : List Byte} (h : s.Inv) : (doeAnswer s st detail retry body).Inv :=
  h

theorem execDoeDiscovery_inv {vendor ty : Nat} {body : List Byte} {s : State} (h : s.Inv) : NextInv (execDoeDiscovery vendor ty body s) := by
  unfold execDoeDiscovery
  dsimp only
  split
  · exact h
  · split
    · exact doeError_inv h
    · split <;> exact h

theorem execBootHead_inv {body : List Byte} {s : State} (h : s.Inv) : NextInv (execBootHead body s) := by
  unfold execBootHead
  dsimp only
  split
  · exact h
  · split
    · exact doeError_inv h
    · split
      · exact doeAnswer_inv h
      · split <;> exact doeAnswer_inv h

theorem execBootEntries_inv {body : List Byte} {s : State} (h : s.Inv) : NextInv (execBootEntries body s) := by
  unfold execBootEntries
  dsimp only
  split
  · exact h
  · split
    · exact doeError_inv h
    · split
      · exact doeAnswer_inv h
      · split
        · exact doeAnswer_inv h
        · split <;> exact doeAnswer_inv h

theorem execAttest_inv {body : List Byte} {s : State} (h : s.Inv) : NextInv (execAttest body s) := by
  unfold execAttest
  dsimp only
  split
  · exact h
  · split
    · exact doeError_inv h
    · split
      · exact doeAnswer_inv h
      · exact h

theorem execAttestSigned_inv {smbus : Bool} {s : State} (h : s.Inv) : NextInv (execAttestSigned smbus s) := by
  unfold execAttestSigned
  dsimp only
  split
  · exact h
  · split
    · split
      · exact h
      · split <;> exact h
    · split
      · exact h
      · exact ite_inv (doeAnswer_inv h) h

theorem execIdentityCert_inv {body : List Byte} {s : State} (h : s.Inv) : NextInv (execIdentityCert body s) := by
  unfold execIdentityCert
  dsimp only
  split
  · exact h
  · split
    · exact doeError_inv h
    · split <;> exact doeAnswer_inv h

theorem execMeasure_inv {body : List Byte} {s : State} (h : s.Inv) : NextInv (execMeasure body s) := by
  unfold execMeasure
  dsimp only
  split
  · exact h
  · split
    · exact doeError_inv h
    · exact doeAnswer_inv h

theorem smbusRead_inv {s : State} {data : State → List Byte} (h : s.Inv) : NextInv (smbusRead s data) :=
  ite_inv h h

theorem smbusWrite_inv {s : State} {f : State → State} (h : s.Inv) (hf : ∀ s, s.Inv → (f s).Inv) : NextInv (smbusWrite s f) :=
  ite_inv (hf _ h) h

theorem execObjSelect_inv {data : List Byte} {s : State} (h : s.Inv) : NextInv (execObjSelect data s) :=
  smbusWrite_inv h fun _ h => ite_inv h h

theorem execObjStatus_inv {s : State} (h : s.Inv) : NextInv (execObjStatus s) := by
  unfold execObjStatus
  dsimp only
  split
  · exact h
  · exact State.emit_inv (State.fresh_inv h)

theorem execObjRead_inv {s : State} (h : s.Inv) : NextInv (execObjRead s) := by
  unfold execObjRead
  dsimp only
  split <;> exact h

theorem execAttestStart_inv {nonce : List Byte} {s : State} (h : s.Inv) : NextInv (execAttestStart nonce s) :=
  smbusWrite_inv h fun _ h => ite_inv h h

theorem execPkgWrite_inv {data : List Byte} {s : State} (h : s.Inv) : NextInv (execPkgWrite data s) :=
  smbusWrite_inv h fun _ h => ite_inv h h

theorem execPkgCommit_inv {v : Byte} {s : State} (h : s.Inv) : NextInv (execPkgCommit v s) :=
  smbusWrite_inv h fun _ h => ite_inv h (ite_inv h h)

theorem execPkgStatus_inv {s : State} (h : s.Inv) : NextInv (execPkgStatus s) :=
  smbusRead_inv h

theorem execPkgCheckDone_inv {s : State} (h : s.Inv) : NextInv (execPkgCheckDone s) := by
  unfold execPkgCheckDone
  dsimp only
  split
  · exact h
  · split
    · exact logEvent_inv' h
    · exact spireEvent_inv h

/-! ## Runtime self-tests -/

theorem testOf_inv {s : State} {u : UnitId} (h : s.Inv) : (testOf s u).2.Inv :=
  State.fresh_inv h

theorem testFailed_inv {s : State} {u : UnitId} {cls : Nat} (h : s.Inv) : (testFailed s u cls).Inv := by
  unfold testFailed
  dsimp only
  exact logEvent_inv' (testOf_inv h)

theorem evictLine_inv {s : State} {t l : Nat} (h : s.Inv) : (evictLine s t l).Inv :=
  dropDomes_inv (writeBack_inv h)

/-- The state that the start of a test ends in, begun or not. -/
def Started (P : State → Prop) : State ⊕ State → Prop
  | .inl s | .inr s => P s

theorem startTest_inv {s : State} {u : UnitId} {waiters : List Nat} (h : s.Inv) : Started State.Inv (startTest s u waiters) := by
  unfold startTest
  dsimp only
  split
  · split
    · split
      · exact h
      · exact h
    · split
      · exact h
      · split
        · exact h
        · split
          · exact h
          next s2 hs =>
            have h2 : s2.Inv := by
              split at hs
              · cases hs
                exact walkL1_inv h
              · split at hs
                · cases hs
                · cases hs
                  exact moveVe_inv (walkL1_inv (commitNow_inv h))
            exact h2
  · split
    · exact askCommit_inv h
    · exact frame_inv (foldl_inv h fun _ _ h => evictLine_inv h)
  · exact ite_inv h (moveOps_inv h)
  · split
    · exact h
    · exact h
  · split
    · exact h
    · exact h
  · exact h

theorem execRollingTestStart_inv {u : UnitId} {s : State} (h : s.Inv) : NextInv (execRollingTestStart u s) := by
  unfold execRollingTestStart
  dsimp only
  split
  · exact h
  · have ht : Started State.Inv (startTest s.quiet u []) := startTest_inv h
    split
    next hs =>
      rw [hs] at ht
      exact ht
    next hs =>
      rw [hs] at ht
      exact ht

theorem endStandIn_inv {s : State} {p q : Nat} (h : s.Inv) : (endStandIn s p q).Inv := by
  unfold endStandIn
  dsimp only
  split
  · exact State.updEng_inv (ite_inv h (moveVe_inv (commitNow_inv h)))
  · exact h

theorem backInService_inv {s : State} {t : TestRun} (h : s.Inv) : (backInService s t).Inv := by
  unfold backInService
  dsimp only
  split
  · split
    · exact endStandIn_inv (State.updEng_inv (walkL1_inv h))
    · exact State.updEng_inv (walkL1_inv h)
  · exact h
  · exact h

theorem unfence_inv {s : State} {u : UnitId} (h : s.Inv) : (unfence s u).Inv := by
  unfold unfence
  dsimp only
  split
  · exact logEvent_inv' (noteSpares_inv h)
  · exact logEvent_inv' h
  · exact logEvent_inv' h
  · exact logEvent_inv' h
  · exact logEvent_inv' h
  · exact logEvent_inv' h

theorem repairUnit_inv {s : State} {t : TestRun} (h : s.Inv) : (repairUnit s t).2.Inv := by
  unfold repairUnit
  dsimp only
  split
  · exact testFailed_inv h
  · split
    · split
      · exact noteSpares_inv (scheduleFuse_inv (testFailed_inv h))
      · exact loseSpare_inv (testFailed_inv (State.fresh_inv h))
    · split
      · exact scheduleFuse_inv (testFailed_inv (State.updDome_inv (walkDome_inv (State.fresh_inv h))))
      · exact testFailed_inv (fenceUnit_inv (State.fresh_inv h))
    · exact stopChe_inv (testFailed_inv h)
    · exact stopAccel_inv (testFailed_inv h)
    · exact stopAccel_inv (testFailed_inv h)
    · split
      · exact deviceFatal_inv (testFailed_inv h)
      · exact scheduleFuse_inv (testFailed_inv (fenceUnit_inv h))
    · exact h

theorem patternsOf_inv {s : State} {u : UnitId} (h : s.Inv) : (patternsOf s u).2.Inv := by
  unfold patternsOf
  dsimp only
  split
  · exact h
  · exact State.fresh_inv h

theorem execRollingTestEnd_inv {u : UnitId} {r : TestResult} {s : State} (h : s.Inv) : NextInv (execRollingTestEnd u r s) := by
  unfold execRollingTestEnd
  dsimp only
  split
  · exact h
  · split
    · exact h
    · split
      · split
        · exact endStandIn_inv (cutTest_inv h)
        · exact cutTest_inv h
      · exact answerTest_inv (patternsOf_inv (ite_inv (unfence_inv (backInService_inv h)) (backInService_inv h)))
      · exact answerTest_inv (patternsOf_inv (repairUnit_inv h))

theorem execSelftestRun_inv {seq : BitVec 32} {s : State} (h : s.Inv) : NextInv (execSelftestRun seq s) := by
  unfold execSelftestRun
  dsimp only
  split
  · exact h
  next r _ =>
    split
    · exact answer_inv h
    · split
      · exact State.setStage_inv h
      · split
        · exact refuse_inv h
        · have ht : Started State.Inv (startTest (wake s.quiet) _ [r.seq]) :=
            startTest_inv (u := ⟨par r.entry 36, fieldBE r.entry 38 2, par r.entry 37⟩) (wake_inv h)
          split
          next hs =>
            rw [hs] at ht
            exact ht
          next hs =>
            rw [hs] at ht
            exact State.setStage_inv ht

theorem execSelftestQuery_inv {seq : BitVec 32} {s : State} (h : s.Inv) : NextInv (execSelftestQuery seq s) := by
  unfold execSelftestQuery
  dsimp only
  split
  · exact h
  · exact done_inv (hostWrite_inv h)

theorem cutAll_inv {s : State} {cause : Nat} (h : s.Inv) : (cutAll s cause).Inv := by
  unfold cutAll
  refine foldl_inv h ?_
  intro s1 x h1
  split
  · exact cutFree_inv (endStandIn_inv h1)
  · exact cutFree_inv h1

theorem execSelftestCtl_inv {seq : BitVec 32} {s : State} (h : s.Inv) : NextInv (execSelftestCtl seq s) := by
  unfold execSelftestCtl
  dsimp only
  split
  · exact h
  · split
    · exact answer_inv h
    · exact done_inv (ite_inv (cutAll_inv h) h)

theorem execSelftestControllerStop_inv {s : State} (h : s.Inv) : NextInv (execSelftestControllerStop s) := by
  unfold execSelftestControllerStop
  dsimp only
  split
  · exact h
  · exact unitFenced_inv (frame_inv (cutAll_inv h))

theorem execRepairCtl_inv {seq : BitVec 32} {s : State} (h : s.Inv) : NextInv (execRepairCtl seq s) := by
  unfold execRepairCtl
  dsimp only
  split
  · exact h
  · exact done_inv (ite_inv (frame_inv (ite_inv (hostWrite_inv h) h)) (ite_inv (hostWrite_inv h) h))

theorem execCalRead_inv {seq : BitVec 32} {s : State} (h : s.Inv) : NextInv (execCalRead seq s) := by
  unfold execCalRead
  dsimp only
  split
  · exact h
  · exact done_inv (hostWrite_inv h)

theorem execCalWrite_inv {seq : BitVec 32} {data : List Byte} {s : State} (h : s.Inv) : NextInv (execCalWrite seq data s) := by
  unfold execCalWrite
  dsimp only
  split
  · exact h
  · split
    · exact complete_inv h
    · exact h

theorem calWritten_inv {s : State} {detail : Nat} (h : s.Inv) : (calWritten s detail).Inv :=
  logEvent_inv' h

theorem execCalNorWriteDone_inv {s : State} (h : s.Inv) : NextInv (execCalNorWriteDone s) := by
  unfold execCalNorWriteDone
  dsimp only
  split
  · split
    · exact h
    · exact complete_inv (calWritten_inv h)
  · exact h

theorem execRecal_inv {seq : BitVec 32} {s : State} (h : s.Inv) : NextInv (execRecal seq s) := by
  unfold execRecal
  dsimp only
  split
  · exact h
  · exact done_inv h

theorem execBistStatus_inv {s : State} (h : s.Inv) : NextInv (execBistStatus s) :=
  smbusRead_inv h

theorem execCalStatus_inv {s : State} (h : s.Inv) : NextInv (execCalStatus s) :=
  smbusRead_inv h

/-! ## The twin -/

theorem endTwinCommands_inv {s : State} (h : s.Inv) : (endTwinCommands s).Inv :=
  foldl_inv h fun _ _ h => completeNow_inv h

theorem losePartnerPaths_inv {s : State} (h : s.Inv) : (losePartnerPaths s).Inv :=
  foldl_inv h fun _ _ h => loseLink_inv h

theorem linkDown_inv {s : State} {detail : Nat} (h : s.Inv) : (linkDown s detail).Inv :=
  losePartnerPaths_inv (ite_inv (endTwinCommands_inv (frame_inv (logEvent_inv' h))) (frame_inv (logEvent_inv' h)))

theorem execJalarnLinkUp_inv {x4 : Bool} {lane : Nat} {s : State} (h : s.Inv) : NextInv (execJalarnLinkUp x4 lane s) := by
  unfold execJalarnLinkUp
  dsimp only
  split
  · exact h
  · exact sendControl_inv (ite_inv (logEvent_inv' (logEvent_inv' h)) (logEvent_inv' h))

theorem execIdent_inv {m : IdentMsg} {s : State} (h : s.Inv) : NextInv (execIdent m s) := by
  unfold execIdent
  dsimp only
  split
  · exact h
  · split
    · exact logEvent_inv' h
    · exact h

theorem execReceiverLockLost_inv {s : State} (h : s.Inv) : NextInv (execReceiverLockLost s) := by
  unfold execReceiverLockLost
  dsimp only
  split
  · exact linkDown_inv h
  · exact h

theorem groupAct_inv {s : State} {g : Group} (h : s.Inv) : (groupAct s g).Inv := by
  unfold groupAct
  dsimp only
  split
  · split
    · exact ite_inv (finishCommit_inv h) h
    · exact h
  · split
    next h16 =>
      exact endedJob_inv (completeNow_inv h) h16
    next h17 =>
      exact endedJob_inv (completeNow_inv h) h17
    · exact completeNow_inv h
  · split
    next h16 =>
      exact areaDone_inv (endedJob_inv h h16)
    · exact h
  · split <;> exact h
  · exact runSub_inv h
  · exact h
  · exact ite_inv (releaseBarrier_inv h) h
  · exact h

theorem tryHandover_inv {s : State} {i : Nat} (h : s.Inv) : (tryHandover s i).Inv := by
  unfold tryHandover
  dsimp only
  exact ite_inv h (branch_inv id (fun h => logEvent_inv' (sendControl_inv (leaveModule_inv h))) (foldl_inv h fun s x h => commitOff_inv h))

theorem tryHandovers_inv {s : State} (h : s.Inv) : (tryHandovers s).Inv :=
  foldl_inv h fun _ _ h => tryHandover_inv h

theorem ackGroups_inv {s : State} {j : Nat} (h : s.Inv) : (ackGroups s j).Inv :=
  resumeOps_inv (tryHandovers_inv (foldl_inv h fun _ _ h => groupAct_inv h))

theorem takeAck_inv {s : State} {j : Nat} (h : s.Inv) : (takeAck s j).Inv :=
  ite_inv (ackGroups_inv h) h

theorem execMirrorAck_inv {jsn : BitVec 48} {s : State} (h : s.Inv) : NextInv (execMirrorAck jsn s) := by
  unfold execMirrorAck
  dsimp only
  split
  · exact takeAck_inv h
  · exact h

theorem copyLines_inv {s : State} {i n : Nat} (h : s.Inv) : (copyLines s i n).2.Inv :=
  ite_inv (sendControl_inv (sendSlots_inv h)) (sendSlots_inv h)

theorem foldl_snd_inv {α β : Type} {f : β × State → α → β × State} {l : List α} {x : β × State} (h : x.2.Inv)
    (hf : ∀ x a, x.2.Inv → (f x a).2.Inv) : (l.foldl f x).2.Inv := by
  induction l generalizing x with
  | nil => exact h
  | cons a l ih => exact ih (hf x a h)

theorem runCopies_inv {s : State} {n : Nat} (h : s.Inv) : (runCopies s n).2.Inv :=
  foldl_snd_inv h fun _ _ h => copyLines_inv h

theorem execMirrorRefill_inv {s : State} (h : s.Inv) : NextInv (execMirrorRefill s) := by
  unfold execMirrorRefill
  dsimp only
  split
  · exact h
  · refine sendGroups_inv (foldl_inv ?_ fun _ _ h => h)
    refine frame_inv (runCopies_inv ?_)
    exact frame_inv (foldl_inv h fun _ _ h => h)

theorem putLine_inv {s : State} {m : MLine} (h : s.Inv) : (putLine s m).Inv :=
  ite_inv (line_inv (dropDomes_inv h)) h

theorem takeSlot_inv {s : State} {x : List Byte} (h : s.Inv) : (takeSlot s x).Inv := by
  unfold takeSlot
  dsimp only
  split
  · exact h
  · exact h
  · exact putLine_inv h
  · exact h

theorem execJalarnFlitReceive_inv {flit : List Byte} {s : State} (h : s.Inv) : NextInv (execJalarnFlitReceive flit s) := by
  unfold execJalarnFlitReceive
  dsimp only
  split
  · exact h
  · split
    · split
      · exact linkDown_inv h
      · exact h
    · exact branch_inv sendGroups_inv id (takeAck_inv (ite_inv (foldl_inv h fun s x h => takeSlot_inv h) h))

theorem applyLine_inv {s : State} {m : MLine} (h : s.Inv) : (applyLine s m).Inv :=
  ite_inv h (ite_inv h (ite_inv h (putLine_inv h)))

theorem followMirror_inv {s : State} {i : Nat} (h : s.Inv) : (followMirror s i).Inv := by
  unfold followMirror
  dsimp only
  split
  · exact h
  · split
    · exact destroyInst_inv h
    · split
      · split
        · refine foldl_inv h ?_
          intro s1 x h1
          split
          · exact importSeq_inv h1
          · exact h1
        · refine foldl_inv h ?_
          intro s1 x h1
          split
          · exact importSeq_inv h1
          · exact h1
        · refine foldl_inv h ?_
          intro s1 x h1
          split
          · exact importSeq_inv h1
          · exact h1
        · refine foldl_inv h ?_
          intro s1 x h1
          split
          · exact importSeq_inv h1
          · exact h1
        · refine foldl_inv h ?_
          intro s1 x h1
          split
          · exact importSeq_inv h1
          · exact h1
        · refine foldl_inv h ?_
          intro s1 x h1
          split
          · exact importSeq_inv h1
          · exact h1
        · refine foldl_inv h ?_
          intro s1 x h1
          split
          · exact importSeq_inv h1
          · exact h1
      · split
        · refine foldl_inv (State.updInst_inv (dropInstTlb_inv h)) ?_
          intro s1 x h1
          split
          · exact importSeq_inv h1
          · exact h1
        · refine foldl_inv (State.updInst_inv (dropInstTlb_inv h)) ?_
          intro s1 x h1
          split
          · exact importSeq_inv h1
          · exact h1
        · refine foldl_inv (State.updInst_inv (dropInstTlb_inv h)) ?_
          intro s1 x h1
          split
          · exact importSeq_inv h1
          · exact h1
        · refine foldl_inv (State.updInst_inv (dropInstTlb_inv h)) ?_
          intro s1 x h1
          split
          · exact importSeq_inv h1
          · exact h1
        · refine foldl_inv (State.updInst_inv (dropInstTlb_inv h)) ?_
          intro s1 x h1
          split
          · exact importSeq_inv h1
          · exact h1
        · refine foldl_inv (State.updInst_inv (dropInstTlb_inv h)) ?_
          intro s1 x h1
          split
          · exact importSeq_inv h1
          · exact h1
        · refine foldl_inv (State.updInst_inv (dropInstTlb_inv h)) ?_
          intro s1 x h1
          split
          · exact importSeq_inv h1
          · exact h1

theorem applyGroup_inv {s : State} {jsn i : Nat} {ls : List MLine} (h : s.Inv) : (applyGroup s jsn i ls).Inv :=
  followMirror_inv (State.updInst_inv (foldl_inv h fun _ _ h => applyLine_inv h))

theorem applyFirst_inv {s : State} (h : s.Inv) : (applyFirst s).Inv := by
  unfold applyFirst
  dsimp only
  split
  · exact h
  · exact applyGroup_inv h

theorem execStagingApply_inv {s : State} (h : s.Inv) : NextInv (execStagingApply s) := by
  unfold execStagingApply
  dsimp only
  split
  · exact applyFirst_inv h
  · exact h

theorem becomePaired_inv {s : State} {seq : Nat} (h : s.Inv) : (becomePaired s seq).Inv := by
  unfold becomePaired
  dsimp only
  split
  · exact h
  · exact completeNow_inv (logEvent_inv' h)

theorem refuseTwin_inv {s : State} {r : Request} {i : Nat} (h : s.Inv) : (refuseTwin s r i).Inv :=
  refuse_inv h

theorem execTwinPair_inv {seq : BitVec 32} {s : State} (h : s.Inv) : NextInv (execTwinPair seq s) := by
  unfold execTwinPair
  dsimp only
  split
  · exact h
  · split
    · exact refuseTwin_inv h
    · split
      · exact h
      · split
        · exact answer_inv h
        · split
          · exact answer_inv (sendControl_inv h)
          · split
            · exact becomePaired_inv (sendControl_inv h)
            · exact answer_inv (frame_inv (sendControl_inv h))
            · exact State.setStage_inv (frame_inv (sendControl_inv h))

theorem execPair_inv {modid : BitVec 22} {dkey0 : Bool} {s : State} (h : s.Inv) : NextInv (execPair modid dkey0 s) := by
  unfold execPair
  dsimp only
  split
  · exact h
  · split
    · split
      · exact becomePaired_inv h
      · exact completeNow_inv h
    · exact h

theorem sendProtect_inv {s : State} {i : Nat} (h : s.Inv) : (sendProtect s i).Inv :=
  sendControl_inv h

theorem execTwinProtect_inv {seq : BitVec 32} {s : State} (h : s.Inv) : NextInv (execTwinProtect seq s) := by
  unfold execTwinProtect
  dsimp only
  split
  · exact h
  · split
    · exact refuseTwin_inv h
    · split
      · exact refuse_inv h
      · split
        · exact answer_inv h
        · split
          · exact answer_inv h
          · split
            · exact refuse_inv (State.fresh_inv h)
            · exact answer_inv (State.fresh_inv h)
            · split
              · exact done_inv (State.setInst_inv (sendProtect_inv (wake_inv (State.fresh_inv h))))
              · split
                · exact sendControl_inv (closeHub_inv (frame_inv (State.setStage_inv (State.setInst_inv (sendProtect_inv (wake_inv
                    (State.fresh_inv h)))))))
                · exact frame_inv (closeHub_inv (frame_inv (State.setStage_inv (State.setInst_inv (sendProtect_inv (wake_inv
                    (State.fresh_inv h)))))))

theorem execCopyDone_inv {i : Nat} {ack : Bool} {s : State} (h : s.Inv) : NextInv (execCopyDone i ack s) := by
  unfold execCopyDone
  dsimp only
  split
  · exact h
  · split
    · split
      · split
        · exact h
        · exact completeNow_inv h
      · exact h
    · split <;> exact h

theorem foldl_bind_inv {α : Type} {f : α → State → Option State} {l : List α} {x : Option State} {u : State} (hx : ∀ s ∈ x, s.Inv)
    (hf : ∀ a s t, s.Inv → f a s = some t → t.Inv) (e : l.foldl (fun x a => x.bind (f a)) x = some u) : u.Inv := by
  induction l generalizing x with
  | nil => exact hx u e
  | cons a l ih =>
    refine ih (fun t ht => ?_) e
    obtain ⟨s, hs, ht⟩ := Option.bind_eq_some_iff.mp ht
    exact hf a s t (hx s hs) ht

theorem execProtect_inv {m : ProtectMsg} {s : State} (h : s.Inv) : NextInv (execProtect m s) := by
  unfold execProtect
  dsimp only
  split
  · exact h
  · generalize hx : List.foldl _ _ m.shares = x
    cases x with
    | none => exact h
    | some u =>
      refine foldl_bind_inv ?_ ?_ hx
      · rintro _ ⟨⟩
        exact State.setInst_inv h
      · intro e s t h ht
        split at ht
        · cases ht
        · split at ht
          next hm =>
            cases ht
            split at hm
            · cases hm
              exact State.updInst_inv h
            · exact State.updInst_inv (moveUnits_inv h hm)
          · cases ht

theorem execTwinHandover_inv {seq : BitVec 32} {s : State} (h : s.Inv) : NextInv (execTwinHandover seq s) := by
  unfold execTwinHandover
  dsimp only
  split
  · exact h
  · split
    · exact refuseTwin_inv h
    · split
      · exact refuse_inv h
      · exact tryHandover_inv (closeHub_inv (withdrawAll_inv h))

theorem allowTake_inv {s : State} {i : Nat} {byHandover : Bool} (h : s.Inv) : (allowTake s i byHandover).Inv :=
  ite_inv h h

theorem execSurrender_inv {i : Nat} {jsn : BitVec 48} {s : State} (h : s.Inv) : NextInv (execSurrender i jsn s) := by
  unfold execSurrender
  dsimp only
  split
  · exact allowTake_inv h
  · exact h

theorem execHandover_inv {i : Nat} {jsn : BitVec 48} {s : State} (h : s.Inv) : NextInv (execHandover i jsn s) := by
  unfold execHandover
  dsimp only
  split
  · exact h
  · split
    · split
      · exact completeNow_inv h
      · exact h
    · exact allowTake_inv h

theorem leavePair_inv {s : State} (h : s.Inv) : (leavePair s).Inv :=
  endTwinCommands_inv (foldl_inv h fun _ _ h => groupAct_inv h)

theorem execPartnerLostTimeout_inv {s : State} (h : s.Inv) : NextInv (execPartnerLostTimeout s) := by
  unfold execPartnerLostTimeout
  dsimp only
  split
  · exact h
  · exact frame_inv (ite_inv (linkDown_inv (tick_inv h)) (tick_inv h))

theorem execFenceAsk_inv {ackLow : Bool} {s : State} (h : s.Inv) : NextInv (execFenceAsk ackLow s) := by
  unfold execFenceAsk
  dsimp only
  split
  · exact h
  · split
    · exact logEvent_inv' (frame_inv (leavePair_inv (frame_inv (passUntil_inv (ite_inv (tick_inv h) h)))))
    · exact frame_inv (passUntil_inv (ite_inv (tick_inv h) h))

theorem execFenceUnanswered_inv {s : State} (h : s.Inv) : NextInv (execFenceUnanswered s) := by
  unfold execFenceUnanswered
  dsimp only
  split
  · exact h
  · split
    · exact h
    · exact frame_inv (leavePair_inv (logEvent_inv' (passUntil_inv h)))

theorem execFenceLatchSet_inv {s : State} (h : s.Inv) : NextInv (execFenceLatchSet s) := by
  unfold execFenceLatchSet
  dsimp only
  split
  · exact h
  · exact h
  · exact h
  · exact h
  · exact h
  · split
    · exact h
    · exact logEvent_inv' (endTwinCommands_inv (frame_inv (foldl_inv h fun s x h => surrender_inv h)))

theorem execTwinQuery_inv {seq : BitVec 32} {s : State} (h : s.Inv) : NextInv (execTwinQuery seq s) := by
  unfold execTwinQuery
  dsimp only
  split
  · exact h
  · split <;> exact done_inv h

/-! ## Takeover and replay -/

theorem redoOp_inv {s : State} {i : Nat} {es : List JEntry} {e : JEntry} {since : Nat} (h : s.Inv) : (redoOp s i es e since).Inv := by
  unfold redoOp
  dsimp only
  split
  · exact endSub_inv (journal_inv (takeGroup_inv h))
  · split
    · split
      · exact endSub_inv (logPoison_inv (State.setSub_inv (journal_inv (takeGroup_inv h))))
      · exact endSub_inv (State.setSub_inv (journal_inv (takeGroup_inv h)))
    · exact State.setSub_inv (journal_inv (takeGroup_inv h))

theorem endedOp_inv {s : State} {i : Nat} {es : List JEntry} {e : JEntry} (h : s.Inv) : (endedOp s i es e).Inv :=
  ite_inv (journal_inv (takeGroup_inv h)) (writeStatus_inv (journal_inv (takeGroup_inv h)))

theorem scanJournal_inv {s : State} {i since : Nat} (h : s.Inv) : (scanJournal s i since).Inv := by
  unfold scanJournal
  dsimp only
  refine foldl_inv h ?_
  intro s1 x h1
  split
  · exact h1
  · exact ite_inv h1 (ite_inv (endedOp_inv h1) (redoOp_inv h1))

theorem takeOps_inv {s : State} {i : Nat} {d : List Byte} (h : s.Inv) : (takeOps s i d).Inv :=
  foldl_inv h fun _ _ h => ite_inv h (takeGroup_inv (State.setSub_inv (frame_inv (State.fresh_inv h))))

theorem takeContexts_inv {s : State} {i : Nat} (h : s.Inv) : (takeContexts s i).Inv :=
  foldl_inv h fun _ _ h => ite_inv h (State.setVe_inv (State.fresh_inv h))

theorem takeControl_inv {s : State} {i : Nat} (h : s.Inv) : (takeControl s i).Inv := by
  unfold takeControl
  dsimp only
  refine reserveRings_inv (foldl_inv (foldl_inv h ?_) fun s x h => h)
  intro s1 x h1
  split
  · exact takeOps_inv h1
  · exact importKeys_inv h1
  · exact importQueues_inv h1
  · exact importSeq_inv h1
  · exact h1

theorem rewriteCompletions_inv {s : State} {i : Nat} (h : s.Inv) : (rewriteCompletions s i).Inv :=
  foldl_inv h fun _ _ h => gather_inv (hostWrite_inv h)

theorem allDirty_inv {s : State} {i : Nat} (h : s.Inv) : (allDirty s i).Inv := by
  unfold allDirty
  dsimp only
  split <;> exact h

theorem logTakeover_inv {s : State} {i : Nat} (h : s.Inv) : (logTakeover s i).Inv :=
  ite_inv (sendMsix_inv (frame_inv (logEvent_inv' h))) (logEvent_inv' h)

theorem endForce_inv {s : State} (h : s.Inv) : (endForce s).Inv := by
  unfold endForce
  dsimp only
  split
  · exact ite_inv h (completeNow_inv h)
  · exact h

theorem takeInst_inv {s : State} {i since : Nat} (h : s.Inv) : (takeInst s i since).Inv :=
  logTakeover_inv (allDirty_inv (rewriteCompletions_inv (scanJournal_inv (State.updInst_inv (takeControl_inv (takeContexts_inv
    (dropInstTlb_inv h)))))))

theorem execTakeover_inv {i : Nat} {s : State} (h : s.Inv) : NextInv (execTakeover i s) := by
  unfold execTakeover
  dsimp only
  split
  · exact h
  · split
    · exact foldl_inv h fun s x h => applyFirst_inv h
    · split
      · exact endForce_inv (foldl_inv h fun s x h => applyFirst_inv h)
      · exact endForce_inv (branch_inv sendControl_inv id (frame_inv (takeInst_inv (frame_inv (foldl_inv h fun s x h => applyFirst_inv h)))))

theorem execTwinForce_inv {seq : BitVec 32} {s : State} (h : s.Inv) : NextInv (execTwinForce seq s) := by
  unfold execTwinForce
  dsimp only
  split
  · exact h
  · split
    · exact refuseTwin_inv h
    · split
      · exact answer_inv h
      · exact endForce_inv (logEvent_inv' h)

/-! ## Resets and start-up -/

theorem coldState_inv {s : State} {cause : Nat} (h : s.Inv) : (coldState s cause).Inv := by
  obtain ⟨-, -, hs⟩ := h
  exact ⟨rfl, Nat.zero_le _, hs⟩

theorem warmState_inv {s : State} (h : s.Inv) : (warmState s).Inv := by
  obtain ⟨-, hl, hs⟩ := h
  exact ⟨rfl, hl, hs⟩

theorem applyPending_inv {s : State} {sealLost : Bool} (h : s.Inv) : (applyPending s sealLost).Inv :=
  h

theorem measureRom_inv {s : State} (h : s.Inv) : (measureRom s).Inv :=
  extendReg_inv (extendReg_inv h)

theorem tryImage_inv {s : State} {k : Nat} {m : NorImage} (h : s.Inv) : (tryImage s k m).2.Inv :=
  extendReg_inv (setRegion_inv h)

theorem tryImages_inv {s : State} {l : List (Nat × NorImage)} (h : s.Inv) : (tryImages s l).2.Inv := by
  induction l generalizing s with
  | nil => exact h
  | cons x l ih =>
    obtain ⟨k, m⟩ := x
    have ht : (tryImage s k m).2.Inv := tryImage_inv h
    unfold tryImages
    split
    next hx => exact snd_inv hx ht
    next hx => exact ih (snd_inv hx ht)

theorem selectImage_inv {s : State} {warm : Bool} (h : s.Inv) : (selectImage s warm).2.Inv :=
  tryImages_inv (frame_inv h)

theorem putImage_inv {s : State} {k : Nat} {m : NorImage} (h : s.Inv) : (putImage s k m).Inv :=
  extendReg_inv h

theorem loadPackage_inv {s : State} {warm sealLost : Bool} (h : s.Inv) : (loadPackage s warm sealLost).2.Inv :=
  extendReg_inv h

theorem loadCal_inv {s : State} {warm calLost : Bool} (h : s.Inv) : (loadCal s warm calLost).2.Inv :=
  extendReg_inv (frame_inv (State.fresh_inv h))

theorem writeEntry_inv {s : State} {warm : Bool} {ms : Nat} (h : s.Inv) : (writeEntry s warm ms).Inv :=
  frame_inv (extendReg_inv (extendReg_inv h))

theorem loadMicrocode_inv {s : State} (h : s.Inv) : (loadMicrocode s).Inv :=
  h

theorem fenceStart_inv {s : State} {u : UnitId} (h : s.Inv) : (fenceStart s u).2.Inv := by
  unfold fenceStart
  dsimp only
  split
  · split <;> exact h
  · exact State.updDome_inv (fenceUnit_inv h)
  · exact h
  · exact frame_inv (fenceUnit_inv h)
  · exact h
  · exact h
  · exact fenceUnit_inv h

theorem fenceAll_inv {s : State} {l : List UnitId} (h : s.Inv) : (fenceAll s l).2.Inv :=
  foldl_snd_inv h fun _ _ h => fenceStart_inv h

theorem retrain_inv {s : State} {l : List (Nat × List Byte)} (h : s.Inv) : (retrain s l).2.Inv := by
  unfold retrain
  dsimp only
  split <;> exact h

theorem clearSticky_inv {s : State} (h : s.Inv) : State.Inv { s with bel := { s.bel with sticky := [], stickyOld := 0 } } := by
  obtain ⟨hm, hl, -⟩ := h
  exact ⟨hm, hl, Nat.zero_le _⟩

theorem copyFatal_inv {s : State} {warm : Bool} (h : s.Inv) : (copyFatal s warm).Inv := by
  unfold copyFatal
  dsimp only
  split
  · split
    · exact logWrite_inv h
    · exact h
  · split
    · exact clearSticky_inv (logWrite_inv h)
    · exact clearSticky_inv h

theorem logLatches_inv {s : State} (h : s.Inv) : (logLatches s).Inv :=
  frame_inv (branch_inv logEvent_inv' id (branch_inv logEvent_inv' id (ite_inv (logEvent_inv' h) h)))

theorem logHub_inv {s : State} (h : s.Inv) : (logHub s).Inv := by
  unfold logHub
  dsimp only
  split
  · exact ite_inv h (logEvent_inv' h)
  · exact h

theorem logHead_inv {s : State} {warm : Bool} (h : s.Inv) : (logHead s warm).Inv :=
  logHub_inv (logLatches_inv (copyFatal_inv (logEvent_inv' (logEvent_inv' h))))

theorem releaseState_inv {s : State} {warm : Bool} {r : StartResult} (h : s.Inv) : (releaseState s warm r).2.Inv :=
  frame_inv (fenceAll_inv (frame_inv h))

theorem startRepair_inv {s : State} {u : UnitId} {kind : Nat} (h : s.Inv) : (startRepair s u kind).Inv :=
  scheduleFuse_inv (ite_inv (testFailed_inv (fenceUnit_inv h)) (testFailed_inv h))

theorem logStart_inv {s : State} {warm : Bool} {r : StartResult} {repairs : List Repair} {fenced : List (UnitId × Nat)}
    {keyLost calBad trained : Bool} (h : s.Inv) : (logStart s warm r repairs fenced keyLost calBad trained).Inv := by
  unfold logStart
  have hl := foldl_inv (l := repairs) (logHead_inv (warm := warm) h) fun s x h =>
    logEvent_inv' (e := { s.entry 0x83 0 x.unit.source x.unit.unit with param := paramAt 48 1 x.kind }) h
  refine frame_inv (branch_inv id logEvent_inv' (branch_inv calWritten_inv id (branch_inv logEvent_inv' id (branch_inv logEvent_inv' id ?_))))
  refine branch_inv id (fun h => foldl_inv h fun _ _ h => startRepair_inv h) (foldl_inv hl fun s x h => ?_)
  split
  · exact unitFenced_inv h
  · exact branch_inv scheduleFuse_inv id (testFailed_inv h)

theorem stayDown_inv {s : State} (h : s.Inv) : (stayDown s).Inv :=
  h

theorem startSteps_inv {s : State} {warm : Bool} {r : StartResult} (h : s.Inv) : (startSteps s warm r).Inv := by
  unfold startSteps
  dsimp only
  have h1 : (selectImage (measureRom (if warm then s else applyPending s r.sealLost)) warm).2.Inv :=
    selectImage_inv (measureRom_inv (ite_inv h (applyPending_inv h)))
  split
  · exact stayDown_inv h1
  next k m _ =>
    have h2 := loadPackage_inv (s := putImage _ k m) (warm := warm) (sealLost := r.sealLost) (putImage_inv h1)
    have h3 := loadCal_inv (warm := warm) (calLost := r.calLost) (loadMicrocode_inv h2)
    cases warm with
    | true =>
      simp only [↓reduceIte]

      refine ite_inv (stayDown_inv h3) ?_
      exact logStart_inv (releaseState_inv (writeEntry_inv h3))
    | false =>
      simp only [Bool.false_eq_true, ↓reduceIte] at h3 ⊢
      generalize loadCal _ _ _ = p at h3 ⊢
      split
      · exact stayDown_inv (frame_inv h3)
      · split
        · exact stayDown_inv (frame_inv (retrain_inv (frame_inv h3)))
        · exact logStart_inv (releaseState_inv (writeEntry_inv (retrain_inv (frame_inv h3))))

theorem execStartUpComplete_inv {r : StartResult} {s : State} (h : s.Inv) : NextInv (execStartUpComplete r s) := by
  unfold execStartUpComplete
  dsimp only
  split
  · exact startSteps_inv h
  · exact h

theorem execWarmResetEnd_inv {r : StartResult} {s : State} (h : s.Inv) : NextInv (execWarmResetEnd r s) := by
  unfold execWarmResetEnd
  dsimp only
  split
  · exact startSteps_inv h
  · exact h

theorem execWarmReset_inv {v : Byte} {s : State} (h : s.Inv) : NextInv (execWarmReset v s) :=
  smbusWrite_inv h fun _ h => ite_inv (warmState_inv (cutAll_inv h)) h

theorem execPerstAssert_inv {rails : Bool} {s : State} (h : s.Inv) : NextInv (execPerstAssert rails s) := by
  unfold execPerstAssert
  dsimp only
  split
  · exact h
  · exact coldState_inv h

theorem execPerstDeassert_inv {strap : BitVec 2} {s : State} (h : s.Inv) : NextInv (execPerstDeassert strap s) := by
  unfold execPerstDeassert
  dsimp only
  split <;> exact h

theorem execVauxLoss_inv {s : State} (h : s.Inv) : NextInv (execVauxLoss s) := by
  obtain ⟨hm, hl, -⟩ := h
  exact ⟨hm, hl, Nat.zero_le _⟩

/-! ## Clocks and power -/

theorem execHeartbeatLapse_inv {s : State} (h : s.Inv) : NextInv (execHeartbeatLapse s) := by
  unfold execHeartbeatLapse
  dsimp only
  split <;> exact h

theorem execRefclkLoss_inv {s : State} (h : s.Inv) : NextInv (execRefclkLoss s) := by
  unfold execRefclkLoss
  dsimp only
  split <;> exact h

theorem execThermtrip_inv {sensor : Nat} {s : State} (h : s.Inv) : NextInv (execThermtrip sensor s) := by
  unfold execThermtrip
  dsimp only
  split <;> exact h

theorem setThrottle_inv {s : State} {n : Nat} (h : s.Inv) : (setThrottle s n).Inv :=
  ite_inv h (logEvent_inv' h)

theorem execThermalSample_inv {sensor : Nat} {temp : BitVec 16} {s : State} (h : s.Inv) : NextInv (execThermalSample sensor temp s) := by
  unfold execThermalSample
  dsimp only
  split
  · exact h
  · exact setThrottle_inv h

theorem execThrottleRelease_inv {s : State} (h : s.Inv) : NextInv (execThrottleRelease s) := by
  unfold execThrottleRelease
  dsimp only
  split
  · exact h
  · split
    · exact h
    · exact setThrottle_inv (passUntil_inv h)

theorem execSleepEntry_inv {s : State} (h : s.Inv) : NextInv (execSleepEntry s) := by
  unfold execSleepEntry
  dsimp only
  split
  · exact setPower_inv (tick_inv (cutAll_inv h))
  · exact h

theorem execDeepSleepEntry_inv {s : State} (h : s.Inv) : NextInv (execDeepSleepEntry s) := by
  unfold execDeepSleepEntry
  dsimp only
  split
  · exact setPower_inv (tick_inv h)
  · exact h

theorem execPowerWake_inv {s : State} (h : s.Inv) : NextInv (execPowerWake s) := by
  unfold execPowerWake
  dsimp only
  split
  · exact setPower_inv (tick_inv h)
  · exact h

theorem execClkStatus_inv {s : State} (h : s.Inv) : NextInv (execClkStatus s) :=
  smbusRead_inv h

theorem execGateRead_inv {s : State} (h : s.Inv) : NextInv (execGateRead s) :=
  smbusRead_inv h

/-! ## SMBus, pins and TAP -/

theorem execHealth_inv {s : State} (h : s.Inv) : NextInv (execHealth s) :=
  smbusRead_inv h

theorem execSelect_inv {data : List Byte} {s : State} (h : s.Inv) : NextInv (execSelect data s) :=
  smbusWrite_inv h fun _ h => ite_inv h h

theorem execEventRead_inv {s : State} (h : s.Inv) : NextInv (execEventRead s) := by
  unfold execEventRead
  dsimp only
  split
  · exact h
  · split
    · split
      · exact State.emit_inv h
      · exact h
    · split
      · exact State.emit_inv h
      · exact h

theorem execAlertAck_inv {v : Byte} {s : State} (h : s.Inv) : NextInv (execAlertAck v s) :=
  smbusWrite_inv h fun _ h => ite_inv h h

theorem execTapInstruction_inv {t : TapInsn} {s : State} (h : s.Inv) : NextInv (execTapInstruction t s) := by
  unfold execTapInstruction
  dsimp only
  split
  · exact h
  · split <;> exact h

/-! ## One step -/

theorem exec_inv {c : Instr} {s : State} (h : s.Inv) : NextInv (exec c s) := by
  cases c with
  | reqRingDoorbell => exact execReqRingDoorbell_inv h
  | cplRingDoorbell => exact execCplRingDoorbell_inv h
  | ringBaseWrite => exact execRingBaseWrite_inv h
  | reqRingCtlWrite => exact execReqRingCtlWrite_inv h
  | cplRingCtlWrite => exact execCplRingCtlWrite_inv h
  | keyStagingWrite => exact execKeyStagingWrite_inv h
  | msixVectorUnmask => exact execMsixVectorUnmask_inv h
  | registerWrite => exact execRegisterWrite_inv h
  | pcieConfigRequest => exact execPcieConfigRequest_inv h
  | requestFetchStart => exact execRequestFetchStart_inv h
  | requestEntryArrive => exact execRequestEntryArrive_inv h
  | hostReadFailed => exact execHostReadFailed_inv h
  | coalTimerExpire => exact execCoalTimerExpire_inv h
  | vfFlr => exact execVfFlr_inv h
  | pfFlr => exact execPfFlr_inv h
  | flrComplete => exact execFlrComplete_inv h
  | busMasterEnableSet => exact execBusMasterEnableSet_inv h
  | vfEnableClear => exact execVfEnableClear_inv h
  | hostPortReset => exact execHostPortReset_inv h
  | pf0D3hotEnter => exact execPf0D3hotEnter_inv h
  | pf0D0Return => exact execPf0D0Return_inv h
  | doeDiscovery => exact execDoeDiscovery_inv h
  | bootHead => exact execBootHead_inv h
  | bootEntries => exact execBootEntries_inv h
  | attest => exact execAttest_inv h
  | attestSigned => exact execAttestSigned_inv h
  | identityCert => exact execIdentityCert_inv h
  | measure => exact execMeasure_inv h
  | doeAbort => exact execDoeAbort_inv h
  | create => exact execCreate_inv h
  | start => exact execStart_inv h
  | quiesce => exact execQuiesce_inv h
  | quiesceComplete => exact execQuiesceComplete_inv h
  | resume => exact execResume_inv h
  | reset => exact execReset_inv h
  | destroy => exact execDestroy_inv h
  | query => exact execQuery_inv h
  | setEngines => exact execSetEngines_inv h
  | resize => exact execResize_inv h
  | shrinkComplete => exact execShrinkComplete_inv h
  | setWindow => exact execSetWindow_inv h
  | poolQuery => exact execPoolQuery_inv h
  | exportInst => exact execExportInst_inv h
  | importInst => exact execImportInst_inv h
  | logEnable => exact execLogEnable_inv h
  | logHarvest => exact execLogHarvest_inv h
  | logDisable => exact execLogDisable_inv h
  | logRead => exact execLogRead_inv h
  | logNotify => exact execLogNotify_inv h
  | twinQuery => exact execTwinQuery_inv h
  | twinPair => exact execTwinPair_inv h
  | twinProtect => exact execTwinProtect_inv h
  | twinHandover => exact execTwinHandover_inv h
  | twinForce => exact execTwinForce_inv h
  | selftestRun => exact execSelftestRun_inv h
  | selftestQuery => exact execSelftestQuery_inv h
  | selftestCtl => exact execSelftestCtl_inv h
  | calRead => exact execCalRead_inv h
  | calWrite => exact execCalWrite_inv h
  | recal => exact execRecal_inv h
  | repairCtl => exact execRepairCtl_inv h
  | imageQuery => exact execImageQuery_inv h
  | imageWrite => exact execImageWrite_inv h
  | imagePush => exact execImagePush_inv h
  | imageSelect => exact execImageSelect_inv h
  | imageNorWriteDone => exact execImageNorWriteDone_inv h
  | msg => exact execMsg_inv h
  | storeWrite => exact execStoreWrite_inv h
  | storeRead => exact execStoreRead_inv h
  | restart => exact execRestart_inv h
  | gcmEncrypt => exact execGcmEncrypt_inv h
  | gcmDecrypt => exact execGcmDecrypt_inv h
  | gmacGenerate => exact execGmacGenerate_inv h
  | gmacVerify => exact execGmacVerify_inv h
  | xtsEncrypt => exact execXtsEncrypt_inv h
  | xtsDecrypt => exact execXtsDecrypt_inv h
  | cmacGenerate => exact execCmacGenerate_inv h
  | cmacVerify => exact execCmacVerify_inv h
  | hmacGenerate => exact execHmacGenerate_inv h
  | hmacVerify => exact execHmacVerify_inv h
  | hash => exact execHash_inv h
  | keyLoad => exact execKeyLoad_inv h
  | keyWrap => exact execKeyWrap_inv h
  | keyRetire => exact execKeyRetire_inv h
  | keyLimit => exact execKeyLimit_inv h
  | compress => exact execCompress_inv h
  | decompress => exact execDecompress_inv h
  | stagingSpaceFree => exact execStagingSpaceFree_inv h
  | cipherJobStart => exact execCipherJobStart_inv h
  | cipherJobDone => exact execCipherJobDone_inv h
  | compressionJobStart => exact execCompressionJobStart_inv h
  | compressionJobDone => exact execCompressionJobDone_inv h
  | nop => exact execNop_inv h
  | commit => exact execCommit_inv h
  | signalComplete => exact execSignalComplete_inv h
  | signalVe => exact execSignalVe_inv h
  | restartVe => exact execRestartVe_inv h
  | sstart => exact execSstart_inv h
  | feat => exact execFeat_inv h
  | tbr => exact execTbr_inv h
  | barrier => exact execBarrier_inv h
  | getf => exact execGetf_inv h
  | setf => exact execSetf_inv h
  | xcall => exact execXcall_inv h
  | zcall => exact execZcall_inv h
  | pfetch => exact execPfetch_inv h
  | clnl => exact execClnl_inv h
  | invl => exact execInvl_inv h
  | flsl => exact execFlsl_inv h
  | iinvl => exact execIinvl_inv h
  | add => exact execAdd_inv h
  | addc => exact execAddc_inv h
  | sub => exact execSub_inv h
  | subb => exact execSubb_inv h
  | mul => exact execMul_inv h
  | mulwu => exact execMulwu_inv h
  | mulws => exact execMulws_inv h
  | divu => exact execDivu_inv h
  | divs => exact execDivs_inv h
  | remu => exact execRemu_inv h
  | rems => exact execRems_inv h
  | cmp => exact execCmp_inv h
  | neg => exact execNeg_inv h
  | and => exact execAnd_inv h
  | or => exact execOr_inv h
  | xor => exact execXor_inv h
  | andn => exact execAndn_inv h
  | shl => exact execShl_inv h
  | shr => exact execShr_inv h
  | sar => exact execSar_inv h
  | rol => exact execRol_inv h
  | clz => exact execClz_inv h
  | popc => exact execPopc_inv h
  | bswap => exact execBswap_inv h
  | sext => exact execSext_inv h
  | mov => exact execMov_inv h
  | csel => exact execCsel_inv h
  | addi => exact execAddi_inv h
  | cmpi => exact execCmpi_inv h
  | andi => exact execAndi_inv h
  | ori => exact execOri_inv h
  | xori => exact execXori_inv h
  | shli => exact execShli_inv h
  | shri => exact execShri_inv h
  | sari => exact execSari_inv h
  | roli => exact execRoli_inv h
  | muli => exact execMuli_inv h
  | ldb => exact execLdb_inv h
  | ldbs => exact execLdbs_inv h
  | ldh => exact execLdh_inv h
  | ldhs => exact execLdhs_inv h
  | ldw => exact execLdw_inv h
  | ldws => exact execLdws_inv h
  | ldd => exact execLdd_inv h
  | la => exact execLa_inv h
  | stb => exact execStb_inv h
  | sth => exact execSth_inv h
  | stw => exact execStw_inv h
  | std => exact execStd_inv h
  | ldq => exact execLdq_inv h
  | stq => exact execStq_inv h
  | cas => exact execCas_inv h
  | ldx => exact execLdx_inv h
  | stx => exact execStx_inv h
  | lax => exact execLax_inv h
  | fldx => exact execFldx_inv h
  | fstx => exact execFstx_inv h
  | ldp => exact execLdp_inv h
  | stp => exact execStp_inv h
  | casx => exact execCasx_inv h
  | fadd => exact execFadd_inv h
  | fsub => exact execFsub_inv h
  | fmul => exact execFmul_inv h
  | fdiv => exact execFdiv_inv h
  | fsqrt => exact execFsqrt_inv h
  | fma => exact execFma_inv h
  | fms => exact execFms_inv h
  | fnma => exact execFnma_inv h
  | fcmp => exact execFcmp_inv h
  | fmin => exact execFmin_inv h
  | fmax => exact execFmax_inv h
  | fneg => exact execFneg_inv h
  | fabs => exact execFabs_inv h
  | fcvt => exact execFcvt_inv h
  | fmovg => exact execFmovg_inv h
  | gmovf => exact execGmovf_inv h
  | fldd => exact execFldd_inv h
  | flds => exact execFlds_inv h
  | fstd => exact execFstd_inv h
  | fsts => exact execFsts_inv h
  | lfpc => exact execLfpc_inv h
  | sfpc => exact execSfpc_inv h
  | addp => exact execAddp_inv h
  | subp => exact execSubp_inv h
  | mulp => exact execMulp_inv h
  | divp => exact execDivp_inv h
  | cmpp => exact execCmpp_inv h
  | shrp => exact execShrp_inv h
  | cvbp => exact execCvbp_inv h
  | cvpb => exact execCvpb_inv h
  | editp => exact execEditp_inv h
  | movp => exact execMovp_inv h
  | bc => exact execBc_inv h
  | bal => exact execBal_inv h
  | br => exact execBr_inv h
  | balr => exact execBalr_inv h
  | bct => exact execBct_inv h
  | movb => exact execMovb_inv h
  | fillb => exact execFillb_inv h
  | cmpb => exact execCmpb_inv h
  | scanb => exact execScanb_inv h
  | translate => exact execTranslate_inv h
  | trtb => exact execTrtb_inv h
  | crcb => exact execCrcb_inv h
  | mulmb => exact execMulmb_inv h
  | mfk => exact execMfk_inv h
  | mtk => exact execMtk_inv h
  | wait => exact execWait_inv h
  | rfi => exact execRfi_inv h
  | lra => exact execLra_inv h
  | tlbi => exact execTlbi_inv h
  | tlbia => exact execTlbia_inv h
  | invr => exact execInvr_inv h
  | lockw => exact execLockw_inv h
  | unlkw => exact execUnlkw_inv h
  | undefinedOpcode => exact execUndefinedOpcode_inv h
  | interruptionTake => exact execInterruptionTake_inv h
  | clockComparator => exact execClockComparator_inv h
  | engineTimer => exact execEngineTimer_inv h
  | timeSliceEnd => exact execTimeSliceEnd_inv h
  | veDispatch => exact execVeDispatch_inv h
  | autoCommit => exact execAutoCommit_inv h
  | commitPointComplete => exact execCommitPointComplete_inv h
  | commitOnSteal => exact execCommitOnSteal_inv h
  | lineFillComplete => exact execLineFillComplete_inv h
  | domeScrub => exact execDomeScrub_inv h
  | checkpointScrub => exact execCheckpointScrub_inv h
  | storeScrub => exact execStoreScrub_inv h
  | cacheError => exact execCacheError_inv h
  | storeReadError => exact execStoreReadError_inv h
  | addressParityError => exact execAddressParityError_inv h
  | checkLineWriteback => exact execCheckLineWriteback_inv h
  | granuleZeroDone => exact execGranuleZeroDone_inv h
  | engineFaultDetected => exact execEngineFaultDetected_inv h
  | engineCheckstop => exact execEngineCheckstop_inv h
  | quickCheckEnd => exact execQuickCheckEnd_inv h
  | fuseReserveUp => exact execFuseReserveUp_inv h
  | d2dModuleFail => exact execD2dModuleFail_inv h
  | domeFail => exact execDomeFail_inv h
  | mainStoreChannelFail => exact execMainStoreChannelFail_inv h
  | hbmStackFail => exact execHbmStackFail_inv h
  | hubBlockFail => exact execHubBlockFail_inv h
  | cheStop => exact execCheStop_inv h
  | cipherEngineStop => exact execCipherEngineStop_inv h
  | compressionEngineStop => exact execCompressionEngineStop_inv h
  | spireStop => exact execSpireStop_inv h
  | belfryStop => exact execBelfryStop_inv h
  | selftestControllerStop => exact execSelftestControllerStop_inv h
  | timebaseCounterFail => exact execTimebaseCounterFail_inv h
  | heartbeatLapse => exact execHeartbeatLapse_inv h
  | refclkLoss => exact execRefclkLoss_inv h
  | thermtrip => exact execThermtrip_inv h
  | thermalSample => exact execThermalSample_inv h
  | throttleRelease => exact execThrottleRelease_inv h
  | sleepEntry => exact execSleepEntry_inv h
  | deepSleepEntry => exact execDeepSleepEntry_inv h
  | powerWake => exact execPowerWake_inv h
  | perstAssert => exact execPerstAssert_inv h
  | perstDeassert => exact execPerstDeassert_inv h
  | startUpComplete => exact execStartUpComplete_inv h
  | headSigned => exact execHeadSigned_inv h
  | vauxLoss => exact execVauxLoss_inv h
  | warmReset => exact execWarmReset_inv h
  | warmResetEnd => exact execWarmResetEnd_inv h
  | clkStatus => exact execClkStatus_inv h
  | gateRead => exact execGateRead_inv h
  | health => exact execHealth_inv h
  | select => exact execSelect_inv h
  | eventRead => exact execEventRead_inv h
  | alertAck => exact execAlertAck_inv h
  | objSelect => exact execObjSelect_inv h
  | objStatus => exact execObjStatus_inv h
  | objRead => exact execObjRead_inv h
  | attestStart => exact execAttestStart_inv h
  | pkgWrite => exact execPkgWrite_inv h
  | pkgCommit => exact execPkgCommit_inv h
  | pkgStatus => exact execPkgStatus_inv h
  | bistStatus => exact execBistStatus_inv h
  | calStatus => exact execCalStatus_inv h
  | eventMergeFlush => exact execEventMergeFlush_inv h
  | rollingTestStart => exact execRollingTestStart_inv h
  | rollingTestEnd => exact execRollingTestEnd_inv h
  | cheStartOperation => exact execCheStartOperation_inv h
  | deviceCompletion => exact execDeviceCompletion_inv h
  | commandTimeout => exact execCommandTimeout_inv h
  | pathLost => exact execPathLost_inv h
  | pathReissue => exact execPathReissue_inv h
  | pathWaitExpire => exact execPathWaitExpire_inv h
  | pathReturn => exact execPathReturn_inv h
  | endEntryCommit => exact execEndEntryCommit_inv h
  | adapterMsix => exact execAdapterMsix_inv h
  | waitintTimeout => exact execWaitintTimeout_inv h
  | adapterDma => exact execAdapterDma_inv h
  | jalarnLinkUp => exact execJalarnLinkUp_inv h
  | ident => exact execIdent_inv h
  | jalarnFlitReceive => exact execJalarnFlitReceive_inv h
  | pair => exact execPair_inv h
  | protect => exact execProtect_inv h
  | copyDone => exact execCopyDone_inv h
  | surrender _ jsn => exact execSurrender_inv (jsn := jsn) h
  | handover _ jsn => exact execHandover_inv (jsn := jsn) h
  | mirrorAck => exact execMirrorAck_inv h
  | stagingApply => exact execStagingApply_inv h
  | mirrorRefill => exact execMirrorRefill_inv h
  | partnerLostTimeout => exact execPartnerLostTimeout_inv h
  | fenceAsk => exact execFenceAsk_inv h
  | fenceLatchSet => exact execFenceLatchSet_inv h
  | fenceUnanswered => exact execFenceUnanswered_inv h
  | takeover => exact execTakeover_inv h
  | receiverLockLost => exact execReceiverLockLost_inv h
  | hostTransferDone => exact execHostTransferDone_inv h
  | calNorWriteDone => exact execCalNorWriteDone_inv h
  | pkgCheckDone => exact execPkgCheckDone_inv h
  | tapInstruction => exact execTapInstruction_inv h

theorem step_inv {s : State} (h : s.Inv) : NextInv (step s) := by
  unfold step
  split
  · exact idle_inv h
  · exact exec_inv h

/-- Settles O4, by the lemma about a step: a state that one leads to meets the invariant. -/
theorem everyStepKeepsTheInvariant : Obligations.EveryStepKeepsTheInvariant := by
  unfold Obligations.EveryStepKeepsTheInvariant
  intro s t h e
  have hs : NextInv (step s) := step_inv h
  rw [e] at hs
  exact hs

end Sys2Proof.Machine

/-! SUPPORT. Memory accesses byte by byte: the state that refutes O17. The tables of the model have rising keys; a statement about every
state also meets one whose dome table has not, and there an update of a dome puts its new value before an older one, so that the search for
the newest copy of a line finds another. -/

namespace Sys2Proof.Machine

open Sys2Proof

/-- Line 1 in M in two domes, with first byte 1 in dome 5 and 2 in dome 2, in a table that lists dome 5 first. -/
def twoCopies : State :=
  { domes := [(5, { lines := [{ line := 1, st := .M, way := 0, data := [1] }] }),
              (2, { lines := [{ line := 1, st := .M, way := 0, data := [2] }] })] }

/-- The first byte of line 1 as engine 32, of tower 2, sees it after a store into line 0. -/
def seenAfterStore : Except Stop State → Option Byte
  | .ok u => some (byteSeen u 32 64)
  | .error _ => none

theorem seenAfterStore_twoCopies : seenAfterStore (storeLine twoCopies 32 0 [7] 0) = some 2 := by decide

theorem byteSeen_twoCopies : byteSeen twoCopies 32 64 = 1 := by decide

/-- Refutes O17: a store into line 0 puts the new value of dome 2 before dome 5 in a table whose keys do not rise, and line 1, of which both
have a copy in M, is seen with the bytes of the other copy afterwards. -/
theorem not_memoryAccessesReadAndWriteTheirBytes : ¬ Obligations.MemoryAccessesReadAndWriteTheirBytes := by
  unfold Obligations.MemoryAccessesReadAndWriteTheirBytes
  rintro ⟨hstore, -, -⟩
  have hseen := seenAfterStore_twoCopies
  cases he : storeLine twoCopies 32 0 [7] 0 with
  | error st =>
    rw [he] at hseen
    cases hseen
  | ok u =>
    rw [he] at hseen
    have hsame : byteSeen u 32 64 = byteSeen twoCopies 32 64 := hstore twoCopies u 32 0 [7] 0 rfl rfl rfl (by decide) he 64
    rw [Option.some.inj hseen, byteSeen_twoCopies] at hsame
    exact absurd hsame (by decide)

end Sys2Proof.Machine

/-! SUPPORT. Cipher requests (R287, R295 to R297): the order of their checks, the admission of one that passes, and the statement about them,
O38. -/

namespace Sys2Proof.Machine

open Sys2Proof

/-- Every opcode of a cipher request is judged alike. -/
theorem exec_cipher {n : Nat} {q : BitVec 32} {c : Instr × Nat} (s : State)
    (h : c ∈ [(Instr.gcmEncrypt n q, 0x10), (.gcmDecrypt n q, 0x11), (.gmacGenerate n q, 0x12), (.gmacVerify n q, 0x13), (.xtsEncrypt n q, 0x14),
      (.xtsDecrypt n q, 0x15), (.cmacGenerate n q, 0x16), (.cmacVerify n q, 0x17), (.hmacGenerate n q, 0x18), (.hmacVerify n q, 0x19),
      (.hash n q, 0x1A)]) : exec c.1 s = cipherRequest s n q.toNat c.2 := by
  simp only [List.mem_cons, List.not_mem_nil, or_false] at h
  rcases h with h | h | h | h | h | h | h | h | h | h | h <;> subst h <;> rfl

section
variable {s : State} {n q op : Nat} {r : Request} (h : takeReq s.quiet n q op = some r)
include h

theorem cipherRequest_refused {st : Status} {d : Nat} (hst : cipherStatus s.quiet (n - 1) r.entry = some (st, d)) :
    cipherRequest s n q op = .next (answer s.quiet r st d) := by
  unfold cipherRequest
  simp only [h, hst]

theorem cipherRequest_offered (hst : cipherStatus s.quiet (n - 1) r.entry = none) :
    cipherRequest s n q op = .next (offerJob s.quiet r false (cipherJob s.quiet (n - 1) r.entry)) := by
  unfold cipherRequest
  simp only [h, hst]

end

/-- The job `j` as the request `r` brings it. -/
def offeredJob (s : State) (r : Request) (cz : Bool) (j : Job) : Job :=
  { j with
    inst := r.fn - 1, seq := r.seq, entry := r.entry, tb := s.clk.tb, shared := decide (takeUnit s (r.fn - 1) (accelPool cz) 0 = .shared) }

section
variable {s : State} {r : Request} {cz : Bool} {j : Job} (hg : groupEngines s cz (r.fn - 1) ≠ [])
include hg

theorem offerJob_busy (hu : takeUnit s (r.fn - 1) (accelPool cz) 0 = .no) :
    offerJob s r cz j = complete s r.fn r.seq 1 0 0 (toBE 8 (retryAfter s (accelPool cz) 0) ++ zeros 8) := by
  unfold offerJob
  simp only [List.isEmpty_iff, hg, if_false, hu]
  rfl

theorem offerJob_queued (hu : takeUnit s (r.fn - 1) (accelPool cz) 0 ≠ .no) :
    offerJob s r cz j = addJob (s.setStage r.fn r.seq .running) cz (offeredJob s r cz j) := by
  unfold offerJob
  simp only [List.isEmpty_iff, hg, if_false]
  cases ha : takeUnit s (r.fn - 1) (accelPool cz) 0 with
  | no => exact absurd ha hu
  | own | shared =>
    unfold offeredJob
    rw [ha]
    rfl

end

theorem runEffect_cipherJob (s : State) (j : Job) :
    (runEffect s (.job j false)).xce.jobs = s.xce.jobs ++ [{ j with order := s.xce.order }] ∧ (runEffect s (.job j false)).hp = s.hp := by
  unfold runEffect
  simp only [Bool.false_eq_true, if_false]
  split <;> exact ⟨rfl, rfl⟩

/-- A cipher job joins the end of its queue, waiting for staging or not, and the requests stay as they are. -/
theorem addJob_cipher (s : State) (j : Job) :
    ∃ st order, (st = .queued ∨ st = .staging) ∧ (addJob s false j).xce.jobs = s.xce.jobs ++ [{ j with st := st, order := order }]
      ∧ (addJob s false j).hp = s.hp := by
  refine ⟨if stagedBytes j.entry != 0 && !stagingFits s j.entry then .staging else .queued, s.xce.order, ?_, runEffect_cipherJob s _⟩
  split
  · exact .inr rfl
  · exact .inl rfl

theorem req?_setStage_stage {s : State} {n q : Nat} {st : Stage} {x : Request} (h : (s.setStage n q st).req? n q = some x) : x.stage = st := by
  obtain ⟨hfn, hseq⟩ := req?_key h
  obtain ⟨y, -, rfl⟩ := List.mem_map.mp (List.mem_of_find?_eq_some h)
  by_cases hy : (y.fn == n && y.seq == q) = true
  · rw [if_pos hy]
  · rw [if_neg hy] at hfn hseq
    simp [hfn, hseq] at hy

/-- The job of a cipher request has the host's buffers. -/
theorem cipherJob_area (s : State) (i : Nat) (e : List Byte) : (cipherJob s i e).area = none := by
  unfold cipherJob
  dsimp only
  split <;> rfl

/-- The checks of R297 one after the other, for a request other than HASH. -/
theorem cipherStatus_noPage {s : State} {i : Nat} {e : List Byte} (hop : reqOp e ≠ 0x1A) (hp : pageOf s i (tgtHandle e) = none) :
    cipherStatus s i e = some (.accessDenied, 0) := by
  unfold cipherStatus
  simp [hop, hp]

section
variable {s : State} {i pg : Nat} {e : List Byte} {x : Slot} (hop : reqOp e ≠ 0x1A) (hp : pageOf s i (tgtHandle e) = some pg)
  (hx : s.slot pg (tgtSlot e) = x)
include hop hp hx

theorem cipherStatus_page : cipherStatus s i e =
    if x.state = 0 then some (.keyAbsent, 0)
    else if serves x.alg (reqOp e) = false then some (.fieldInvalid, 3)
    else if tagLenOk x.alg (reqOp e) (par e 36) = false then some (.fieldInvalid, 36)
    else if keyExhausted { x with reserved := x.reserved + openCharge s pg (tgtSlot e) } e = true then some (.keyExhausted, 0)
    else if reqDstLen e < outLen e then some (.outputFull, 0) else none := by
  subst hx
  unfold cipherStatus
  simp [hop, hp]

end

/-- Settles O38: the ends of the request first, then its checks in their order. -/
theorem cipherRequestResults : Obligations.CipherRequestResults := by
  unfold Obligations.CipherRequestResults
  intro s n q r w i
  refine ⟨fun c hc hr => ?_, fun e x hop => ⟨cipherStatus_noPage hop, fun pg hp hx => ?_⟩⟩
  · obtain ⟨-, rfl, -, -⟩ := takeReq_key hr
    rw [exec_cipher s hc]
    refine ⟨fun st d hst => cipherRequest_refused hr hst, fun hst hg => ⟨fun hu => ?_, fun hu => ?_⟩⟩
    · rw [cipherRequest_offered hr hst]
      exact congrArg _ (offerJob_busy hg hu)
    · rw [cipherRequest_offered hr hst, offerJob_queued hg hu]
      obtain ⟨st, order, hq, hjobs, hhp⟩ := addJob_cipher (w.setStage r.fn r.seq .running) (offeredJob w r false (cipherJob w i r.entry))
      refine ⟨_, _, rfl, hjobs, rfl, rfl, rfl, cipherJob_area w i r.entry, rfl, hq, fun x hx => ?_⟩
      exact req?_setStage_stage (s := w) (((congrArg (fun hp : HostPort => hp.reqs.find? _) hhp).symm.trans hx :))
  · have hall := cipherStatus_page hop hp hx
    refine ⟨fun h0 => ?_, fun h0 hs => ?_, fun h0 hs ht hk => ?_, fun h0 hs ht hk => ?_⟩
    · rw [hall, if_pos h0]
    · rw [hall, if_neg h0, if_pos hs]
    · simp [hall, h0, hs, ht, hk]
    · simp [hall, h0, hs, ht, hk]

end Sys2Proof.Machine

/-! SUPPORT. Completions, journal entries and mirror groups: what the ends of requests and channel operations leave as it is. A lemma about one
of these operations says that it goes from a state to another in the relation `Hub`; what the relation keeps is said once. -/

namespace Sys2Proof.Machine

open Sys2Proof

/-- The hub has acted: its messages, requests, journal and groups may differ, and of the instances neither the state nor the arrivals. -/
def Hub (s t : State) : Prop :=
  ∃ o f hp is m c hd tw, t = { s with out := o, free := f, hp := hp, insts := is, mem := m, css := c, holds := hd, twin := tw }
    ∧ ∀ j, (t.inst j).st = (s.inst j).st ∧ (t.inst j).arrivals = (s.inst j).arrivals

section
variable {s t u : State}

theorem Hub.refl (s : State) : Hub s s := ⟨_, _, _, _, _, _, _, _, rfl, fun _ => ⟨rfl, rfl⟩⟩

theorem Hub.trans (h : Hub s t) (g : Hub t u) : Hub s u := by
  obtain ⟨o, f, hp, is, m, c, hd, tw, rfl, hi⟩ := h
  obtain ⟨o', f', hp', is', m', c', hd', tw', rfl, gi⟩ := g
  exact ⟨_, _, _, _, _, _, _, _, rfl, fun j => ⟨(gi j).1.trans (hi j).1, (gi j).2.trans (hi j).2⟩⟩

theorem Hub.foldl {α : Type} {f : State → α → State} (h : ∀ s x, Hub s (f s x)) (l : List α) (s : State) : Hub s (l.foldl f s) := by
  induction l generalizing s with
  | nil => exact Hub.refl s
  | cons x l ih => exact (h s x).trans (ih (f s x))

theorem Hub.ite {c : Prop} [Decidable c] (ht : Hub s t) (hu : Hub s u) : Hub s (if c then t else u) := by
  split
  · exact ht
  · exact hu

/-- An update of other tables than the instances'. -/
theorem Hub.of_tables (s : State) (o : List Output) (f : Nat) (hp : HostPort) (m : Mem) (c : Css) (hd : KV (List Nat)) (tw : Twin) :
    Hub s { s with out := o, free := f, hp := hp, mem := m, css := c, holds := hd, twin := tw } :=
  ⟨_, _, _, _, _, _, _, _, rfl, fun _ => ⟨rfl, rfl⟩⟩

theorem Hub.updInst (s : State) (i : Nat) {f : Inst → Inst} (h : ∀ x, (f x).st = x.st ∧ (f x).arrivals = x.arrivals) :
    Hub s (s.updInst i f) := by
  refine ⟨_, _, _, _, _, _, _, _, rfl, fun j => ?_⟩
  unfold State.updInst
  rw [State.inst_setInst]
  split
  next hj =>
    subst hj
    exact h _
  · exact ⟨rfl, rfl⟩

theorem Hub.st (h : Hub s t) (i : Nat) : (t.inst i).st = (s.inst i).st := by obtain ⟨_, _, _, _, _, _, _, _, -, hi⟩ := h; exact (hi i).1
theorem Hub.arrivals (h : Hub s t) (i : Nat) : (t.inst i).arrivals = (s.inst i).arrivals := by
  obtain ⟨_, _, _, _, _, _, _, _, -, hi⟩ := h; exact (hi i).2
theorem Hub.ves (h : Hub s t) : t.ves = s.ves := by obtain ⟨_, _, _, _, _, _, _, _, rfl, -⟩ := h; rfl
theorem Hub.xce (h : Hub s t) : t.xce = s.xce := by obtain ⟨_, _, _, _, _, _, _, _, rfl, -⟩ := h; rfl
theorem Hub.cze (h : Hub s t) : t.cze = s.cze := by obtain ⟨_, _, _, _, _, _, _, _, rfl, -⟩ := h; rfl
theorem Hub.zeroing (h : Hub s t) : t.zeroing = s.zeroing := by obtain ⟨_, _, _, _, _, _, _, _, rfl, -⟩ := h; rfl
theorem Hub.ve (h : Hub s t) (k : Nat) : t.ve k = s.ve k := by unfold State.ve; rw [h.ves]

end

/-! ## Completions (R54, R58, R61) -/

theorem sendMsix_hub (n v : Nat) (s : State) : Hub s (sendMsix s n v) := by
  rcases sendMsix_cases s n v with h | h <;> rw [h] <;> exact Hub.of_tables s ..

theorem hostWrite_hub (n a : Nat) (d : List Byte) (s : State) : Hub s (hostWrite s n a d) := by
  have hl (s : State) (i n : Nat) : Hub s (logDirty s i a n) := by
    unfold logDirty
    split
    · exact Hub.refl s
    · exact Hub.updInst s i fun _ => ⟨rfl, rfl⟩
  exact Hub.ite (Hub.refl s) (Hub.ite (Hub.of_tables s ..) ((Hub.of_tables s ..).trans (hl _ _ _)))

theorem gather_hub (n k : Nat) (s : State) : Hub s (gather s n k) :=
  Hub.ite (Hub.refl s) (Hub.ite ((Hub.of_tables s ..).trans (sendMsix_hub n _ _)) (Hub.of_tables s ..))

theorem setRing_hub (n k : Nat) (r : Ring) (s : State) : Hub s (s.setRing n k r) := Hub.of_tables s ..

theorem writeCompletion_hub (n k : Nat) (c : Completion) (s : State) : Hub s (writeCompletion s n k c) :=
  have h := (hostWrite_hub n _ _ s).trans (setRing_hub n k _ _)
  Hub.ite h (h.trans (gather_hub n k _))

theorem drainRing_hub (n k : Nat) (s : State) : Hub s (drainRing s n k) :=
  Hub.foldl (fun s c => Hub.ite ((Hub.of_tables s ..).trans (writeCompletion_hub n k c _)) (Hub.refl s)) _ _

theorem completeNow_hub (n seq st d c : Nat) (b : List Byte) (s : State) : Hub s (completeNow s n seq st d c b) := by
  unfold completeNow
  split
  · exact Hub.refl s
  · exact (Hub.of_tables s ..).trans (drainRing_hub n _ _)

/-! ## Mirror groups (R359 to R361) -/

theorem sendSlots_hub (s : State) (l : List (List Byte)) : Hub s (sendSlots s l) := by
  induction s, l using sendSlots.induct with
  | case1 s => exact Hub.refl s
  | case2 s a => exact Hub.of_tables s ..
  | case3 s a b => exact Hub.of_tables s ..
  | case4 s a b c l ih => exact (Hub.of_tables s ..).trans ih

theorem sendGroup_hub (s : State) (k : Nat) : Hub s (sendGroup s k) := by
  unfold sendGroup
  split
  · split
    · exact Hub.refl s
    · dsimp only
      split
      · exact (Hub.of_tables s ..).trans (sendSlots_hub _ _)
      · exact Hub.of_tables s ..
  · exact Hub.refl s

theorem closeHub_hub (s : State) (i n : Nat) (a : Deferred) : Hub s (closeHub s i n a) :=
  (Hub.of_tables s ..).trans (Hub.foldl sendGroup_hub _ _)

theorem complete_hub (n seq st d c : Nat) (b : List Byte) (s : State) : Hub s (complete s n seq st d c b) := by
  unfold complete
  split
  · split
    · exact Hub.refl s
    · exact Hub.ite (Hub.refl s) ((Hub.of_tables s ..).trans (closeHub_hub _ _ _ _))
  · exact completeNow_hub n seq st d c b s

/-! ## The journal, and statuses presented (R256, R261 to R264) -/

theorem journalOne_hub (s : State) (i n t : Nat) (d : Bool) : Hub s (journalOne s i n t d) :=
  Hub.ite (Hub.of_tables s ..) (Hub.of_tables s ..)

theorem closeEntry_hub (s : State) (i : Nat) (a : Deferred) : Hub s (closeEntry s i a) :=
  Hub.ite (closeHub_hub s i _ a) (Hub.refl s)

theorem journal_hub (s : State) (i n t : Nat) (d : Bool) (a : Deferred) : Hub s (journal s i n t d a) := by
  refine ((journalOne_hub s i n t d).trans (closeEntry_hub _ i a)).trans (Hub.foldl (fun s e => ?_) _ _)
  split
  · exact Hub.ite ((journalOne_hub s _ _ _ _).trans (closeEntry_hub _ _ _)) (Hub.refl s)
  · exact Hub.refl s

theorem releaseGroup_hub (s : State) (i n : Nat) : Hub s (releaseGroup s i n) := by
  unfold releaseGroup
  dsimp only
  split
  · exact Hub.refl s
  · exact Hub.ite (Hub.refl s) ((Hub.of_tables s ..).trans (Hub.updInst _ i fun _ => ⟨rfl, rfl⟩))

theorem presentSub_hub (s : State) (i n : Nat) (d : Bool) : Hub s (presentSub s i n d) :=
  (((Hub.of_tables s ..).trans (journal_hub _ i n 6 d _)).trans (Hub.of_tables _ ..)).trans (releaseGroup_hub _ i n)

theorem freeDispatch_hub (s : State) (r : Request) : Hub s (freeDispatch s r) :=
  Hub.ite (Hub.of_tables s ..) (Hub.refl s)

theorem finishRestarts_hub (s : State) (i v : Nat) (st : Status) : Hub s (finishRestarts s i v st) :=
  Hub.foldl (fun s _ => complete_hub _ _ _ _ _ _ s) _ _

end Sys2Proof.Machine

/-! SUPPORT. The events of engines (R80, R81, R137, R202, R320, R321): time that an event brings, what a commit point takes and leaves, and the
statement about them, O30. -/

namespace Sys2Proof.Machine

open Sys2Proof

variable {s : State}

theorem State.ve_congr {s t : State} (h : t.ves = s.ves) (k : Nat) : t.ve k = s.ve k := by
  unfold State.ve
  rw [h]

@[simp] theorem State.eng_updEng_same (s : State) (p : Nat) (f : Engine → Engine) : (s.updEng p f).eng p = f (s.eng p) := by
  simp [State.updEng]

/-! ## The time that an event brings (R137; assumption log 11) -/

/-- A virtual engine after `d` timebase units: its K4 has counted down while it ran on an engine and did not wait. -/
def VE.after (v : VE) (d : Nat) : VE :=
  if v.on.isSome && !v.stopped && !v.cur.sb bWT then { v with cur := v.cur.setK 4 (v.cur.K 4 - BitVec.ofNat 64 d) } else v

theorem tick_ve (s : State) (d k : Nat) : (tick s d).ve k = (s.ve k).after d := by
  unfold State.ve kvGet tick
  dsimp only
  rw [kvFind_kvMap]
  cases kvFind s.ves k with
  | none => rfl
  | some v => rfl

/-- The registers that no passing of time changes: all but K4. -/
def Ctx.timeless (c : Ctx) : Ctx := { c with k := Vector.replicate 12 0 }

theorem VE.after_timeless (v : VE) (d : Nat) : (v.after d).cur.timeless = v.cur.timeless ∧ (v.after d).on = v.on := by
  unfold VE.after
  split <;> exact ⟨rfl, rfl⟩

theorem passUntil_tb (s : State) {t : Nat} (h : t < 2 ^ 64) : t ≤ (passUntil s t).clk.tb := by
  unfold passUntil
  split
  next hlt =>
    show t ≤ (s.clk.tb + (t - s.clk.tb)) % 2 ^ 64
    omega
  · omega

theorem passUntil_timeless (s : State) (t k : Nat) : ((passUntil s t).ctx k).timeless = (s.ctx k).timeless := by
  unfold passUntil State.ctx
  split
  · rw [tick_ve]
    exact ((s.ve k).after_timeless _).1
  · rfl

/-- K4 counted down past zero. -/
theorem sub_succ_negative (x : Word) : (x - BitVec.ofNat 64 (x.toNat + 1)).getLsbD 63 = true := by
  have h : x - BitVec.ofNat 64 (x.toNat + 1) = BitVec.allOnes 64 := by
    apply BitVec.eq_of_toNat_eq
    simp [BitVec.toNat_sub]
    omega
  rw [h]
  decide

theorem timerHolds_after {v : VE} (hon : v.on.isSome = true) (hst : v.stopped = false) (hwt : v.cur.sb bWT = false) :
    timerHolds (v.after ((v.cur.K 4).toNat + 1)).cur = true := by
  unfold VE.after
  simp only [hon, hst, hwt, Bool.not_false, Bool.and_self, if_true]
  have hk : (v.cur.setK 4 (v.cur.K 4 - BitVec.ofNat 64 ((v.cur.K 4).toNat + 1))).K 4 = v.cur.K 4 - BitVec.ofNat 64 ((v.cur.K 4).toNat + 1) := by
    simp [Ctx.K, Ctx.setK, Vector.getD]
  unfold timerHolds
  rw [hk]
  exact sub_succ_negative _

/-! ## Commit points (R320, R321) -/

theorem writeBack_ves (s : State) (l : Nat) : (writeBack s l).ves = s.ves := by
  unfold writeBack
  split <;> rfl

theorem writeBacks_ves (s : State) (l : List Nat) : (l.foldl writeBack s).ves = s.ves := foldl_keeps State.ves writeBack_ves l s

theorem cleanEngine_ves (s : State) (p : Nat) : (cleanEngine s p).ves = s.ves := writeBacks_ves s _

theorem drainStream_ves (s : State) (p : Nat) : (drainStream s p).ves = s.ves := by
  refine foldl_keeps State.ves (fun s b => ?_) _ _
  split
  · exact writeBack_ves s _
  · rfl

theorem writeKeyPage_ves (s : State) (pg o : Nat) (d : List Byte) : (writeKeyPage s pg o d).ves = s.ves := by
  unfold writeKeyPage
  dsimp only
  split <;> rfl

theorem rollWindow_ves (s : State) (t : Nat) : (rollWindow s t).ves = s.ves := by
  unfold rollWindow
  dsimp only
  split <;> rfl

/-- What a commit point leaves of virtual engine `k` that it is taken of: its counts begin anew. -/
theorem takeCommit_ve (s : State) (p k : Nat) (es : List Effect) (o w l : Bool) :
    (takeCommit s p k es o w l).ve k = { s.ve k with icount := 0, tbCommit := (takeCommit s p k es o w l).clk.tb, keyWrites := [] } := by
  have hv : (mapP (cleanEngine s p) p fun x => { x with taken := true }).ve k = s.ve k := State.ve_congr (cleanEngine_ves s p) k
  exact (State.ve_setVe_same _ k _).trans (by rw [hv]; rfl)

/-- The commit buffer of engine `p`, when it holds what virtual engine `k` of `s` has come to, for the effects `es`. -/
def CommitBuf.holds (b : CommitBuf) (s : State) (k : Nat) (es : List Effect) (l : Bool) : Prop :=
  b.ctx = s.ctx k ∧ b.effects = es ∧ b.leave = l

theorem takeCommit_eng (s : State) (p k : Nat) (es : List Effect) (o w l : Bool) :
    ∃ b, ((takeCommit s p k es o w l).eng p).commit = some b ∧ b.holds s k es l ∧ ((takeCommit s p k es o w l).eng p).steal = false := by
  have hv : (mapP (cleanEngine s p) p fun x => { x with taken := true }).ve k = s.ve k := State.ve_congr (cleanEngine_ves s p) k
  unfold takeCommit
  dsimp only
  rw [State.eng_updEng_same]
  exact ⟨_, rfl, ⟨congrArg VE.cur hv, rfl, rfl⟩, rfl⟩

/-- An interruption consumed leaves every checkpoint. -/
theorem consume_ckpt (s : State) (k : Nat) (t : Taken) (j : Nat) : ((consume s k t).ve j).ckpt = (s.ve j).ckpt := by
  have upd (f : VE → VE) (hf : ∀ x, (f x).ckpt = x.ckpt) : ((s.updVe k f).ve j).ckpt = (s.ve j).ckpt := by
    unfold State.updVe
    rw [State.ve_setVe]
    split
    next hk =>
      subst hk
      exact hf _
    · rfl
  cases t with
  | restart => exact (congrArg VE.ckpt ((finishRestarts_hub _ _ _ _).ve j)).trans (upd _ fun _ => rfl)
  | io n => exact congrArg VE.ckpt ((presentSub_hub s _ n false).ve j)
  | signal | accel => exact upd _ fun _ => rfl
  | message seq =>
    unfold consume
    dsimp only
    split
    · exact congrArg VE.ckpt ((freeDispatch_hub _ _).ve j)
    · rfl
  | deferred m =>
    refine upd (fun x => if x.deferred == some m then { x with deferred := none } else x) fun x => ?_
    split <;> rfl

theorem leaveEngine_leaves (s : State) (p k : Nat) : let u := leaveEngine s p k
    (u.eng p).ve = none ∧ (u.ve k).on = none ∧ (u.ve k).ckpt = (s.ve k).ckpt := by
  have hv : (leaveEngine s p k).ve k = { s.ve k with on := none, desc := none, opened := false } := by
    refine (State.ve_updVe_same (chargeTime s (towerOf p) k) k fun x => { x with on := none, desc := none, opened := false }).trans ?_
    rw [State.ve_congr (s := s) (t := chargeTime s (towerOf p) k) (rollWindow_ves s _) k]
  refine ⟨?_, ?_, ?_⟩
  · unfold leaveEngine
    rw [State.eng_updEng_same]
  · rw [hv]
  · rw [hv]

/-- A commit point at whose end the virtual engine leaves: its checkpoint is what the buffer holds, and the engine is free. -/
theorem finishCommit_leaves (s : State) (p k : Nat) {b : CommitBuf} (he : b.effects = []) (hl : b.leave = true) : let u := finishCommit s p k b
    (u.eng p).ve = none ∧ (u.ve k).on = none ∧ (u.ve k).ckpt = b.ctx := by
  unfold finishCommit
  extract_lets dirty taken drained x slotted freed i released written consumed ended u
  have hu : u = leaveEngine ended p k := if_pos hl
  have hended : ended = consumed := by
    show b.effects.foldl runEffect consumed = consumed
    rw [he]
    rfl
  have hwritten : written.ves = released.ves := by
    refine foldl_keeps State.ves (fun s w => ?_) _ _
    split
    · exact writeKeyPage_ves s _ _ _
    · rfl
  have hckpt : (consumed.ve k).ckpt = b.ctx := by
    rw [foldl_keeps (fun s : State => (s.ve k).ckpt) (fun s t => consume_ckpt s k t k), State.ve_congr hwritten]
    exact congrArg VE.ckpt (State.ve_setVe_same drained k _)
  obtain ⟨heng, hon, hk⟩ := leaveEngine_leaves ended p k
  rw [hu]
  exact ⟨heng, hon, hk.trans (by rw [hended, hckpt])⟩

theorem commitNow_leaves (s : State) (p k : Nat) : let u := commitNow s p k [] true
    (u.eng p).ve = none ∧ (u.ve k).on = none ∧ (u.ve k).ckpt = s.ctx k := by
  obtain ⟨b, hb, ⟨hctx, he, hl⟩, -⟩ := takeCommit_eng s p k [] false true true
  unfold commitNow
  simp only [hb]
  obtain ⟨heng, hon, hk⟩ := finishCommit_leaves (takeCommit s p k [] false true true) p k he hl
  exact ⟨heng, hon, hk.trans hctx⟩

/-! ## A routine caught at a commit point (R149, R187) -/

/-- The micro-save area as a trap of `m` writes it over the registers `c`. -/
def Ctx.savedBy (d c : Ctx) (m : MicroTrap) : Prop :=
  d.micro.valid = true ∧ d.micro.op = m.op
    ∧ d.micro.src = if c.resumes m.op = true then c.micro.src else m.regs.map fun r => (r.toNat, c.source m.op r.toNat)

theorem microTrap_saved (s : State) (p k : Nat) {m : MicroTrap} (hm : microRow m.op = true) :
    ((microTrap s p k m).ctx k).savedBy (s.ctx k) m := by
  unfold microTrap
  simp only [hm, Bool.not_true, Bool.false_eq_true, if_false]
  rw [State.ctx_setCtx_same]
  exact ⟨rfl, rfl, rfl⟩

theorem setRp_ctx (s : State) (k : Nat) : (setRp s k).ctx k = (s.ctx k).setSb bRP true :=
  congrArg VE.cur (State.ve_updVe_same s k fun x => { x with cur := x.cur.setSb bRP true })

theorem setSb_bRP (c : Ctx) : (c.setSb bRP true).sb bRP = true := by
  simp [Ctx.sb, Ctx.setSb, bRP]

theorem commitAt_trap (s : State) (p k : Nat) {m : MicroTrap} (hm : microRow m.op = true) :
    ∃ b, ((commitAt s p k (some m) false).eng p).commit = some b ∧ b.ctx.sb bRP = true ∧ b.ctx.savedBy (s.ctx k) m := by
  obtain ⟨b, hb, ⟨hctx, -, -⟩, -⟩ := takeCommit_eng (setRp (microTrap s p k m) k) p k [] false false false
  rw [setRp_ctx] at hctx
  refine ⟨b, ?_, by rw [hctx]; exact setSb_bRP _, by rw [hctx]; exact microTrap_saved s p k hm⟩
  unfold commitAt
  simp only [hm, if_true]
  exact hb

/-- What a trap saves rests on no register that time changes. -/
theorem Ctx.savedBy_timeless {d c c' : Ctx} {m : MicroTrap} (h : d.savedBy c m) (ht : c.timeless = c'.timeless) : d.savedBy c' m := by
  obtain ⟨hv, hop, hsrc⟩ := h
  have hr : c.resumes m.op = c'.resumes m.op := (congrArg (fun c : Ctx => c.resumes m.op) ht :)
  have hm : c.micro = c'.micro := (congrArg (fun c : Ctx => c.micro) ht :)
  have hs (n : Nat) : c.source m.op n = c'.source m.op n := (congrArg (fun c : Ctx => c.source m.op n) ht :)
  simp only [hr, hm, hs] at hsrc
  exact ⟨hv, hop, hsrc⟩

/-! ## The events -/

section
variable {p k : Nat} (hp : atPoint s.quiet p = some k) (he : exceptionFirst (s.ve k) = false)
include hp he

/-- The state in which a commit point that has fallen due is taken: after 65,536 instructions at once, or else 20 microseconds after the
last one. -/
theorem execAutoCommit_due (mt : Option MicroTrap) : execAutoCommit p mt s
    = .next (commitAt (if 65536 ≤ (s.ve k).icount then s.quiet else passUntil s.quiet ((s.ve k).tbCommit + 2000)) p k mt false) := by
  unfold execAutoCommit
  simp only [hp]
  exact if_neg (by rw [show s.quiet.ve k = s.ve k from rfl, he]; exact Bool.false_ne_true)

theorem timeSliceEnd_leaves (h : s.twinned (veInst k) = false) : ∃ u, exec (.timeSliceEnd p none) s = .next u
    ∧ (u.eng p).ve = none ∧ (u.ve k).on = none ∧ (u.ve k).ckpt = s.ctx k := by
  refine ⟨commitNow s.quiet p k [] true, ?_, commitNow_leaves s.quiet p k⟩
  show execTimeSliceEnd p none s = _
  have hw : commitWait s.quiet p k true = commitNow s.quiet p k [] true :=
    if_neg (by rw [show s.quiet.twinned (veInst k) = s.twinned (veInst k) from rfl, h]; exact Bool.false_ne_true)
  unfold execTimeSliceEnd
  simp only [hp]
  rw [show s.quiet.ve k = s.ve k from rfl, he, hw]
  rfl

theorem autoCommit_results : ∃ u b, exec (.autoCommit p none) s = .next u ∧ (u.eng p).commit = some b ∧ (u.ve k).icount = 0 ∧ b.ctx = u.ctx k
    ∧ (65536 ≤ (s.ve k).icount → b.ctx = s.ctx k ∧ u.clk.tb = s.clk.tb)
    ∧ ((s.ve k).icount < 65536 → (s.ve k).tbCommit + 2000 < 2 ^ 64 → (s.ve k).tbCommit + 2000 ≤ u.clk.tb) := by
  generalize hw : (if 65536 ≤ (s.ve k).icount then s.quiet else passUntil s.quiet ((s.ve k).tbCommit + 2000)) = w
  obtain ⟨b, hb, ⟨hctx, -, -⟩, -⟩ := takeCommit_eng w p k [] false false false
  have hve := takeCommit_ve w p k [] false false false
  have hclk : (takeCommit w p k [] false false false).clk = w.clk := congrArg Prod.fst (takeCommit_upkeep w p k [] false false false)
  refine ⟨_, b, (execAutoCommit_due hp he none).trans (by rw [hw]; rfl), hb, by rw [hve], ?_, fun h => ?_, fun h ht => ?_⟩
  · rw [hctx]
    exact (congrArg VE.cur hve).symm
  · rw [if_pos h] at hw
    subst hw
    exact ⟨hctx, congrArg Clk.tb hclk⟩
  · rw [if_neg (Nat.not_le.mpr h)] at hw
    subst hw
    rw [hclk]
    exact passUntil_tb _ ht

theorem autoCommit_trapped {m : MicroTrap} (hm : microRow m.op = true) : ∃ u b, exec (.autoCommit p (some m)) s = .next u
    ∧ (u.eng p).commit = some b ∧ b.ctx.sb bRP = true ∧ b.ctx.savedBy (s.ctx k) m := by
  obtain ⟨b, hb, hrp, hsaved⟩ := commitAt_trap _ p k hm
  refine ⟨_, b, execAutoCommit_due hp he (some m), hb, hrp, Ctx.savedBy_timeless hsaved ?_⟩
  split
  · rfl
  · exact passUntil_timeless _ _ k

theorem commitOnSteal_results (hst : (s.eng p).steal = true) : ∃ u b, exec (.commitOnSteal p none) s = .next u
    ∧ (u.eng p).commit = some b ∧ b.ctx = s.ctx k ∧ (u.eng p).steal = false := by
  obtain ⟨b, hb, ⟨hctx, -, -⟩, hsteal⟩ := takeCommit_eng s.quiet p k [] false false false
  refine ⟨_, b, ?_, hb, hctx, hsteal⟩
  show execCommitOnSteal p none s = _
  unfold execCommitOnSteal
  simp only [hp]
  rw [show s.quiet.ve k = s.ve k from rfl, show s.quiet.eng p = s.eng p from rfl, he, hst]
  rfl

end

theorem clockComparator_results {i v : Nat} (hlive : s.live = true) (h : (s.ve (veKey i v)).hasCtx = true) :
    exec (.clockComparator i v) s = .next (passUntil s.quiet ((s.ctx (veKey i v)).K 3).toNat)
      ∧ ((s.ctx (veKey i v)).K 3).toNat ≤ (passUntil s.quiet ((s.ctx (veKey i v)).K 3).toNat).clk.tb :=
  ⟨if_pos (by rw [show s.quiet.live = s.live from rfl, show s.quiet.ve _ = s.ve _ from rfl, hlive, h]; rfl), passUntil_tb _ (BitVec.isLt _)⟩

theorem engineTimer_results {i v : Nat} (hlive : s.live = true) (hon : (s.ve (veKey i v)).on.isSome = true)
    (hst : (s.ve (veKey i v)).stopped = false) (hwt : (s.ctx (veKey i v)).sb bWT = false) (ht : timerHolds (s.ctx (veKey i v)) = false) :
    ∃ u, exec (.engineTimer i v) s = .next u ∧ timerHolds (u.ctx (veKey i v)) = true
      ∧ u.clk.tb = (s.clk.tb + ((s.ctx (veKey i v)).K 4).toNat + 1) % 2 ^ 64 := by
  refine ⟨tick s.quiet (((s.ctx (veKey i v)).K 4).toNat + 1), ?_, ?_, by rw [Nat.add_assoc]; rfl⟩
  · refine if_pos ?_
    rw [show s.quiet.live = s.live from rfl, show s.quiet.ve _ = s.ve _ from rfl, hlive, hon, hst]
    rw [show (s.ve (veKey i v)).cur = s.ctx (veKey i v) from rfl, hwt, ht]
    rfl
  · unfold State.ctx
    rw [tick_ve]
    exact timerHolds_after hon hst hwt

/-- A virtual engine dispatched on engine `p` at timebase `tb` (R80). -/
def VE.dispatchedOn (x : VE) (p tb : Nat) : VE := { x with on := some p, waitBme := false, since := tb, check := true }

theorem veDispatch_results {p i v : Nat} (hv : v < 64) (hi : i < 512) (hf : engineFree (rollWindow s.quiet (towerOf p)) p = true)
    (hr : runnable (rollWindow s.quiet (towerOf p)) (veKey i v) = true) (ht : (s.ve (veKey i v)).tower = towerOf p)
    (hm : mayDispatch (rollWindow s.quiet (towerOf p)) i (towerOf p) = true) :
    ∃ u, exec (.veDispatch p i v) s = .next u ∧ (u.eng p).ve = some (veKey i v) ∧ (u.ve (veKey i v)).on = some p
      ∧ (u.ve (veKey i v)).cur = (s.ve (veKey i v)).cur := by
  have hve : (rollWindow s.quiet (towerOf p)).ve (veKey i v) = s.ve (veKey i v) := State.ve_congr (rollWindow_ves s.quiet _) _
  generalize hw : rollWindow s.quiet (towerOf p) = w at hf hr hm hve
  have hk : (w.updVe (veKey i v) (·.dispatchedOn p w.clk.tb)).ve (veKey i v) = (s.ve (veKey i v)).dispatchedOn p w.clk.tb := by rw [State.ve_updVe_same, hve]
  refine ⟨(w.updVe (veKey i v) (·.dispatchedOn p w.clk.tb)).updEng p fun e => { e with ve := some (veKey i v) }, ?_, ?_, congrArg VE.on hk,
    (congrArg VE.cur hk :)⟩
  · show execVeDispatch p i v s = _
    unfold execVeDispatch
    rw [hw]
    exact if_pos (by simp [hv, hi, hf, hr, hve, ht, hm])
  · rw [State.eng_updEng_same]

/-- Settles O30, event by event. -/
theorem engineEventsResults : Obligations.EngineEventsResults := by
  unfold Obligations.EngineEventsResults
  refine ⟨fun s i v hlive => ⟨clockComparator_results hlive, engineTimer_results hlive⟩, fun s p i v hv hi hf hr ht hm =>
    veDispatch_results hv hi hf hr ht hm, fun s p k hp he => ⟨timeSliceEnd_leaves hp he, autoCommit_results hp he, commitOnSteal_results hp he,
    fun m hm => ?_⟩⟩
  obtain ⟨u, b, hu, hb, hrp, hvalid, hop, hsrc⟩ := autoCommit_trapped hp he hm
  exact ⟨u, b, hu, hb, hrp, hvalid, hop, hsrc⟩

end Sys2Proof.Machine

/-! SUPPORT. The life of an instance (R68, R87 to R90): what the ends of jobs and commit points leave of jobs and instances, QUIESCE, RESET and
DESTROY, and the statement about them, O44. -/

namespace Sys2Proof.Machine

open Sys2Proof

variable {s t : State}

theorem veInst_veKey {i v : Nat} (h : v < 64) : veInst (veKey i v) = i := by
  unfold veInst veKey
  omega

theorem endWith_hub (after : SubState) (s : State) (i n : Nat) (st : Status) (d v : Nat) : Hub s (endWith after s i n st d v) :=
  (Hub.of_tables s ..).trans (journal_hub _ i n 5 false _)

theorem holdSub_hub (s : State) (i n : Nat) : Hub s (holdSub s i n) :=
  (Hub.of_tables s ..).trans (endWith_hub .held _ i n _ 0 0)

theorem noteKey_hub (s : State) (i n : Nat) (x : Slot) : Hub s (noteKey s i n x) :=
  Hub.ite (Hub.refl s) (Hub.of_tables s ..)

theorem discardStatuses_hub (s : State) (i : Nat) : Hub s (discardStatuses s i) :=
  Hub.foldl (fun s n => presentSub_hub s i n true) _ _

/-! ## What is under way in an instance -/

/-- The jobs of both kinds, and the state and arrivals of every instance. -/
structure Work where
  xce : List Job
  cze : List Job
  life : Nat → InstState × List Arrival

def State.work (s : State) : Work := ⟨s.xce.jobs, s.cze.jobs, fun j => ((s.inst j).st, (s.inst j).arrivals)⟩

def Work.jobs (w : Work) (cz : Bool) : List Job := if cz then w.cze else w.xce

def Work.setJobs (w : Work) (cz : Bool) (l : List Job) : Work := if cz then { w with cze := l } else { w with xce := l }

theorem Hub.work (h : Hub s t) : t.work = s.work := by
  unfold State.work
  rw [h.xce, h.cze]
  simp only [h.st, h.arrivals]

theorem State.work_jobs (s : State) (cz : Bool) : s.work.jobs cz = (s.accel cz).jobs := by
  cases cz <;> rfl

theorem State.setJobs_work (s : State) (cz : Bool) (l : List Job) : (s.setJobs cz l).work = s.work.setJobs cz l := by
  cases cz <;> rfl

@[simp] theorem Work.setJobs_jobs (w : Work) (cz : Bool) (l : List Job) : (w.setJobs cz l).jobs cz = l := by
  cases cz <;> rfl

@[simp] theorem Work.setJobs_other (w : Work) (cz : Bool) (l : List Job) : (w.setJobs cz l).jobs (!cz) = w.jobs (!cz) := by
  cases cz <;> rfl

@[simp] theorem Work.setJobs_life (w : Work) (cz : Bool) (l : List Job) : (w.setJobs cz l).life = w.life := by
  cases cz <;> rfl

theorem updInst_work {i : Nat} {f : Inst → Inst} (h : ∀ x, (f x).st = x.st ∧ (f x).arrivals = x.arrivals) : (s.updInst i f).work = s.work :=
  (Hub.updInst s i h).work

/-! ## A commit point leaves it as it is -/

theorem writeBack_work (s : State) (l : Nat) : (writeBack s l).work = s.work := by
  unfold writeBack
  split <;> rfl

theorem writeBacks_work (s : State) (l : List Nat) : (l.foldl writeBack s).work = s.work := foldl_keeps State.work writeBack_work l s

@[simp] theorem State.updEng_work (s : State) (p : Nat) (f : Engine → Engine) : (s.updEng p f).work = s.work := rfl
@[simp] theorem State.updDome_work (s : State) (t : Nat) (f : Dome → Dome) : (s.updDome t f).work = s.work := rfl
@[simp] theorem State.setVe_work (s : State) (k : Nat) (x : VE) : (s.setVe k x).work = s.work := rfl

theorem takeCommit_work (s : State) (p k : Nat) (es : List Effect) (o w l : Bool) : (takeCommit s p k es o w l).work = s.work := by
  simp [takeCommit, mapP, cleanEngine, writeBacks_work]

theorem drainStream_work (s : State) (p : Nat) : (drainStream s p).work = s.work := by
  refine foldl_keeps State.work (fun s b => ?_) _ _
  split
  · exact writeBack_work s _
  · rfl

theorem writeKeyPage_work (s : State) (pg o : Nat) (d : List Byte) : (writeKeyPage s pg o d).work = s.work := by
  unfold writeKeyPage
  dsimp only
  split <;> rfl

theorem consume_work (s : State) (k : Nat) (x : Taken) : (consume s k x).work = s.work := by
  cases x with
  | restart => exact (finishRestarts_hub _ _ _ _).work
  | io n => exact (presentSub_hub s _ n false).work
  | signal | accel | deferred => rfl
  | message seq =>
    unfold consume
    dsimp only
    split
    · exact (freeDispatch_hub _ _).work
    · rfl

theorem leaveEngine_work (s : State) (p k : Nat) : (leaveEngine s p k).work = s.work := by
  have h : (rollWindow s (towerOf p)).work = s.work := by
    unfold rollWindow
    dsimp only
    split <;> rfl
  exact h

theorem finishCommit_work (s : State) (p k : Nat) {b : CommitBuf} (he : b.effects = []) : (finishCommit s p k b).work = s.work := by
  unfold finishCommit
  extract_lets dirty taken drained x slotted freed i released written consumed ended
  have hdrained : drained.work = s.work := (drainStream_work _ p).trans (writeBacks_work _ _)
  have hreleased : released.work = drained.work := updInst_work fun _ => ⟨rfl, rfl⟩
  have hwritten : written.work = released.work := by
    refine foldl_keeps State.work (fun s w => ?_) _ _
    split
    · exact writeKeyPage_work s _ _ _
    · rfl
  have hconsumed : consumed.work = written.work := foldl_keeps State.work (fun s x => consume_work s k x) _ _
  have hended : ended = consumed := by
    show b.effects.foldl runEffect consumed = consumed
    rw [he]
    rfl
  have h : ended.work = s.work := by rw [hended, hconsumed, hwritten, hreleased, hdrained]
  split
  · exact (leaveEngine_work _ p k).trans h
  · split
    · exact (takeCommit_work _ p k _ _ _ _).trans h
    · exact h

theorem commitNow_work (s : State) (p k : Nat) (l : Bool) : (commitNow s p k [] l).work = s.work := by
  obtain ⟨b, hb, ⟨-, he, -⟩, -⟩ := takeCommit_eng s p k [] false true l
  unfold commitNow
  simp only [hb]
  rw [finishCommit_work _ p k he, takeCommit_work]

theorem commitOff_work (s : State) (p k : Nat) : (commitOff s p k).work = s.work := by
  unfold commitOff
  split
  · rfl
  · unfold commitWait
    split
    · exact takeCommit_work s p k _ _ _ _
    · exact commitNow_work s p k true

/-! ## The end of a job (R117, R294) -/

theorem mergeLine_work (s : State) (a : Nat) (d : List Byte) : (mergeLine s a d).work = s.work := by
  have note (s : State) (l : Nat) : (noteLine s l).work = s.work := by
    unfold noteLine
    split
    · rfl
    · split
      · split <;> rfl
      · rfl
  unfold mergeLine
  dsimp only
  split <;> exact note _ _

theorem hubZone_work (s : State) (i r : Nat) : (hubZone s i r).work = s.work := by
  unfold hubZone
  split <;> rfl

theorem writeArea_work (s : State) (i v a : Nat) (d : List Byte) (q : Bool) : (writeArea s i v a d q).work = s.work := by
  unfold writeArea
  extract_lets u
  have hu : u.work = s.work := by
    unfold u
    split
    · exact (mergeLine_work _ _ _).trans (hubZone_work s i a)
    · rfl
  split
  · exact hu
  · exact hu

theorem areaDone_work (s : State) (j : Job) (st d c : Nat) (b : List Byte) : (areaDone s j st d c b).work = s.work := by
  unfold areaDone
  split
  · exact writeArea_work s _ _ _ _ _
  · rfl

theorem leaveJob_work (s : State) (cz : Bool) (j : Job) (st : Nat) :
    (leaveJob s cz j st).work = (s.setJobs cz ((s.accel cz).jobs.filter fun x => !x.same j)).work := by
  unfold leaveJob
  extract_lets left freed
  have hfreed : freed.work = left.work := by
    unfold freed
    split <;> rfl
  split
  · exact hfreed
  · exact hfreed

/-- A job that ends leaves its queue, or stays there as ended. -/
theorem endJob_work (s : State) (cz : Bool) (j : Job) (st d c : Nat) (b : List Byte) : ∃ l, (endJob s cz j st d c b).work = s.work.setJobs cz l
    ∧ ∀ x ∈ l, x.st = .ended st ∨ (x ∈ s.work.jobs cz ∧ x.same j = false) := by
  unfold endJob
  extract_lets n op waits x noted left
  have hnoted : noted.work = s.work := by
    unfold noted
    split
    · exact (Hub.ite (noteKey_hub s _ _ _) (Hub.ite (noteKey_hub s _ _ _) (Hub.refl s))).work
    · rfl
  have hleft : ∃ l, left.work = s.work.setJobs cz l ∧ ∀ x ∈ l, x.st = .ended st ∨ (x ∈ s.work.jobs cz ∧ x.same j = false) := by
    unfold left
    split
    · refine ⟨_, (State.setJobs_work noted cz _).trans (by rw [hnoted]), fun x hx => ?_⟩
      obtain ⟨y, hy, rfl⟩ := List.mem_map.mp hx
      split
      · exact .inl rfl
      next hs => exact .inr ⟨by rwa [← hnoted, State.work_jobs], by simpa using hs⟩
    · refine ⟨_, (leaveJob_work noted cz j st).trans ((State.setJobs_work noted cz _).trans (by rw [hnoted])), fun x hx => ?_⟩
      obtain ⟨hy, hs⟩ := List.mem_filter.mp hx
      exact .inr ⟨by rwa [← hnoted, State.work_jobs], by simpa using hs⟩
  obtain ⟨l, hl, hmem⟩ := hleft
  refine ⟨l, Eq.trans ?_ hl, hmem⟩
  split
  · exact (complete_hub _ _ _ _ _ _ left).work
  · split
    · exact (closeHub_hub left _ _ _).work
    · exact areaDone_work left j st d c b

/-! ## QUIESCE (R87) -/

/-- No job of instance `i` waits to be started. -/
def Work.idle (w : Work) (cz : Bool) (i : Nat) : Prop := ∀ x ∈ w.jobs cz, x.inst = i → x.st ≠ .queued ∧ x.st ≠ .staging

theorem Job.same_refl (j : Job) : j.same j = true := by simp [Job.same]

/-- Ending every waiting job of the instance leaves none, and touches neither the other kind of jobs nor the instances. -/
theorem endJobs_idle {cz : Bool} {i st : Nat} (l : List Job) (s : State)
    (h : ∀ x ∈ s.work.jobs cz, x.inst = i → x.st = .queued ∨ x.st = .staging → x ∈ l) :
    let u := l.foldl (fun s j => endJob s cz j st 0 0 []) s
    u.work.idle cz i ∧ u.work.jobs (!cz) = s.work.jobs (!cz) ∧ u.work.life = s.work.life := by
  induction l generalizing s with
  | nil =>
    refine ⟨fun x hx hi => ⟨fun hq => ?_, fun hq => ?_⟩, rfl, rfl⟩
    · exact absurd (h x hx hi (.inl hq)) (List.not_mem_nil)
    · exact absurd (h x hx hi (.inr hq)) (List.not_mem_nil)
  | cons j l ih =>
    obtain ⟨l', hw, hmem⟩ := endJob_work s cz j st 0 0 []
    obtain ⟨hidle, hother, hlife⟩ := ih (endJob s cz j st 0 0 []) fun x hx hi hq => by
      rw [hw, Work.setJobs_jobs] at hx
      rcases hmem x hx with hst | ⟨hx, hs⟩
      · rw [hst] at hq
        rcases hq with hq | hq <;> cases hq
      · rcases List.mem_cons.mp (h x hx hi hq) with rfl | hl
        · rw [Job.same_refl] at hs
          cases hs
        · exact hl
    exact ⟨hidle, hother.trans (by rw [hw, Work.setJobs_other]), hlife.trans (by rw [hw, Work.setJobs_life])⟩

theorem abortQueued_idle (s : State) (cz : Bool) (i : Nat) : let u := abortQueued s cz i
    u.work.idle cz i ∧ u.work.jobs (!cz) = s.work.jobs (!cz) ∧ u.work.life = s.work.life :=
  endJobs_idle _ s fun x hx hi hq => List.mem_filter.mpr ⟨by rwa [← State.work_jobs], by rcases hq with hq | hq <;> simp [hi, hq]⟩

theorem abortArrived_hub (s : State) (i : Nat) : Hub s (abortArrived s i) :=
  Hub.foldl (fun s _ => complete_hub _ _ _ _ _ _ s) _ _

theorem withdrawAll_life (s : State) (i : Nat) : (withdrawAll s i).work.life i = ((s.inst i).st, []) := by
  have h : (withdrawAll s i).inst i = { s.inst i with arrivals := [] } := State.inst_updInst_same s i fun x => { x with arrivals := [] }
  show (((withdrawAll s i).inst i).st, ((withdrawAll s i).inst i).arrivals) = _
  rw [h]

/-- The last steps of QUIESCE, from the state in which the instance is QUIESCING and its engines have stopped. -/
theorem quiesce_ends (s : State) (i : Nat) :
    let u := (subsIn (abortArrived (abortQueued (abortQueued s false i) true i) i) i (· == .issued)).foldl (fun s n => holdSub s i n)
      (abortArrived (abortQueued (abortQueued s false i) true i) i)
    u.work.life = s.work.life ∧ u.work.idle false i ∧ u.work.idle true i := by
  obtain ⟨hx, -, hlife⟩ := abortQueued_idle s false i
  obtain ⟨hc, hother, hlife'⟩ := abortQueued_idle (abortQueued s false i) true i
  intro u
  have hu : u.work = (abortQueued (abortQueued s false i) true i).work :=
    ((abortArrived_hub _ i).trans (Hub.foldl (fun s n => holdSub_hub s i n) _ _)).work
  rw [hu]
  refine ⟨hlife'.trans hlife, ?_, hc⟩
  unfold Work.idle at hx ⊢
  rwa [show (abortQueued (abortQueued s false i) true i).work.jobs false = _ from hother]

section
variable {q : BitVec 32} {r : Request}

theorem quiesce_results (h : takeCmd s.quiet q.toNat 0x42 = some r) (ha : accepts 0x42 (s.inst (reqTarget r.entry)) = true) :
    ∃ u, execQuiesce q s = .next u ∧ (u.inst (reqTarget r.entry)).st = .quiescing ∧ (u.inst (reqTarget r.entry)).arrivals = []
      ∧ ∀ j ∈ u.xce.jobs ++ u.cze.jobs, j.inst = reqTarget r.entry → j.st ≠ .queued ∧ j.st ≠ .staging := by
  refine ⟨_, (instCommand_accepted h rfl ha : execQuiesce q s = _), ?_⟩
  generalize reqTarget r.entry = i
  dsimp only
  generalize hs : stopFetch ((s.quiet.updInst i fun x => { x with st := .quiescing }).setStage 0 r.seq .running) (i + 1) = s0
  have hst : (s0.inst i).st = .quiescing := by
    subst hs
    exact congrArg Inst.st (State.inst_updInst_same s.quiet i fun x => { x with st := .quiescing })
  obtain ⟨hlife, hx, hc⟩ := quiesce_ends ((enginesOn (withdrawAll s0 i) i).foldl (fun s e => commitOff s e.1 e.2) (withdrawAll s0 i)) i
  have hoff := foldl_keeps State.work (f := fun s (e : Nat × Nat) => commitOff s e.1 e.2) (fun s e => commitOff_work s e.1 e.2)
    (enginesOn (withdrawAll s0 i) i) (withdrawAll s0 i)
  rw [hoff] at hlife
  have hi := (congrFun hlife i).trans (withdrawAll_life s0 i)
  refine ⟨(congrArg Prod.fst hi).trans hst, congrArg Prod.snd hi, fun j hj => ?_⟩
  rcases List.mem_append.mp hj with hj | hj
  · exact hx j hj
  · exact hc j hj

theorem quiesceComplete_ends {j : Nat} {x : Request} (hlive : s.live = true) (hx : commandOn s.quiet j 0x42 = some x)
    (hst : (s.inst j).st = .quiescing) (hq : quietInst s.quiet j = true) : execQuiesceComplete j s
      = .next (complete (s.quiet.updInst j fun y => { y with st := .quiesced }) x.fn x.seq 0 0 0 []) := by
  unfold execQuiesceComplete
  simp only [hx]
  exact if_pos (by rw [show s.quiet.live = s.live from rfl, show s.quiet.inst j = s.inst j from rfl, hlive, hst, hq]; rfl)

/-! ## CREATE, START, RESUME -/

theorem create_eq (h : takeCmd s.quiet q.toNat 0x40 = some r) (ha : accepts 0x40 (s.inst (reqTarget r.entry)) = true)
    (hm : s.spire.push.marker = false) : execCreate q s = .next (complete
      (s.quiet.setInst (reqTarget r.entry) { st := .defined, vectors := par r.entry 36, label := fieldBE r.entry 40 8 }) r.fn r.seq 0 0 0 []) := by
  unfold execCreate
  simp only [h, State.quiet_spire, hm, Bool.false_eq_true, if_false]
  exact if_pos ha

/-- The module awake, and the instance as it was: what START and RESUME end with. -/
theorem wake_results (s : State) (i : Nat) {f : Inst → Inst} (hf : ∀ x, (f x).st = .running) : let u := wake (s.updInst i f)
    (u.inst i).st = .running ∧ u.clk.power = 0 ∧ u.ves = s.ves ∧ u.css = s.css := by
  obtain ⟨o, fs, b, h⟩ := setPower_frame (s := s.updInst i f) 0
  unfold wake
  rw [h]
  exact ⟨(congrArg Inst.st (State.inst_updInst_same s i f)).trans (hf _), rfl, rfl, rfl⟩

theorem start_results (h : takeCmd s.quiet q.toNat 0x41 = some r) (ha : accepts 0x41 (s.inst (reqTarget r.entry)) = true) :
    ∃ u, execStart q s = .next (complete u r.fn r.seq 0 0 0 []) ∧ (u.inst (reqTarget r.entry)).st = .running ∧ u.clk.power = 0
      ∧ u.ves = s.ves := by
  obtain ⟨hst, hp, hv, -⟩ := wake_results s.quiet (reqTarget r.entry) (f := fun x => { x with st := .running }) fun _ => rfl
  exact ⟨_, (instCommand_accepted h rfl ha : execStart q s = _), hst, hp, hv⟩

theorem resume_results (h : takeCmd s.quiet q.toNat 0x43 = some r) (ha : accepts 0x43 (s.inst (reqTarget r.entry)) = true)
    (hheld : subsIn s.quiet (reqTarget r.entry) (· == .held) = []) :
    ∃ u, execResume q s = .next (complete u r.fn r.seq 0 0 0 []) ∧ (u.inst (reqTarget r.entry)).st = .running ∧ u.clk.power = 0
      ∧ u.ves = s.ves ∧ u.css = s.css := by
  have hr : releaseHeld s.quiet (reqTarget r.entry) = s.quiet := by
    unfold releaseHeld
    rw [hheld]
    rfl
  obtain ⟨hst, hp, hv, hc⟩ := wake_results s.quiet (reqTarget r.entry) (f := fun x => { x with st := .running, exporting := none }) fun _ => rfl
  refine ⟨_, (instCommand_accepted h rfl ha : execResume q s = _).trans ?_, hst, hp, hv, hc⟩
  dsimp only
  rw [hr]
  rfl

/-! ## RESET (R89) -/

theorem resetInst_st (s : State) (i : Nat) : ((resetInst s i).inst i).st = .defined := by
  unfold resetInst
  exact congrArg Inst.st (State.inst_updInst_same _ i _)

/-- What RESET does before it makes the virtual engines anew leaves them. -/
theorem resetInst_ve (s : State) (i k : Nat) : (resetInst s i).ve k = if veInst k = i then (s.ve k).restartState else s.ve k := by
  unfold resetInst
  extract_lets answered discarded dropped restarted
  have hans : Hub s answered := Hub.foldl (fun s r => (freeDispatch_hub s r).trans (complete_hub _ _ _ _ _ _ _)) _ _
  have hdrop : Hub discarded dropped := Hub.foldl (fun s n => (Hub.of_tables s ..).trans (releaseGroup_hub _ i n)) _ _
  have hves : dropped.ves = s.ves := ((hans.trans (discardStatuses_hub answered i)).trans hdrop).ves
  show kvGet {} (kvMap (fun k v => if veInst k == i then v.restartState else v) dropped.ves) k = _
  unfold State.ve kvGet
  rw [kvFind_kvMap, hves]
  cases kvFind s.ves k with
  | none => exact (ite_self _).symm
  | some v =>
    simp only [Option.map_some, Option.getD_some, beq_iff_eq]

theorem afterOps_waits {op : Nat} {body : State → Request → Nat → State} (h : takeCmd s.quiet q.toNat op = some r)
    (ha : accepts op (s.inst (reqTarget r.entry)) = true) (hu : unended s.quiet (reqTarget r.entry) = true) :
    afterOps s q op body = .next s.quiet := by
  unfold afterOps
  simp only [h]
  exact if_pos (by rw [show s.quiet.inst _ = s.inst _ from rfl, ha, hu]; rfl)

theorem afterOps_runs {op : Nat} {body : State → Request → Nat → State} (h : takeCmd s.quiet q.toNat op = some r)
    (ha : accepts op (s.inst (reqTarget r.entry)) = true) (hu : unended s.quiet (reqTarget r.entry) = false) :
    afterOps s q op body = .next (body s.quiet r (reqTarget r.entry)) := by
  unfold afterOps
  simp only [h, hu, Bool.and_false, Bool.false_eq_true, if_false]
  exact instCommand_accepted (s := s.quiet) h rfl ha

/-! ## DESTROY (R90) -/

theorem sendSlots_insts (s : State) (l : List (List Byte)) : (sendSlots s l).insts = s.insts := by
  induction s, l using sendSlots.induct with
  | case1 | case2 | case3 => rfl
  | case4 s a b c l ih => exact ih

theorem sendGroup_insts (s : State) (k : Nat) : (sendGroup s k).insts = s.insts := by
  unfold sendGroup
  split
  · split
    · rfl
    · dsimp only
      split
      · exact sendSlots_insts _ _
      · rfl
  · rfl

theorem closeEntry_insts (s : State) (i : Nat) (a : Deferred) : (closeEntry s i a).insts = s.insts := by
  unfold closeEntry
  split
  · exact foldl_keeps State.insts sendGroup_insts _ _
  · rfl

theorem journalOne_insts (s : State) (i n t : Nat) (d : Bool) : (journalOne s i n t d).insts = s.insts := by
  unfold journalOne
  extract_lets x e m l u
  split <;> rfl

theorem journal_insts (s : State) (i n t : Nat) (d : Bool) (a : Deferred) : (journal s i n t d a).insts = s.insts := by
  refine (foldl_keeps State.insts (fun s e => ?_) _ _).trans ((closeEntry_insts _ i a).trans (journalOne_insts s i n t d))
  split
  · split
    · exact (closeEntry_insts _ _ _).trans (journalOne_insts s _ _ _ _)
    · rfl
  · rfl

/-- The other instances are as they were when a status of this one is presented. -/
theorem presentSub_inst {i j : Nat} (hj : j ≠ i) (s : State) (n : Nat) (d : Bool) : (presentSub s i n d).inst j = s.inst j := by
  unfold presentSub
  extract_lets operation freed
  have hf : (journal freed i n 6 d).insts = s.insts := (journal_insts freed i n 6 d _).trans rfl
  unfold releaseGroup
  dsimp only
  have hs : State.inst ((journal freed i n 6 d).setSub i n {}) j = s.inst j := by
    unfold State.inst
    rw [← hf]
    rfl
  split
  · exact hs
  · split
    · exact hs
    · unfold State.updInst
      rw [State.inst_setInst, if_neg (Ne.symm hj)]
      exact hs

theorem discardStatuses_inst {i j : Nat} (hj : j ≠ i) (s : State) : (discardStatuses s i).inst j = s.inst j :=
  foldl_keeps (fun s : State => s.inst j) (fun s n => presentSub_inst hj s n true) _ _

theorem freePages_keeps (s : State) (l : List Nat) : ((freePages s l).insts, (freePages s l).zeroing) = (s.insts, s.zeroing) :=
  foldl_keeps (fun s : State => (s.insts, s.zeroing)) (f := fun s pg => s.setPage pg {}) (fun _ _ => rfl) l s

theorem dropRequests_keeps (s : State) (n : Nat) : ((dropRequests s n).insts, (dropRequests s n).zeroing) = (s.insts, s.zeroing) := by
  refine foldl_keeps (fun s : State => (s.insts, s.zeroing)) (fun s r => ?_) (s.hp.reqs.filter fun r => r.fn == n) s
  unfold freeDispatch
  split <;> rfl

theorem kvFind_filter_key {α : Type} (q : Nat → Bool) (l : KV α) (k : Nat) :
    kvFind (l.filter fun e => q e.1) k = if q k then kvFind l k else none := by
  induction l with
  | nil => exact (ite_self _).symm
  | cons e l ih =>
    obtain ⟨j, v⟩ := e
    rw [List.filter_cons]
    by_cases hj : j = k
    · subst hj
      by_cases hq : q j = true
      · simp [hq, kvFind]
      · simpa [hq] using ih
    · by_cases hq : q j = true
      · simpa [hq, kvFind, hj] using ih
      · simpa [hq, kvFind, hj] using ih

/-- Everything that an instance holds is returned: what is left of it, of its virtual engines, and of the other instances. -/
theorem destroyInst_results (s : State) (i : Nat) : let u := destroyInst s i
    u.inst i = {} ∧ (∀ k, veInst k = i → u.ve k = {}) ∧ (∀ g ∈ (s.inst i).main, (false, g.num) ∈ u.zeroing)
      ∧ (∀ g ∈ (s.inst i).bulk, (true, g.num) ∈ u.zeroing) ∧ ∀ j, j ≠ i → u.inst j = s.inst j := by
  unfold destroyInst
  extract_lets x discarded granules pages ways rings dropped channel twin gone
  have hways : (ways.insts, ways.zeroing) = (pages.insts, pages.zeroing) :=
    foldl_keeps (fun s : State => (s.insts, s.zeroing)) (f := fun s t => freeWays s i t 0) (fun _ _ => rfl) (List.range 8) pages
  have hdropped : (dropped.insts, dropped.zeroing) = (rings.insts, rings.zeroing) := dropRequests_keeps rings (i + 1)
  obtain ⟨hi, hz⟩ := Prod.mk.inj (hdropped.trans (hways.trans (freePages_keeps granules x.keyPages)))
  have hzero : dropped.zeroing = (discarded.zeroing ++ x.main.map fun g => (false, g.num)) ++ x.bulk.map fun g => (true, g.num) := hz
  have hinst (j : Nat) : dropped.inst j = discarded.inst j := by
    unfold State.inst
    rw [hi]
    rfl
  refine ⟨State.inst_setInst_same gone i {}, fun k hk => ?_, fun g hg => ?_, fun g hg => ?_, fun j hj => ?_⟩
  · show kvGet {} (dropped.ves.filter fun e => veInst e.1 != i) k = {}
    rw [kvGet, kvFind_filter_key (fun k => veInst k != i), hk]
    simp
  · show (false, g.num) ∈ dropped.zeroing
    rw [hzero]
    exact List.mem_append_left _ (List.mem_append_right _ (List.mem_map_of_mem hg))
  · show (true, g.num) ∈ dropped.zeroing
    rw [hzero]
    exact List.mem_append_right _ (List.mem_map_of_mem hg)
  · rw [State.inst_setInst, if_neg (Ne.symm hj)]
    exact (hinst j).trans (discardStatuses_inst hj s)

theorem destroy_results (h : takeCmd s.quiet q.toNat 0x45 = some r) (ha : accepts 0x45 (s.inst (reqTarget r.entry)) = true)
    (hu : unended s.quiet (reqTarget r.entry) = false) (ht : s.twinned (reqTarget r.entry) = false) :
    execDestroy q s = .next (complete (destroyInst s.quiet (reqTarget r.entry)) r.fn r.seq 0 0 0 []) := by
  refine (afterOps_runs h ha hu : execDestroy q s = _).trans ?_
  simp only [show s.quiet.twinned (reqTarget r.entry) = false from ht, Bool.false_eq_true, if_false]
  rfl

end

/-- Settles O44, command by command. -/
theorem instanceLifeCommands : Obligations.InstanceLifeCommands := by
  unfold Obligations.InstanceLifeCommands
  intro s q r w i ok zs
  refine ⟨fun ⟨h, ha⟩ hm => create_eq h ha hm, fun ⟨h, ha⟩ => start_results h ha, fun ⟨h, ha⟩ hheld => resume_results h ha hheld,
    fun ⟨h, ha⟩ => quiesce_results h ha, fun j x hlive hx hst hq => quiesceComplete_ends hlive hx hst hq,
    fun ⟨h, ha⟩ => ⟨fun hu => afterOps_waits h ha hu, fun hu => ?_⟩, fun ⟨h, ha⟩ hu ht => ?_⟩
  · refine ⟨_, (afterOps_runs h ha hu : execReset q s = _), resetInst_st w i, fun v hv => ?_, fun k hk => ?_⟩
    · rw [resetInst_ve, if_pos (veInst_veKey hv)]
      rfl
    · rw [resetInst_ve, if_neg hk]
      rfl
  · exact ⟨_, destroy_results h ha hu ht, destroyInst_results w i⟩

end Sys2Proof.Machine

/-! SUPPORT. SET_ENGINES, RESIZE and pending shrinks (R72, R75 to R77, R79, R85, R86), and the statement about them, O45. -/

namespace Sys2Proof.Machine

open Sys2Proof

section
variable {s : State} {q : BitVec 32} {r : Request}

/-! ## SET_ENGINES -/

theorem kvGet_kvMap {α : Type} (d : α) (f : Nat → α → α) (l : KV α) (k : Nat) (h : f k d = d) :
    kvGet d (kvMap f l) k = f k (kvGet d l k) := by
  unfold kvGet
  rw [kvFind_kvMap]
  cases kvFind l k with
  | none => exact h.symm
  | some v => rfl

theorem veNum_veKey {i v : Nat} (h : v < 64) : veNum (veKey i v) = v := by
  unfold veNum veKey
  omega

theorem veKey_inj {i a b : Nat} : veKey i a = veKey i b ↔ a = b := by
  unfold veKey
  omega

theorem placeVe_other {k j : Nat} (t : Nat) (h : k ≠ j) : (placeVe s t k).ve j = s.ve j := by
  unfold placeVe
  dsimp only
  split <;> rw [State.ve_setVe, if_neg h]

/-- A virtual engine on tower `t`, with its context there. -/
def VE.placedOn (v : VE) (t : Nat) : Prop := v.placed = true ∧ v.tower = t ∧ v.hasCtx = true

theorem placeVe_same (s : State) (t k : Nat) : ((placeVe s t k).ve k).placedOn t := by
  unfold placeVe
  dsimp only
  split
  next h =>
    rw [State.ve_setVe_same]
    simp only [Bool.and_eq_true, beq_iff_eq] at h
    exact ⟨rfl, h.2, h.1⟩
  next =>
    rw [State.ve_setVe_same]
    exact ⟨rfl, rfl, rfl⟩

/-- The virtual engines from `f` on placed one after the other. -/
def placeAll (s : State) (i t f n : Nat) : State := (List.range n).foldl (fun s j => placeVe s t (veKey i (f + j))) s

theorem placeAll_succ (s : State) (i t f n : Nat) : placeAll s i t f (n + 1) = placeVe (placeAll s i t f n) t (veKey i (f + n)) := by
  unfold placeAll
  rw [List.range_succ, List.foldl_append]
  rfl

theorem placeAll_ve (s : State) (i t f n : Nat) :
    (∀ j, j < n → ((placeAll s i t f n).ve (veKey i (f + j))).placedOn t)
    ∧ ∀ v, v < f ∨ f + n ≤ v → (placeAll s i t f n).ve (veKey i v) = s.ve (veKey i v) := by
  induction n with
  | zero => exact ⟨fun _ hj => absurd hj (Nat.not_lt_zero _), fun _ _ => rfl⟩
  | succ n ih =>
    obtain ⟨hin, hout⟩ := ih
    rw [placeAll_succ]
    refine ⟨fun j hj => ?_, fun v hv => ?_⟩
    · by_cases hjn : j = n
      · subst hjn
        exact placeVe_same _ t _
      · rw [placeVe_other t (by rw [Ne, veKey_inj]; omega)]
        exact hin j (by omega)
    · rw [placeVe_other t (by rw [Ne, veKey_inj]; omega)]
      exact hout v (by omega)

/-- Virtual engine `k`, taken away from tower `t` unless it is one of `[f, f + n)`. -/
def VE.unlessNamed (i t f n k : Nat) (v : VE) : VE :=
  if veInst k == i && v.placed && v.tower == t && !(veInst k == i && f ≤ veNum k && veNum k < f + n) then { v with placed := false } else v

theorem VE.unlessNamed_placed {i t f n v : Nat} {x : VE} (hv : v < 64) (hr : v < f ∨ f + n ≤ v) (ht : x.tower = t) :
    (x.unlessNamed i t f n (veKey i v)).placed = false := by
  have hout : (decide (f ≤ v) && decide (v < f + n)) = false := by
    rcases hr with hr | hr <;> simp <;> omega
  unfold VE.unlessNamed
  rw [veInst_veKey hv, veNum_veKey hv]
  cases hp : x.placed with
  | true => simp [ht, hout]
  | false => simp [hp]

/-- The virtual engines of a tower that SET_ENGINES does not name taken away. -/
def unplaceOthers (s : State) (i t f n : Nat) : State := { s with ves := kvMap (VE.unlessNamed i t f n) s.ves }

theorem unplaceOthers_ve (s : State) (t n : Nat) {i f v : Nat} (hv : v < 64) (hr : v < f ∨ f + n ≤ v) (ht : (s.ve (veKey i v)).tower = t) :
    ((unplaceOthers s i t f n).ve (veKey i v)).placed = false := by
  have h : (unplaceOthers s i t f n).ve (veKey i v) = (s.ve (veKey i v)).unlessNamed i t f n (veKey i v) :=
    kvGet_kvMap (α := VE) {} (VE.unlessNamed i t f n) s.ves (veKey i v) (if_neg (by simp))
  rw [h]
  exact VE.unlessNamed_placed hv hr ht

theorem passStatuses_keeps (s : State) (i : Nat) (b : Bool) :
    (∀ k, (passStatuses s i b).ve k = s.ve k) ∧ ∀ j, (passStatuses s i b).inst j = s.inst j := by
  unfold passStatuses
  dsimp only
  split <;> exact ⟨fun _ => rfl, fun _ => rfl⟩

@[simp] theorem Inst.share_setShare (x : Inst) (p t : Nat) (sh : Share) : (x.setShare p t sh).share p t = sh := by
  unfold Inst.share Inst.setShare
  rw [kvGet_kvSet, if_pos rfl]

theorem setEngines_limit (h : takeCmd s.quiet q.toNat 0x50 = some r) (hf : stateFields s.quiet r.entry = none)
    (ha : accepts 0x50 (s.inst (reqTarget r.entry)) = true)
    (hm : poolTotal s.quiet 1 (par r.entry 36) < poolGuaranteed s.quiet 1 (par r.entry 36)
      - ((s.inst (reqTarget r.entry)).share 1 (par r.entry 36)).guarantee + fieldBE r.entry 40 2) :
    execSetEngines q s = .next (answer s.quiet r .resourceLimit 1) := by
  refine (instCommand_accepted h hf ha : execSetEngines q s = _).trans (congrArg _ ?_)
  unfold setEngines
  exact if_pos (by simp [hm])

/-- What SET_ENGINES makes of the state before its completion. -/
def enginesSet (s : State) (i t f n g : Nat) : State :=
  passStatuses ((placeAll (unplaceOthers s i t f n) i t f n).updInst i fun x => x.setShare 1 t { (s.inst i).share 1 t with guarantee := g }) i
    (!(List.range 64).any fun v => (s.ve (veKey i v)).placed)

theorem setEngines_fits (h : takeCmd s.quiet q.toNat 0x50 = some r) (hf : stateFields s.quiet r.entry = none)
    (ha : accepts 0x50 (s.inst (reqTarget r.entry)) = true)
    (hm : poolGuaranteed s.quiet 1 (par r.entry 36) - ((s.inst (reqTarget r.entry)).share 1 (par r.entry 36)).guarantee
      + fieldBE r.entry 40 2 ≤ poolTotal s.quiet 1 (par r.entry 36))
    (hk : slotsKept s.quiet (reqTarget r.entry) (par r.entry 36) (par r.entry 37) (par r.entry 38) + par r.entry 38 ≤ 480)
    (hg : 17 ≤ goodFree s.quiet (par r.entry 36)) :
    execSetEngines q s = .next (complete (enginesSet s.quiet (reqTarget r.entry) (par r.entry 36) (par r.entry 37) (par r.entry 38)
      (fieldBE r.entry 40 2)) r.fn r.seq 0 0 0 []) := by
  refine (instCommand_accepted h hf ha : execSetEngines q s = _).trans (congrArg _ ?_)
  unfold setEngines
  exact if_neg (by simp [Nat.not_lt.mpr hm, Nat.not_lt.mpr hk, Nat.not_lt.mpr hg])

theorem enginesSet_results (s : State) (i t f n g : Nat) : let u := enginesSet s i t f n g
    (∀ j, j < n → (u.ve (veKey i (f + j))).placedOn t)
    ∧ (∀ v, v < 64 → v < f ∨ f + n ≤ v → (s.ve (veKey i v)).tower = t → (u.ve (veKey i v)).placed = false)
    ∧ ((u.inst i).share 1 t).guarantee = g := by
  intro u
  obtain ⟨hin, hout⟩ := placeAll_ve (unplaceOthers s i t f n) i t f n
  obtain ⟨hves, hinsts⟩ := passStatuses_keeps ((placeAll (unplaceOthers s i t f n) i t f n).updInst i fun x =>
    x.setShare 1 t { (s.inst i).share 1 t with guarantee := g }) i (!(List.range 64).any fun v => (s.ve (veKey i v)).placed)
  have hve (k : Nat) : u.ve k = (placeAll (unplaceOthers s i t f n) i t f n).ve k := hves k
  refine ⟨fun j hj => ?_, fun v hv hr ht => ?_, ?_⟩
  · rw [hve]
    exact hin j hj
  · rw [hve, hout v hr]
    exact unplaceOthers_ve s t n hv hr ht
  · show ((enginesSet s i t f n g).inst i |>.share 1 t).guarantee = g
    unfold enginesSet
    rw [hinsts, State.inst_updInst_same, Inst.share_setShare]

/-! ## RESIZE -/

theorem execResize_runs (h : takeCmd s.quiet q.toNat 0x51 = some r) (hf : stateFields s.quiet r.entry = none)
    (ha : accepts 0x51 (s.inst (reqTarget r.entry)) = true) : execResize q s = .next (resize s.quiet r (reqTarget r.entry)) :=
  instCommand_accepted h hf ha

theorem partnerRefuses_unpaired (h : s.twin.st ≠ .paired) (i : Nat) (b : Bool) : partnerRefuses s i b = (false, s) := by
  unfold partnerRefuses
  exact if_neg (by simp [h])

section
variable {i : Nat}

/-- What RESIZE may change at once: an admission pool or ENTITLEMENT, a share that does not shrink, an instance that does not run. -/
def Resizable (x : Inst) (p t g : Nat) : Prop := admission p = true ∨ p = 1 ∨ (x.share p t).guarantee ≤ g ∨ x.st ≠ .running

theorem Resizable.accepted {x : Inst} {p t g : Nat} (h : Resizable x p t g) :
    ¬ (!admission p && p != 1 && decide (g < (x.share p t).guarantee) && x.st == .running) = true := by
  rcases h with h | h | h | h
  · simp [h]
  · simp [h]
  · simp [Nat.not_lt.mpr h]
  · simp [h]

/-- Only a running instance refuses to give back granted units. -/
theorem resize_refused (ha : admission (par r.entry 36) = false) (h1 : par r.entry 36 ≠ 1)
    (hg : fieldBE r.entry 40 4 < ((s.inst i).share (par r.entry 36) (par r.entry 37)).guarantee) (hs : (s.inst i).st = .running) :
    resize s r i = refuse s r i 2 := by
  unfold resize
  dsimp only
  rw [if_pos (by simp [ha, h1, hg, hs]), hs]
  rfl

theorem resize_beyond (ha : Resizable (s.inst i) (par r.entry 36) (par r.entry 37) (fieldBE r.entry 40 4))
    (ho : overShare s i (par r.entry 36) (par r.entry 37) (fieldBE r.entry 40 4) (fieldBE r.entry 44 4) = true) :
    resize s r i = answer s r .resourceLimit (par r.entry 36) := by
  unfold resize
  dsimp only
  rw [if_neg ha.accepted, if_pos ho]

/-- Within its limits the command moves the units of the pool. -/
theorem resize_moves (ha : Resizable (s.inst i) (par r.entry 36) (par r.entry 37) (fieldBE r.entry 40 4))
    (ho : overShare s i (par r.entry 36) (par r.entry 37) (fieldBE r.entry 40 4) (fieldBE r.entry 44 4) = false)
    (hs : s.spire.stopped = false) (ht : s.twin.st ≠ .paired) :
    resize s r i = match moveUnits s i (par r.entry 36) (par r.entry 37) (fieldBE r.entry 40 4) with
      | .ok v => applyShare v r i (par r.entry 36) (par r.entry 37) (fieldBE r.entry 40 4) (fieldBE r.entry 44 4)
      | .short => answer s r .resourceLimit (par r.entry 36)
      | .later => s := by
  unfold resize
  dsimp only
  rw [if_neg ha.accepted, if_neg (by simp [ho]), if_neg (by simp [hs]), partnerRefuses_unpaired ht]
  rfl

end

/-! ## Pending shrinks (R85, R86) -/

theorem kvSet_kvSet {α : Type} (l : KV α) (k : Nat) (v : α) : kvSet (kvSet l k v) k v = kvSet l k v := by
  induction l with
  | nil => simp [kvSet]
  | cons e l ih =>
    obtain ⟨j, x⟩ := e
    by_cases hlt : j < k
    · simp [kvSet, hlt, ih]
    · by_cases he : j = k
      · simp [kvSet, he]
      · simp [kvSet, hlt, he]

theorem State.updInst_self {i : Nat} {f : Inst → Inst} (s : State) (x : Inst) (h : f x = x) : (s.setInst i x).updInst i f = s.setInst i x := by
  unfold State.updInst
  rw [State.inst_setInst_same, h]
  unfold State.setInst
  rw [kvSet_kvSet]

/-- A share that no holder delays and no shrink waits for is simply set. -/
theorem applyShare_done {v : State} {i b t g c : Nat} (hb : b ≠ 4) (hk : ∀ k ∈ (v.inst i).shrinks, k.pool ≠ b ∨ k.tower ≠ t)
    (hw : shrinkWaits (v.updInst i fun x => x.setShare b t { guarantee := g, cap := c }) i b t g c v.clk.tb = false) :
    applyShare v r i b t g c = complete (v.updInst i fun x => x.setShare b t { guarantee := g, cap := c }) r.fn r.seq 0 0 0 [] := by
  have hnone : (v.inst i).shrinks.find? (fun k => k.pool == b && k.tower == t) = none := by
    rw [List.find?_eq_none]
    intro k hm
    rcases hk k hm with h | h <;> simp [h]
  have hkeep : (v.inst i).shrinks.filter (fun k => !(k.pool == b && k.tower == t)) = (v.inst i).shrinks := by
    rw [List.filter_eq_self]
    intro k hm
    rcases hk k hm with h | h <;> simp [h]
  have hshrinks : ((v.updInst i fun x => x.setShare b t { guarantee := g, cap := c }).inst i).shrinks = (v.inst i).shrinks := by
    rw [State.inst_updInst_same]
    rfl
  have hsame : (v.updInst i fun x => x.setShare b t { guarantee := g, cap := c }).updInst i
      (fun x => { x with shrinks := x.shrinks.filter fun k => !(k.pool == b && k.tower == t) })
      = v.updInst i fun x => x.setShare b t { guarantee := g, cap := c } :=
    State.updInst_self v _ (by
      show ({ (v.inst i).setShare b t { guarantee := g, cap := c } with shrinks := (v.inst i).shrinks.filter _ } : Inst) = _
      rw [hkeep]
      rfl)
  have htb : (v.updInst i fun x => x.setShare b t { guarantee := g, cap := c }).clk.tb = v.clk.tb := rfl
  unfold applyShare
  simp only [beq_eq_false_iff_ne.mpr hb, Bool.false_eq_true, if_false, hshrinks, hnone, hsame, htb, ite_self, hw, Bool.and_false, Option.isSome_none]
  rfl

theorem shrinkComplete_ends {i : Nat} {k : Shrink} (hl : s.live = true)
    (hk : ((s.inst i).shrinks.find? fun k => !shrinkWaits s.quiet i k.pool k.tower ((s.inst i).share k.pool k.tower).guarantee
      ((s.inst i).share k.pool k.tower).cap k.tb) = some k) :
    let pairs := ((s.inst i).share 6 0).guarantee
    let v := s.quiet.setInst i { s.inst i with
      shrinks := (s.inst i).shrinks.erase k, ringPairs := if k.pool = 6 then pairs else (s.inst i).ringPairs }
    execShrinkComplete i s = .next (logShrink (if k.pool = 6 then freeRings v i pairs else v) i k.pool k.seq) := by
  intro pairs v
  have hi : s.quiet.inst i = s.inst i := rfl
  unfold execShrinkComplete
  simp only [hi, hk]
  refine (if_pos hl).trans ?_
  by_cases h6 : k.pool = 6
  · simp [h6, v, pairs]
  · simp [h6, v, pairs]

end

/-- Settles O45, command by command. -/
theorem placementAndPoolCommands : Obligations.PlacementAndPoolCommands := by
  unfold Obligations.PlacementAndPoolCommands
  intro s q r w i b t n g c
  refine ⟨fun h hf ha => ⟨fun hm => setEngines_limit h hf ha hm, fun ⟨hm, hk, hg⟩ _ =>
      ⟨_, setEngines_fits h hf ha hm hk hg, enginesSet_results w i b t n _⟩⟩,
    fun h hf ha hs ht => ⟨fun hadm h1 hg hst => ?_, fun hgo => ⟨fun ho => ?_, fun ho v hv => ?_, fun ho hv u hu => ?_⟩⟩,
    fun v i b t g c hw hb hk => ⟨_, applyShare_done hb hk hw, ?_, rfl⟩, fun i k hl hk => shrinkComplete_ends hl hk⟩
  · exact (execResize_runs h hf ha).trans (congrArg _ (resize_refused hadm h1 hg hst))
  · exact (execResize_runs h hf ha).trans (congrArg _ (resize_beyond hgo ho))
  · have hmoves := resize_moves (s := w) (i := i) hgo ho hs ht
    rw [hv] at hmoves
    exact (execResize_runs h hf ha).trans (congrArg _ hmoves)
  · have hres := (resize_moves (s := w) (i := i) hgo ho hs ht).symm.trans (Host.Outcome.next.inj ((execResize_runs h hf ha).symm.trans hu))
    split at hres
    next v hv' => exact absurd hv' (hv v)
    next => exact .inl hres.symm
    next => exact .inr hres.symm
  · rw [State.inst_updInst_same, Inst.share_setShare]

end Sys2Proof.Machine

/-! SUPPORT. EXPORT and IMPORT (R93, R95, R400): the first segment of a session, the refusals, and the statement about them, O47. -/

namespace Sys2Proof.Machine

open Sys2Proof

section
variable {s : State} {q : BitVec 32} {r : Request}

theorem streamHeader_ne_nil (s : State) (i n : Nat) (salt : List Byte) : streamHeader s i n salt ≠ [] := by
  intro h
  have := congrArg List.length h
  simp [streamHeader] at this

/-- Offset 0 lies in every stream. -/
theorem streamTotal_content_pos (s : State) (i : Nat) (salt wrap : List Byte) : 0 < streamTotal (streamContent s i salt wrap).length := by
  have h : 0 < (streamContent s i salt wrap).length :=
    List.length_pos_iff.mpr fun h => streamHeader_ne_nil _ _ _ _ (List.append_eq_nil_iff.mp h).1
  exact Nat.add_pos_left h _

/-- The request with the segment that is to be written for it. -/
def readySegment (r : Request) (frames : List (List Byte)) : Request := { r with stage := .running, data := frames.flatten }

/-- A segment that starts in the stream is made ready in the request. -/
theorem exportSegment_ready {x : Session} {off : Nat} (ho : fieldBE r.entry 40 8 = off) (hm : off % 1048576 = 0)
    (ht : off < streamTotal x.stream.length) (i : Nat) :
    exportSegment s r i x = (s.updInst i fun y => { y with exporting := some x }).putReq (readySegment r (fitFrames (reqDstLen r.entry)
      ((allFrames (kdf ((dkeyOf s x.dkey).getD []) "KG9 MIG TAG" x.salt 32) x.stream).drop (off / 1048576)))) := by
  subst ho
  unfold exportSegment
  exact if_neg (by simp [hm, Nat.not_le.mpr ht])

theorem exportSegment_misplaced {x : Session} (h : fieldBE r.entry 40 8 % 1048576 ≠ 0) (i : Nat) :
    exportSegment s r i x = answer s r .fieldInvalid 40 := by
  unfold exportSegment
  exact if_pos (by simp [h])

/-- The checks of EXPORT in their order, and the session that goes on. -/
theorem export_checks (h : takeCmd s.quiet q.toNat 0x60 = some r) (ha : accepts 0x60 (s.inst (reqTarget r.entry)) = true) :
    let w := s.quiet
    let i := reqTarget r.entry
    let off := fieldBE r.entry 40 8
    (off ≠ 0 → (s.inst i).exporting = none → execExportInst q s = .next (refuse w r i (s.inst i).st.code))
    ∧ (off = 0 ∨ (s.inst i).exporting ≠ none →
      (dkeyOf s (par r.entry 37) = none → execExportInst q s = .next (answer w r .keyAbsent 0))
      ∧ ∀ key, dkeyOf s (par r.entry 37) = some key →
        (s.spire.stopped = true → execExportInst q s = .next (answer w r .deviceError 0))
        ∧ (s.spire.stopped = false → off ≠ 0 → ∀ x, (s.inst i).exporting = some x →
            execExportInst q s = .next (if x.dkey != par r.entry 37 then answer w r .fieldInvalid 37 else exportSegment w r i x))) := by
  have he := (instCommand_accepted h rfl ha : execExportInst q s = _)
  have hw (d : Nat) : dkeyOf s.quiet d = dkeyOf s d := rfl
  have hi (j : Nat) : s.quiet.inst j = s.inst j := rfl
  have hp : s.quiet.spire = s.spire := rfl
  simp only [hw, hi, hp] at he
  refine ⟨fun ho hx => he.trans ?_, fun hgo => ⟨fun hk => he.trans ?_, fun key hk =>
    ⟨fun hs => he.trans ?_, fun hs ho x hx => he.trans ?_⟩⟩⟩
  · simp [ho, hx]
  · rcases hgo with ho | hx
    · simp [ho, hk]
    · simp [Option.isNone_eq_false_iff.mpr (Option.isSome_iff_ne_none.mpr hx), hk]
  · rcases hgo with ho | hx
    · simp [ho, hk, hs]
    · simp [Option.isNone_eq_false_iff.mpr (Option.isSome_iff_ne_none.mpr hx), hk, hs]
  · simp [ho, hx, hk, hs]

theorem putReq_session (v : State) (i : Nat) (x : Session) (r : Request) :
    (((v.updInst i fun y => { y with exporting := some x }).putReq r).inst i).exporting = some x :=
  congrArg Inst.exporting (State.inst_updInst_same v i fun y => { y with exporting := some x })

/-- The session that EXPORT opens at offset 0. -/
def openedSession (s : State) (i d : Nat) (key : List Byte) : Session :=
  { dkey := d, salt := saltOf s i, stream := streamContent s i (saltOf s i) (kdf key "KG9 MIG WRAP" (saltOf s i) 32) }

theorem export_opens {key : List Byte} (h : takeCmd s.quiet q.toNat 0x60 = some r) (ha : accepts 0x60 (s.inst (reqTarget r.entry)) = true)
    (hk : dkeyOf s (par r.entry 37) = some key) (hs : s.spire.stopped = false) (ho : fieldBE r.entry 40 8 = 0) :
    let v := { s.quiet with spire := { s.spire with exportNo := s.spire.exportNo + 1 } }
    let i := reqTarget r.entry
    let x := openedSession v i (par r.entry 37) key
    execExportInst q s = .next ((v.updInst i fun y => { y with exporting := some x }).putReq
      (readySegment r (fitFrames (reqDstLen r.entry) (allFrames (kdf key "KG9 MIG TAG" x.salt 32) x.stream)))) := by
  intro v i x
  have he := (instCommand_accepted h rfl ha : execExportInst q s = _)
  have hseg := exportSegment_ready (s := v) (x := x) ho rfl (streamTotal_content_pos _ _ _ _) i
  have hv : dkeyOf v x.dkey = some key := hk
  rw [hv] at hseg
  refine he.trans (Eq.trans ?_ (congrArg _ hseg))
  dsimp only
  rw [show dkeyOf s.quiet (par r.entry 37) = some key from hk]
  exact congrArg _ ((if_neg (by simp [ho])).trans ((if_neg (by simp [State.quiet_spire, hs])).trans (if_pos (by simp [ho]))))

theorem import_checks (h : takeCmd s.quiet q.toNat 0x61 = some r) (ha : accepts 0x61 (s.inst (reqTarget r.entry)) = true) :
    let w := s.quiet
    let at_ := match (s.inst (reqTarget r.entry)).importing with | some x => x.offset | none => 0
    (dkeyOf s (par r.entry 37) = none → execImportInst q s = .next (answer w r .keyAbsent 0))
    ∧ ∀ key, dkeyOf s (par r.entry 37) = some key → execImportInst q s = .next (if s.spire.stopped then answer w r .deviceError 0
        else if fieldBE r.entry 40 8 != at_ then answer w r .fieldInvalid 40
        else (w.putReq { r with stage := .running }).emit (.hostRead 0 (reqSrc r.entry) (reqSrcLen r.entry))) := by
  have he := (instCommand_accepted h rfl ha : execImportInst q s = _)
  have hw : dkeyOf s.quiet (par r.entry 37) = dkeyOf s (par r.entry 37) := rfl
  refine ⟨fun hk => he.trans ?_, fun key hk => he.trans ?_⟩
  · rw [hw, hk]
  · rw [hw, hk]
    rfl

end

/-- Settles O47: EXPORT by its checks and its first segment, IMPORT by its checks. -/
theorem migrationCommands : Obligations.MigrationCommands := by
  unfold Obligations.MigrationCommands
  intro s q r w i e off
  refine ⟨fun h ha => ?_, fun h ha => ?_⟩
  · obtain ⟨hclosed, hopen⟩ := export_checks h ha
    refine ⟨hclosed, fun hgo => (hopen hgo).1, fun key hgo hk => ((hopen hgo).2 key hk).1, fun key hk hs ho => ?_, fun key x hk hs ho hx => ?_⟩
    · refine ⟨_, openedSession { w with spire := { s.spire with exportNo := s.spire.exportNo + 1 } } i (par e 37) key,
        export_opens h ha hk hs ho, putReq_session _ _ _ _, rfl, rfl, fun y hy => ?_⟩
      obtain ⟨hr, hfn, hseq, -⟩ := takeCmd_key h
      rw [← hseq] at hr
      obtain rfl := Option.some.inj (hy.symm.trans (req?_putReq hr hfn rfl))
      exact ⟨rfl, rfl⟩
    · have hgo : execExportInst q s = _ := ((hopen (.inr (by rw [hx]; exact Option.some_ne_none x))).2 key hk).2 hs ho x hx
      refine ⟨fun hd => hgo.trans ?_, fun hd hm => hgo.trans ?_⟩
      · rw [if_pos (by simpa using hd)]
      · rw [if_neg (by simpa using hd), exportSegment_misplaced hm]
  · obtain ⟨habsent, hkey⟩ := import_checks h ha
    refine ⟨habsent, fun key hk hs => (hkey key hk).trans ?_, fun key hk hs ho => (hkey key hk).trans ?_,
      fun key hk hs ho => (hkey key hk).trans ?_⟩
    · rw [if_pos hs]
    · rw [hs, if_neg Bool.false_ne_true]
      exact congrArg _ (if_pos (bne_iff_ne.mpr ho))
    · rw [hs, if_neg Bool.false_ne_true]
      exact congrArg _ (if_neg fun hne => bne_iff_ne.mp hne ho)

end Sys2Proof.Machine

/-! SUPPORT. The instructions on registers alone, once fetched: how each ends, by the function of the registers that it is; and the statements
about logic, shifts and moves (O7), branches (O8), moves of flags and status (O9) and feature words (O10). -/

namespace Sys2Proof.Machine

open Sys2Proof

section
variable {s t : State} {p k n : Nat}

/-- An instruction starts from the registers as they are, but for the micro-save area of another microcode set (R190). -/
theorem resumeCtx_eq (t : State) (k : Nat) : ∃ m, t.resumeCtx k = { t.ctx k with micro := m } := by
  unfold State.resumeCtx
  dsimp only
  split
  · exact ⟨(t.ctx k).micro, rfl⟩
  · exact ⟨_, rfl⟩

/-- An instruction on registers completes with the registers `c`, whatever the micro-save area holds. -/
theorem regInstr_completes (h : Fetched s p k n t) {f : Ctx → RegRes} {c : Ctx}
    (hf : ∀ m, f { t.ctx k with micro := m } = .ok { c with micro := m }) (hc : c.micro = (t.ctx k).micro) :
    regInstr s p n false f = .next (retire t k n c) := by
  obtain ⟨m, hm⟩ := resumeCtx_eq t k
  rw [regInstr_fetched h, hm, hf m]
  show Host.Outcome.next (retire t k n { c with micro := (t.ctx k).micro }) = _
  rw [← hc]

/-- An instruction on registers is nullified, whatever the micro-save area holds. -/
theorem regInstr_nullified (h : Fetched s p k n t) {f : Ctx → RegRes} {code : Nat}
    (hf : ∀ m, f { t.ctx k with micro := m } = .exc code) : regInstr s p n false f = .next (nullify t k n code) := by
  obtain ⟨m, hm⟩ := resumeCtx_eq t k
  rw [regInstr_fetched h, hm, hf m]
  rfl

end

/-! ## Reserved bits of FN (R107) -/

theorem fnOk_of_zero {f : FA} (h : f.fn = 0) (mask : BitVec 9) : fnOk f mask = true := by
  unfold fnOk
  rw [h]
  exact beq_iff_eq.mpr (BitVec.zero_and (x := ~~~mask))

theorem fnOk_of_low {f : FA} (h : f.fn &&& 0x1F = 0) : fnOk f 0x1E0 = true := beq_iff_eq.mpr h

/-! ## Logic, shifts, rotates and moves -/

/-- What the instructions that set Z and N leave: the result in G[r], and the flags of it. -/
def Ctx.logic (c : Ctx) (r : BitVec 5) (v : Word) : Ctx := ((c.setG r v).setSb bZ (v == 0)).setSb bN v.msb

section
variable {s t : State} {p k : Nat}

theorem logicRR_completes (h : Fetched s p k 4 t) {f : FA} (hf : f.fn = 0) (op : Word → Word → Word) :
    logicRR p f s op = .next (retire t k 4 ((t.ctx k).logic f.r1 (op ((t.ctx k).G f.r2) ((t.ctx k).G f.r3)))) :=
  regInstr_completes h (fun _ => if_neg (by simp [fnOk_of_zero hf])) rfl

theorem logicRI_completes (h : Fetched s p k 4 t) (f : FC) (op : Word → Word → Word) :
    logicRI p f s op = .next (retire t k 4 ((t.ctx k).logic f.r1 (op ((t.ctx k).G f.r2) (f.imm14.setWidth 64)))) :=
  regInstr_completes h (fun _ => rfl) rfl

theorem shiftRI_completes (h : Fetched s p k 4 t) {f : FC} (hf : f.imm14.toNat < 64) (op : Word → Nat → Word) :
    shiftRI p f s op = .next (retire t k 4 ((t.ctx k).logic f.r1 (op ((t.ctx k).G f.r2) f.imm14.toNat))) :=
  regInstr_completes h (fun _ => if_neg (by omega)) rfl

theorem unaryG_completes (h : Fetched s p k 4 t) {f : FA} (hf : f.fn = 0) (h3 : f.r3 = 0) (op : Word → Word) :
    unaryG p f s op = .next (retire t k 4 ((t.ctx k).setG f.r1 (op ((t.ctx k).G f.r2)))) :=
  regInstr_completes h (fun _ => if_neg (by simp [fnOk_of_zero hf, h3])) rfl

theorem execMov_completes (h : Fetched s p k 4 t) {f : FA} (hf : f.fn = 0) :
    execMov p f s = .next (retire t k 4 ((t.ctx k).setG f.r1 ((t.ctx k).G f.r2))) :=
  regInstr_completes h (fun _ => if_neg (by simp [fnOk_of_zero hf])) rfl

theorem execCsel_completes (h : Fetched s p k 4 t) {f : FA} (hf : f.fn &&& 0x1F = 0) :
    execCsel p f s = .next (retire t k 4
      ((t.ctx k).setG f.r1 (if (t.ctx k).cond (f.fn.extractLsb' 5 4) then (t.ctx k).G f.r2 else (t.ctx k).G f.r3))) :=
  regInstr_completes h (fun _ => if_neg (by rw [fnOk_of_low hf]; exact Bool.false_ne_true)) rfl

/-- SEXT of the size that FN[8:7] selects. -/
theorem execSext_completes (h : Fetched s p k 4 t) {f : FA} (hf : fnOk f 0x180 = true) (hn : f.fn.toNat / 128 ≠ 3) :
    execSext p f s = .next (retire t k 4 ((t.ctx k).setG f.r1 (sext (8 * 2 ^ (f.fn.toNat / 128)) ((t.ctx k).G f.r2).toNat))) :=
  regInstr_completes h (fun _ => if_neg (by rw [hf]; simpa using hn)) rfl

end

/-- The number of leading zeros places the highest bit set (R115). -/
theorem clz64_spec (a : Word) : clz64 a ≤ 64 ∧ a.toNat < 2 ^ (64 - clz64 a) ∧ (clz64 a < 64 → 2 ^ (63 - clz64 a) ≤ a.toNat) := by
  by_cases ha : a = 0
  · subst ha
    decide
  · have hpos : a.toNat ≠ 0 := fun h0 => ha (BitVec.eq_of_toNat_eq h0)
    have hlog : a.toNat.log2 < 64 := (Nat.log2_lt hpos).mpr a.isLt
    have hclz : clz64 a = 63 - a.toNat.log2 := by
      unfold clz64
      rw [if_neg (by simpa using ha)]
      omega
    rw [hclz, show 64 - (63 - a.toNat.log2) = a.toNat.log2 + 1 by omega, show 63 - (63 - a.toNat.log2) = a.toNat.log2 by omega]
    exact ⟨by omega, Nat.lt_log2_self, fun _ => Nat.log2_self_le hpos⟩

/-- The first part of an appended word is the high one. -/
theorem toNat_append_eq_add {m n : Nat} (x : BitVec m) (y : BitVec n) : (x ++ y).toNat = x.toNat * 2 ^ n + y.toNat := by
  rw [BitVec.toNat_append, ← Nat.shiftLeft_add_eq_or_of_lt y.isLt, Nat.shiftLeft_eq]

/-- BSWAP by its eight bytes (R115). -/
theorem bswap_bytes (a : Word) : BitVec.ofNat 64 (leNat (toBE 8 a.toNat)) =
    a.extractLsb' 0 8 ++ a.extractLsb' 8 8 ++ a.extractLsb' 16 8 ++ a.extractLsb' 24 8
      ++ a.extractLsb' 32 8 ++ a.extractLsb' 40 8 ++ a.extractLsb' 48 8 ++ a.extractLsb' 56 8 := by
  have h : leNat (toBE 8 a.toNat) = (a.extractLsb' 0 8 ++ a.extractLsb' 8 8 ++ a.extractLsb' 16 8 ++ a.extractLsb' 24 8
      ++ a.extractLsb' 32 8 ++ a.extractLsb' 40 8 ++ a.extractLsb' 48 8 ++ a.extractLsb' 56 8).toNat := by
    simp only [toBE, toLE, List.reverse_cons, List.reverse_nil, List.nil_append, List.cons_append, leNat, List.foldr_cons, List.foldr_nil,
      toNat_append_eq_add, BitVec.toNat_ofNat, BitVec.extractLsb'_toNat, Nat.shiftRight_eq_div_pow, Nat.div_div_eq_div_mul, Nat.reducePow,
      Nat.reduceMul, Nat.div_one]
    ring
  rw [h, BitVec.ofNat_toNat]
  rfl
/-- Settles O7: each instruction is one of the shapes above. -/
theorem logicShiftAndMoveResults : Obligations.LogicShiftAndMoveResults := by
  unfold Obligations.LogicShiftAndMoveResults
  intro s t p k h c
  refine ⟨fun f hf => ⟨logicRR_completes h hf fun a b => a &&& b, logicRR_completes h hf fun a b => a ||| b,
      logicRR_completes h hf fun a b => a ^^^ b, logicRR_completes h hf fun a b => a &&& ~~~b,
      logicRR_completes h hf fun a b => a <<< (b.toNat % 64), logicRR_completes h hf fun a b => a >>> (b.toNat % 64),
      logicRR_completes h hf fun a b => a.sshiftRight (b.toNat % 64), logicRR_completes h hf fun a b => a.rotateLeft (b.toNat % 64),
      execMov_completes h hf, fun h3 => ⟨⟨_, unaryG_completes h hf h3 fun v => BitVec.ofNat 64 (clz64 v), clz64_spec _⟩,
        unaryG_completes h hf h3 fun v => BitVec.ofNat 64 (popc64 v), ?_⟩⟩,
    fun f hf => ?_, fun f hf => ?_, fun f hf => ?_, fun f hf => execCsel_completes h hf,
    fun f => ⟨logicRI_completes h f fun a b => a &&& b, logicRI_completes h f fun a b => a ||| b, logicRI_completes h f fun a b => a ^^^ b,
      fun hn => ⟨shiftRI_completes h hn fun a n => a <<< n, shiftRI_completes h hn fun a n => a >>> n,
        shiftRI_completes h hn fun a n => a.sshiftRight n, shiftRI_completes h hn fun a n => a.rotateLeft n⟩⟩⟩
  · rw [← bswap_bytes]
    exact unaryG_completes h hf h3 fun v => BitVec.ofNat 64 (leNat (toBE 8 v.toNat))
  all_goals
    have hs := execSext_completes (f := f) h (by rw [fnOk, hf]; decide) (by rw [hf]; decide)
    rw [hf] at hs
    exact hs

/-! ## Branches (R105, R115) -/

/-- What a branch to `target` with the registers `c` comes to: a target that is no multiple of 4 raises specification. -/
def branchTo (t : State) (k : Nat) (c : Ctx) (target : Word) : State :=
  if target.toNat % 4 ≠ 0 then nullify t k 4 0x104 else retire t k 4 { c with ia := target - 4 }

section
variable {s t : State} {p k : Nat}

/-- An instruction that jumps, whatever the micro-save area holds. -/
theorem regInstr_jumps (h : Fetched s p k 4 t) {f : Ctx → RegRes} {c : Ctx} {target : Word}
    (hf : ∀ m, f { t.ctx k with micro := m } = jump { c with micro := m } target 4) (hc : c.micro = (t.ctx k).micro) :
    regInstr s p 4 false f = .next (branchTo t k c target) := by
  unfold branchTo
  split
  next hbad => exact regInstr_nullified h fun m => (hf m).trans (if_pos (by simpa using hbad))
  next hgood => exact regInstr_completes h (c := { c with ia := target - 4 }) (fun m => (hf m).trans (if_neg (by simpa using hgood))) hc

theorem execBc_taken (h : Fetched s p k 4 t) {f : FJ} (hc : (t.ctx k).cond f.cond = true) :
    execBc p f s = .next (branchTo t k (t.ctx k) ((t.ctx k).ia + f.off20.signExtend 64 <<< 2)) :=
  regInstr_jumps h (fun _ => if_pos hc) rfl

theorem execBc_passed (h : Fetched s p k 4 t) {f : FJ} (hc : (t.ctx k).cond f.cond = false) :
    execBc p f s = .next (retire t k 4 (t.ctx k)) :=
  regInstr_completes h (fun _ => if_neg (Bool.eq_false_iff.mp hc)) rfl

theorem execBal_jumps (h : Fetched s p k 4 t) {f : FJ} (hf : f.cond = 15) :
    execBal p f s = .next (branchTo t k ((t.ctx k).setG 31 ((t.ctx k).ia + 4)) ((t.ctx k).ia + f.off20.signExtend 64 <<< 2)) :=
  regInstr_jumps h (fun _ => if_neg (by simp [hf])) rfl

section
variable {f : FA} (hf : f.fn &&& 0x1F = 0) (h1 : f.r1 = 0) (h3 : f.r3 = 0)
include hf h1 h3

theorem br_form : ¬ (!fnOk f 0x1E0 || f.r1 != 0 || f.r3 != 0) = true := by
  rw [fnOk_of_low hf, h1, h3]
  decide

theorem execBr_taken (h : Fetched s p k 4 t) (hc : (t.ctx k).cond (f.fn.extractLsb' 5 4) = true) :
    execBr p f s = .next (branchTo t k (t.ctx k) ((t.ctx k).G f.r2)) :=
  regInstr_jumps h (fun _ => (if_neg (br_form hf h1 h3)).trans (if_pos hc)) rfl

theorem execBr_passed (h : Fetched s p k 4 t) (hc : (t.ctx k).cond (f.fn.extractLsb' 5 4) = false) :
    execBr p f s = .next (retire t k 4 (t.ctx k)) :=
  regInstr_completes h (fun _ => (if_neg (br_form hf h1 h3)).trans (if_neg (Bool.eq_false_iff.mp hc))) rfl

end

theorem execBalr_jumps (h : Fetched s p k 4 t) {f : FA} (hf : f.fn = 0) :
    execBalr p f s = .next (branchTo t k ((t.ctx k).setG f.r1 ((t.ctx k).ia + 4)) ((t.ctx k).G f.r2)) :=
  regInstr_jumps h (fun _ => if_neg (by simp [fnOk_of_zero hf])) rfl

section
variable {f : FC} (hf : f.r2 = 0)
include hf

theorem execBct_passed (h : Fetched s p k 4 t) (hv : (t.ctx k).G f.r1 - 1 = 0) :
    execBct p f s = .next (retire t k 4 ((t.ctx k).setG f.r1 ((t.ctx k).G f.r1 - 1))) :=
  regInstr_completes h (fun _ => (if_neg (by simp [hf])).trans (if_neg (not_not_intro hv ∘ bne_iff_ne.mp))) rfl

theorem execBct_taken (h : Fetched s p k 4 t) (hv : (t.ctx k).G f.r1 - 1 ≠ 0) :
    execBct p f s = .next (branchTo t k ((t.ctx k).setG f.r1 ((t.ctx k).G f.r1 - 1)) ((t.ctx k).ia + f.imm14.signExtend 64 <<< 2)) :=
  regInstr_jumps h (fun _ => (if_neg (by simp [hf])).trans (if_pos (bne_iff_ne.mpr hv))) rfl

end
end

/-- Settles O8: each branch either passes or jumps. -/
theorem branchTargets : Obligations.BranchTargets := by
  unfold Obligations.BranchTargets
  intro s t p k h c go
  refine ⟨fun f => ⟨?_, fun hf => execBal_jumps h hf⟩, fun f hf h1 h3 => ?_, fun f hf => execBalr_jumps h hf, fun f hf => ?_⟩
  · cases hc : c.cond f.cond with
    | true => exact execBc_taken h hc
    | false => exact execBc_passed h hc
  · cases hc : c.cond (f.fn.extractLsb' 5 4) with
    | true => exact execBr_taken hf h1 h3 h hc
    | false => exact execBr_passed hf h1 h3 h hc
  · by_cases hv : c.G f.r1 - 1 = 0
    · exact (execBct_passed hf h hv).trans (congrArg _ (if_pos hv).symm)
    · exact (execBct_taken hf h hv).trans (congrArg _ (if_neg hv).symm)

/-! ## Moves of flags and status (R100, R101, R103, R113) -/

section
variable {s t : State} {p k : Nat} {f : FA}

/-- An instruction that turns the registers into `u` of them, once FN is found zero. -/
theorem regInstr_plain (h : Fetched s p k 4 t) (hf : f.fn = 0) (u : Ctx → Ctx)
    (hu : ∀ m, u { t.ctx k with micro := m } = { u (t.ctx k) with micro := m }) (hc : (u (t.ctx k)).micro = (t.ctx k).micro) :
    regInstr s p 4 false (fun c => if !fnOk f 0 then .exc 0x104 else .ok (u c)) = .next (retire t k 4 (u (t.ctx k))) :=
  regInstr_completes h (fun m => (if_neg (by simp [fnOk_of_zero hf])).trans (congrArg RegRes.ok (hu m))) hc

theorem execFeat_word (h : Fetched s p k 4 t) (hf : f.fn = 0) (hn : f.r2.toNat ≤ 3) :
    execFeat p f s = .next (retire t k 4 ((t.ctx k).setG f.r1 (BitVec.ofNat 64 (s.feat f.r2.toNat)))) :=
  regInstr_completes h (fun _ => if_neg (by simp [fnOk_of_zero hf, hn])) rfl

theorem execFeat_none (h : Fetched s p k 4 t) (hn : 4 ≤ f.r2.toNat) : execFeat p f s = .next (nullify t k 4 0x104) :=
  regInstr_nullified h fun _ => if_pos (by simp; omega)

theorem execLfpc_loads (h : Fetched s p k 4 t) (hf : f.fn = 0) (hrm : ((t.ctx k).G f.r2).toNat % 8 ≤ 4) :
    execLfpc p f s = .next (retire t k 4 { t.ctx k with fpcr := ((t.ctx k).G f.r2).setWidth 32 &&& fpcrMask }) := by
  have hlow : (((t.ctx k).G f.r2).setWidth 32).toNat % 8 = ((t.ctx k).G f.r2).toNat % 8 := by
    rw [BitVec.toNat_setWidth]
    omega
  have hform : ¬ (!fnOk f 0 || decide ((((t.ctx k).G f.r2).setWidth 32).toNat % 8 > 4)) = true := by
    rw [fnOk_of_zero hf, hlow]
    simpa using hrm
  exact regInstr_completes h (fun _ => if_neg hform) rfl

end

/-- Settles O9. -/
theorem movesOfFlagsAndStatus : Obligations.MovesOfFlagsAndStatus := by
  unfold Obligations.MovesOfFlagsAndStatus
  intro s t p k f h hf c
  exact ⟨regInstr_plain h hf (fun c => c) (fun _ => rfl) rfl, regInstr_plain h hf (fun c => c.setG f.r1 c.flags) (fun _ => rfl) rfl,
    regInstr_plain h hf (fun c => { c with psw := (c.psw &&& ~~~0x1F) ||| (c.G f.r2 &&& 0x1F) }) (fun _ => rfl) rfl, execFeat_word h hf,
    regInstr_plain h hf (fun c => c.setG f.r1 (BitVec.ofNat 64 s.clk.tb)) (fun _ => rfl) rfl,
    regInstr_plain h hf (fun c => c.setG f.r1 (c.F f.r2)) (fun _ => rfl) rfl,
    regInstr_plain h hf (fun c => c.setF f.r1 (c.G f.r2)) (fun _ => rfl) rfl, execLfpc_loads h hf,
    regInstr_plain h hf (fun c => c.setG f.r1 (c.fpcr.setWidth 64)) (fun _ => rfl) rfl⟩

/-- The capability registers of the manager stand at 0x20 to 0x38 (R43). -/
theorem regAt_cap (s : State) {n : Nat} (h : n ≤ 3) : regAt s 0 (0x20 + 8 * n) = .cap n := by
  interval_cases n <;> rfl

/-- Settles O10. -/
theorem featureWords : Obligations.FeatureWords := by
  unfold Obligations.FeatureWords
  exact ⟨fun s => ⟨rfl, rfl, rfl, rfl⟩, fun s n h => regAt_cap s h, fun s t p k f h hf => ⟨execFeat_word h hf, execFeat_none h⟩⟩

end Sys2Proof.Machine

/-! SUPPORT. Loads, stores and compare-and-swap (R108 to R110, R115, R162): what each comes to once its operand is reached, and the statements
about them, O14, O15 and O16. -/

namespace Sys2Proof.Machine

open Sys2Proof

section
variable {s t : State} {p k n : Nat}

/-! ## Loads -/

/-- An operand loaded, by an instruction that may or may not reach the cipher-page window. -/
theorem loadInstr_loads (h : Fetched s p k n t) {ea : Ctx → Option (Word × Option Word)} {size al : Nat} {b : BitVec 5}
    {f : Ctx → List Byte → RegRes} {keys : Bool} {a : Word} {u : Option Word} {d : List Byte} {t1 : State} {c : Ctx}
    (he : ea (t.ctx k) = some (a, u)) (ha : a.toNat % al = 0) (hl : loadOp t p k a size keys = .ok (d, t1)) (hf : f (t.ctx k) d = .ok c) :
    loadInstr s p n ea size b al f keys = .next (retire t1 k n (c.setBase b u)) := by
  unfold loadInstr
  rw [instr_fetched h rfl]
  simp only [he, ha, bne_self_eq_false, Bool.false_eq_true, if_false, hl, hf, bind, Except.bind]
  rfl

/-- A loaded value as the general loads write it. -/
def loadedG (n : Nat) (signed : Bool) (d : List Byte) : Word :=
  if signed then Sys2Proof.sext (8 * n) (beNat d) else BitVec.ofNat 64 (beNat d)

section
variable {f : FB} (h : Fetched s p k 4 t) {a : Word} {u : Option Word} {d : List Byte} {t1 : State}
include h

theorem loadG_loads (n : Nat) (sg : Bool) (he : eaFB (t.ctx k) f n true false = some (a, u)) (hl : loadOp t p k a n (n == 8) = .ok (d, t1)) :
    loadG p f s n sg = .next (retire t1 k 4 (((t.ctx k).setG f.r1 (loadedG n sg d)).setBase f.b u)) :=
  loadInstr_loads h he (Nat.mod_one _) hl rfl

theorem loadF_loads (n : Nat) (he : eaFB (t.ctx k) f n false false = some (a, u)) (hl : loadOp t p k a n = .ok (d, t1)) :
    loadF p f s n = .next (retire t1 k 4 (((t.ctx k).setF f.r1 (BitVec.ofNat 64 (beNat d))).setBase f.b u)) :=
  loadInstr_loads h he (Nat.mod_one _) hl rfl

theorem execLdq_loads (ho : odd5 f.r1 = false) (he : eaFB (t.ctx k) f 16 true true = some (a, u)) (ha : a.toNat % 16 = 0)
    (hl : loadOp t p k a 16 = .ok (d, t1)) :
    execLdq p f s = .next (retire t1 k 4 (((t.ctx k).setPair f.r1 (BitVec.ofNat 128 (beNat d))).setBase f.b u)) :=
  loadInstr_loads h ((if_neg (Bool.eq_false_iff.mp ho)).trans he) ha hl rfl

theorem execLa_completes (he : eaFB (t.ctx k) f 8 true false = some (a, u)) :
    execLa p f s = .next (retire t k 4 (((t.ctx k).setBase f.b u).setG f.r1 a)) := by
  refine regInstr_completes h (fun m => ?_) (by cases u <;> rfl)
  have hm : eaFB { t.ctx k with micro := m } f 8 true false = some (a, u) := he
  rw [hm]
  cases u <;> rfl

end

section
variable {f : FD} (h : Fetched s p k 8 t) {a : Word} {u : Option Word} {d : List Byte} {t1 : State}
include h

/-- LDX of a size below 16. -/
theorem execLdx_loads (n : Nat) (sg : Bool) (hsize : ldxSize f.l = some (n, sg)) (hn : (n == 16) = false)
    (he : eaFD (t.ctx k) f n true false = some (a, u)) (hl : loadOp t p k a n (n == 8) = .ok (d, t1)) :
    execLdx p f s = .next (retire t1 k 8 (((t.ctx k).setG f.r1 (loadedG n sg d)).setBase f.b u)) := by
  unfold execLdx
  rw [hsize]
  refine loadInstr_loads (u := u) h ?_ (by rw [hn]; exact Nat.mod_one _) hl (by rw [hn]; rfl)
  unfold eaLdx
  rw [hn]
  exact he

theorem execLdx_pair (hf : f.l = 7) (ho : odd5 f.r1 = false) (he : eaFD (t.ctx k) f 16 true true = some (a, u)) (ha : a.toNat % 16 = 0)
    (hl : loadOp t p k a 16 = .ok (d, t1)) :
    execLdx p f s = .next (retire t1 k 8 (((t.ctx k).setPair f.r1 (BitVec.ofNat 128 (beNat d))).setBase f.b u)) := by
  unfold execLdx
  rw [hf]
  refine loadInstr_loads (u := u) h ?_ ha hl rfl
  unfold eaLdx
  rw [ho]
  exact he

theorem execFldx_loads (n : Nat) (hsize : fldxSize f.l = some n) (he : eaFD (t.ctx k) f n false false = some (a, u))
    (hl : loadOp t p k a n = .ok (d, t1)) :
    execFldx p f s = .next (retire t1 k 8 (((t.ctx k).setF f.r1 (BitVec.ofNat 64 (beNat d))).setBase f.b u)) := by
  unfold execFldx
  rw [hsize]
  exact loadInstr_loads h he (Nat.mod_one _) hl rfl

theorem execLax_completes (hf : f.l = 0) (he : eaFD (t.ctx k) f 8 true false = some (a, u)) :
    execLax p f s = .next (retire t k 8 (((t.ctx k).setBase f.b u).setG f.r1 a)) := by
  refine regInstr_completes h (fun m => (if_neg (by simp [hf])).trans ?_) (by cases u <;> rfl)
  have hm : eaFD { t.ctx k with micro := m } f 8 true false = some (a, u) := he
  rw [hm]
  cases u <;> rfl

theorem execLdp_loads (hr : f.r1.toNat < 8) {m : Nat} {neg : Bool} (he : eaFD (t.ctx k) f (f.l.toNat + 1) false false = some (a, u))
    (hl : loadOp t p k a (f.l.toNat + 1) = .ok (d, t1)) (hd : unpackDec d = some (m, neg)) :
    execLdp p f s = .next (retire t1 k 8 ((((t.ctx k).setDA f.r1.toNat (BitVec.ofNat 128 (beNat d))).setDecZN m neg).setBase f.b u)) :=
  loadInstr_loads h ((if_pos (decide_eq_true hr)).trans he) (Nat.mod_one _) hl (by rw [hd])

end

end

/-- Settles O14, load by load. -/
theorem loadResults : Obligations.LoadResults := by
  unfold Obligations.LoadResults
  intro s t p k c
  refine ⟨fun f h => ?_, fun f h => ?_⟩
  · intro load z
    exact ⟨fun a u d t' he _ hl => loadG_loads h 1 false he hl, fun a u d t' he _ hl => loadG_loads h 2 false he hl,
      fun a u d t' he _ hl => loadG_loads h 4 false he hl, fun a u d t' he _ hl => loadG_loads h 8 false he hl,
      fun a u d t' he _ hl => loadG_loads h 1 true he hl, fun a u d t' he _ hl => loadG_loads h 2 true he hl,
      fun a u d t' he _ hl => loadG_loads h 4 true he hl, fun ho a u d t' he ha hl => execLdq_loads h ho he ha hl,
      fun a u d t' he _ hl => loadF_loads h 8 he hl, fun a u d t' he _ hl => loadF_loads h 4 he hl, fun a u he => execLa_completes h he⟩
  · intro load z
    have ldx (l : BitVec 4) (m : Nat) (sg : Bool) (hl : ldxSize l = some (m, sg)) (hm : (m == 16) = false) (hf : f.l = l) :
        load (.ldx p f) m 1 true false fun d => c.setG f.r1 (loadedG m sg d) :=
      fun a u d t' he _ hd => execLdx_loads h m sg (hf ▸ hl) hm he hd
    have fldx (l : BitVec 4) (m : Nat) (hl : fldxSize l = some m) (hf : f.l = l) :
        load (.fldx p f) m 1 false false fun d => c.setF f.r1 (BitVec.ofNat 64 (beNat d)) :=
      fun a u d t' he _ hd => execFldx_loads h m (hf ▸ hl) he hd
    exact ⟨ldx 0 1 false rfl rfl, ldx 1 1 true rfl rfl, ldx 2 2 false rfl rfl, ldx 3 2 true rfl rfl, ldx 4 4 false rfl rfl,
      ldx 5 4 true rfl rfl, ldx 6 8 false rfl rfl, fun hf ho a u d t' he ha hl => execLdx_pair h hf ho he ha hl,
      fldx 6 8 rfl, fldx 4 4 rfl, fun hf a u he => execLax_completes h hf he,
      fun hr a u d t' m neg he hl hd => execLdp_loads h hr he hl hd⟩

/-! ## Stores -/

theorem toLE_add (m n v : Nat) : toLE (m + n) v = toLE m v ++ toLE n (v / 256 ^ m) := by
  induction m generalizing v with
  | zero => simp [toLE]
  | succ m ih =>
    rw [Nat.succ_add, toLE, toLE, ih, Nat.div_div_eq_div_mul, Nat.pow_succ, Nat.mul_comm 256]
    rfl

/-- The bytes above the low `n` do not matter. -/
theorem toLE_add_mul (n v w : Nat) : toLE n (v + 256 ^ n * w) = toLE n v := by
  induction n generalizing v with
  | zero => rfl
  | succ n ih =>
    have hlow : BitVec.ofNat 8 (v + 256 ^ (n + 1) * w) = BitVec.ofNat 8 v := by
      apply BitVec.eq_of_toNat_eq
      simp only [BitVec.toNat_ofNat, Nat.pow_succ, Nat.mul_comm _ 256, Nat.mul_assoc]
      omega
    have hhigh : (v + 256 ^ (n + 1) * w) / 256 = v / 256 + 256 ^ n * w := by
      rw [Nat.pow_succ, Nat.mul_comm _ 256, Nat.mul_assoc, Nat.add_mul_div_left _ _ (by decide)]
    rw [toLE, toLE, hlow, hhigh, ih]

/-- A pair is stored high register first (R97). -/
theorem toBE_pair (c : Ctx) (r : BitVec 5) : toBE 16 (c.pair r).toNat = toBE 8 (c.G r).toNat ++ toBE 8 (c.G (r + 1)).toNat := by
  have hv : (c.pair r).toNat = (c.G (r + 1)).toNat + 256 ^ 8 * (c.G r).toNat := by
    unfold Ctx.pair
    rw [toNat_append_eq_add, Nat.add_comm, Nat.mul_comm]
    rfl
  have hdiv : (c.pair r).toNat / 256 ^ 8 = (c.G r).toNat := by
    rw [hv, Nat.add_mul_div_left _ _ (by decide), Nat.div_eq_of_lt (lt_of_lt_of_eq (c.G (r + 1)).isLt (by decide)), Nat.zero_add]
  unfold toBE
  rw [show (16 : Nat) = 8 + 8 from rfl, toLE_add, hdiv, hv, toLE_add_mul, List.reverse_append]

/-- How a store of the bytes `d` at `a` ends, the registers then being `c`: at once where its operand lies in the instance's store; between two
commit points where a piece of it lies in a host window (R118, R322). -/
def StoreEnds (t : State) (p k n : Nat) (a : Word) (d : List Byte) (keys : Bool) (c : Ctx) (r : Res) : Prop :=
  (∀ t', storeOp t p k a d keys = .ok (t', []) → r = .next (retire t' k n c))
  ∧ (∀ t' e es, storeOp t p k a d keys = .ok (t', e :: es) → (t.eng p).commit = none → (t.fn (veInst k + 1)).bme = true →
      t.twinned (veInst k) = false → ∀ w ws, storeOp (commitNow t p k [] false) p k a d keys = .ok (w, ws) →
      r = .next (commitNow (retire w k n c) p k ws false))

section
variable {s t : State} {p k n : Nat}

theorem storeInstr_ends (h : Fetched s p k n t) {ea : Ctx → Option (Word × Option Word)} {al : Nat} {b : BitVec 5}
    {d : Ctx → Except (Nat × Nat) (List Byte × Ctx)} {keys : Bool} {a : Word} {u : Option Word} {bytes : List Byte} {c : Ctx}
    (he : ea (t.ctx k) = some (a, u)) (ha : a.toNat % al = 0) (hd : d (t.ctx k) = .ok (bytes, c)) :
    StoreEnds t p k n a bytes keys (c.setBase b u) (storeInstr s p n ea b al d keys) := by
  unfold storeInstr
  rw [instr_fetched h rfl]
  refine ⟨fun t' hs => ?_, fun t' e es hs hc hb ht w ws hw => ?_⟩
  · simp only [he, ha, bne_self_eq_false, Bool.false_eq_true, if_false, hd, hs, bind, Except.bind, List.isEmpty_nil, if_true]
    rfl
  · simp only [he, ha, bne_self_eq_false, Bool.false_eq_true, if_false, hd, hs, bind, Except.bind, List.isEmpty_cons]
    rw [withEffects_local (w := w.setCtx k (c.setBase b u)) (es := ws) hc (.inr hb) ht (by rw [hw])]
    rfl

section
variable {f : FB} (h : Fetched s p k 4 t) {a : Word} {u : Option Word}
include h

theorem storeG_ends (n : Nat) (he : eaFB (t.ctx k) f n true false = some (a, u)) :
    StoreEnds t p k 4 a (toBE n ((t.ctx k).G f.r1).toNat) (n == 8) ((t.ctx k).setBase f.b u) (storeG p f s n) :=
  storeInstr_ends h he (Nat.mod_one _) rfl

theorem storeF_ends (n : Nat) (he : eaFB (t.ctx k) f n false false = some (a, u)) :
    StoreEnds t p k 4 a (toBE n ((t.ctx k).F f.r1).toNat) false ((t.ctx k).setBase f.b u) (storeF p f s n) :=
  storeInstr_ends h he (Nat.mod_one _) rfl

theorem execStq_ends (ho : odd5 f.r1 = false) (he : eaFB (t.ctx k) f 16 true true = some (a, u)) (ha : a.toNat % 16 = 0) :
    StoreEnds t p k 4 a (toBE 8 ((t.ctx k).G f.r1).toNat ++ toBE 8 ((t.ctx k).G (f.r1 + 1)).toNat) false ((t.ctx k).setBase f.b u)
      (execStq p f s) :=
  storeInstr_ends h ((if_neg (Bool.eq_false_iff.mp ho)).trans he) ha (by rw [← toBE_pair])

end

section
variable {f : FD} (h : Fetched s p k 8 t) {a : Word} {u : Option Word}
include h

/-- STX of a size below 16. -/
theorem execStx_ends (n : Nat) {sg : Bool} (hsize : ldxSize f.l = some (n, sg)) (hn : (n == 16) = false)
    (he : eaFD (t.ctx k) f n true false = some (a, u)) :
    StoreEnds t p k 8 a (toBE n ((t.ctx k).G f.r1).toNat) (n == 8) ((t.ctx k).setBase f.b u) (execStx p f s) := by
  unfold execStx
  rw [hsize]
  refine storeInstr_ends h ?_ (by rw [hn]; exact Nat.mod_one _) (by rw [hn]; rfl)
  unfold eaLdx
  rw [hn]
  exact he

theorem execStx_pair (hf : f.l = 7) (ho : odd5 f.r1 = false) (he : eaFD (t.ctx k) f 16 true true = some (a, u)) (ha : a.toNat % 16 = 0) :
    StoreEnds t p k 8 a (toBE 8 ((t.ctx k).G f.r1).toNat ++ toBE 8 ((t.ctx k).G (f.r1 + 1)).toNat) false ((t.ctx k).setBase f.b u)
      (execStx p f s) := by
  unfold execStx
  rw [hf, ← toBE_pair]
  refine storeInstr_ends h ?_ ha rfl
  unfold eaLdx
  rw [ho]
  exact he

theorem execFstx_ends (n : Nat) (hsize : fldxSize f.l = some n) (he : eaFD (t.ctx k) f n false false = some (a, u)) :
    StoreEnds t p k 8 a (toBE n ((t.ctx k).F f.r1).toNat) false ((t.ctx k).setBase f.b u) (execFstx p f s) := by
  unfold execFstx
  rw [hsize]
  exact storeInstr_ends h he (Nat.mod_one _) rfl

theorem execStp_ends (hr : f.r1.toNat < 8) {m : Nat} {neg : Bool} (hd : daVal ((t.ctx k).DA f.r1.toNat) = some (m, neg))
    (he : eaFD (t.ctx k) f (f.l.toNat + 1) false false = some (a, u)) :
    StoreEnds t p k 8 a (toBE (f.l.toNat + 1) (((t.ctx k).DA f.r1.toNat).toNat % 2 ^ (8 * (f.l.toNat + 1)))) false
      (((t.ctx k).setSb bDV (decide (m ≥ 10 ^ (2 * f.l.toNat + 1)))).setBase f.b u) (execStp p f s) :=
  storeInstr_ends h ((if_pos (decide_eq_true hr)).trans he) (Nat.mod_one _) (by dsimp only; rw [hd])

end

end

/-- The codes of L that name one size in STX (R115, assumption log 10). -/
theorem ldxSize_codes (l : BitVec 4) : (l.toNat ≤ 1 → ∃ sg, ldxSize l = some (1, sg))
    ∧ (l.toNat = 2 ∨ l.toNat = 3 → ∃ sg, ldxSize l = some (2, sg)) ∧ (l.toNat = 4 ∨ l.toNat = 5 → ∃ sg, ldxSize l = some (4, sg)) := by
  revert l
  decide

/-- Settles O15, store by store. -/
theorem storeResults : Obligations.StoreResults := by
  unfold Obligations.StoreResults
  intro s t p k c ends
  refine ⟨fun f h => ?_, fun f h => ?_⟩
  · intro store
    exact ⟨fun a u he _ => storeG_ends h 1 he, fun a u he _ => storeG_ends h 2 he, fun a u he _ => storeG_ends h 4 he,
      fun a u he _ => storeG_ends h 8 he, fun ho a u he ha => execStq_ends h ho he ha, fun a u he _ => storeF_ends h 8 he,
      fun a u he _ => storeF_ends h 4 he⟩
  · intro store
    have stx (m : Nat) (hm : (m == 16) = false) (hl : ∃ sg, ldxSize f.l = some (m, sg)) :
        store (.stx p f) m 1 true false (toBE m (c.G f.r1).toNat) c := fun a u he _ => hl.elim fun sg hsize => execStx_ends h m hsize hm he
    obtain ⟨h1, h2, h4⟩ := ldxSize_codes f.l
    exact ⟨fun hf => stx 1 rfl (h1 hf), fun hf => stx 2 rfl (h2 hf), fun hf => stx 4 rfl (h4 hf), fun hf => stx 8 rfl ⟨false, by rw [hf]; rfl⟩,
      fun hf ho a u he ha => execStx_pair h hf ho he ha, fun hf a u he _ => execFstx_ends h 8 (by rw [hf]; rfl) he,
      fun hf a u he _ => execFstx_ends h 4 (by rw [hf]; rfl) he, fun hr m neg hd a u he _ => execStp_ends h hr hd he⟩

/-! ## Compare and swap -/

/-- How a compare and swap at `a` ends once its operand is translated and loaded (R115). -/
def CasEnds (t : State) (p k n : Nat) (r1 b : BitVec 5) (a : Word) (u : Option Word) (r : Res) : Prop :=
  ∀ ps t1 d t2, translateOp t p k .store a 8 = .ok (ps, t1) → loadPieces t1 p k false ps = .ok (d, t2) →
    (BitVec.ofNat 64 (beNat d) = (t.ctx k).G r1 → ∀ t3, storePieces t2 p k (toBE 8 ((t.ctx k).G (r1 + 1)).toNat) false ps = .ok (t3, []) →
      r = .next (retire t3 k n (((t.ctx k).setSb bZ true).setBase b u)))
    ∧ (BitVec.ofNat 64 (beNat d) ≠ (t.ctx k).G r1 →
      r = .next (retire t2 k n ((((t.ctx k).setG r1 (BitVec.ofNat 64 (beNat d))).setSb bZ false).setBase b u)))

section
variable {s t : State} {p k n : Nat} {a : Word} {u : Option Word}

theorem casInstr_ends (h : Fetched s p k n t) {ea : Ctx → Option (Word × Option Word)} {r1 b : BitVec 5} (he : ea (t.ctx k) = some (a, u))
    (ha : a.toNat % 8 = 0) : CasEnds t p k n r1 b a u (casInstr s p n ea r1 b) := by
  intro ps t1 d t2 hp hl
  unfold casInstr
  rw [instr_fetched h rfl]
  refine ⟨fun hd t3 hs => ?_, fun hd => ?_⟩
  · simp only [he, ha, bne_self_eq_false, Bool.false_eq_true, if_false, hp, hl, hd, beq_self_eq_true, if_true, hs, wholeStore, bind,
      Except.bind, List.isEmpty_nil]
    rfl
  · simp only [he, ha, bne_self_eq_false, Bool.false_eq_true, if_false, hp, hl, beq_eq_false_iff_ne.mpr hd, bind, Except.bind,
      List.isEmpty_nil, if_true]
    rfl

theorem execCas_ends {f : FB} (h : Fetched s p k 4 t) (ho : odd5 f.r1 = false) (he : eaFB (t.ctx k) f 8 true true = some (a, u))
    (ha : a.toNat % 8 = 0) : CasEnds t p k 4 f.r1 f.b a u (execCas p f s) :=
  casInstr_ends h ((if_neg (Bool.eq_false_iff.mp ho)).trans he) ha

theorem execCasx_ends {f : FD} (h : Fetched s p k 8 t) (ho : odd5 f.r1 = false) (hf : f.l = 0)
    (he : eaFD (t.ctx k) f 8 true true = some (a, u)) (ha : a.toNat % 8 = 0) : CasEnds t p k 8 f.r1 f.b a u (execCasx p f s) :=
  casInstr_ends h ((if_neg (by simp [ho, hf])).trans he) ha

end

/-- Settles O16: CAS and CASX are one instruction with two addressing modes. -/
theorem compareAndSwapResults : Obligations.CompareAndSwapResults := by
  unfold Obligations.CompareAndSwapResults
  intro s t p k c cas
  exact ⟨fun f a u h ho he ha => execCas_ends h ho he ha, fun f a u h ho hf he ha => execCasx_ends h ho hf he ha⟩

end Sys2Proof.Machine

/-! SUPPORT. Privileged instructions and illegal forms (R102, R107, R111 to R113, R115, R122, R138, R147): the ends of an instruction's body, and
the statements O24 and O25. -/

namespace Sys2Proof.Machine

open Sys2Proof

section
variable {s t : State} {p k n : Nat} {priv : Bool}

/-! ## The ends of an instruction -/

theorem instr_completes (h : Fetched s p k n t) (hp : (priv && (s.ctx k).sb bPS) = false) {body : State → Nat → Except Stop Done} {u : State}
    (hb : body t k = .ok { s := u }) : instr s p n priv body = .next (advance u k n) := by
  rw [instr_fetched h hp, hb]
  rfl

theorem instr_moves (h : Fetched s p k n t) (hp : (priv && (s.ctx k).sb bPS) = false) {body : State → Nat → Except Stop Done} {u : State}
    (hb : body t k = .ok { s := u, moved := true }) : instr s p n priv body = .next u := by
  rw [instr_fetched h hp, hb]
  rfl

theorem instr_nullified (h : Fetched s p k n t) (hp : (priv && (s.ctx k).sb bPS) = false) {body : State → Nat → Except Stop Done} {code : Nat}
    (hb : body t k = .error (.exc code none)) : instr s p n priv body = .next (nullify t k n code) := by
  rw [instr_fetched h hp, hb]
  rfl

end

/-! ## Illegal forms -/

theorem execUndefinedOpcode_raises {s t : State} {p k : Nat} (h : Fetched s p k 4 t) {op : Byte} (ho : opDefined op = false) :
    execUndefinedOpcode p op s = .next (nullify t k 4 0x101) := by
  unfold execUndefinedOpcode
  rw [if_neg (Bool.eq_false_iff.mp ho)]
  exact instr_nullified h rfl rfl

/-- Bit 0 of FN is one of no instruction's defined bits. -/
theorem fnOk_of_odd {f : FA} (hf : f.fn.getLsbD 0 = true) {mask : BitVec 9} (hm : mask.getLsbD 0 = false) : fnOk f mask = false := by
  refine beq_eq_false_iff_ne.mpr fun h0 => ?_
  have hbit : (f.fn &&& ~~~mask).getLsbD 0 = false := by rw [h0]; rfl
  rw [BitVec.getLsbD_and, BitVec.getLsbD_not, hf, hm] at hbit
  exact Bool.noConfusion hbit

/-- Settles O25: the privilege comes before the form, and the form before everything else. -/
theorem illegalFormsRaiseTheirException : Obligations.IllegalFormsRaiseTheirException := by
  unfold Obligations.IllegalFormsRaiseTheirException
  intro s t p k h
  refine ⟨fun hp f g => ?_, fun op ho => execUndefinedOpcode_raises h ho, fun f hf => ?_⟩
  · simp only [List.forall_mem_cons, List.not_mem_nil, IsEmpty.forall_iff, implies_true, and_true]
    and_intros
    all_goals exact instr_privileged h hp _
  · have hfn : f.fn ≠ 0#9 := fun h0 => by simp [h0] at hf
    have h000 : fnOk f 0#9 = false := fnOk_of_odd hf rfl
    have h100 : fnOk f 0x100#9 = false := fnOk_of_odd hf rfl
    have h180 : fnOk f 0x180#9 = false := fnOk_of_odd hf rfl
    have h1E0 : fnOk f 0x1E0#9 = false := fnOk_of_odd hf rfl
    have h1F0 : fnOk f 0x1F0#9 = false := fnOk_of_odd hf rfl
    simp only [List.forall_mem_cons, List.not_mem_nil, IsEmpty.forall_iff, implies_true, and_true]
    and_intros
    all_goals exact instr_nullified h rfl (by simp [hfn, h000, h100, h180, h1E0, h1F0])

/-! ## Control registers, WAIT and the TLB (R102, R122, R138) -/

section
variable {s t : State} {p k : Nat} (h : Fetched s p k 4 t) (hp : (s.ctx k).sb bPS = false) {f : FA}
include h hp

theorem execMfk_reads (hf : f.fn = 0) (hn : f.r2.toNat ≤ 15) :
    execMfk p f s = .next (retire t k 4 ((t.ctx k).setG f.r1 (readK (t.ctx k) k f.r2.toNat))) :=
  instr_completes (priv := true) h hp (if_neg (by simp [hf, hn]))

theorem execMtk_writes (hf : f.fn = 0) (hn : f.r1.toNat ≤ 15) :
    execMtk p f s = .next (retire t k 4 ((t.ctx k).writeK f.r1.toNat ((t.ctx k).G f.r2))) :=
  instr_completes (priv := true) h hp (if_neg (by simp [hf, hn]))

theorem execWait_waits (hf : f.fn = 0) : execWait p f s = .next (retire t k 4 ((t.ctx k).setSb bWT true)) :=
  instr_completes (priv := true) h hp (if_neg (by simp [hf]))

theorem execTlbi_drops (hf : f.fn = 0) : execTlbi p f s = .next (advance (dropTlb t fun e => e.inst == veInst k
    && e.asid == ((t.ctx k).K 1).setWidth 16 && e.vbase ≤ ((t.ctx k).G f.r2).toNat && ((t.ctx k).G f.r2).toNat < e.vbase + e.size) k 4) :=
  instr_completes (priv := true) h hp (if_neg (by simp [hf]))

theorem execTlbia_drops (hf : f.fn = 0) : execTlbia p f s = .next (advance (dropTlb t fun e => e.inst == veInst k) k 4) :=
  instr_completes (priv := true) h hp (if_neg (by simp [hf]))

/-! ## RFI (R147) -/

theorem execRfi_badForm (hf : f.r1 ≠ 0 ∨ f.r2 ≠ 0 ∨ f.r3 ≠ 0 ∨ f.fn.toNat % 64 ≠ 0 ∨ 4 < f.fn.toNat / 64) :
    execRfi p f s = .next (nullify t k 4 0x104) :=
  instr_nullified (priv := true) h hp (if_pos (by simpa [or_assoc] using hf))

end

/-- The ESW that RFI loads from the frame `d`. -/
def VE.loadEsw (x : VE) (d : List Byte) : VE :=
  { x with cur := { x.cur with ia := BitVec.ofNat 64 (fieldBE d 0 8), psw := BitVec.ofNat 64 (fieldBE d 8 8) &&& pswMask }
           icount := x.icount + 1, opened := false, check := true }

section
variable {s t : State} {p k : Nat} (h : Fetched s p k 4 t) (hp : (s.ctx k).sb bPS = false) {cls a : Nat} {d : List Byte} {t1 : State}
  (hc : cls ≤ 4) (ha : absOf t (veInst k) (frameReal (t.ctx k) cls) = some a)
  (hl : loadLine t p a 16 (BitVec.ofNat 64 (frameReal (t.ctx k) cls)) = .ok (d, t1))
include h hp hc ha hl

/-- RFI of class `cls` once its frame is read. -/
theorem execRfi_frame : execRfi p ⟨0, 0, 0, BitVec.ofNat 9 (cls * 64)⟩ s
    = .next (if fieldBE d 0 8 % 4 = 0 then t1.updVe k (·.loadEsw d) else nullify t k 4 0x104) := by
  have hfn : (BitVec.ofNat 9 (cls * 64)).toNat = cls * 64 := by
    rw [BitVec.toNat_ofNat]
    omega
  have hcls : (BitVec.ofNat 9 (cls * 64)).toNat / 64 = cls := by omega
  have hform : ¬ ((0 : BitVec 5) != 0 || (0 : BitVec 5) != 0 || (0 : BitVec 5) != 0 || (BitVec.ofNat 9 (cls * 64)).toNat % 64 != 0
      || decide ((BitVec.ofNat 9 (cls * 64)).toNat / 64 > 4)) = true := by
    rw [hfn]
    simp [hc]
  have hia : (BitVec.ofNat 64 (fieldBE d 0 8)).toNat % 4 = fieldBE d 0 8 % 4 := by
    rw [BitVec.toNat_ofNat]
    omega
  split
  next hgood =>
    refine instr_moves (priv := true) h hp ((if_neg hform).trans ?_)
    simp only [hcls, ha, hl, bind, Except.bind, hia, hgood]
    rfl
  next hbad =>
    refine instr_nullified (priv := true) h hp ((if_neg hform).trans ?_)
    simp only [hcls, ha, hl, bind, Except.bind, hia]
    exact if_pos (bne_iff_ne.mpr hbad)

end

/-! ## LRA (R115) -/

/-- Without translation an address that a store, a key page or a window backs is its own real address. -/
theorem lraReal_untranslated {s : State} {p k : Nat} {va : Word} (h : (s.ctx k).sb bTE = false) :
    lraReal s p k va = .ok (if va.toNat < 2 ^ 44 ∧ (resolve s (veInst k) va.toNat).isSome = true then some va.toNat else none, s) := by
  unfold lraReal
  rw [h]
  by_cases hlow : va.toNat < 2 ^ 44
  · rw [if_neg Bool.false_ne_true, if_pos hlow]
    simp only [hlow, true_and]
    cases resolve s (veInst k) va.toNat <;> rfl
  · rw [if_neg Bool.false_ne_true, if_neg hlow, if_neg fun hr => hlow hr.1]

theorem execLra_untranslated {s t : State} {p k : Nat} (h : Fetched s p k 4 t) (hp : (s.ctx k).sb bPS = false) {f : FB} {a : Word}
    {u : Option Word} (he : eaFB (t.ctx k) f 8 true false = some (a, u)) (ht : (t.ctx k).sb bTE = false) :
    let b := (t.ctx k).setBase f.b u
    execLra p f s = .next (retire t k 4
      (if a.toNat < 2 ^ 44 ∧ (resolve t (veInst k) a.toNat).isSome = true then (b.setG f.r1 a).setSb bZ false else b.setSb bZ true)) := by
  intro b
  refine instr_completes (priv := true) h hp ?_
  simp only [he, lraReal_untranslated ht, bind, Except.bind]
  by_cases hr : a.toNat < 2 ^ 44 ∧ (resolve t (veInst k) a.toNat).isSome = true
  · rw [if_pos hr, if_pos hr]
    simp only [BitVec.ofNat_toNat, BitVec.setWidth_eq, b]
  · rw [if_neg hr, if_neg hr]

/-- Settles O24, instruction by instruction. -/
theorem privilegedResults : Obligations.PrivilegedResults := by
  unfold Obligations.PrivilegedResults
  intro s t p k h hp c i
  refine ⟨fun f hf => ⟨fun hn => ?_, fun hn => execMtk_writes h hp hf hn, execWait_waits h hp hf, execTlbi_drops h hp hf, execTlbia_drops h hp hf⟩,
    fun cls a d t1 hc ha hl hia _ => ?_, fun f hf => execRfi_badForm h hp hf, fun cls a d t1 hc ha hl hia => ?_,
    fun f a u he ht => execLra_untranslated h hp he ht⟩
  · have hk : readK c k f.r2.toNat = if f.r2.toNat = 9 then BitVec.ofNat 64 (i * 65536 + veNum k) else c.K f.r2.toNat := by
      simp [readK, i]
    rw [← hk]
    exact execMfk_reads h hp hf hn
  · have hve : (t1.updVe k (·.loadEsw d)).ctx k = ((t1.ve k).loadEsw d).cur := congrArg VE.cur (State.ve_updVe_same t1 k _)
    refine ⟨_, (execRfi_frame h hp hc ha hl).trans (congrArg _ (if_pos hia)), ?_⟩
    rw [hve]
    exact ⟨rfl, rfl, rfl, rfl⟩
  · exact (execRfi_frame h hp hc ha hl).trans (congrArg _ (if_neg hia))

end Sys2Proof.Machine

/-! SUPPORT. What an access to an operand may change (R123, R199, R201): caches, stores and translation buffers, and what it sends; and the calls of
the accelerators (R116, R299) with the statement about them, O28. -/

namespace Sys2Proof.Machine

open Sys2Proof

/-! ## Accesses -/

/-- `t` is `s` but for the stores, the domes, the engines with their caches, the free values taken, and what is sent. -/
def Touches (s t : State) : Prop := ∃ o m d e f, t = { s with out := o, mem := m, domes := d, engines := e, free := f }

section
variable {s t u : State}

theorem Touches.refl (s : State) : Touches s s := ⟨_, _, _, _, _, rfl⟩

theorem Touches.trans (h : Touches s t) (g : Touches t u) : Touches s u := by
  obtain ⟨_, _, _, _, _, rfl⟩ := h
  obtain ⟨_, _, _, _, _, rfl⟩ := g
  exact ⟨_, _, _, _, _, rfl⟩

theorem Touches.ite {c : Prop} [Decidable c] (ht : Touches s t) (hu : Touches s u) : Touches s (if c then t else u) := by
  split
  · exact ht
  · exact hu

theorem Touches.foldl {α : Type} {f : State → α → State} (h : ∀ s x, Touches s (f s x)) (l : List α) (s : State) : Touches s (l.foldl f s) :=
  List.foldlRecOn (motive := Touches s) l f (Touches.refl s) fun t ht x _ => ht.trans (h t x)

theorem Touches.insts (h : Touches s t) : t.insts = s.insts := by obtain ⟨_, _, _, _, _, rfl⟩ := h; rfl
theorem Touches.ves (h : Touches s t) : t.ves = s.ves := by obtain ⟨_, _, _, _, _, rfl⟩ := h; rfl
theorem Touches.inst (h : Touches s t) (i : Nat) : t.inst i = s.inst i := by unfold State.inst; rw [h.insts]
theorem Touches.ctx (h : Touches s t) (k : Nat) : t.ctx k = s.ctx k := by unfold State.ctx State.ve; rw [h.ves]

end

/-- What holds of the value that an access gives, if it gives one. -/
def Gives {α : Type} (P : α → Prop) (x : Except Stop α) : Prop := ∀ a, x = .ok a → P a

section
variable {α β : Type} {P : α → Prop} {Q : β → Prop}

theorem Gives.ok {a : α} (h : P a) : Gives P (.ok a) := by
  rintro _ ⟨⟩
  exact h

theorem Gives.error (e : Stop) : Gives P (.error e) := fun _ h => nomatch h

theorem Gives.bind {x : Except Stop α} {f : α → Except Stop β} (hx : Gives P x) (hf : ∀ a, P a → Gives Q (f a)) : Gives Q (x >>= f) := by
  cases x with
  | ok a => exact hf a (hx a rfl)
  | error e => exact Gives.error e

end

section
variable {s u : State}

/-! ### Lines (R198 to R205) -/

theorem dropL1_touches (s : State) (l : Nat) (q : Nat → Bool) (b : Bool) : Touches s (dropL1 s l q b) := ⟨_, _, _, _, _, rfl⟩

theorem writeBack_touches (s : State) (l : Nat) : Touches s (writeBack s l) := by
  unfold writeBack
  split
  · exact ⟨_, _, _, _, _, rfl⟩
  · exact Touches.refl s

theorem dropDomes_touches (s : State) (l : Nat) (q : Nat → Bool) : Touches s (dropDomes s l q) := ⟨_, _, _, _, _, rfl⟩

theorem updEng_touches (s : State) (p : Nat) (f : Engine → Engine) : Touches s (s.updEng p f) := ⟨_, _, _, _, _, rfl⟩

theorem updDome_touches (s : State) (t : Nat) (f : Dome → Dome) : Touches s (s.updDome t f) := ⟨_, _, _, _, _, rfl⟩

theorem makeRoom_touches {t l w : Nat} (e : makeRoom s t l = .inr (w, u)) : Touches s u := by
  unfold makeRoom at e
  dsimp only at e
  split at e
  · cases e
    exact Touches.refl s
  · have hfresh : Touches s s.fresh.2 := ⟨_, _, _, _, _, rfl⟩
    split at e
    · cases e
      exact ((hfresh.trans (writeBack_touches _ _)).trans (dropL1_touches _ _ _ _)).trans (updDome_touches _ _ _)
    · split at e
      · split at e <;> cases e
      · cases e

theorem domeHave_touches {t l : Nat} {b : Bool} (e : domeHave s t l b = .inr u) : Touches s u := by
  unfold domeHave at e
  dsimp only at e
  have hexcl : Touches s (if b = true then dropDomes (writeBack s l) l fun x => x != t else s) :=
    Touches.ite ((writeBack_touches s l).trans (dropDomes_touches _ _ _)) (Touches.refl s)
  split at e
  · split at e <;> cases e
    · exact hexcl.trans (updDome_touches _ _ _)
    · exact hexcl
  · split at e
    · cases e
    next hroom =>
      cases e
      refine (hexcl.trans (makeRoom_touches hroom)).trans (Touches.trans ?_ (updDome_touches _ _ _))
      exact (Touches.ite (Touches.refl _) (writeBack_touches _ _)).trans (Touches.ite ⟨_, _, _, _, _, rfl⟩ (Touches.refl _))

theorem l1Room_touches {p l : Nat} (e : l1Room s p l = some u) : Touches s u := by
  unfold l1Room at e
  dsimp only at e
  split at e
  · cases e
    exact Touches.refl s
  · split at e <;> cases e
    exact ⟨_, _, _, _, _, rfl⟩

theorem makeDirty_touches (s : State) (p l : Nat) (d : List Byte) : Gives (Touches s) (makeDirty s p l d) := by
  unfold makeDirty
  dsimp only
  split
  · exact Gives.error _
  next hd =>
    have hdome := (dropL1_touches s l (fun q => q != p) true).trans (domeHave_touches hd)
    split
    · exact Gives.ok (hdome.trans (updEng_touches _ _ _))
    · split
      · exact Gives.error _
      next hroom => exact Gives.ok ((hdome.trans (l1Room_touches hroom)).trans (updEng_touches _ _ _))

theorem sendLine_touches (s : State) (p l : Nat) (d : List Byte) (b : Bool) : Touches s (sendLine s p l d b) :=
  (writeBack_touches s l).trans ⟨_, _, _, _, _, rfl⟩

theorem drainStream_touches (s : State) (p : Nat) : Touches s (drainStream s p) :=
  Touches.foldl (fun s _ => Touches.ite ((sendLine_touches s _ _ _ _).trans (updEng_touches _ _ _)) (Touches.refl s)) _ s

theorem leaveStream_touches (s : State) (p : Nat) : Gives (Touches s) (leaveStream s p) := by
  unfold leaveStream
  dsimp only
  have hclear := (drainStream_touches s p).trans (updEng_touches _ p fun e => { e with stream := {} })
  split
  · exact Gives.ok hclear
  · split
    · exact Gives.error _
    · split
      · exact Gives.ok (hclear.trans (sendLine_touches _ _ _ _ _))
      · exact fun t ht => hclear.trans (makeDirty_touches _ _ _ _ t ht)

theorem addFill_touches (s : State) (p l : Nat) (k : FillKind) : Touches s (addFill s p l k) := updEng_touches s p _

theorem loadLine_touches (s : State) (p a n : Nat) (va : Word) : Gives (fun x => Touches s x.2) (loadLine s p a n va) := by
  unfold loadLine
  dsimp only
  have hfill (t : State) (h : Touches s t) (d : List Byte) : Gives (fun x => Touches s x.2)
      (if ((ownersOf t (a / 64)).contains p) = true then Except.ok (d, t) else .ok (d, addFill t p (a / 64) .load)) := by
    split
    · exact Gives.ok h
    · exact Gives.ok (h.trans (addFill_touches t _ _ _))
  split
  · exact Gives.error _
  · split
    · exact Gives.error _
    · split
      · exact Gives.ok (Touches.refl s)
      · split
        · exact Gives.bind (leaveStream_touches s p) fun t ht => hfill t ht _
        · exact hfill s (Touches.refl s) _

/-! ### Translation (R118 to R122) -/

theorem engineZone_touches (s : State) (p i r : Nat) : Touches s (engineZone s p i r) := by
  unfold engineZone
  split
  · exact updEng_touches s p _
  · exact Touches.refl s

theorem walk_touches (s : State) (p i : Nat) (va : Word) (org lv : Nat) : Gives (fun x => Touches s x.2) (walk s p i va org lv) := by
  induction lv generalizing s org with
  | zero => exact Gives.error _
  | succ lv ih =>
    unfold walk
    dsimp only
    split
    · exact Gives.error _
    · split
      · exact Gives.error _
      · exact Gives.error _
      next hl =>
        have hline := (engineZone_touches s p i _).trans (loadLine_touches _ _ _ _ _ _ hl)
        split
        · exact Gives.error _
        · split
          · exact Gives.ok hline
          · exact fun x hx => hline.trans (ih _ _ x hx)

theorem xlatVa_touches (s : State) (p k : Nat) (va : Word) : Gives (fun x => Touches s x.2) (xlatVa s p k va) := by
  unfold xlatVa
  dsimp only
  have hfresh : Touches s s.fresh.2 := ⟨_, _, _, _, _, rfl⟩
  have hwalk := walk_touches s.fresh.2 p (veInst k) va (bits ((s.ctx k).K 0).toNat 43 13 * 8192) 4
  split
  · split
    next hw =>
      split
      · exact Gives.ok (hfresh.trans (hwalk _ hw))
      · exact Gives.ok hfresh
    · split
      · exact Gives.error _
      · exact Gives.ok hfresh
  · exact Gives.bind hwalk fun x hx => Gives.ok ((hfresh.trans hx).trans ⟨_, _, _, _, _, rfl⟩)

theorem translate_touches (s : State) (p k : Nat) (acc : Access) (va : Word) : Gives (fun x => Touches s x.2) (translate s p k acc va) := by
  unfold translate
  dsimp only
  split
  · split
    · exact Gives.error _
    · refine Gives.bind (xlatVa_touches s p k va) ?_
      rintro ⟨x, t⟩ hx
      dsimp only
      split
      · exact Gives.error _
      · split
        · exact Gives.error _
        · exact Gives.bind (P := fun _ => True) (fun _ _ => trivial) fun _ _ => Gives.ok (hx.trans (engineZone_touches _ _ _ _))
  · split
    · exact Gives.error _
    · exact Gives.bind (P := fun _ => True) (fun _ _ => trivial) fun _ _ => Gives.ok (engineZone_touches _ _ _ _)

theorem translateOp_touches (s : State) (p k : Nat) (acc : Access) (va : Word) (n : Nat) :
    Gives (fun x => Touches s x.2) (translateOp s p k acc va n) := by
  unfold translateOp
  dsimp only
  refine Gives.bind (translate_touches s p k acc va) ?_
  rintro ⟨x, t⟩ hx
  dsimp only
  split
  · exact Gives.ok hx
  · exact Gives.bind (translate_touches t p k acc _) fun y hy => Gives.ok (hx.trans hy)

/-! ### Loads (R110) -/

theorem loadChunks_touches (s : State) (p : Nat) (va : Word) (fuel a n : Nat) : Gives (fun x => Touches s x.2) (loadChunks s p va fuel a n) := by
  induction fuel generalizing s va a n with
  | zero => exact Gives.ok (Touches.refl s)
  | succ fuel ih =>
    unfold loadChunks
    dsimp only
    split
    · exact Gives.ok (Touches.refl s)
    · exact Gives.bind (loadLine_touches s p a _ va) fun x hx => Gives.bind (ih x.2 _ _ _) fun y hy => Gives.ok (hx.trans hy)

theorem loadPiece_touches (s : State) (p k : Nat) (va : Word) (ph : Phys) (n : Nat) (keys : Bool) :
    Gives (fun x => Touches s x.2) (loadPiece s p k va ph n keys) := by
  unfold loadPiece
  dsimp only
  split
  · exact loadChunks_touches s p va _ _ n
  · split
    · exact Gives.error _
    · exact Gives.ok (Touches.refl s)
  · split
    · exact Gives.error _
    · exact Gives.ok ⟨_, _, _, _, _, rfl⟩

theorem loadPieces_touches (s : State) (p k : Nat) (keys : Bool) (l : List (Word × Phys × Nat)) :
    Gives (fun x => Touches s x.2) (loadPieces s p k keys l) := by
  induction l generalizing s with
  | nil => exact Gives.ok (Touches.refl s)
  | cons x l ih => exact Gives.bind (loadPiece_touches s p k _ _ _ keys) fun y hy => Gives.bind (ih y.2) fun z hz => Gives.ok (hy.trans hz)

theorem loadOp_touches (s : State) (p k : Nat) (va : Word) (n : Nat) (keys : Bool) : Gives (fun x => Touches s x.2) (loadOp s p k va n keys) :=
  Gives.bind (translateOp_touches s p k .load va n) fun x hx => fun y hy => hx.trans (loadPieces_touches x.2 p k keys x.1 y hy)

/-! ### The operands of a call (R116) -/

theorem callPieces_touches (s : State) (p k : Nat) (acc : Access) (fuel : Nat) (va : Word) (n : Nat) :
    Gives (fun x => Touches s x.2) (callPieces s p k acc fuel va n) := by
  induction fuel generalizing s va n with
  | zero => exact Gives.ok (Touches.refl s)
  | succ fuel ih =>
    unfold callPieces
    dsimp only
    split
    · exact Gives.ok (Touches.refl s)
    · refine Gives.bind (translate_touches s p k acc va) ?_
      rintro ⟨ph, t⟩ hx
      dsimp only
      split
      · exact Gives.bind (ih t _ _) fun y hy => Gives.ok (hx.trans hy)
      · exact Gives.error _

theorem callOperand_touches (s : State) (p k : Nat) (acc : Access) (va : Word) (n : Nat) :
    Gives (fun x => Touches s x.2) (callOperand s p k acc va n) := callPieces_touches s p k acc _ va n

end

/-! ## The statuses of a descriptor (R116, R297) -/

theorem cipherStatus_ne_done {s : State} {i d : Nat} {e : List Byte} {st : Status} (h : cipherStatus s i e = some (st, d)) : st ≠ .done := by
  rintro rfl
  unfold cipherStatus at h
  dsimp only at h
  split at h
  · split at h <;> cases h
  · split at h
    · cases h
    · repeat' split at h
      all_goals cases h

theorem callStatus_ne_done {s : State} {i d : Nat} {e : List Byte} {cz : Bool} {st : Status} (h : callStatus s i e cz = some (st, d)) :
    st ≠ .done := by
  unfold callStatus at h
  split at h
  · cases h
  · split at h
    · split at h <;> cases h
      exact Status.noConfusion
    · exact cipherStatus_ne_done h

theorem callCheck_ne_done {s : State} {i d : Nat} {e : List Byte} {cz : Bool} {st : Status} (h : callCheck s i e cz = some (st, d)) :
    st ≠ .done := by
  rintro rfl
  unfold callCheck at h
  dsimp only at h
  split at h
  · cases h
  · repeat' split at h
    all_goals simp at h

/-! ## Calls (R116, R299, R322) -/

theorem Ctx.sb_setSb (c : Ctx) {n : Nat} (b : Bool) (h : n < 64) : (c.setSb n b).sb n = b := by
  cases b <;> simp [Ctx.setSb, Ctx.sb, h]

/-- What a call makes of the state: the next SEQ taken, and Z. -/
def callEnd (t : State) (k : Nat) (z : Bool) : State :=
  let u := t.updInst (veInst k) fun x => { x with seq := (x.seq + 1) % 2 ^ 32 }
  u.setCtx k ((u.ctx k).setSb bZ z)

theorem callEnd_results {o t : State} (h : Touches o t) (k : Nat) (z : Bool) :
    ((callEnd t k z).inst (veInst k)).seq = ((o.inst (veInst k)).seq + 1) % 2 ^ 32 ∧ ((callEnd t k z).ctx k).sb bZ = z := by
  unfold callEnd
  constructor
  · show ((t.updInst (veInst k) fun x => { x with seq := (x.seq + 1) % 2 ^ 32 }).inst (veInst k)).seq = _
    rw [State.updInst, State.inst_setInst_same, h.inst]
  · dsimp only
    rw [State.ctx_setCtx_same]
    exact Ctx.sb_setSb _ z (by decide)

theorem ok_of_bind {α β : Type} {x : Except Stop α} {f : α → Except Stop β} {b : β} (h : x >>= f = .ok b) : ∃ a, x = .ok a ∧ f a = .ok b := by
  cases x with
  | ok a => exact ⟨a, rfl, h⟩
  | error e => cases h

/-- What a call leaves: the job that it queues with Z 1, or the answer that it writes into its area with Z 0. -/
def CallAnswers (o : State) (p k : Nat) (f : FA) (cz : Bool) (u : State) (es : List Effect) : Prop :=
  (∃ j, es = [.job j cz] ∧ j.inst = veInst k ∧ j.seq = (o.inst (veInst k)).seq ∧ j.ve = veNum k ∧ j.area.isSome = true ∧ (u.ctx k).sb bZ = true)
  ∨ ∃ x w a st d b, loadOp o p k ((o.ctx k).G f.r2) 64 = .ok (x, w)
      ∧ es = [.areaWrite (veInst k) (veNum k) a (areaBytes (o.inst (veInst k)).seq (Status.code st) d 0 x b) (reqNoint x)]
      ∧ st ≠ .done ∧ (u.ctx k).sb bZ = false

theorem callEffects_results {o u : State} {p k : Nat} {f : FA} {cz : Bool} {es : List Effect} (h : callEffects o p k f cz = .ok (u, es)) :
    (u.inst (veInst k)).seq = ((o.inst (veInst k)).seq + 1) % 2 ^ 32 ∧ CallAnswers o p k f cz u es := by
  unfold callEffects at h
  obtain ⟨⟨e, s1⟩, he, h⟩ := ok_of_bind h
  have ht1 := loadOp_touches o p k _ 64 false _ he
  obtain ⟨⟨src, s2⟩, hsrc, h⟩ := ok_of_bind h
  have ht2 := ht1.trans (callOperand_touches _ _ _ _ _ _ _ hsrc)
  obtain ⟨⟨aad, s3⟩, haad, h⟩ := ok_of_bind h
  have ht3 := ht2.trans (callOperand_touches _ _ _ _ _ _ _ haad)
  obtain ⟨⟨dst, s4⟩, hdst, h⟩ := ok_of_bind h
  have ht4 := ht3.trans (callOperand_touches _ _ _ _ _ _ _ hdst)
  obtain ⟨⟨area, s5⟩, harea, h⟩ := ok_of_bind h
  have ht := ht4.trans (callOperand_touches _ _ _ _ _ _ _ harea)
  dsimp only at h ht
  have hseq : (s5.inst (veInst k)).seq = (o.inst (veInst k)).seq := by rw [ht.inst]
  have now {others : List Nat} {a d : Nat} {st : Status} {b : List Byte} (hst : st ≠ .done)
      (h : (if (others != []) = true then Except.error (Stop.wait (askCommit o others)) else Except.ok (callEnd s5 k false,
        [Effect.areaWrite (veInst k) (veNum k) a (areaBytes (s5.inst (veInst k)).seq st.code d 0 e b) (reqNoint e)])) = .ok (u, es)) :
      (u.inst (veInst k)).seq = ((o.inst (veInst k)).seq + 1) % 2 ^ 32 ∧ CallAnswers o p k f cz u es := by
    split at h
    · cases h
    · cases h
      exact ⟨(callEnd_results ht k false).1, .inr ⟨e, s1, a, st, d, b, he, by rw [hseq], hst, (callEnd_results ht k false).2⟩⟩
  split at h
  next hc => exact now (callCheck_ne_done hc) h
  · split at h
    next hc => exact now (callStatus_ne_done hc) h
    · split at h
      · exact now (st := .deviceError) Status.noConfusion h
      · split at h
        · exact now (st := .busy) Status.noConfusion h
        · cases h
          refine ⟨(callEnd_results ht k true).1, .inl ⟨_, rfl, rfl, ?_, rfl, rfl, (callEnd_results ht k true).2⟩⟩
          show (if cz = true then _ else _ : Job).seq = _
          cases cz <;> exact hseq

theorem callInstr_runs {s t u : State} {p k : Nat} {f : FA} {cz : Bool} {es : List Effect} (h : Fetched s p k 4 t) (h1 : f.r1 = 0)
    (hf : f.fn = 0) (hc : (t.eng p).commit = none) (ht : t.twinned (veInst k) = false) (hz : cz = false ∨ t.variant.czes ≠ 0)
    (ha : ((t.ctx k).G f.r2).toNat % 64 = 0 ∧ ((t.ctx k).G f.r3).toNat % 32 = 0)
    (he : callEffects (commitNow t p k [] false) p k f cz = .ok (u, es)) :
    callInstr p f cz s = .next (commitNow (advance u k 4) p k es false) := by
  have hz' : ¬ (cz && t.variant.czes == 0) = true := by rcases hz with h | h <;> simp [h]
  have hform : ¬ (f.r1 != 0 || f.fn != 0 || ((t.ctx k).G f.r2).toNat % 64 != 0 || ((t.ctx k).G f.r3).toNat % 32 != 0) = true := by
    simp [h1, hf, ha.1, ha.2]
  exact instr_moves h rfl ((if_neg hz').trans ((if_neg hform).trans
    (withEffects_local (act := fun s => callEffects s p k f cz) hc (.inl rfl) ht he)))

theorem callInstr_misaligned {s t : State} {p k : Nat} {f : FA} {cz : Bool} (h : Fetched s p k 4 t) (hz : cz = false ∨ t.variant.czes ≠ 0)
    (ha : ¬ (((t.ctx k).G f.r2).toNat % 64 = 0 ∧ ((t.ctx k).G f.r3).toNat % 32 = 0)) :
    callInstr p f cz s = .next (nullify t k 4 0x104) := by
  have hz' : ¬ (cz && t.variant.czes == 0) = true := by rcases hz with h | h <;> simp [h]
  refine instr_nullified h rfl ((if_neg hz').trans (if_pos ?_))
  by_cases h2 : ((t.ctx k).G f.r2).toNat % 64 = 0
  · have h3 : ((t.ctx k).G f.r3).toNat % 32 ≠ 0 := fun h3 => ha ⟨h2, h3⟩
    simp [h3]
  · simp [h2]

/-- Settles O28. -/
theorem callsQueueAJobOrAnswer : Obligations.CallsQueueAJobOrAnswer := by
  unfold Obligations.CallsQueueAJobOrAnswer
  refine ⟨fun s t p k f h h1 hf hc ht => ?_, fun o u p k f cz es h => callEffects_results h⟩
  exact ⟨fun u es ha he => callInstr_runs h h1 hf hc ht (.inl rfl) ha he, fun u es ha hz he => callInstr_runs h h1 hf hc ht (.inr hz) ha he,
    fun ha => ⟨callInstr_misaligned h (.inl rfl) ha, fun hz => callInstr_misaligned h (.inr hz) ha⟩,
    fun hz => instr_nullified h rfl (if_pos (by simp [hz]))⟩

end Sys2Proof.Machine

/-! SUPPORT. The end of a cipher job (R117, R291 to R298): the checks it comes to once its source holds, what it leaves of its slot, what it
computes; and the statement about it, O41. -/

namespace Sys2Proof.Machine

open Sys2Proof

/-! ## The checks of a job whose source holds -/

theorem hubUse_upkeep (s : State) (i r n : Nat) : (hubUse s i r n).upkeep = s.upkeep := foldl_keeps State.upkeep (fun s _ => hubZone_upkeep s i _) _ s

theorem jobZones_upkeep (s : State) (j : Job) : (jobZones s j).upkeep = s.upkeep := by
  unfold jobZones
  split
  · rfl
  · exact foldl_keeps State.upkeep (fun s _ => hubUse_upkeep s _ _ _) _ s

theorem jobZones_spire (s : State) (j : Job) : (jobZones s j).spire = s.spire := congrArg (·.2.2) (jobZones_upkeep s j)

/-- A nonce job asks for no key operation. -/
theorem not_nonceJob {j : Job} (h : 0x30 ≤ reqOp j.entry) : nonceJob j = false := by
  unfold nonceJob
  rw [beq_eq_false_iff_ne.mpr (by omega), beq_eq_false_iff_ne.mpr (by omega)]
  rfl

/-- How job `j` ends with the source `d` and the additional data `a`. -/
def cipherEnd (v : State) (j : Job) (d a : List Byte) : State :=
  let x := v.slot j.page j.slot
  let o := cipherResult x j.entry d a (toBE 4 (v.spire.modid * 1024 + j.page))
  let q := keyOp v j.inst j.entry d 1
  if chkOk j.entry d = false then endJob v false j 8 1 0 []
  else if nonceJob j = true ∧ x.state = 2 then endJob v false j Status.keyExhausted.code 0 0 []
  else if 0x30 ≤ reqOp j.entry then endJob (jobWrite (keyRefused q.s j.inst j.seq q.st) j q.out) false j q.st.code q.detail q.out.length []
  else endJob (jobWrite v j o.2.1) false j o.1.code 0 o.2.1.length o.2.2

theorem execCipherJobDone_ends {s : State} {e : Nat} {src aad d a : List Byte} {j : Job} (hl : s.live = true)
    (hj : jobOn s.quiet false e = some j) (hw : jobWaits s.quiet j = false) (ho : jobOwners s.quiet j = [])
    (hd : jobData (jobZones s.quiet j) j src aad none = .ok d a) :
    execCipherJobDone e src aad none s = .next (cipherEnd (jobZones s.quiet j) j d a) := by
  have hl' : s.quiet.live = true := hl
  unfold execCipherJobDone cipherEnd
  simp only [hj, hl', hw, ho, hd, Bool.not_true, Bool.or_self, bne_self_eq_false, Bool.false_eq_true, if_false, Bool.not_eq_true',
    Bool.and_eq_true, beq_iff_eq, ge_iff_le]
  split
  · rfl
  · split
    · rfl
    · split <;> rfl

section
variable {v : State} {j : Job} {d a : List Byte}

theorem cipherEnd_badCheck (h : chkOk j.entry d = false) : cipherEnd v j d a = endJob v false j 8 1 0 [] := if_pos h

variable (h : chkOk j.entry d = true)
include h

theorem cipherEnd_exhausted (hn : nonceJob j = true) (hx : (v.slot j.page j.slot).state = 2) :
    cipherEnd v j d a = endJob v false j Status.keyExhausted.code 0 0 [] := (if_neg (by simp [h])).trans (if_pos ⟨hn, hx⟩)

theorem cipherEnd_computed (hop : reqOp j.entry < 0x30) (hn : nonceJob j = false ∨ (v.slot j.page j.slot).state ≠ 2) :
    let o := cipherResult (v.slot j.page j.slot) j.entry d a (toBE 4 (v.spire.modid * 1024 + j.page))
    cipherEnd v j d a = endJob (jobWrite v j o.2.1) false j o.1.code 0 o.2.1.length o.2.2 := by
  have hopen : ¬ (nonceJob j = true ∧ (v.slot j.page j.slot).state = 2) := by
    rcases hn with hn | hn <;> simp [hn]
  exact (if_neg (by simp [h])).trans ((if_neg hopen).trans (if_neg (by omega)))

theorem cipherEnd_key (hop : 0x30 ≤ reqOp j.entry) : let q := keyOp v j.inst j.entry d 1
    cipherEnd v j d a = endJob (jobWrite (keyRefused q.s j.inst j.seq q.st) j q.out) false j q.st.code q.detail q.out.length [] :=
  (if_neg (by simp [h])).trans ((if_neg (by simp [not_nonceJob hop])).trans (if_pos hop))

end

/-! ## What the end of a job leaves -/

theorem endJob_local {s : State} {cz : Bool} {j : Job} {st d n : Nat} {b : List Byte} (h : s.twinned j.inst = false) :
    let u := leaveJob s cz j st
    endJob s cz j st d n b = (if j.area.isNone = true then complete u (j.inst + 1) j.seq st d n b else areaDone u j st d n b) := by
  unfold endJob
  simp only [h, Bool.false_and, Bool.false_eq_true, if_false]

/-- The slot of a job that leaves, its charge released. -/
def Slot.released (x : Slot) (j : Job) : Slot := { x with reserved := x.reserved - j.charge }

theorem leaveJob_slot (s : State) {j : Job} (st : Nat) (h : reqOp j.entry ≠ 0x1A) : ∃ k,
    (leaveJob s false j st).slot j.page j.slot = { (if st = 0 ∧ reqOp j.entry < 0x30 then
      ((s.slot j.page j.slot).released j).afterDone j else (s.slot j.page j.slot).released j) with running := k } := by
  unfold leaveJob
  extract_lets left freed x y
  have hx : x = s.slot j.page j.slot := by
    unfold x freed
    split <;> rfl
  have hy : y = (s.slot j.page j.slot).released j := by
    unfold y
    rw [hx]
    rfl
  rw [if_neg (by simp [h]), hy]
  unfold countRunning
  dsimp only
  rw [State.slot_setSlot_same, State.slot_setSlot_same]
  simp only [Bool.and_eq_true, beq_iff_eq, decide_eq_true_eq]
  exact ⟨_, rfl⟩

/-! ## What a job computes (R280, R291, R296) -/

/-- GCM_ENCRYPT is done, and its result is the nonce. -/
theorem cipherResult_encrypt {e : List Byte} (x : Slot) (src aad fixed : List Byte) (h : reqOp e = 0x10) :
    (cipherResult x e src aad fixed).1 = .done ∧ (cipherResult x e src aad fixed).2.2 = fixed ++ toBE 8 x.used := by
  unfold cipherResult
  rw [h]
  exact ⟨rfl, rfl⟩

/-- A job is done, or its tag is wrong and it has no output. -/
theorem cipherResult_status (x : Slot) (e src aad fixed : List Byte) : (cipherResult x e src aad fixed).1 = .done
    ∨ ((cipherResult x e src aad fixed).1 = .authFailed ∧ (cipherResult x e src aad fixed).2.1 = []) := by
  have hcheck (b : Bool) (out : List Byte) (r : Status × List Byte × List Byte) (hr : r = if b then (.done, out, []) else (.authFailed, [], [])) :
      r.1 = .done ∨ (r.1 = .authFailed ∧ r.2.1 = []) := by
    subst hr
    cases b
    · exact .inr ⟨rfl, rfl⟩
    · exact .inl rfl
  unfold cipherResult
  dsimp only
  split
  · exact .inl rfl
  · exact hcheck _ _ _ rfl
  · exact .inl rfl
  · exact hcheck _ _ _ rfl
  · exact .inl rfl
  · exact .inl rfl
  · exact .inl rfl
  · split
    · exact .inl rfl
    · exact hcheck _ _ _ rfl

/-- A nonce job moves the counter of its key by one (R292). -/
theorem afterDone_nonce {x : Slot} {j : Job} (hx : x.classD = false) (h : nonceJob j = true) : (x.afterDone j).used = x.used + 1 := by
  unfold Slot.afterDone
  rw [if_neg (by simp [hx]), if_pos h]

/-- A job on a key of class D moves the counter by its charge, and the key is exhausted at its limit (R295). -/
theorem afterDone_classD {x : Slot} {j : Job} (hx : x.classD = true) : (x.afterDone j).used = x.used + j.charge
    ∧ (x.limit ≤ x.used + j.charge → (x.afterDone j).state = 2) := by
  unfold Slot.afterDone
  rw [if_pos hx]
  exact ⟨rfl, fun h => if_pos h⟩

/-- Settles O41. -/
theorem cipherJobEnds : Obligations.CipherJobEnds := by
  unfold Obligations.CipherJobEnds
  refine ⟨?_, fun s cz j st d n b h => ⟨endJob_local h, fun hop => leaveJob_slot s st hop⟩,
    fun x e src aad fixed => ⟨cipherResult_encrypt x src aad fixed, cipherResult_status x e src aad fixed,
      fun j hx hop => afterDone_nonce hx (by rcases hop with h | h <;> simp [nonceJob, h]), fun j hx => afterDone_classD hx⟩⟩
  intro s e src aad j w hl hj hw ho v d a hd x
  have hend : exec (.cipherJobDone e src aad none) s = .next (cipherEnd v j d a) := execCipherJobDone_ends hl hj hw ho hd
  refine ⟨fun hc => hend.trans (congrArg _ (cipherEnd_badCheck hc)), fun hc hn hx => hend.trans (congrArg _ (cipherEnd_exhausted hc hn hx)),
    fun hc hop hn => hend.trans (congrArg _ ?_), fun hc hop => hend.trans (congrArg _ (cipherEnd_key hc hop))⟩
  have hs : v.spire = w.spire := jobZones_spire w j
  rw [← hs]
  exact cipherEnd_computed hc hop hn

end Sys2Proof.Machine

/-! SUPPORT. Accesses and the tables of the model: the state that refutes O26 and O27. -/

namespace Sys2Proof.Machine

open Sys2Proof

/-- Line 1 in M in two domes, with first byte 1 in dome 5 and 2 in dome 0, in a table that lists dome 5 first. Engine 0 runs an instruction at
address 0 through a translation table at real address 0, and leaves no-allocate mode, with line 2 in a full stream buffer, when it reads that
table. -/
def streamingFetch : State :=
  { clk := { phase := .run }
    insts := [(0, { st := .running, main := [{ num := 0 }] })]
    ves := [(0, { on := some 0, stopped := false, cur := { psw := 0x2000000000 } })]
    engines := [(0, { ve := some 0, stream := { active := true, bufs := [{ line := 2, data := List.replicate 64 7 }] } })]
    domes := [(5, { lines := [{ line := 1, st := .M, way := 0, data := [1] }] }),
              (0, { lines := [{ line := 1, st := .M, way := 0, data := [2] }] })]
    mem := { store := [(33554438, 0x20), (33554439, 0x01), (33562631, 0x23)] } }

/-- The first byte of line 1 that is committed after a step. -/
def committedAfter : Except Stop State → Option Byte
  | .ok u => some (byteAt u 64)
  | .error _ => none

theorem running_streamingFetch : running streamingFetch.quiet 0 = some 0 := by decide

theorem byteAt_streamingFetch : byteAt streamingFetch 64 = 1 := by decide

theorem committedAfter_fetch : committedAfter (fetchInstr streamingFetch 0 0 4) = some 2 := by decide

/-- The fetch completes and line 1 is committed with the bytes of the other copy. -/
theorem streamingFetch_fetched : ∃ t, fetchInstr streamingFetch 0 0 4 = .ok t ∧ byteAt t 64 = 2 := by
  have hafter := committedAfter_fetch
  cases he : fetchInstr streamingFetch 0 0 4 with
  | error st =>
    rw [he] at hafter
    cases hafter
  | ok t =>
    rw [he] at hafter
    exact ⟨t, rfl, Option.some.inj hafter⟩

/-- Refutes O26: a fetch that sends a line of no-allocate mode out of its buffer puts the new value of dome 0 before dome 5 in a table whose
keys do not rise, and line 1, of which both have a copy in M, is committed with the bytes of the other copy afterwards. -/
theorem not_accessesStayUncommitted : ¬ Obligations.AccessesStayUncommitted := by
  unfold Obligations.AccessesStayUncommitted
  rintro ⟨haccess, -⟩
  obtain ⟨t, hfetch, hafter⟩ := streamingFetch_fetched
  obtain ⟨-, hbytes, -⟩ := (haccess streamingFetch t 0 0 4 (by decide)).1 hfetch
  have hsame : (2 : Byte) = 1 := calc
    2 = byteAt t 64 := hafter.symm
    _ = byteAt streamingFetch 64 := hbytes 64
    _ = 1 := byteAt_streamingFetch
  exact absurd hsame (by decide)

/-- Past an instruction the committed bytes are those that its fetch left. -/
theorem byteAt_retire (t : State) (k n : Nat) (c : Ctx) (a : Nat) : byteAt (retire t k n c) a = byteAt t a := rfl

/-- Refutes O27: the fetch of a NOP sends a line of no-allocate mode out of its buffer, which reorders a table of domes whose keys do not
rise, and line 1, of which two domes have a copy in M, is committed with the bytes of the other copy afterwards. -/
theorem not_registerInstructionsKeepTheRest : ¬ Obligations.RegisterInstructionsKeepTheRest := by
  unfold Obligations.RegisterInstructionsKeepTheRest
  intro hframe
  obtain ⟨t, hfetch, hafter⟩ := streamingFetch_fetched
  have hnop : exec (.nop 0 ⟨0, 0, 0, 0⟩) streamingFetch = .next (retire t 0 4 (t.ctx 0)) :=
    regInstr_plain (f := ⟨0, 0, 0, 0⟩) ⟨running_streamingFetch, hfetch⟩ rfl (fun c => c) (fun _ => rfl) rfl
  obtain ⟨-, -, -, -, -, -, -, -, hbytes, -⟩ :=
    hframe streamingFetch _ 0 0 ⟨0, 0, 0, 0⟩ ⟨0, 0, 0⟩ ⟨0, 0⟩ (by decide) running_streamingFetch
      (.nop 0 ⟨0, 0, 0, 0⟩, [], [], [], 0) (by simp [registerWrites]) hnop
  have hsame : (2 : Byte) = 1 := calc
    2 = byteAt t 64 := hafter.symm
    _ = byteAt (retire t 0 4 (t.ctx 0)) 64 := (byteAt_retire t 0 4 _ 64).symm
    _ = byteAt streamingFetch 64 := hbytes 64
    _ = 1 := byteAt_streamingFetch
  exact absurd hsame (by decide)

end Sys2Proof.Machine

/-! SUPPORT. Division and floating point (R150, R151, R155, R156, R167 to R176): instructions whose operands an interrupted routine may have read
before, and the statements O6 and O11. -/

namespace Sys2Proof.Machine

open Sys2Proof

/-! ## Division (R155, R156) -/

/-- The quotient toward zero is the signed division of words. -/
theorem ofInt_tdiv (a b : Word) : BitVec.ofInt 64 (a.toInt.tdiv b.toInt) = a.sdiv b :=
  BitVec.eq_of_toInt_eq (by rw [BitVec.toInt_ofInt, BitVec.toInt_sdiv])

theorem ofInt_tmod (a b : Word) : BitVec.ofInt 64 (a.toInt.tmod b.toInt) = a.srem b := by
  rw [← BitVec.toInt_srem, BitVec.ofInt_toInt]

/-- What a division does with the registers it finds: `q` of its operands, or the divide exception where `traps` says so. -/
def divides (f : FA) (op : Byte) (traps : Word → Word → Bool) (q : Word → Word → Word) (c : Ctx) : RegRes :=
  let a := (c.operands op).G f.r2
  let b := (c.operands op).G f.r3
  if !fnOk f 0 then .exc 0x104 else if traps a b then .exc 0x202 else .ok (c.logic f.r1 (q a b))

theorem divTraps_iff (a b : Word) : divTraps a b = true ↔ b = 0 ∨ (a == BitVec.intMin 64 && b == BitVec.allOnes 64) = true := by
  unfold divTraps
  rw [Bool.or_eq_true, beq_iff_eq]

section
variable {s t : State} {p k : Nat} {f : FA} (h : Fetched s p k 4 t) (hf : f.fn = 0)
include h hf

theorem divides_ends (op : Byte) {traps : Word → Word → Bool} {q : Word → Word → Word} {a b : Word}
    (ha : ((t.resumeCtx k).operands op).G f.r2 = a) (hb : ((t.resumeCtx k).operands op).G f.r3 = b) {P : Prop} [Decidable P]
    (hP : traps a b = true ↔ P) : regInstr s p 4 false (divides f op traps q)
      = .next (if P then nullify t k 4 0x202 else retire t k 4 ((t.ctx k).logic f.r1 (q a b))) := by
  obtain ⟨m, hm⟩ := resumeCtx_eq t k
  rw [regInstr_fetched h]
  unfold divides
  dsimp only
  rw [fnOk_of_zero hf, ha, hb, hm]
  by_cases ht : P
  · rw [if_pos ht, if_pos (hP.mpr ht)]
    rfl
  · rw [if_neg ht, if_neg (mt hP.mp ht)]
    rfl

theorem execDivs_ends {a b : Word} (ha : ((t.resumeCtx k).operands 0x28).G f.r2 = a) (hb : ((t.resumeCtx k).operands 0x28).G f.r3 = b) :
    execDivs p f s = .next (if b = 0 ∨ (a == BitVec.intMin 64 && b == BitVec.allOnes 64) = true then nullify t k 4 0x202
      else retire t k 4 ((t.ctx k).logic f.r1 (a.sdiv b))) := by
  rw [← ofInt_tdiv]
  exact divides_ends h hf 0x28 (q := fun a b => BitVec.ofInt 64 (a.toInt.tdiv b.toInt)) ha hb (divTraps_iff a b)

theorem execRems_ends {a b : Word} (ha : ((t.resumeCtx k).operands 0x2A).G f.r2 = a) (hb : ((t.resumeCtx k).operands 0x2A).G f.r3 = b) :
    execRems p f s = .next (if b = 0 ∨ (a == BitVec.intMin 64 && b == BitVec.allOnes 64) = true then nullify t k 4 0x202
      else retire t k 4 ((t.ctx k).logic f.r1 (a.srem b))) := by
  rw [← ofInt_tmod]
  exact divides_ends h hf 0x2A (q := fun a b => BitVec.ofInt 64 (a.toInt.tmod b.toInt)) ha hb (divTraps_iff a b)

end

/-- Settles O6: each division is one of the shapes of `divides`. -/
theorem divisionResults : Obligations.DivisionResults := by
  unfold Obligations.DivisionResults
  intro s t p k f h hf
  exact ⟨divides_ends h hf 0x27 (traps := fun _ b => b == 0) (q := fun a b => a / b) rfl rfl beq_iff_eq, execDivs_ends h hf rfl rfl,
    divides_ends h hf 0x29 (traps := fun _ b => b == 0) (q := fun a b => a % b) rfl rfl beq_iff_eq, execRems_ends h hf rfl rfl⟩

/-! ## Floating point (R167 to R176) -/

section
variable {s t : State} {p k : Nat} {f : FA} (h : Fetched s p k 4 t)
include h

/-- An instruction on registers that ends with floating-point flags, whatever it makes of the micro-save area. -/
theorem regInstr_flags {g : Ctx → RegRes} {c : Ctx} {m : MicroSave} {fl : Nat} (hg : g (t.resumeCtx k) = fpResult { c with micro := m } fl)
    (hc : c.micro = (t.ctx k).micro) : regInstr s p 4 false g = .next (retireFp t k c fl) := by
  rw [regInstr_fetched h, hg]
  unfold fpResult retireFp
  dsimp only
  by_cases hhit : fl &&& (c.fpcr.toNat / 65536 % 32) = 0
  · rw [if_neg (by simpa using hhit), if_pos hhit]
    unfold regEnd
    rw [← hc]
  · rw [if_pos (by simpa using hhit), if_neg hhit]
    unfold regEnd
    rw [← hc]

/-- The same from the registers as they are. -/
theorem regInstr_flags_of_current {g : Ctx → RegRes} {c : Ctx} {fl : Nat}
    (hg : ∀ m, g { t.ctx k with micro := m } = fpResult { c with micro := m } fl) (hc : c.micro = (t.ctx k).micro) :
    regInstr s p 4 false g = .next (retireFp t k c fl) := by
  obtain ⟨m, hm⟩ := resumeCtx_eq t k
  exact regInstr_flags h (by rw [hm, hg m]) hc

end

/-- Operand `r` of a floating-point instruction over the registers `c`, read from `o`. -/
def fpOperand (f : FA) (c o : Ctx) (r : BitVec 5) : FVal := unpack (fmtOf f) c.ftz (o.F r)

theorem fnOk_of_format {f : FA} (hf : f.fn &&& 0xFF = 0) : fnOk f 0x100 = true := beq_iff_eq.mpr hf

theorem fpForm_ok {f : FA} (hf : f.fn &&& 0xFF = 0) : ¬ (!fnOk f 0x100 || !true) = true := by
  rw [fnOk_of_format hf]
  exact Bool.false_ne_true

section
variable {s t : State} {p k : Nat} {f : FA} (h : Fetched s p k 4 t) (hf : f.fn &&& 0xFF = 0)
include h hf

/-! ### Arithmetic (R168 to R173) -/

/-- An operation `op` of the registers as they are. -/
theorem fpInstr_ends (op : Fmt → Nat → Bool → FVal → FVal → FVal → Nat × Nat) {r : Nat × Nat}
    (hr : op (fmtOf f) (t.ctx k).rm (t.ctx k).ftz (fpOperand f (t.ctx k) (t.ctx k) f.r2) (fpOperand f (t.ctx k) (t.ctx k) f.r3)
      (fpOperand f (t.ctx k) (t.ctx k) f.r1) = r) :
    fpInstr p f s true op none = .next (retireFp t k ((t.ctx k).setF f.r1 (BitVec.ofNat 64 r.1)) r.2) := by
  subst hr
  exact regInstr_flags_of_current h (fun _ => if_neg (fpForm_ok hf)) rfl

/-- A routine of opcode `b`, which has its operands from where it was interrupted (R151). -/
theorem fpRoutine_ends (op : Fmt → Nat → Bool → FVal → FVal → Nat × Nat) (b : Byte) {ok : Bool} (hok : ok = true) {r : Nat × Nat}
    (hr : op (fmtOf f) (t.ctx k).rm (t.ctx k).ftz (fpOperand f (t.ctx k) ((t.resumeCtx k).operands b) f.r2)
      (fpOperand f (t.ctx k) ((t.resumeCtx k).operands b) f.r3) = r) :
    fpInstr p f s ok (fun m rm z x y _ => op m rm z x y) (some b)
      = .next (retireFp t k ((t.ctx k).setF f.r1 (BitVec.ofNat 64 r.1)) r.2) := by
  subst hr hok
  obtain ⟨m, hm⟩ := resumeCtx_eq t k
  refine regInstr_flags h (m := m) ((if_neg (fpForm_ok hf)).trans ?_) rfl
  rw [hm]
  rfl

/-! ### Comparison (R173) -/

theorem execFcmp_ends {a b : FVal} (ha : fpOperand f (t.ctx k) (t.ctx k) f.r2 = a) (hb : fpOperand f (t.ctx k) (t.ctx k) f.r3 = b) :
    execFcmp p f s = .next (
      let v := nanResult (fmtOf f) [a, b]
      retireFp t k (((((t.ctx k).setSb bZ (v.isNone && !ltVal a b && !ltVal b a)).setSb bN (v.isNone && ltVal a b)).setSb bC false).setSb bV v.isSome)
        ((v.map Prod.snd).getD 0)) := by
  have hform : ¬ (!fnOk f 0x100) = true := by
    rw [fnOk_of_format hf]
    exact Bool.false_ne_true
  refine regInstr_flags_of_current h (fun m => (if_neg hform).trans ?_) rfl
  have ha' : unpack (fmtOf f) ({ t.ctx k with micro := m } : Ctx).ftz (({ t.ctx k with micro := m } : Ctx).F f.r2) = a := ha
  have hb' : unpack (fmtOf f) ({ t.ctx k with micro := m } : Ctx).ftz (({ t.ctx k with micro := m } : Ctx).F f.r3) = b := hb
  simp only [ha', hb']
  cases nanResult (fmtOf f) [a, b] with
  | none =>
    simp only [Option.isNone_none, Bool.true_and]
    rfl
  | some v => rfl

/-! ### Sign operations (R98, R170) -/

theorem signInstr_ends (op : Nat → Nat → Nat) :
    signInstr p f s op = .next (retire t k 4 ((t.ctx k).setF f.r1
      (BitVec.ofNat 64 (op (((t.ctx k).F f.r2).toNat % 2 ^ (fmtOf f).width) ((fmtOf f).width - 1))))) := by
  refine regInstr_completes h (fun m => if_neg ?_) rfl
  rw [fnOk_of_format hf]
  exact Bool.false_ne_true

theorem execFneg_ends {w : Nat} (hw : (fmtOf f).width = w) {v : Word} (hv : BitVec.ofNat 64 (((t.ctx k).F f.r2).toNat % 2 ^ w ^^^ 2 ^ (w - 1)) = v) :
    execFneg p f s = .next (retire t k 4 ((t.ctx k).setF f.r1 v)) := by
  subst hw hv
  exact signInstr_ends h hf _

theorem execFabs_ends {w : Nat} (hw : (fmtOf f).width = w) {v : Word} (hv : BitVec.ofNat 64 (((t.ctx k).F f.r2).toNat % 2 ^ w % 2 ^ (w - 1)) = v) :
    execFabs p f s = .next (retire t k 4 ((t.ctx k).setF f.r1 v)) := by
  subst hw hv
  exact signInstr_ends h hf _

end

/-- The sign bit of a binary64 word changed. -/
theorem ofNat_xor_sign (x : Word) : BitVec.ofNat 64 (x.toNat % 2 ^ 64 ^^^ 2 ^ 63) = x ^^^ (1#64 <<< 63) := by
  apply BitVec.eq_of_toNat_eq
  rw [Nat.mod_eq_of_lt x.isLt, BitVec.toNat_ofNat, BitVec.toNat_xor, Nat.mod_eq_of_lt (Nat.xor_lt_two_pow x.isLt (by decide))]
  rfl

theorem ofNat_clear_sign (x : Word) : BitVec.ofNat 64 (x.toNat % 2 ^ 64 % 2 ^ 63) = x &&& ~~~(1#64 <<< 63) := by
  have hmask : (~~~(1#64 <<< 63) : Word).toNat = 2 ^ 63 - 1 := rfl
  apply BitVec.eq_of_toNat_eq
  rw [BitVec.toNat_and, hmask, Nat.and_two_pow_sub_one_eq_mod, BitVec.toNat_ofNat]
  omega

theorem ofNat_xor_sign32 (x : Word) : BitVec.ofNat 64 (x.toNat % 2 ^ 32 ^^^ 2 ^ 31) = (x.setWidth 32 ^^^ (1#32 <<< 31)).setWidth 64 := by
  have hlt : x.toNat % 2 ^ 32 ^^^ 2 ^ 31 < 2 ^ 32 := Nat.xor_lt_two_pow (Nat.mod_lt _ (by decide)) (by decide)
  apply BitVec.eq_of_toNat_eq
  rw [BitVec.toNat_setWidth, BitVec.toNat_xor, BitVec.toNat_setWidth, BitVec.toNat_ofNat]
  rfl

theorem ofNat_clear_sign32 (x : Word) : BitVec.ofNat 64 (x.toNat % 2 ^ 32 % 2 ^ 31) = (x.setWidth 31).setWidth 64 := by
  apply BitVec.eq_of_toNat_eq
  simp only [BitVec.toNat_ofNat, BitVec.toNat_setWidth]
  omega

/-! ### Conversions (R174) -/

/-- The kind that FN[7:4] of FCVT names, its other bits but FN[8] zero. -/
theorem fcvt_kind {f : FA} {n : Nat} (hn : n < 16) (hf : f.fn &&& 0xFF = BitVec.ofNat 9 (n * 16)) :
    f.fn.toNat / 16 % 16 = n ∧ fnOk f 0x1F0 = true := by
  have hlow : f.fn.toNat % 256 = n * 16 := by
    have h := congrArg BitVec.toNat hf
    rw [BitVec.toNat_and, BitVec.toNat_ofNat] at h
    rw [← Nat.and_two_pow_sub_one_eq_mod f.fn.toNat 8]
    exact h.trans (Nat.mod_eq_of_lt (by omega))
  refine ⟨by omega, beq_iff_eq.mpr (BitVec.eq_of_toNat_eq ?_)⟩
  rw [BitVec.toNat_and]
  refine (Nat.and_two_pow_sub_one_eq_mod f.fn.toNat 4).trans ?_
  show f.fn.toNat % 2 ^ 4 = 0
  omega

/-- The registers that FCVT of kind `n` leaves over `c`, and its flags. -/
def Ctx.fcvt (c : Ctx) (f : FA) (n : Nat) : Ctx × Nat :=
  let toF (r : Nat × Nat) : Ctx × Nat := (c.setF f.r1 (BitVec.ofNat 64 r.1), r.2)
  let toG (r : Nat × Nat) : Ctx × Nat := (c.setG f.r1 (BitVec.ofNat 64 r.1), r.2)
  match n with
  | 0 => toF (fpConv fmt64 fmt32 c.rm c.ftz (unpack fmt64 c.ftz (c.F f.r2)))
  | 1 => toF (fpConv fmt32 fmt64 c.rm c.ftz (unpack fmt32 c.ftz (c.F f.r2)))
  | 2 => toF (roundInt (fmtOf f) c.rm c.ftz (c.G f.r2).toInt 0 false)
  | 3 => toF (roundInt (fmtOf f) c.rm c.ftz ((c.G f.r2).toNat : Int) 0 false)
  | 4 => toG (fpToInt c.rm true (fpOperand f c c f.r2))
  | 5 => toG (fpToInt c.rm false (fpOperand f c c f.r2))
  | 6 => toG (fpToInt 4 true (fpOperand f c c f.r2))
  | _ => toG (fpToInt 4 false (fpOperand f c c f.r2))

theorem fcvt_micro (c : Ctx) (f : FA) (n : Nat) : (c.fcvt f n).1.micro = c.micro := by
  unfold Ctx.fcvt
  split <;> rfl

theorem execFcvt_ends {s t : State} {p k n : Nat} {f : FA} (h : Fetched s p k 4 t) (hn : n < 8) (hf : f.fn &&& 0xFF = BitVec.ofNat 9 (n * 16))
    (h8 : 2 ≤ n ∨ f.fn.getLsbD 8 = false) :
    execFcvt p f s = .next (retireFp t k ((t.ctx k).fcvt f n).1 ((t.ctx k).fcvt f n).2) := by
  obtain ⟨hkind, hfn⟩ := fcvt_kind (by omega) hf
  have hform : ¬ (!fnOk f 0x1F0 || decide (f.fn.toNat / 16 % 16 ≥ 8) || (decide (f.fn.toNat / 16 % 16 < 2) && f.fn.getLsbD 8)) = true := by
    rw [hfn, hkind]
    rcases h8 with h8 | h8
    · simp [hn, show ¬ n < 2 by omega]
    · rw [h8]
      simp [hn]
  refine regInstr_flags_of_current h (fun m => (if_neg hform).trans ?_) (fcvt_micro _ f n)
  dsimp only
  rw [hkind]
  interval_cases n <;> rfl

/-- Settles O11: the arithmetic by its two shapes, then the sign operations, the comparison and the conversions. -/
theorem floatingPointResults : Obligations.FloatingPointResults := by
  unfold Obligations.FloatingPointResults
  intro s t p k f h
  refine ⟨fun hf => ⟨fpInstr_ends h hf (fun m rm z a b _ => fpAdd m rm z a b) rfl, fpInstr_ends h hf (fun m rm z a b _ => fpSub m rm z a b) rfl,
      fpInstr_ends h hf (fun m rm z a b _ => fpMul m rm z a b) rfl, fpRoutine_ends h hf (fun m rm z a b => fpDiv m rm z a b) 0x73 rfl rfl,
      fun h3 => fpRoutine_ends h hf (fun m rm z a _ => fpSqrt m rm z a) 0x74 (by simp [h3]) rfl,
      fpInstr_ends h hf (fun m rm z a b c => fpFma m rm z false a b c false) rfl,
      fpInstr_ends h hf (fun m rm z a b c => fpFma m rm z false a b c true) rfl,
      fpInstr_ends h hf (fun m rm z a b c => fpFma m rm z true a b c false) rfl, fpInstr_ends h hf (fun m _ _ a b _ => fpMinMax m false a b) rfl,
      fpInstr_ends h hf (fun m _ _ a b _ => fpMinMax m true a b) rfl, fun _ => ⟨fun h0 => ?_, fun h1 => ?_⟩, execFcmp_ends h hf rfl rfl⟩,
    fun hf => execFcvt_ends h (n := 0) (by decide) (by rw [hf]; rfl) (.inr (by rw [hf]; rfl)),
    fun hf => execFcvt_ends h (n := 1) (by decide) (by rw [hf]; rfl) (.inr (by rw [hf]; rfl)),
    fun hf => execFcvt_ends h (n := 2) (by decide) hf (.inl (by decide)), fun hf => execFcvt_ends h (n := 3) (by decide) hf (.inl (by decide)),
    fun hf => execFcvt_ends h (n := 4) (by decide) hf (.inl (by decide)), fun hf => execFcvt_ends h (n := 5) (by decide) hf (.inl (by decide)),
    fun hf => execFcvt_ends h (n := 6) (by decide) hf (.inl (by decide)), fun hf => execFcvt_ends h (n := 7) (by decide) hf (.inl (by decide))⟩
  · have hw : (fmtOf f).width = 64 := by rw [fmtOf, h0]; rfl
    exact ⟨execFneg_ends h hf hw (ofNat_xor_sign _), execFabs_ends h hf hw (ofNat_clear_sign _)⟩
  · have hw : (fmtOf f).width = 32 := by rw [fmtOf, h1]; rfl
    exact ⟨execFneg_ends h hf hw (ofNat_xor_sign32 _), execFabs_ends h hf hw (ofNat_clear_sign32 _)⟩

end Sys2Proof.Machine

/-! SUPPORT. The block-repeat instructions (R125 to R132, R150, R154) and EDITP (R165): how one element ends, a count of zero, and the statement about
them, O18. -/

namespace Sys2Proof.Machine

open Sys2Proof

/-- The later of two writes of one key is the one that stands. -/
theorem kvSet_overwrites {α : Type} (l : KV α) (k : Nat) (v w : α) : kvSet (kvSet l k v) k w = kvSet l k w := by
  induction l with
  | nil => simp [kvSet]
  | cons e l ih =>
    obtain ⟨j, x⟩ := e
    by_cases hlt : j < k
    · simp [kvSet, hlt, ih]
    · by_cases he : j = k
      · simp [kvSet, he]
      · simp [kvSet, hlt, he]

theorem State.updVe_updVe (s : State) (k : Nat) (f g : VE → VE) : (s.updVe k f).updVe k g = s.updVe k fun x => g (f x) := by
  unfold State.updVe
  rw [State.ve_setVe_same]
  unfold State.setVe
  rw [kvSet_overwrites]

/-! ## The ends of an element (R125, R150) -/

/-- A block-repeat instruction past its last element, with the registers `c`. -/
def blockDone (u : State) (k : Nat) (c : Ctx) : State := advance ((u.setCtx k c).updVe k fun x => { x with desc := none }) k 4

/-- What an element leaves with the registers `c`: the instruction complete, or its address with RP 1 (R150). -/
def blockEnds (u : State) (k : Nat) (c : Ctx) (fin : Bool) (d : Option Bool) : State :=
  if fin then blockDone u k c else (u.setCtx k c).updVe k fun x => { x with cur := c.setSb bRP true, desc := d }

section
variable {s t : State} {p k : Nat} (h : Fetched s p k 4 t) {ok : Bool} (hok : ok = true) {rc : BitVec 5} {zero : Ctx → Bool → Ctx}
  {e : Nat → Elem}
include h hok

theorem blockInstr_zero (n : Nat) (hrc : (t.ctx k).G rc = 0) :
    blockInstr p s n ok rc zero e = .next (blockDone t k (zero (t.ctx k) (!(t.ctx k).sb bRP))) :=
  instr_completes h rfl ((if_neg (by simp [hok])).trans (if_pos (beq_iff_eq.mpr hrc)))

/-- A run of one element that stores into no host window. -/
theorem blockInstr_one {w : State} {fin : Bool} (hrc : (t.ctx k).G rc ≠ 0) (he : e k t (!(t.ctx k).sb bRP) = .ok (w, [], fin)) :
    blockInstr p s 1 ok rc zero e = .next (if fin then advance (w.updVe k fun x => { x with desc := none }) k 4
      else w.updVe k fun x => { x with cur := x.cur.setSb bRP true }) := by
  have hrun : elemRun (e k) t p k = .ok (w, fin, false) := by
    simp only [elemRun, he, bind, Except.bind]
    rfl
  have hform : ¬ (!ok) = true := by simp [hok]
  have hcount : ¬ ((t.ctx k).G rc == 0) = true := by simpa using hrc
  cases fin with
  | true => exact instr_completes h rfl ((if_neg hform).trans ((if_neg hcount).trans
      (by simp only [elems, hrun, Bool.false_eq_true, if_false, if_true])))
  | false => exact instr_moves h rfl ((if_neg hform).trans ((if_neg hcount).trans
      (by simp only [elems, hrun, Bool.false_eq_true, if_false])))

/-- An element that leaves `u` with the registers `c`. -/
theorem blockInstr_element {u : State} {c : Ctx} {fin : Bool} (hrc : (t.ctx k).G rc ≠ 0)
    (he : e k t (!(t.ctx k).sb bRP) = .ok (u.setCtx k c, [], fin)) :
    blockInstr p s 1 ok rc zero e = .next (blockEnds u k c fin (u.ve k).desc) := by
  rw [blockInstr_one h hok hrc he]
  cases fin with
  | true => rfl
  | false =>
    refine congrArg Host.Outcome.next ?_
    unfold blockEnds State.updVe State.setCtx
    rw [State.ve_setVe_same]
    rfl

/-- An element that also notes the direction `d` in which it goes (R129). -/
theorem blockInstr_directed {u : State} {c : Ctx} {fin : Bool} {d : Option Bool} (hrc : (t.ctx k).G rc ≠ 0)
    (he : e k t (!(t.ctx k).sb bRP) = .ok ((u.setCtx k c).updVe k fun x => { x with desc := d }, [], fin)) :
    blockInstr p s 1 ok rc zero e = .next (blockEnds u k c fin d) := by
  rw [blockInstr_one h hok hrc he, State.updVe_updVe, State.updVe_updVe]
  cases fin with
  | true => rfl
  | false =>
    refine congrArg Host.Outcome.next ?_
    unfold blockEnds State.updVe State.setCtx
    rw [State.ve_setVe_same]
    rfl

end

/-! ## The elements -/

theorem loadByte_loads {s t : State} {p k : Nat} {a : Word} {b : Byte} (h : loadOp s p k a 1 = .ok ([b], t)) : loadByte s p k a = .ok (b, t) := by
  simp only [loadByte, h, bind, Except.bind, List.headD_cons]

/-- A count by its number. -/
theorem toNat_beq_one (a : Word) : (a.toNat == 1) = (a == 1) := by
  rw [Bool.eq_iff_iff, beq_iff_eq, beq_iff_eq, ← BitVec.toNat_inj]
  rfl

section
variable {t t1 t2 t3 : State} {p k : Nat} {f : FE} {start : Bool} {c : Ctx} (hc : t.ctx k = c)
include hc

theorem movbElem_moves {b : Byte} {down : Bool} {off : Word}
    (hd : (t.ve k).desc.getD (!f.opt.getLsbD 0 && decide ((c.G f.rs).toNat < (c.G f.rd).toNat
      ∧ (c.G f.rd).toNat < (c.G f.rs).toNat + (c.G f.rc).toNat)) = down)
    (ho : (if down = true then c.G f.rc - 1 else 0) = off)
    (hl : loadOp t p k (c.G f.rs + off) 1 = .ok ([b], t1)) (hs : storeOp t1 p k (c.G f.rd + off) [b] = .ok (t2, [])) :
    movbElem p f k t start = .ok ((t2.setCtx k (if down = true then c.bump f.rc (-1)
      else ((c.bump f.rc (-1)).bump f.rd 1).bump f.rs 1)).updVe k fun x => { x with desc := some down }, [], c.G f.rc == 1) := by
  unfold movbElem
  simp only [hc, hd, ho, toNat_beq_one, loadByte_loads hl, hs, bind, Except.bind]

theorem fillbElem_fills (hopt : f.opt.toNat < 4)
    (hs : storeOp t p k (c.G f.rd) (toBE (2 ^ f.opt.toNat) (c.G f.rp).toNat) = .ok (t1, [])) :
    fillbElem p f k t start = .ok (t1.setCtx k ((c.bump f.rd (BitVec.ofNat 64 (2 ^ f.opt.toNat))).bump f.rc (-1)), [], c.G f.rc == 1) := by
  unfold fillbElem
  simp only [hc, Nat.mod_eq_of_lt hopt, hs, bind, Except.bind]

section
variable {a b : Byte} (ha : loadOp t p k (c.G f.rd) 1 = .ok ([a], t1)) (hb : loadOp t1 p k (c.G f.rs) 1 = .ok ([b], t2))
include ha hb

theorem cmpbElem_differs (hne : a ≠ b) :
    cmpbElem p f k t start = .ok (t2.setCtx k (c.cmpbFlags false (decide (a.toNat < b.toNat))), [], true) := by
  unfold cmpbElem
  simp only [hc, loadByte_loads ha, loadByte_loads hb, bind, Except.bind, bne_iff_ne.mpr hne, if_true]

theorem cmpbElem_same (he : a = b) : cmpbElem p f k t start = .ok (t2.setCtx k (if (c.G f.rc == 1) = true
      then (((c.bump f.rd 1).bump f.rs 1).bump f.rc (-1)).cmpbFlags true false
      else ((c.bump f.rd 1).bump f.rs 1).bump f.rc (-1)), [], c.G f.rc == 1) := by
  unfold cmpbElem
  simp only [hc, loadByte_loads ha, loadByte_loads hb, bind, Except.bind, he, bne_self_eq_false, Bool.false_eq_true, if_false]

end

section
variable {b : Byte} (hb : loadOp t p k (c.G f.rs) 1 = .ok ([b], t1))
include hb

theorem scanbElem_found (hf : ((b == (c.G f.rp).setWidth 8) != f.opt.getLsbD 0) = true) :
    scanbElem p f k t start = .ok (t1.setCtx k (c.setSb bZ true), [], true) := by
  unfold scanbElem
  simp only [hc, loadByte_loads hb, bind, Except.bind, hf, if_true]

theorem scanbElem_passes (hf : ((b == (c.G f.rp).setWidth 8) != f.opt.getLsbD 0) = false) :
    scanbElem p f k t start = .ok (t1.setCtx k (if (c.G f.rc == 1) = true then ((c.bump f.rs 1).bump f.rc (-1)).setSb bZ false
      else (c.bump f.rs 1).bump f.rc (-1)), [], c.G f.rc == 1) := by
  unfold scanbElem
  simp only [hc, loadByte_loads hb, bind, Except.bind, hf, Bool.false_eq_true, if_false]

theorem crcbElem_adds {v : BitVec 32}
    (hv : crcByte polyC (crcFlip (start && f.opt.getLsbD 0) ((c.G f.rd).setWidth 32)) b = v) :
    crcbElem p f k t start = .ok (t1.setCtx k
      (((c.setG f.rd ((crcFlip ((c.G f.rc == 1) && f.opt.getLsbD 1) v).setWidth 64)).bump f.rs 1).bump f.rc (-1)), [],
      c.G f.rc == 1) := by
  unfold crcbElem
  simp only [hc, loadByte_loads hb, bind, Except.bind, hv]

variable {x : Byte} (hx : loadOp t1 p k (c.G f.rp + b.setWidth 64) 1 = .ok ([x], t2))
include hx

theorem translateElem_translates (hs : storeOp t2 p k (c.G f.rd) [x] = .ok (t3, [])) :
    translateElem p f k t start = .ok (t3.setCtx k (((c.bump f.rd 1).bump f.rs 1).bump f.rc (-1)), [], c.G f.rc == 1) := by
  unfold translateElem
  simp only [hc, loadByte_loads hb, loadByte_loads hx, hs, bind, Except.bind]

theorem trtbElem_found (hne : x ≠ 0) :
    trtbElem p f k t start = .ok (t2.setCtx k ((c.setG f.rd (x.setWidth 64)).setSb bZ false), [], true) := by
  unfold trtbElem
  simp only [hc, loadByte_loads hb, loadByte_loads hx, bind, Except.bind, bne_iff_ne.mpr hne, if_true]

theorem trtbElem_passes (he : x = 0) :
    trtbElem p f k t start = .ok (t2.setCtx k (if (c.G f.rc == 1) = true then ((c.bump f.rs 1).bump f.rc (-1)).setSb bZ true
      else (c.bump f.rs 1).bump f.rc (-1)), [], c.G f.rc == 1) := by
  unfold trtbElem
  simp only [hc, loadByte_loads hb, loadByte_loads hx, bind, Except.bind, he, bne_self_eq_false, Bool.false_eq_true, if_false]

end

/-- An element of MULMB that has something to multiply or to carry: the high half of the sum is the next carry (R127, R154). -/
theorem mulmbElem_multiplies {m a : List Byte} {carry : Word} {x : Nat}
    (hcarry : (if (start && f.opt.getLsbD 0) = true then 0 else c.G (f.rp + 1)) = carry)
    (hm : loadOp t p k (c.G f.rs) 8 = .ok (m, t1)) (hne : beNat m ≠ 0 ∨ carry ≠ 0) (ha : loadOp t1 p k (c.G f.rd) 8 = .ok (a, t2))
    (hx : beNat m * (c.G f.rp).toNat + beNat a + carry.toNat = x)
    (hs : storeOp t2 p k (c.G f.rd) (toBE 8 (x % 2 ^ 64)) = .ok (t3, [])) :
    let high : Word := BitVec.ofNat 64 (x / 2 ^ 64)
    let c' := (((c.setG (f.rp + 1) high).bump f.rd (-8)).bump f.rs (-8)).bump f.rc (-1)
    mulmbElem p f k t start = .ok (t3.setCtx k (if (c.G f.rc == 1) = true then c'.setSb bZ (high == 0) else c'), [], c.G f.rc == 1) := by
  have hwork : (beNat m == 0 && carry == 0) = false := by
    rw [Bool.and_eq_false_iff]
    exact hne.imp beq_eq_false_iff_ne.mpr beq_eq_false_iff_ne.mpr
  unfold mulmbElem
  simp only [hc, hcarry, hm, hwork, ha, hx, hs, bind, Except.bind, Bool.false_eq_true, if_false]

end

/-! ## EDITP (R165) -/

theorem resumes_of_rp {c : Ctx} (h : c.sb bRP = false) (op : Byte) : c.resumes op = false := by
  unfold Ctx.resumes
  rw [h]
  rfl

/-- With RP 0 an instruction has its operands from the registers as they are (R150). -/
theorem operands_of_rp {c : Ctx} (h : c.sb bRP = false) (op : Byte) : c.operands op = c := by
  unfold Ctx.operands
  rw [resumes_of_rp h]
  rfl

section
variable {s t t1 t2 t3 : State} {p k : Nat} {f : FE} {c : Ctx} {pat out : List Byte} {ps : List (Word × Phys × Nat)} {d m sel : Nat} {neg : Bool}

theorem execEditp_edits (h : Fetched s p k 4 t) (hc : t.ctx k = c) (hrp : c.sb bRP = false) (hopt : f.opt.getLsbD 3 = false)
    (hdist : distinct [f.rd, f.rs, f.rc, f.rp] = true) (hlo : 1 ≤ (c.G f.rc).toNat) (hhi : (c.G f.rc).toNat ≤ 64)
    (hl : loadOp t p k (c.G f.rs) (c.G f.rc).toNat = .ok (pat, t1)) (hx : translateOp t1 p k .store (c.G f.rd) (c.G f.rc).toNat = .ok (ps, t2))
    (hd : editDigits pat = some d) (hv : daVal (c.DA (f.opt.toNat % 8)) = some (m, neg)) (hsel : m % 10 ^ d = sel)
    (hout : editBytes ((c.G f.rp).setWidth 8) (neg && sel != 0) pat (toDigits d sel).reverse false = out)
    (hs : storeOp t2 p k (c.G f.rd) out = .ok (t3, [])) : execEditp p f s = .next (retire t3 k 4 ((t3.ctx k).setDecZN sel neg)) := by
  obtain ⟨a, ha⟩ := resumeCtx_eq t k
  rw [hc] at ha
  have hrp' : (t.resumeCtx k).sb bRP = false := by
    rw [ha]
    exact hrp
  have hG (r : BitVec 5) : (t.resumeCtx k).G r = c.G r := by
    rw [ha]
    rfl
  have hDA (n : Nat) : (t.resumeCtx k).DA n = c.DA n := by
    rw [ha]
    rfl
  have hform : (f.opt.getLsbD 3 || !distinct [f.rd, f.rs, f.rc, f.rp] || decide ((c.G f.rc).toNat < 1)
      || decide ((c.G f.rc).toNat > 64)) = false := by
    rw [hopt, hdist]
    simp
    omega
  refine instr_completes h rfl ?_
  simp only [resumes_of_rp hrp', operands_of_rp hrp', hG, hDA, hform, Bool.false_and, Bool.false_eq_true, if_false, hl, hx, hd, hv, hsel, hout,
    hs, bind, Except.bind, List.isEmpty_nil, if_true]

end

/-- Settles O18: a count of zero and one element of each instruction by the ends of a block-repeat instruction, then EDITP. -/
theorem blockRepeatElements : Obligations.BlockRepeatElements := by
  unfold Obligations.BlockRepeatElements
  refine ⟨fun s t p k n f h => ⟨fun hp hopt hd => ?_, fun hs hopt hd => ?_, fun hp hopt hd => ?_, fun hr hopt hd => ?_, fun hopt hd => ?_,
    fun hp hopt hd => ?_, fun hodd hopt hd => ?_⟩,
    fun s t t1 t2 t3 p k f pat ps d m neg h hrp hopt hdist hlo hhi hl hx hd hv hs =>
      execEditp_edits h rfl hrp hopt hdist hlo hhi hl hx hd hv rfl rfl hs⟩
  · have hok : (f.rp == 0 && decide (f.opt.toNat < 2) && distinct [f.rd, f.rs, f.rc]) = true := by simp [hp, hopt, hd]
    exact ⟨fun hz => show execMovb p f n s = _ from blockInstr_zero h hok n hz,
      fun hrc t1 t2 b hl hs => show execMovb p f 1 s = _ from blockInstr_directed h hok hrc (movbElem_moves rfl rfl rfl hl hs)⟩
  · have hok : (f.rs == 0 && decide (f.opt.toNat < 4) && distinct [f.rd, f.rc, f.rp]) = true := by simp [hs, hopt, hd]
    exact ⟨fun hz => show execFillb p f n s = _ from blockInstr_zero h hok n hz,
      fun hrc t1 hst => show execFillb p f 1 s = _ from blockInstr_element h hok hrc (fillbElem_fills rfl hopt hst)⟩
  · have hok : (f.rp == 0 && f.opt == 0 && distinct [f.rd, f.rs, f.rc]) = true := by simp [hp, hopt, hd]
    exact ⟨fun hz => show execCmpb p f n s = _ from blockInstr_zero h hok n hz, fun hrc t1 t2 a b ha hb =>
      ⟨fun hne => show execCmpb p f 1 s = _ from blockInstr_element h hok hrc (cmpbElem_differs rfl ha hb hne),
        fun he => show execCmpb p f 1 s = _ from blockInstr_element h hok hrc (cmpbElem_same rfl ha hb he)⟩⟩
  · have hok : (f.rd == 0 && decide (f.opt.toNat < 2) && distinct [f.rs, f.rc, f.rp]) = true := by simp [hr, hopt, hd]
    refine ⟨fun hz => show execScanb p f n s = _ from blockInstr_zero h hok n hz, fun hrc t1 b hb => ?_⟩
    show execScanb p f 1 s = .next (if _ then _ else _)
    split
    next hf => exact blockInstr_element h hok hrc (scanbElem_found rfl hb hf)
    next hf => exact blockInstr_element h hok hrc (scanbElem_passes rfl hb (Bool.eq_false_iff.mpr hf))
  · have hok : (f.opt == 0 && distinct [f.rd, f.rs, f.rc, f.rp]) = true := by simp [hopt, hd]
    refine ⟨fun hz => show execTranslate p f n s = _ from blockInstr_zero h hok n hz,
      fun hz => show execTrtb p f n s = _ from blockInstr_zero h hok n hz, fun hrc t1 t2 b x hb hx =>
      ⟨fun t3 hs => show execTranslate p f 1 s = _ from blockInstr_element h hok hrc (translateElem_translates rfl hb hx hs), ?_⟩⟩
    show execTrtb p f 1 s = .next (if _ then _ else _)
    split
    next hne => exact blockInstr_element h hok hrc (trtbElem_found rfl hb hx hne)
    next he => exact blockInstr_element h hok hrc (trtbElem_passes rfl hb hx (not_not.mp he))
  · have hok : (f.rp == 0 && decide (f.opt.toNat < 4) && distinct [f.rd, f.rs, f.rc]) = true := by simp [hp, hopt, hd]
    exact ⟨fun hz => show execCrcb p f n s = _ from blockInstr_zero h hok n hz,
      fun hrc t1 b hb => show execCrcb p f 1 s = _ from blockInstr_element h hok hrc (crcbElem_adds rfl hb rfl)⟩
  · have hok : (!odd5 f.rp && decide (f.opt.toNat < 2) && distinct [f.rd, f.rs, f.rc, f.rp, f.rp + 1]) = true := by
      rw [hodd, decide_eq_true hopt, hd]
      rfl
    exact ⟨fun hz => show execMulmb p f n s = _ from blockInstr_zero h hok n hz, fun hrc t1 t2 t3 m a hm hne ha hs =>
      show execMulmb p f 1 s = _ from blockInstr_element h hok hrc (mulmbElem_multiplies rfl rfl hm hne ha rfl hs)⟩

end Sys2Proof.Machine

/-! SUPPORT. SIGNAL, SSTART and BARRIER (R134 to R136, R139, R249): what each does between its commit points, the arrival at a barrier, and the
statements about them, O20 and O21. -/

namespace Sys2Proof.Machine

open Sys2Proof

/-! ## SIGNAL (R136) and SSTART (R134) -/

/-- What SIGNAL or SSTART leaves: its status in G[R1] and Z, and the closing commit point that hands `es` over (R135, R322). -/
def resultEnd (u : State) (p k : Nat) (f : FA) (st : Status) (retry : Nat) (es : List Effect) : State :=
  commitNow (retire u k 4 ((u.ctx k).result f.r1 st retry)) p k es false

section
variable {s t o : State} {p k g : Nat} {f : FA} (h : Fetched s p k 4 t) (hc : (t.eng p).commit = none)
  (ht : t.twinned (veInst k) = false) (ho : commitNow t p k [] false = o)
include h hc ht ho

/-- An instruction of the kind of SIGNAL and SSTART: its fields pass, and what it does after the opening commit point gives a status. -/
theorem instr_result {bad : Bool} (hbad : bad = false) {act : State → Except Stop (State × List Effect)} {u : State} {st : Status} {retry : Nat}
    {es : List Effect} {body : State → Nat → Except Stop Done}
    (hb : body t k = if bad = true then .error (.exc 0x104 none) else withEffects t p k 4 false act)
    (ha : act o = .ok (u.setCtx k ((u.ctx k).result f.r1 st retry), es)) :
    instr s p 4 false body = .next (resultEnd u p k f st retry es) :=
  instr_moves h rfl (hb.trans ((if_neg (by simp [hbad])).trans (withEffects_local hc (.inl rfl) ht (by rw [ho, ha]))))

theorem execSstart_ends (hf : f.fn = 0) {b : List Byte} {u : State} {n : Nat} {st : Status} (hn : ((o.ctx k).G f.r2).toNat = n)
    (hl : loadOp o p k ((o.ctx k).G f.r3) 64 = .ok (b, u)) (hst : sstartStatus u (veInst k) n b = st) :
    execSstart p f s = .next (resultEnd u p k f st (retryAfter u poolSub 0) (if st = .done then [.startOp (veInst k) n (veNum k) b] else [])) := by
  refine instr_result h hc ht ho (bad := f.fn != 0) (by simp [hf]) rfl ?_
  simp only [hl, hn, hst, bind, Except.bind]

variable (hf : f.fn = 0) (hg : ((t.ctx k).G f.r2).toNat = g)
include hf hg

section
variable (hk : bits g 63 56 = 1) (hst : bits g 55 48 < 16) {d : List Byte} {u : State}
  (hl : loadOp o p k ((t.ctx k).G f.r3) 20 = .ok (d, u))
include hk hst hl

theorem signalComplete_awaited {r : Request} (hr : u.req? (veInst k + 1) (g % 2 ^ 32) = some r) (htaken : r.stage = .taken)
    (hopen : r.closing = false) : signalInstr p f s = .next (resultEnd u p k f .done 0
      [.completion (veInst k) (g % 2 ^ 32) (bits g 55 48) (bits g 47 32) (fieldBE d 0 4) (slice d 4 16)]) := by
  refine instr_result h hc ht ho ?_ rfl ?_
  · simp [hf, hg, hk]
    omega
  · simp only [hg, hk, hl, hr, htaken, hopen, bind, Except.bind]
    rfl

theorem signalComplete_unknown (hr : u.req? (veInst k + 1) (g % 2 ^ 32) = none) :
    signalInstr p f s = .next (resultEnd (logRefusedAnswer u p k (g % 2 ^ 32)) p k f .stateRefused 0 []) := by
  refine instr_result h hc ht ho ?_ rfl ?_
  · simp [hf, hg, hk]
    omega
  · simp only [hg, hk, hl, hr, bind, Except.bind]

end

section
variable (hk : bits g 63 56 = 2) (hz : bits g 55 6 = 0)
include hk hz

theorem signalVe_unplaced (hp : o.placed (veInst k) (g % 64) = false) :
    signalInstr p f s = .next (resultEnd o p k f .accessDenied 0 []) := by
  refine instr_result h hc ht ho ?_ rfl ?_
  · simp [hf, hg, hk, hz]
  · simp only [hg, hk, hp, Bool.not_false, if_true]

variable (hp : o.placed (veInst k) (g % 64) = true)
include hp

theorem signalVe_held (hs : (kvFind (o.ve (veKey (veInst k) (g % 64))).signals (veNum k)).isSome = true) :
    signalInstr p f s = .next (resultEnd o p k f .busy 100 []) := by
  refine instr_result h hc ht ho ?_ rfl ?_
  · simp [hf, hg, hk, hz]
  · simp only [hg, hk, hp, hs, Bool.not_true, Bool.false_eq_true, if_false, if_true]

theorem signalVe_sent (hs : kvFind (o.ve (veKey (veInst k) (g % 64))).signals (veNum k) = none) :
    signalInstr p f s = .next (resultEnd o p k f .done 0 [.signal (veInst k) (g % 64) (veNum k) ((t.ctx k).G f.r3)]) := by
  refine instr_result h hc ht ho ?_ rfl ?_
  · simp [hf, hg, hk, hz]
  · simp only [hg, hk, hp, hs, Option.isSome_none, Bool.not_true, Bool.false_eq_true, if_false]

end

section
variable (hk : bits g 63 56 = 3) (hz : bits g 55 6 = 0)
include hk hz

theorem restartVe_unplaced (hp : o.placed (veInst k) (g % 64) = false) :
    signalInstr p f s = .next (resultEnd o p k f .accessDenied 0 []) := by
  refine instr_result h hc ht ho ?_ rfl ?_
  · simp [hf, hg, hk, hz]
  · simp only [hg, hk, hp, Bool.not_false, if_true]

theorem restartVe_sent (hp : o.placed (veInst k) (g % 64) = true) :
    signalInstr p f s = .next (resultEnd o p k f .done 0 [.restart (veInst k) (g % 64)]) := by
  refine instr_result h hc ht ho ?_ rfl ?_
  · simp [hf, hg, hk, hz]
  · simp only [hg, hk, hp, Bool.not_true, Bool.false_eq_true, if_false]

end
end

/-- Settles O20, function by function. -/
theorem signalAndStartResults : Obligations.SignalAndStartResults := by
  unfold Obligations.SignalAndStartResults
  intro s t p k f h hf hc ht
  exact ⟨fun hk hst d u hl => ⟨fun ⟨r, hr, htaken, hopen⟩ => signalComplete_awaited h hc ht rfl hf rfl hk hst hl hr htaken hopen,
      fun hr => signalComplete_unknown h hc ht rfl hf rfl hk hst hl hr⟩,
    fun hk hz => ⟨signalVe_unplaced h hc ht rfl hf rfl hk hz, signalVe_held h hc ht rfl hf rfl hk hz, signalVe_sent h hc ht rfl hf rfl hk hz⟩,
    fun hk hz => ⟨restartVe_unplaced h hc ht rfl hf rfl hk hz, restartVe_sent h hc ht rfl hf rfl hk hz⟩,
    fun b u hl => execSstart_ends h hc ht rfl hf rfl hl rfl⟩

/-! ## BARRIER (R139) -/

/-- The arrival of virtual engine `k` at a barrier under mask `m`, at the point of its execution where it now is. -/
def arrivalAt (t : State) (k : Nat) (m : Word) : Arrival := { ve := veNum k, mask := m, csn := (pointOf t k).1, icount := (pointOf t k).2 }

/-- An arrival recorded, in the place of an older one of the same virtual engine. -/
def Inst.arrive (y : Inst) (a : Arrival) : Inst := { y with arrivals := y.arrivals.filter (fun b => b.ve != a.ve) ++ [a] }

/-- Virtual engine `k` waits at a BARRIER under mask `m` with its arrival recorded. -/
def waitAt (t : State) (k : Nat) (m : Word) : State :=
  (clearRp (t.setInst (veInst k) ((t.inst (veInst k)).arrive (arrivalAt t k m))) k).updVe k fun e => { e with barrier := some m }

theorem clearRp_keeps (s : State) (k : Nat) : (clearRp s k).insts = s.insts ∧ (clearRp s k).twin = s.twin := by
  unfold clearRp
  split <;> exact ⟨rfl, rfl⟩

/-- An arrival does not decide whether the arriving engine belongs to a twin. -/
theorem waitAt_twinned (t : State) (k : Nat) (m : Word) : (waitAt t k m).twinned (veInst k) = t.twinned (veInst k) := by
  have ⟨hinsts, htwin⟩ := clearRp_keeps (t.setInst (veInst k) ((t.inst (veInst k)).arrive (arrivalAt t k m))) k
  have hinst : (waitAt t k m).inst (veInst k) = (t.inst (veInst k)).arrive (arrivalAt t k m) :=
    (congrArg (fun l => kvGet ({} : Inst) l (veInst k)) hinsts).trans (State.inst_setInst_same t _ _)
  unfold State.twinned
  rw [hinst, show (waitAt t k m).twin = t.twin from htwin]
  rfl

/-- A barrier that no mirror group closes is complete as soon as it is full. -/
theorem completeBarrier_local {s : State} {i : Nat} {m : Word} {tw : Bool} (h : (tw && s.twinned i) = false) :
    completeBarrier s i m tw = if barrierFull s i m = true then releaseBarrier s i m else s := by
  unfold completeBarrier
  rw [h]
  cases barrierFull s i m <;> rfl

theorem mem_maskVes {m : Word} {v : Nat} (h : v ∈ maskVes m) : m.getLsbD v = true := (List.mem_filter.mp h).2

theorem execBarrier_arrives {s t : State} {p k : Nat} {f : FA} {m : Word} (h : Fetched s p k 4 t) (h1 : f.r1 = 0) (h3 : f.r3 = 0)
    (hf : f.fn = 0 ∨ f.fn = 256) (hG : (t.ve k).cur.G f.r2 = m) (hm : m.getLsbD (veNum k) = true)
    (hplaced : (maskVes m).all (t.placed (veInst k)) = true) (hrel : (t.inst (veInst k)).releases = [])
    (hnew : ∀ a ∈ (t.inst (veInst k)).arrivals, a.ve ≠ veNum k)
    (hsame : ∀ a ∈ (t.inst (veInst k)).arrivals, m.getLsbD a.ve = true → a.mask = m) :
    execBarrier p f s = .next (completeBarrier (waitAt t k m) (veInst k) m (f.fn.getLsbD 8)) := by
  have hfn : f.fn.toNat % 256 = 0 := by rcases hf with hf | hf <;> rw [hf] <;> rfl
  have hothers : ((maskVes m).any fun w => (t.inst (veInst k)).arrivals.any fun a => a.ve == w && a.mask != m) = false := by
    simp only [List.any_eq_false, Bool.not_eq_true, Bool.and_eq_false_imp, beq_iff_eq, bne_eq_false_iff_eq]
    rintro w hw a ha rfl
    exact hsame a ha (mem_maskVes hw)
  have hme (c n : Nat) : ((t.inst (veInst k)).arrivals.any fun a => a.ve == veNum k && a.mask == m && a.csn == c && a.icount == n) = false := by
    simp only [List.any_eq_false]
    intro a ha
    simp [hnew a ha]
  have hreleased (q : Arrival → Bool) : (t.inst (veInst k)).releases.any q = false := by rw [hrel]; rfl
  refine instr_moves h rfl ?_
  simp only [hG, h1, h3, hfn, hm, hplaced, hreleased, hothers, hme, bne_self_eq_false, Bool.not_true, Bool.or_self, Bool.false_eq_true,
    if_false]
  rfl

/-- Settles O21: the arrival is recorded, and a full barrier completes. -/
theorem barrierWaitsForAll : Obligations.BarrierWaitsForAll := by
  unfold Obligations.BarrierWaitsForAll
  intro s t p k f h h1 h3 hf x i m y others hm hplaced hrel hnew hsame
  refine (execBarrier_arrives h h1 h3 (hf.imp_right And.left) rfl hm hplaced hrel hnew hsame).trans (congrArg _ (completeBarrier_local ?_))
  rw [waitAt_twinned]
  rcases hf with hf | ⟨-, ht⟩
  · rw [hf]
    rfl
  · rw [ht, Bool.and_false]

end Sys2Proof.Machine

/-! SUPPORT. Interruptions (R144, R145, R148, R323): what the lines that they write leave as it was, and what the engine then sees there; the
virtual engine in its handler, and the statement about them, O29. -/

namespace Sys2Proof.Machine

open Sys2Proof

/-! ## Commit points under way, which no line that is stored ends -/

/-- The commit points taken and not complete, engine by engine. -/
def State.commits (s : State) (p : Nat) : Option CommitBuf := (s.eng p).commit

/-- `t` is `s` but for lines and caches, with the same commit points under way. -/
def MovesLines (s t : State) : Prop := Touches s t ∧ t.commits = s.commits

theorem MovesLines.refl (s : State) : MovesLines s s := ⟨Touches.refl s, rfl⟩

theorem MovesLines.trans {s t u : State} (h : MovesLines s t) (g : MovesLines t u) : MovesLines s u := ⟨h.1.trans g.1, g.2.trans h.2⟩

section
variable {s u : State} {p l : Nat}

theorem State.setEng_commits {e : Engine} (h : e.commit = s.commits p) : (s.setEng p e).commits = s.commits := by
  funext q
  unfold State.commits
  rw [State.eng_setEng]
  split
  next hq => exact hq ▸ h
  · rfl

theorem State.updEng_commits (s : State) (p : Nat) {f : Engine → Engine} (h : ∀ e, (f e).commit = e.commit) :
    (s.updEng p f).commits = s.commits :=
  State.setEng_commits (h _)

theorem State.ite_commits {s t u : State} {c : Prop} [Decidable c] (ht : t.commits = s.commits) (hu : u.commits = s.commits) :
    (if c then t else u).commits = s.commits := by
  split
  · exact ht
  · exact hu

theorem dropL1_commits (s : State) (l : Nat) (q : Nat → Bool) (b : Bool) : (dropL1 s l q b).commits = s.commits := by
  funext r
  unfold State.commits State.eng kvGet dropL1
  dsimp only
  rw [kvFind_kvMap]
  cases kvFind s.engines r with
  | none => rfl
  | some e =>
    dsimp only [Option.map_some, Option.getD_some]
    split <;> rfl

theorem writeBack_commits (s : State) (l : Nat) : (writeBack s l).commits = s.commits := by
  unfold writeBack
  split <;> rfl

theorem dropDomes_commits (s : State) (l : Nat) (t : Nat → Bool) : (dropDomes s l t).commits = s.commits :=
  dropL1_commits s l (fun p => t (towerOf p)) true

theorem makeRoom_commits {t w : Nat} (h : makeRoom s t l = .inr (w, u)) : u.commits = s.commits := by
  unfold makeRoom at h
  dsimp only at h
  split at h
  · cases h
    rfl
  · split at h
    · cases h
      exact (dropL1_commits (writeBack s.fresh.2 _) _ (fun p => towerOf p == t) true).trans (writeBack_commits s.fresh.2 _)
    · split at h
      · split at h <;> cases h
      · cases h

theorem domeHave_commits {t : Nat} {b : Bool} (h : domeHave s t l b = .inr u) : u.commits = s.commits := by
  have hown (t : Nat → Bool) : (if b = true then dropDomes (writeBack s l) l t else s).commits = s.commits :=
    State.ite_commits ((dropDomes_commits _ _ _).trans (writeBack_commits s l)) rfl
  unfold domeHave at h
  dsimp only at h
  split at h
  · split at h <;> cases h <;> exact hown _
  · split at h
    · cases h
    next v hroom =>
      cases h
      have hback : (if b = true then v else writeBack v l).commits = v.commits := State.ite_commits rfl (writeBack_commits v l)
      refine Eq.trans ?_ (hback.trans ((makeRoom_commits hroom).trans (hown _)))
      exact State.ite_commits rfl rfl

theorem l1Room_commits (h : l1Room s p l = some u) : u.commits = s.commits := by
  unfold l1Room at h
  dsimp only at h
  split at h
  · cases h
    rfl
  · split at h <;> cases h
    exact State.setEng_commits (s := s.fresh.2) rfl

theorem l1Put_commits (s : State) (p : Nat) (x : L1Line) : (l1Put s p x).commits = s.commits := State.updEng_commits s p fun _ => rfl

/-- A line made D is put into the L1D at the end. -/
theorem makeDirty_puts {d : List Byte} (h : makeDirty s p l d = .ok u) :
    ∃ v, MovesLines s v ∧ u = l1Put v p { line := l, st := .D, data := d } := by
  unfold makeDirty at h
  dsimp only at h
  split at h
  · cases h
  next v hd =>
    have hdome : MovesLines s v :=
      ⟨(dropL1_touches s l _ true).trans (domeHave_touches hd), (domeHave_commits hd).trans (dropL1_commits s l _ true)⟩
    split at h
    · cases h
      exact ⟨v, hdome, rfl⟩
    · split at h
      · cases h
      next w hroom =>
        cases h
        exact ⟨w, hdome.trans ⟨l1Room_touches hroom, l1Room_commits hroom⟩, rfl⟩

theorem makeDirty_commits {d : List Byte} (h : makeDirty s p l d = .ok u) : u.commits = s.commits := by
  obtain ⟨v, hv, rfl⟩ := makeDirty_puts h
  exact (l1Put_commits v p _).trans hv.2

theorem sendLine_commits (s : State) (p l : Nat) (d : List Byte) (b : Bool) : (sendLine s p l d b).commits = s.commits := by
  refine (State.updEng_commits _ p ?_).trans (writeBack_commits s l)
  exact fun _ => rfl

theorem drainStream_commits (s : State) (p : Nat) : (drainStream s p).commits = s.commits := by
  refine foldl_keeps State.commits (fun s b => State.ite_commits ?_ rfl) _ s
  refine (State.updEng_commits _ p ?_).trans (sendLine_commits s p _ _ _)
  exact fun _ => rfl

theorem leaveStream_commits (h : leaveStream s p = .ok u) : u.commits = s.commits := by
  have hclear : ((drainStream s p).updEng p fun e => { e with stream := {} }).commits = s.commits := by
    refine (State.updEng_commits _ p ?_).trans (drainStream_commits s p)
    exact fun _ => rfl
  unfold leaveStream at h
  dsimp only at h
  split at h
  · cases h
    exact hclear
  · split at h
    · cases h
    · split at h
      · cases h
        exact (sendLine_commits _ _ _ _ _).trans hclear
      · exact (makeDirty_commits h).trans hclear

theorem engineZone_commits (s : State) (p i r : Nat) : (engineZone s p i r).commits = s.commits := by
  unfold engineZone
  split
  · exact State.updEng_commits s p fun _ => rfl
  · rfl

end

/-! ## The lines that an interruption writes (R144, R148; assumption log 94) -/

/-- Where a real address lies rests on the granules of the instances and on the image. -/
theorem absOf_of_tables {s t : State} (hinsts : t.insts = s.insts) (himg : t.img = s.img) (i r : Nat) : absOf t i r = absOf s i r := by
  unfold absOf State.inst State.poolBase State.journalBytes
  rw [hinsts, himg]

theorem Touches.img {s t : State} (h : Touches s t) : t.img = s.img := by
  obtain ⟨_, _, _, _, _, rfl⟩ := h
  rfl

section
variable {s u : State} {p i r a : Nat} {d : List Byte}

/-- The state after engine `p` has made the line of `a` D with the bytes `d`, as the last in its L1D, its stream beginning anew after it. -/
def putLast (s : State) (p a : Nat) (d : List Byte) : State :=
  (l1Put s p { line := a / 64, st := .D, data := d }).updEng p fun e => { e with stream := e.stream.after a 64 }

/-- A line that an interruption stores is the last that the engine puts into its L1D. -/
theorem storeReal_puts (h : storeReal s p i r d = .ok u) (ha : absOf s i r = some a) :
    ∃ v, MovesLines s v ∧ u = putLast v p a (padTo 64 d) := by
  have hzone : MovesLines s (engineZone s p i r) := ⟨engineZone_touches s p i r, engineZone_commits s p i r⟩
  have hput {t : State} (ht : MovesLines s t) {g : State → State} (h : (makeDirty t p (a / 64) (padTo 64 d) >>= fun w => .ok (g w)) = .ok u) :
      ∃ v, MovesLines s v ∧ u = g (l1Put v p { line := a / 64, st := .D, data := padTo 64 d }) := by
    obtain ⟨w, hw, h⟩ := ok_of_bind h
    cases h
    obtain ⟨v, hv, rfl⟩ := makeDirty_puts hw
    exact ⟨v, ht.trans hv, rfl⟩
  unfold storeReal at h
  simp only [ha] at h
  split at h
  · cases h
  · split at h
    · obtain ⟨t, ht, h⟩ := ok_of_bind h
      exact hput (hzone.trans ⟨leaveStream_touches _ _ _ ht, leaveStream_commits ht⟩) h
    · exact hput hzone h

theorem storeReal_moves (h : storeReal s p i r d = .ok u) : MovesLines s u := by
  cases ha : absOf s i r with
  | none =>
    unfold storeReal at h
    rw [ha] at h
    cases h
    exact MovesLines.refl s
  | some a =>
    obtain ⟨v, hv, rfl⟩ := storeReal_puts h ha
    refine hv.trans ⟨(updEng_touches v p _).trans (updEng_touches _ p _), (State.updEng_commits _ p ?_).trans (l1Put_commits v p _)⟩
    exact fun _ => rfl

theorem storeReals_move {l : List (Nat × List Byte)} (h : l.foldlM (fun (t : State) x => storeReal t p i x.1 x.2) s = .ok u) :
    MovesLines s u := by
  induction l generalizing s with
  | nil =>
    cases h
    exact MovesLines.refl _
  | cons x l ih =>
    rw [List.foldlM_cons] at h
    obtain ⟨t, ht, h⟩ := ok_of_bind h
    exact (storeReal_moves ht).trans (ih h)

theorem putLast_eng (s : State) (p a : Nat) (d : List Byte) : ((putLast s p a d).eng p).stream.bufs = []
    ∧ ((putLast s p a d).eng p).l1d = (s.eng p).l1d.filter (·.line != a / 64) ++ [{ line := a / 64, st := .D, data := d }] := by
  unfold putLast l1Put
  rw [State.eng_updEng_same, State.eng_updEng_same]
  exact ⟨rfl, rfl⟩

/-- The engine sees the line that it has put last into its L1D. -/
theorem ownView_putLast (s : State) (p a : Nat) (d : List Byte) : ownView (putLast s p a d) p (a / 64) = (padTo 64 d, false) := by
  obtain ⟨hbufs, hl1d⟩ := putLast_eng s p a d
  have hold : ((s.eng p).l1d.filter (·.line != a / 64)).find? (fun x => x.line == a / 64 && x.st == .D) = none := by
    rw [List.find?_eq_none]
    intro x hx
    simp [bne_iff_ne.mp (List.mem_filter.mp hx).2]
  unfold ownView
  simp only [hbufs, hl1d, List.find?_append, hold, List.find?_nil, Option.none_or, List.find?_cons, beq_self_eq_true, Bool.and_self]

end

theorem getD_padTo {n j : Nat} (l : List Byte) (h : j < n) : (padTo n l).getD j 0 = l.getD j 0 := by
  unfold padTo zeros
  rw [List.getD_eq_getElem?_getD, List.getD_eq_getElem?_getD, List.getElem?_take_of_lt h]
  by_cases hl : j < l.length
  · rw [List.getElem?_append_left hl]
  · rw [List.getElem?_append_right (by omega), List.getElem?_replicate, if_pos (by omega), List.getElem?_eq_none (by omega)]
    rfl

/-- What stands at byte `j` of the line that the engine has put last. -/
theorem byteSeen_putLast (s : State) (p : Nat) {a j : Nat} (ha : a % 64 = 0) (hj : j < 64) (d : List Byte) :
    byteSeen (putLast s p a d) p (a + j) = d.getD j 0 := by
  unfold byteSeen
  rw [show (a + j) / 64 = a / 64 by omega, show (a + j) % 64 = j by omega, ownView_putLast]
  exact getD_padTo d hj

/-! ## The commit point before it (R145, R323) -/

theorem cleanEngine_touches (s : State) (p : Nat) : Touches s (cleanEngine s p) := by
  unfold cleanEngine
  exact (Touches.foldl writeBack_touches _ s).trans ((updDome_touches _ _ _).trans (updEng_touches _ _ _))

theorem takeCommit_tables (s : State) (p k : Nat) (es : List Effect) (o w l : Bool) :
    (takeCommit s p k es o w l).insts = s.insts ∧ (takeCommit s p k es o w l).img = s.img := by
  unfold takeCommit mapP
  simp only [State.updEng_insts, State.setVe_insts, State.updDome_insts, State.updEng_img, State.setVe_img, State.updDome_img]
  exact ⟨(cleanEngine_touches s p).insts, (cleanEngine_touches s p).img⟩

theorem takeCommit_ctx (s : State) (p k : Nat) (es : List Effect) (o w l : Bool) : (takeCommit s p k es o w l).ctx k = s.ctx k := by
  unfold State.ctx
  rw [takeCommit_ve]

theorem takeCommit_commits (s : State) (p k : Nat) (es : List Effect) (o w l : Bool) :
    ∃ b, (takeCommit s p k es o w l).commits p = some b ∧ b.ctx = s.ctx k ∧ b.wait = w := by
  have hv : (mapP (cleanEngine s p) p fun x => { x with taken := true }).ve k = s.ve k := State.ve_congr (cleanEngine_ves s p) k
  unfold takeCommit State.commits
  dsimp only
  rw [State.eng_updEng_same]
  exact ⟨_, rfl, congrArg VE.cur hv, rfl⟩

/-! ## The handler (R145) -/

theorem K_setK_same (c : Ctx) {n : Nat} (v : Word) (h : n < 12) : (c.setK n v).K n = v := by
  simp [Ctx.K, Ctx.setK, Vector.getD, h]

theorem K_setK_other (c : Ctx) {m n : Nat} (v : Word) (h : n ≠ m) : (c.setK m v).K n = c.K n := by
  simp [Ctx.K, Ctx.setK, Vector.getD, h.symm]

/-- The control registers that an interruption finds over `c`: K6 and K7 of a program interruption. -/
def intrCtx (c : Ctx) : Intr → Ctx
  | .prog x => match x.tea with
    | some a => (c.setK 6 (BitVec.ofNat 64 x.code)).setK 7 a
    | none => c.setK 6 (BitVec.ofNat 64 x.code)
  | _ => c

theorem intrCtx_K (c : Ctx) (t : Intr) {n : Nat} (h6 : n ≠ 6) (h7 : n ≠ 7) : (intrCtx c t).K n = c.K n := by
  unfold intrCtx
  split
  · split
    · rw [K_setK_other _ _ h7, K_setK_other _ _ h6]
    · rw [K_setK_other _ _ h6]
  · rfl

theorem intrCtx_K6 (c : Ctx) (x : ProgExc) : (intrCtx c (.prog x)).K 6 = BitVec.ofNat 64 x.code := by
  unfold intrCtx
  dsimp only
  split
  · rw [K_setK_other _ _ (by decide), K_setK_same _ _ (by decide)]
  · rw [K_setK_same _ _ (by decide)]

theorem enterHandler_cur (x : VE) (t : Intr) (e : List Byte) :
    (enterHandler x t e).cur = { intrCtx x.cur t with ia := BitVec.ofNat 64 (fieldBE e 0 8), psw := entryPsw e } := by
  cases t <;> rfl

theorem intrCtx_keeps (c : Ctx) (t : Intr) :
    (intrCtx c t).g = c.g ∧ (intrCtx c t).f = c.f ∧ (intrCtx c t).da = c.da ∧ (intrCtx c t).fpcr = c.fpcr := by
  unfold intrCtx
  split
  · split <;> exact ⟨rfl, rfl, rfl, rfl⟩
  · exact ⟨rfl, rfl, rfl, rfl⟩

/-! ## Taking an interruption (R145, R148) -/

theorem notPresented_stops (s : State) (p k cls : Nat) : ((notPresented s p k cls).ve k).stopped = true := by
  unfold notPresented
  rw [logEvent_ve, State.ve_updVe_same]

/-- The interruption area of virtual engine `k` can be reached: it lies in main store, with the area of a machine check, and the entry of the class of
`t` stands at `a`, in a line that no other engine holds. -/
structure EntryAt (q : State) (p k a : Nat) (t : Intr) : Prop where
  noBarrier : (q.ve k).barrier = none
  area : inMain q (veInst k) ((q.ctx k).K 2).toNat 4096 = true
  mcArea : ∀ m, t = .machine m ∨ t = .deferred m → inMain q (veInst k) ((q.ctx k).K 8).toNat 256 = true
  entry : absOf q (veInst k) (((q.ctx k).K 2).toNat + 0x10 * t.cls) = some a
  owners : otherOwners q p (a / 64) = []

/-- Interruption `t` with the entry `e` once its lines are stored or have to wait, the state before it being `q`. -/
def handled (q : State) (k : Nat) (t : Intr) (e : List Byte) : Except Stop State → State
  | .error (.wait u) => withSteals q u
  | .error _ => q
  | .ok u => u.setVe k (enterHandler (u.ve k) t e)

section
variable {q w : State} {p k a : Nat} {t : Intr} (h : EntryAt q p k a t) {e : List Byte} (he : slice (ownView q p (a / 64)).1 (a % 64) 16 = e)
include h he

theorem takeIntr_eq : takeIntr q p k t = (
    if ((ownView q p (a / 64)).2 || !entryWordOk e) = true then notPresented (takeCommit q p k [] false false false) p k t.cls
    else handled q k t e ((intrLines q k t).foldlM (fun s x => storeReal s p (veInst k) x.1 x.2) (takeCommit q p k [] false false false))) := by
  obtain ⟨hbar, hmain, hmc, hentry, howners⟩ := h
  unfold takeIntr
  extract_lets i c iao waiting s1 s2 mcOk
  have hmcOk : mcOk = true := by
    unfold mcOk
    split
    · exact hmc _ (.inl rfl)
    · exact hmc _ (.inr rfl)
    · rfl
  have hs2 : s2 = s1 := if_neg (by simp [waiting, hbar])
  have harea : (!inMain q i iao 4096 || !mcOk) = false := by
    rw [hmcOk, hmain]
    rfl
  simp only [harea, show absOf q i (iao + 0x10 * t.cls) = some a from hentry, howners, he, hs2, Bool.false_eq_true, if_false, bne_self_eq_false]
  rfl

theorem takeIntr_refused (hbad : (ownView q p (a / 64)).2 = true ∨ entryWordOk e = false) :
    takeIntr q p k t = notPresented (takeCommit q p k [] false false false) p k t.cls :=
  (takeIntr_eq h he).trans (if_pos (by rcases hbad with hbad | hbad <;> simp [hbad]))

variable (hclean : (ownView q p (a / 64)).2 = false) (hok : entryWordOk e = true)
  (hw : (intrLines q k t).foldlM (fun s x => storeReal s p (veInst k) x.1 x.2) (takeCommit q p k [] false false false) = .ok w)
include hclean hok hw

theorem takeIntr_enters : takeIntr q p k t = w.setVe k (enterHandler (w.ve k) t e) := by
  rw [takeIntr_eq h he, hclean, hok, hw]
  rfl

end

/-! ## What the virtual engine finds in its handler -/

/-- The last line that an interruption writes is its frame (R144). -/
theorem intrLines_frame (q : State) (k : Nat) (t : Intr) : ∃ l, intrLines q k t
    = l ++ [(((q.ctx k).K 2).toNat + 0x80 + 0x40 * t.cls, eswBytes ((q.ctx k).setSb bWT false) ++ frameParams q k t)] := ⟨_, rfl⟩

section
variable {q w : State} {p k b : Nat} {t : Intr}
  (hw : (intrLines q k t).foldlM (fun s x => storeReal s p (veInst k) x.1 x.2) (takeCommit q p k [] false false false) = .ok w)
include hw

theorem intrLines_stored_ctx : w.ctx k = q.ctx k := by
  rw [(storeReals_move hw).1.ctx, takeCommit_ctx]

theorem intrLines_stored_commit : ∃ c, w.commits p = some c ∧ c.ctx = q.ctx k ∧ c.wait = false := by
  rw [(storeReals_move hw).2]
  exact takeCommit_commits q p k [] false false false

theorem intrLines_stored_frame (hb : absOf q (veInst k) (((q.ctx k).K 2).toNat + 0x80 + 0x40 * t.cls) = some b) (hal : b % 64 = 0) {j : Nat}
    (hj : j < 64) : byteSeen w p (b + j) = (eswBytes ((q.ctx k).setSb bWT false) ++ frameParams q k t).getD j 0 := by
  obtain ⟨l, hl⟩ := intrLines_frame q k t
  rw [hl, List.foldlM_append] at hw
  obtain ⟨v, hv, hw⟩ := ok_of_bind hw
  rw [List.foldlM_cons] at hw
  obtain ⟨u, hu, hw⟩ := ok_of_bind hw
  cases hw
  have htouch := (storeReals_move hv).1
  obtain ⟨hinsts, himg⟩ := takeCommit_tables q p k [] false false false
  obtain ⟨x, -, rfl⟩ := storeReal_puts hu ((absOf_of_tables (htouch.insts.trans hinsts) (htouch.img.trans himg) _ _).trans hb)
  rw [byteSeen_putLast x p hal hj, getD_padTo _ hj]

end

/-- The registers of a virtual engine in its handler: those it had, but for IA, the state word, and K6 and K7 of a program interruption. -/
theorem takeIntr_ctx {q w : State} {p k : Nat} {t : Intr} {e : List Byte} (henters : takeIntr q p k t = w.setVe k (enterHandler (w.ve k) t e))
    (hctx : w.ctx k = q.ctx k) :
    (takeIntr q p k t).ctx k = { intrCtx (q.ctx k) t with ia := BitVec.ofNat 64 (fieldBE e 0 8), psw := entryPsw e } := by
  rw [henters, ← hctx]
  exact (congrArg VE.cur (State.ve_setVe_same w k _)).trans (enterHandler_cur _ t _)

theorem execInterruptionTake_takes {s : State} {p k : Nat} {mt : Option MicroTrap} {t : Intr} (hk : atPoint s.quiet p = some k)
    (ht : nextIntr s.quiet k = some t)
    (h : mt = none ∨ (∃ e, t = .prog e) ∨ (∃ m, t = .machine m) ∨ ∃ m, mt = some m ∧ microRow m.op = false) :
    execInterruptionTake p mt s = .next (takeIntr s.quiet p k t) := by
  unfold execInterruptionTake
  simp only [hk, ht]
  rcases h with rfl | ⟨e, rfl⟩ | ⟨m, rfl⟩ | ⟨m, rfl, hm⟩
  · cases t <;> rfl
  · rfl
  · rfl
  · cases t <;> simp only [hm, Bool.false_eq_true, if_false]

/-- A routine of R149 that is interrupted first saves what it has come to (R151, R187). -/
theorem execInterruptionTake_traps {s : State} {p k : Nat} {m : MicroTrap} {t : Intr} (hk : atPoint s.quiet p = some k)
    (ht : nextIntr s.quiet k = some t) (hprog : ∀ e, t ≠ .prog e) (hmach : ∀ m, t ≠ .machine m) (hm : microRow m.op = true) :
    execInterruptionTake p (some m) s = .next (takeIntr (setRp (microTrap s.quiet p k m) k) p k t) := by
  unfold execInterruptionTake
  simp only [hk, ht]
  cases t with
  | prog e => exact absurd rfl (hprog e)
  | machine m => exact absurd rfl (hmach m)
  | restart | io | clock | timer | signal | message | accel | deferred => simp only [hm, if_true]

/-- Settles O29: the interruption that is taken, one that is not presented, and the virtual engine in the handler of one that is. -/
theorem interruptionsEnterTheirHandler : Obligations.InterruptionsEnterTheirHandler := by
  unfold Obligations.InterruptionsEnterTheirHandler
  refine ⟨fun s p k mt t hk ht => ⟨execInterruptionTake_takes hk ht, ?_⟩, fun q p k a b t hbar hmain hmc ha hb hal howners => ?_⟩
  · rintro m rfl hprog hmach hm
    exact execInterruptionTake_traps hk ht hprog hmach hm
  have hentry : EntryAt q p k a t := ⟨hbar, hmain, hmc, ha, howners⟩
  refine ⟨fun hbad => ?_, fun w hclean hok hw => ?_⟩
  · have hrefused := takeIntr_refused hentry rfl hbad
    exact ⟨hrefused, by rw [hrefused]; exact notPresented_stops _ p k t.cls⟩
  · have henters := takeIntr_enters hentry rfl hclean hok hw
    obtain ⟨hg, hf, hda, hfpcr⟩ := intrCtx_keeps (q.ctx k) t
    obtain ⟨c, hcommit, hc⟩ := intrLines_stored_commit hw
    intro u
    rw [show u.ctx k = _ from takeIntr_ctx henters (intrLines_stored_ctx hw)]
    refine ⟨rfl, rfl, hg, hf, hda, hfpcr, fun n h6 h7 => intrCtx_K (q.ctx k) t h6 h7, ?_, ?_, fun j hj => ?_⟩
    · rintro x rfl
      exact ⟨intrCtx_K6 (q.ctx k) x, congrArg VE.prog ((congrArg (State.ve · k) henters).trans (State.ve_setVe_same w k _))⟩
    · exact ⟨c, (congrArg (State.commits · p) henters).trans hcommit, hc⟩
    · exact (congrArg (byteSeen · p (b + j)) henters).trans (intrLines_stored_frame hw hb hal hj)

end Sys2Proof.Machine

/-! SUPPORT. The messaging requests (R140, R230, R238 to R241): what each comes to once its turn has come, and the statement about them, O36. -/

namespace Sys2Proof.Machine

open Sys2Proof

section
variable {s : State} {n : Nat} {q : BitVec 32} {r : Request}

/-! ## MSG (R140) -/

section
variable (h : takeReq s.quiet n q.toNat 1 = some r)
include h

theorem execMsg_unplaced (hv : (s.ve (veKey (n - 1) (reqTarget r.entry))).placed = false) :
    execMsg n q s = .next (answer s.quiet r .accessDenied 0) := by
  unfold execMsg
  simp only [h, State.quiet_ve, hv, Bool.not_false, if_true]

variable (hv : (s.ve (veKey (n - 1) (reqTarget r.entry))).placed = true)
include hv

theorem execMsg_busy (hu : takeUnit s.quiet (n - 1) poolDisp (s.ve (veKey (n - 1) (reqTarget r.entry))).tower = .no) :
    execMsg n q s = .next (complete s.quiet n r.seq 1 0 0
      (toBE 8 (retryAfter s.quiet poolDisp (s.ve (veKey (n - 1) (reqTarget r.entry))).tower) ++ zeros 8)) := by
  unfold execMsg
  simp only [h, State.quiet_ve, hv, Bool.not_true, Bool.false_eq_true, if_false, hu]
  rfl

theorem execMsg_queued (hu : takeUnit s.quiet (n - 1) poolDisp (s.ve (veKey (n - 1) (reqTarget r.entry))).tower ≠ .no) :
    execMsg n q s = .next (s.quiet.putReq { r with
      stage := .queued, tb := s.clk.tb
      shared := decide (takeUnit s.quiet (n - 1) poolDisp (s.ve (veKey (n - 1) (reqTarget r.entry))).tower = .shared) }) := by
  unfold execMsg
  simp only [h, State.quiet_ve, hv, Bool.not_true, Bool.false_eq_true, if_false]
  generalize takeUnit s.quiet (n - 1) poolDisp (s.ve (veKey (n - 1) (reqTarget r.entry))).tower = g at hu
  cases g with
  | no => exact absurd rfl hu
  | own | shared => rfl

end

/-! ## RESTART (R140) -/

section
variable (h : takeReq s.quiet n q.toNat 4 = some r)
include h

theorem execRestart_unplaced (hv : (s.ve (veKey (n - 1) (reqTarget r.entry))).placed = false) :
    execRestart n q s = .next (answer s.quiet r .accessDenied 0) := by
  unfold execRestart
  simp only [h, State.quiet_ve, hv, Bool.not_false, if_true]

/-- The request pends with the restart of its target. -/
theorem execRestart_pends (hv : (s.ve (veKey (n - 1) (reqTarget r.entry))).placed = true) : ∃ u, execRestart n q s = .next u
    ∧ (u.ve (veKey (n - 1) (reqTarget r.entry))).restart = true ∧ ∀ x, u.req? n r.seq = some x → x.stage = .pending := by
  refine ⟨(s.quiet.setStage n r.seq .pending).updVe (veKey (n - 1) (reqTarget r.entry)) fun x => { x with restart := true }, ?_, ?_,
    fun x hx => req?_setStage_stage (s := s.quiet) hx⟩
  · unfold execRestart
    simp only [h, State.quiet_ve, hv, Bool.not_true, Bool.false_eq_true, if_false]
  · rw [State.ve_updVe_same]

end

/-! ## STORE_WRITE (R140, R230, R241) -/

section
variable (h : takeReq s.quiet n q.toNat 2 = some r)
include h

theorem execStoreWrite_unbacked (hb : rangeBacked s.quiet (n - 1) (fieldBE r.entry 40 8) (reqSrcLen r.entry) = false) :
    execStoreWrite n q s = .next (answer s.quiet r .accessDenied 0) := by
  unfold execStoreWrite storeAddr
  simp only [h, hb, Bool.not_false, if_true]

variable (hb : rangeBacked s.quiet (n - 1) (fieldBE r.entry 40 8) (reqSrcLen r.entry) = true) (hbme : (s.fn n).bme = true)
include hb hbme

theorem execStoreWrite_reads (hfit : stagedBytes r.entry = 0 ∨ stagingFits s.quiet r.entry = true) :
    execStoreWrite n q s
      = .next ((s.quiet.setStage n r.seq .running).emit (.hostRead n (reqSrc r.entry) (reqSrcLen r.entry))) := by
  have hroom : (stagedBytes r.entry != 0 && !stagingFits s.quiet r.entry) = false := by
    rcases hfit with hfit | hfit <;> simp [hfit]
  unfold execStoreWrite storeAddr
  simp only [h, hb, State.quiet_fn, hbme, hroom, Bool.not_true, Bool.false_eq_true, if_false]

theorem execStoreWrite_waits (hlen : stagedBytes r.entry ≠ 0) (hfit : stagingFits s.quiet r.entry = false) :
    execStoreWrite n q s = .next (s.quiet.setStage n r.seq .staging) := by
  have hfull : (stagedBytes r.entry != 0 && !stagingFits s.quiet r.entry) = true := by simp [hlen, hfit]
  unfold execStoreWrite storeAddr
  simp only [h, hb, State.quiet_fn, hbme, hfull, Bool.not_true, Bool.false_eq_true, if_false, if_true]

end

/-! ## STORE_READ (R140, R230) -/

section
variable (h : takeReq s.quiet n q.toNat 3 = some r)
include h

theorem execStoreRead_unbacked (hb : rangeBacked s.quiet (n - 1) (fieldBE r.entry 40 8) (reqDstLen r.entry) = false) :
    execStoreRead n q s = .next (answer s.quiet r .accessDenied 0) := by
  unfold execStoreRead storeAddr
  simp only [h, hb, Bool.not_false, if_true]

theorem execStoreRead_runs (hb : rangeBacked s.quiet (n - 1) (fieldBE r.entry 40 8) (reqDstLen r.entry) = true) (hbme : (s.fn n).bme = true) :
    execStoreRead n q s = .next (s.quiet.setStage n r.seq .running) := by
  unfold execStoreRead storeAddr
  simp only [h, hb, State.quiet_fn, hbme, Bool.not_true, Bool.false_eq_true, if_false]

end

/-- A STORE_WRITE that waits for staging, with no job before it, reads its data once there is space (R241). -/
theorem execStagingSpaceFree_reads (hl : s.live = true) (hx : s.xce.jobs = []) (hz : s.cze.jobs = []) (hr : s.req? n q.toNat = some r)
    (hst : r.stage = .staging) (hfit : stagingFits s.quiet r.entry = true) (hbme : (s.fn n).bme = true) :
    execStagingSpaceFree n q s
      = .next ((s.quiet.setStage n q.toNat .running).emit (.hostRead n (reqSrc r.entry) (reqSrcLen r.entry))) := by
  have hl' : s.quiet.live = true := hl
  have hr' : s.quiet.req? n q.toNat = some r := hr
  unfold execStagingSpaceFree
  simp only [State.quiet_xce, State.quiet_cze, hx, hz, List.find?_nil, hr', hl', hst, hfit, State.quiet_fn, hbme, beq_self_eq_true, Bool.and_self,
    if_true]

end

/-- Settles O36, request by request. -/
theorem messagingRequestResults : Obligations.MessagingRequestResults := by
  unfold Obligations.MessagingRequestResults
  exact fun s n q r => ⟨fun h => ⟨execMsg_unplaced h, execMsg_busy h, execMsg_queued h⟩,
    fun h => ⟨execRestart_unplaced h, execRestart_pends h⟩,
    fun h => ⟨execStoreWrite_unbacked h, execStoreWrite_reads h, execStoreWrite_waits h⟩,
    fun h => ⟨execStoreRead_unbacked h, execStoreRead_runs h⟩,
    fun hl hx hz hr hst hfit hbme => execStagingSpaceFree_reads hl hx hz hr hst hfit hbme⟩

end Sys2Proof.Machine

/-! SUPPORT. Integer sums, products and comparisons (R152, R153, R157): the flags of a result with and without a carry in, how an instruction
ends that may overflow, and the statement about them, O5. -/

namespace Sys2Proof.Machine

open Sys2Proof

/-! ## Results with their flags (R153) -/

/-- With no carry in, the carry that is added is zero in each of the three results. -/
theorem addFlags_no_carry (a b : Word) :
    addFlags a b false = (a + b, decide (a.toNat + b.toNat ≥ 2 ^ 64), decide (a.toInt + b.toInt ≠ (a + b).toInt)) := by
  simp [addFlags, b2n]

theorem subFlags_no_borrow (a b : Word) :
    subFlags a b false = (a - b, decide (a.toNat < b.toNat), decide (a.toInt - b.toInt ≠ (a - b).toInt)) := by
  simp [subFlags, b2n]

/-- The carry in as a number, in the word and in the flags. -/
theorem addFlags_eq (a b : Word) (cin : Bool) :
    addFlags a b cin = (a + b + BitVec.ofNat 64 (b2n cin), decide (a.toNat + b.toNat + b2n cin ≥ 2 ^ 64),
      decide (a.toInt + b.toInt + b2n cin ≠ (a + b + BitVec.ofNat 64 (b2n cin)).toInt)) := by
  cases cin <;> rfl

theorem subFlags_eq (a b : Word) (bin : Bool) :
    subFlags a b bin = (a - b - BitVec.ofNat 64 (b2n bin), decide (a.toNat < b.toNat + b2n bin),
      decide (a.toInt - b.toInt - b2n bin ≠ (a - b - BitVec.ofNat 64 (b2n bin)).toInt)) := by
  cases bin <;> rfl

/-- A negation overflows for -2^63 alone, whose negation is itself. -/
theorem neg_overflows_iff (a : Word) : -a.toInt ≠ (-a).toInt ↔ a = BitVec.intMin 64 := by
  rw [BitVec.toInt_neg_eq_ite]
  split
  next h =>
    subst h
    decide
  next h => simp [h]

/-- NEG is 0 - a: a borrow unless a is zero. -/
theorem subFlags_zero (a : Word) : subFlags 0 a false = (-a, a != 0, a == BitVec.intMin 64) := by
  have hborrow : (0 < a.toNat) ↔ a ≠ 0 := by
    rw [Nat.pos_iff_ne_zero, ne_eq, ne_eq, ← BitVec.toNat_inj]
    rfl
  rw [subFlags_no_borrow]
  refine Prod.ext (BitVec.zero_sub a) (Prod.ext ?_ ?_)
  · rw [Bool.eq_iff_iff, decide_eq_true_iff, bne_iff_ne]
    exact hborrow
  · have hzero : (0 : Word).toInt = 0 := rfl
    dsimp only
    rw [Bool.eq_iff_iff, decide_eq_true_iff, beq_iff_eq, hzero, zero_sub, zero_sub]
    exact neg_overflows_iff a

theorem ofInt_mul_toInt (a b : Word) : BitVec.ofInt 64 (a.toInt * b.toInt) = a * b := by
  rw [BitVec.ofInt_mul, BitVec.ofInt_toInt, BitVec.ofInt_toInt]

/-- The 128-bit products, unsigned and signed, are products of extended operands. -/
theorem ofNat_mul_toNat (a b : Word) : BitVec.ofNat 128 (a.toNat * b.toNat) = a.setWidth 128 * b.setWidth 128 := by
  rw [BitVec.ofNat_mul, BitVec.ofNat_toNat, BitVec.ofNat_toNat]

theorem ofInt_mul_signExtend (a b : Word) : BitVec.ofInt 128 (a.toInt * b.toInt) = a.signExtend 128 * b.signExtend 128 := by
  rw [BitVec.ofInt_mul]
  rfl

/-! ## How the instructions end (R114, R157) -/

theorem cmpFlags_keeps_micro (c : Ctx) (a b : Word) : (cmpFlags c a b).micro = c.micro := by
  unfold cmpFlags
  generalize subFlags a b false = r
  rfl

/-- Neither a comparison nor a product in a pair reads the micro-save area. -/
theorem cmpFlags_micro (c : Ctx) (m : MicroSave) (a b : Word) : cmpFlags { c with micro := m } a b = { cmpFlags c a b with micro := m } := by
  unfold cmpFlags
  generalize subFlags a b false = r
  rfl

theorem pairProduct_micro (c : Ctx) (m : MicroSave) (r : BitVec 5) (v : BitVec 128) :
    pairProduct { c with micro := m } r v = { pairProduct c r v with micro := m } := rfl

section
variable {s t : State} {p k : Nat} (h : Fetched s p k 4 t)
include h

/-- An instruction that may overflow, whatever it makes of the micro-save area. -/
theorem regInstr_overflow {g : Ctx → RegRes} {c : Ctx} {m : MicroSave} {ov : Bool} (hg : g (t.resumeCtx k) = fxResult { c with micro := m } ov)
    (hv : c.sb bV = ov) (hc : c.micro = (t.ctx k).micro) : regInstr s p 4 false g = .next (retireFx t k c) := by
  subst hv
  have hfxm : ({ c with micro := m } : Ctx).sb bFXM = c.sb bFXM := rfl
  rw [regInstr_fetched h, hg, fxResult, retireFx, hfxm]
  split
  · unfold regEnd
    rw [← hc]
  · unfold regEnd
    rw [← hc]

/-- A sum or difference `r` of the registers as they are. -/
theorem regInstr_sum {g : Ctx → RegRes} {rd : BitVec 5} {r : Word × Bool × Bool} {v : Word} {cy ov : Bool} (hr : r = (v, cy, ov))
    (hg : ∀ m, g { t.ctx k with micro := m } = fxResult (arith { t.ctx k with micro := m } rd r) r.2.2) :
    regInstr s p 4 false g = .next (retireFx t k ((((t.ctx k).logic rd v).setSb bC cy).setSb bV ov)) := by
  subst hr
  obtain ⟨m, hm⟩ := resumeCtx_eq t k
  exact regInstr_overflow h (by rw [hm, hg m]; rfl) (Ctx.sb_setSb _ ov (by decide)) rfl

/-- The low 64 bits of the product of `a` and `b`. -/
theorem regInstr_product {g : Ctx → RegRes} {rd : BitVec 5} {a b : Word}
    (hg : ∀ m, g { t.ctx k with micro := m } = mulResult { t.ctx k with micro := m } rd a b) :
    regInstr s p 4 false g
      = .next (retireFx t k (((t.ctx k).logic rd (a * b)).setSb bV (decide (a.toInt * b.toInt ≠ (a * b).toInt)))) := by
  obtain ⟨m, hm⟩ := resumeCtx_eq t k
  refine regInstr_overflow h (m := m) ?_ (Ctx.sb_setSb _ _ (by decide)) rfl
  rw [hm, hg m, mulResult, ofInt_mul_toInt]
  rfl

/-- A comparison of `a` and `b`. -/
theorem regInstr_comparison {g : Ctx → RegRes} {a b : Word} {c : Ctx} (hr : cmpFlags (t.ctx k) a b = c)
    (hg : ∀ m, g { t.ctx k with micro := m } = .ok (cmpFlags { t.ctx k with micro := m } a b)) :
    regInstr s p 4 false g = .next (retire t k 4 c) := by
  refine regInstr_completes h (fun m => ?_) ((congrArg Ctx.micro hr).symm.trans (cmpFlags_keeps_micro _ a b))
  rw [hg m, cmpFlags_micro, hr]

/-- A 128-bit product `v` in a pair. -/
theorem regInstr_pairProduct {g : Ctx → RegRes} {rd : BitVec 5} {u v : BitVec 128} (hv : u = v)
    (hg : ∀ m, g { t.ctx k with micro := m } = .ok (pairProduct { t.ctx k with micro := m } rd u)) :
    regInstr s p 4 false g = .next (retire t k 4 (pairProduct (t.ctx k) rd v)) := by
  refine regInstr_completes h (fun m => ?_) rfl
  rw [hg m, hv, pairProduct_micro]

section
variable {f : FA} (hf : f.fn = 0)
include hf

theorem execAdd_ends {v : Word} {cy ov : Bool} (hr : addFlags ((t.ctx k).G f.r2) ((t.ctx k).G f.r3) false = (v, cy, ov)) :
    execAdd p f s = .next (retireFx t k ((((t.ctx k).logic f.r1 v).setSb bC cy).setSb bV ov)) :=
  regInstr_sum h hr fun _ => if_neg (by simp [fnOk_of_zero hf])

theorem execSub_ends {v : Word} {cy ov : Bool} (hr : subFlags ((t.ctx k).G f.r2) ((t.ctx k).G f.r3) false = (v, cy, ov)) :
    execSub p f s = .next (retireFx t k ((((t.ctx k).logic f.r1 v).setSb bC cy).setSb bV ov)) :=
  regInstr_sum h hr fun _ => if_neg (by simp [fnOk_of_zero hf])

theorem execNeg_ends (h3 : f.r3 = 0) {v : Word} {cy ov : Bool} (hr : subFlags 0 ((t.ctx k).G f.r2) false = (v, cy, ov)) :
    execNeg p f s = .next (retireFx t k ((((t.ctx k).logic f.r1 v).setSb bC cy).setSb bV ov)) :=
  regInstr_sum h hr fun _ => if_neg (by simp [fnOk_of_zero hf, h3])

theorem execAddc_ends {v : Word} {cy ov : Bool} (hr : addFlags ((t.ctx k).G f.r2) ((t.ctx k).G f.r3) ((t.ctx k).sb bC) = (v, cy, ov)) :
    execAddc p f s = .next (retire t k 4 (((((t.ctx k).logic f.r1 v).setSb bC cy).setSb bV ov).setSb bZ ((t.ctx k).sb bZ && v == 0))) :=
  regInstr_completes h (fun _ => (if_neg (by simp [fnOk_of_zero hf])).trans (congrArg (fun r => RegRes.ok (arithZ _ f.r1 r)) hr)) rfl

theorem execSubb_ends {v : Word} {cy ov : Bool} (hr : subFlags ((t.ctx k).G f.r2) ((t.ctx k).G f.r3) ((t.ctx k).sb bC) = (v, cy, ov)) :
    execSubb p f s = .next (retire t k 4 (((((t.ctx k).logic f.r1 v).setSb bC cy).setSb bV ov).setSb bZ ((t.ctx k).sb bZ && v == 0))) :=
  regInstr_completes h (fun _ => (if_neg (by simp [fnOk_of_zero hf])).trans (congrArg (fun r => RegRes.ok (arithZ _ f.r1 r)) hr)) rfl

theorem execMul_ends : execMul p f s = .next (retireFx t k (((t.ctx k).logic f.r1 ((t.ctx k).G f.r2 * (t.ctx k).G f.r3)).setSb bV
    (decide (((t.ctx k).G f.r2).toInt * ((t.ctx k).G f.r3).toInt ≠ ((t.ctx k).G f.r2 * (t.ctx k).G f.r3).toInt)))) :=
  regInstr_product h fun _ => if_neg (by simp [fnOk_of_zero hf])

theorem execCmp_ends {c : Ctx} (hr : cmpFlags (t.ctx k) ((t.ctx k).G f.r2) ((t.ctx k).G f.r3) = c) :
    execCmp p f s = .next (retire t k 4 c) :=
  regInstr_comparison h hr fun _ => if_neg (by simp [fnOk_of_zero hf])

theorem execMulwu_ends (h1 : odd5 f.r1 = false) {v : BitVec 128} (hv : BitVec.ofNat 128 (((t.ctx k).G f.r2).toNat * ((t.ctx k).G f.r3).toNat) = v) :
    execMulwu p f s = .next (retire t k 4 (pairProduct (t.ctx k) f.r1 v)) :=
  regInstr_pairProduct h hv fun _ => if_neg (by simp [fnOk_of_zero hf, h1])

theorem execMulws_ends (h1 : odd5 f.r1 = false) {v : BitVec 128} (hv : BitVec.ofInt 128 (((t.ctx k).G f.r2).toInt * ((t.ctx k).G f.r3).toInt) = v) :
    execMulws p f s = .next (retire t k 4 (pairProduct (t.ctx k) f.r1 v)) :=
  regInstr_pairProduct h hv fun _ => if_neg (by simp [fnOk_of_zero hf, h1])

end

theorem execAddi_ends {f : FC} {v : Word} {cy ov : Bool} (hr : addFlags ((t.ctx k).G f.r2) (f.imm14.signExtend 64) false = (v, cy, ov)) :
    execAddi p f s = .next (retireFx t k ((((t.ctx k).logic f.r1 v).setSb bC cy).setSb bV ov)) :=
  regInstr_sum h hr fun _ => rfl

theorem execMuli_ends {f : FC} : execMuli p f s = .next (retireFx t k (((t.ctx k).logic f.r1 ((t.ctx k).G f.r2 * f.imm14.signExtend 64)).setSb bV
    (decide (((t.ctx k).G f.r2).toInt * (f.imm14.signExtend 64 : Word).toInt ≠ ((t.ctx k).G f.r2 * f.imm14.signExtend 64).toInt)))) :=
  regInstr_product h fun _ => rfl

theorem execCmpi_ends {f : FC} (hf : f.r2 = 0) {c : Ctx} (hr : cmpFlags (t.ctx k) ((t.ctx k).G f.r1) (f.imm14.signExtend 64) = c) :
    execCmpi p f s = .next (retire t k 4 c) :=
  regInstr_comparison h hr fun _ => if_neg (by simp [hf])

end

/-- A comparison sets the flags of the difference; a difference is zero where the operands are equal. -/
theorem cmpFlags_eq (c : Ctx) (a b : Word) :
    cmpFlags c a b = (((c.setSb bZ (a == b)).setSb bN (a - b).msb).setSb bC (decide (a.toNat < b.toNat))).setSb bV
      (decide (a.toInt - b.toInt ≠ (a - b).toInt)) := by
  have hz : (a - b == 0) = (a == b) := by
    rw [Bool.eq_iff_iff, beq_iff_eq, beq_iff_eq]
    exact sub_eq_zero
  unfold cmpFlags
  rw [subFlags_no_borrow]
  dsimp only
  rw [Ctx.setZN, hz]
  rfl

/-- Settles O5: each instruction is a sum or difference with its flags, a product, or a comparison. -/
theorem integerArithmeticResults : Obligations.IntegerArithmeticResults := by
  unfold Obligations.IntegerArithmeticResults
  intro s t p k h c
  refine ⟨fun f hf => ⟨execAdd_ends h hf (addFlags_no_carry _ _), execAddc_ends h hf (addFlags_eq _ _ _),
      execSub_ends h hf (subFlags_no_borrow _ _), execSubb_ends h hf (subFlags_eq _ _ _), execMul_ends h hf,
      execCmp_ends h hf (cmpFlags_eq _ _ _), fun h3 => execNeg_ends h hf h3 (subFlags_zero _),
      fun h1 => ⟨execMulwu_ends h hf h1 (ofNat_mul_toNat _ _), execMulws_ends h hf h1 (ofInt_mul_signExtend _ _)⟩⟩,
    fun f => ⟨execAddi_ends h (addFlags_no_carry _ _), execMuli_ends h, fun hf => execCmpi_ends h hf (cmpFlags_eq _ _ _)⟩⟩

end Sys2Proof.Machine

/-! SUPPORT. Rounding and reading back (R167, R168): the fields of an encoding, the form in which a format holds a value, and the statement that a
value that a format holds is the result of rounding it, O12. -/

namespace Sys2Proof.Machine

open Sys2Proof

/-! ## The fields of an encoding (R167) -/

/-- A format with a fraction, that a word holds. -/
structure Fmt.InWord (f : Fmt) : Prop where
  fraction : 0 < f.p
  exponent : 0 < f.ebits
  width : f.width ≤ 64

theorem fmt_inWord {f : Fmt} (h : f = fmt64 ∨ f = fmt32) : f.InWord := by
  rcases h with rfl | rfl
  · exact ⟨by decide, by decide, by decide⟩
  · exact ⟨by decide, by decide, by decide⟩

/-- The encoding with a sign, an exponent field and a fraction. -/
def Fmt.ofFields (f : Fmt) (neg : Bool) (ex fr : Nat) : Nat := f.signBit neg + (ex * 2 ^ f.fracBits + fr)

section
variable {f : Fmt} (hf : f.InWord)
include hf

theorem Fmt.InWord.width_eq : f.width = f.fracBits + f.ebits + 1 := by
  have h := hf.fraction
  unfold Fmt.width Fmt.fracBits
  omega

/-- The exponent field of infinities and NaNs, by the bias. -/
theorem Fmt.InWord.expMax_eq : (f.expMax : Int) = 2 * f.bias + 1 := by
  obtain ⟨n, hn⟩ : ∃ n, f.ebits = n + 1 := ⟨f.ebits - 1, by have := hf.exponent; omega⟩
  have hpos : 0 < 2 ^ (n + 1) := Nat.two_pow_pos _
  unfold Fmt.expMax Fmt.bias
  rw [hn, Nat.add_sub_cancel, Nat.cast_sub hpos]
  push_cast
  ring

variable {ex fr : Nat} (hex : ex < 2 ^ f.ebits) (hfr : fr < 2 ^ f.fracBits)
include hex hfr

/-- Exponent field and fraction stand below the sign. -/
theorem magnitude_lt : ex * 2 ^ f.fracBits + fr < 2 ^ (f.width - 1) := by
  rw [hf.width_eq, Nat.add_sub_cancel, Nat.pow_add]
  calc ex * 2 ^ f.fracBits + fr < (ex + 1) * 2 ^ f.fracBits := by rw [Nat.add_mul]; omega
    _ ≤ 2 ^ f.ebits * 2 ^ f.fracBits := Nat.mul_le_mul_right _ hex
    _ = 2 ^ f.fracBits * 2 ^ f.ebits := Nat.mul_comm _ _

theorem ofFields_lt (neg : Bool) : f.ofFields neg ex fr < 2 ^ f.width := by
  have hmag := magnitude_lt hf hex hfr
  have hsplit : 2 ^ f.width = 2 ^ (f.width - 1) + 2 ^ (f.width - 1) := by
    rw [hf.width_eq, Nat.add_sub_cancel, Nat.pow_succ]
    omega
  unfold Fmt.ofFields Fmt.signBit
  cases neg
  · simp only [Bool.false_eq_true, if_false]
    omega
  · simp only [if_true]
    omega

theorem bit_ofFields (neg : Bool) : bit (f.ofFields neg ex fr) (f.width - 1) = neg := by
  have hmag : (ex * 2 ^ f.fracBits + fr).testBit (f.width - 1) = false := Nat.testBit_lt_two_pow (magnitude_lt hf hex hfr)
  unfold bit Fmt.ofFields Fmt.signBit
  cases neg
  · simpa using hmag
  · simpa [Nat.testBit_two_pow_add_eq] using hmag

omit hex hfr in
/-- The sign is a multiple of what the exponent field counts modulo. -/
theorem ofFields_eq (neg : Bool) : f.ofFields neg ex fr = 2 ^ f.fracBits * (2 ^ f.ebits * b2n neg + ex) + fr := by
  unfold Fmt.ofFields Fmt.signBit b2n
  rw [hf.width_eq, Nat.add_sub_cancel, Nat.pow_add]
  cases neg
  · simp only [Bool.false_eq_true, if_false]
    ring
  · simp only [if_true]
    ring

theorem exponent_ofFields (neg : Bool) : f.ofFields neg ex fr / 2 ^ f.fracBits % 2 ^ f.ebits = ex := by
  rw [ofFields_eq hf, Nat.mul_add_div (Nat.two_pow_pos _), Nat.div_eq_of_lt hfr, Nat.add_zero, Nat.mul_add_mod, Nat.mod_eq_of_lt hex]

omit hex in
theorem fraction_ofFields (neg : Bool) : f.ofFields neg ex fr % 2 ^ f.fracBits = fr := by
  rw [ofFields_eq hf, Nat.mul_add_mod, Nat.mod_eq_of_lt hfr]

/-- An encoding below the infinities reads as the number of its fields. -/
theorem unpack_ofFields (neg : Bool) (hmax : ex ≠ f.expMax) : unpack f false (BitVec.ofNat 64 (f.ofFields neg ex fr))
    = if ex = 0 then .fin neg fr f.emin else .fin neg (fr + 2 ^ f.fracBits) (f.emin + (ex - 1)) := by
  have hlt := ofFields_lt hf hex hfr neg
  have hword : (BitVec.ofNat 64 (f.ofFields neg ex fr)).toNat % 2 ^ f.width = f.ofFields neg ex fr := by
    rw [BitVec.toNat_ofNat, Nat.mod_mod_of_dvd _ (Nat.pow_dvd_pow 2 hf.width), Nat.mod_eq_of_lt hlt]
  unfold unpack
  dsimp only
  rw [hword, bit_ofFields hf hex hfr, exponent_ofFields hf hex hfr, fraction_ofFields hf hfr, if_neg hmax]
  rfl

end

/-! ## Values in the form that a format holds them -/

/-- `m × 2^e` as a format holds it: at the unit of the smallest subnormal, or with a full significand. -/
structure Fmt.Holds (f : Fmt) (m : Nat) (e : Int) : Prop where
  fits : m < 2 ^ f.p
  unit : f.emin ≤ e
  full : m < 2 ^ f.fracBits → e = f.emin

/-- What is encoded reads back as it was. -/
theorem unpack_encode {f : Fmt} (hf : f.InWord) {m : Nat} {e : Int} (h : f.Holds m e) (he : e + f.p ≤ f.bias + 1) (neg : Bool) :
    unpack f false (BitVec.ofNat 64 (encode f neg m e)) = .fin neg m e := by
  have hmax := hf.expMax_eq
  have hmax_lt : f.expMax < 2 ^ f.ebits := Nat.sub_lt (Nat.two_pow_pos _) Nat.one_pos
  have hemin : f.emin = 1 - f.bias - (f.p - 1) := rfl
  have hunit := h.unit
  have hp := hf.fraction
  unfold encode
  rw [if_neg h.fits.ne]
  dsimp only
  by_cases hsub : m < 2 ^ f.fracBits
  · have hfields : f.signBit neg + m = f.ofFields neg 0 m := by rw [Fmt.ofFields, Nat.zero_mul, Nat.zero_add]
    rw [if_pos hsub, hfields, unpack_ofFields hf (Nat.two_pow_pos _) hsub neg (by omega), if_pos rfl, h.full hsub]
  · have hfits := h.fits
    have hdouble : 2 ^ f.p = 2 ^ f.fracBits + 2 ^ f.fracBits := by
      rw [← Nat.two_mul, ← Nat.pow_succ', Fmt.fracBits, Nat.succ_eq_add_one, Nat.sub_add_cancel hp]
    rw [if_neg hsub]
    change unpack f false (BitVec.ofNat 64 (f.ofFields neg _ _)) = _
    rw [unpack_ofFields hf (by omega) (by omega) neg (by omega), if_neg (by omega)]
    congr 1
    · omega
    · omega

/-! ## Rounding (R168) -/

/-- The exponent of the unit in which rounding writes `m × 2^e`. -/
def unitOf (f : Fmt) (m : Nat) (e : Int) : Int := max (e + (Nat.log2 m : Int) + 1 - f.p) f.emin

theorem roundAt_exact (rm : Nat) (neg : Bool) (m : Nat) {e t : Int} (h : t ≤ e) : roundAt rm neg m e t = m * 2 ^ (e - t).toNat := if_pos h

/-- A power of two moves the leading bit. -/
theorem log2_mul_two_pow {m : Nat} (h0 : 0 < m) (n : Nat) : Nat.log2 (m * 2 ^ n) = Nat.log2 m + n := by
  have hpos : 0 < 2 ^ n := Nat.two_pow_pos n
  refine (Nat.log2_eq_iff (Nat.mul_pos h0 hpos).ne').mpr ⟨?_, ?_⟩
  · rw [Nat.pow_add]
    exact Nat.mul_le_mul_right _ (Nat.log2_self_le h0.ne')
  · rw [Nat.add_right_comm, Nat.pow_add]
    exact Nat.mul_lt_mul_of_pos_right Nat.lt_log2_self hpos

section
variable {f : Fmt} {m : Nat} {e : Int} (h0 : 0 < m) (hm : m < 2 ^ f.p) (he : f.emin ≤ e)
include h0 hm

theorem log2_lt_precision : Nat.log2 m < f.p := (Nat.log2_lt h0.ne').mpr hm

include he

theorem unitOf_le : unitOf f m e ≤ e := by
  have hlog := log2_lt_precision h0 hm
  unfold unitOf
  omega

/-- In the unit in which it is written, the value has the form that the format holds. -/
theorem holds_unitOf (hf : f.InWord) : f.Holds (m * 2 ^ (e - unitOf f m e).toNat) (unitOf f m e) := by
  have hle := unitOf_le h0 hm he
  have hp := hf.fraction
  have hpos : 0 < m * 2 ^ (e - unitOf f m e).toNat := Nat.mul_pos h0 (Nat.two_pow_pos _)
  have hlog := log2_mul_two_pow h0 (e - unitOf f m e).toNat
  refine ⟨(Nat.log2_lt hpos.ne').mp ?_, by unfold unitOf; omega, fun hsub => ?_⟩
  · unfold unitOf at hle hlog ⊢
    omega
  · have hshort := (Nat.log2_lt hpos.ne').mpr hsub
    unfold Fmt.fracBits at hshort
    unfold unitOf at hle hlog hshort ⊢
    omega

/-- Rounding a value that the format holds changes its unit alone. -/
theorem roundF_exact (rm : Nat) (neg : Bool) (hb : e + f.p ≤ f.bias) :
    roundF f rm false neg m e = (encode f neg (m * 2 ^ (e - unitOf f m e).toNat) (unitOf f m e), 0) := by
  have hlog := log2_lt_precision h0 hm
  have hun := unitOf_le h0 hm he
  have hfree : e + (Nat.log2 m : Int) + 1 - f.p ≤ e := by omega
  have hbig : ¬ e + (Nat.log2 m : Int) + 1 - f.p + (Nat.log2 m + (e - (e + (Nat.log2 m : Int) + 1 - f.p)).toNat : Nat) ≥ f.bias + 1 := by omega
  unfold unitOf at hun ⊢
  unfold roundF
  dsimp only
  rw [roundAt_exact rm neg m hfree, roundAt_exact rm neg m hun, roundAt_exact 4 neg m hun, log2_mul_two_pow h0, if_pos hun, decide_eq_false hbig]
  simp

end

/-- Settles O12: the rounding keeps the value, in the form in which it is encoded and read back. -/
theorem representableValuesRoundToThemselves : Obligations.RepresentableValuesRoundToThemselves := by
  unfold Obligations.RepresentableValuesRoundToThemselves
  intro f rm m neg e hfmt h0 hm he hb
  have hf := fmt_inWord hfmt
  have hun := unitOf_le h0 hm he
  have hholds := holds_unitOf h0 hm he hf
  have hunit := hholds.unit
  have hexp : (e - unitOf f m e).toNat + (unitOf f m e - f.emin).toNat = (e - f.emin).toNat := by omega
  rw [roundF_exact h0 hm he rm neg hb]
  refine ⟨rfl, _, _, unpack_encode hf hholds (by omega) neg, hunit, ?_⟩
  rw [Nat.mul_assoc, ← Nat.pow_add, hexp]

end Sys2Proof.Machine

/-! SUPPORT. Packed decimal (R99, R157 to R164, R194): the digits of an accumulator and what it reads back as, the sums of the decimal unit, how a
decimal instruction ends, and the statement about them, O13. -/

namespace Sys2Proof.Machine

open Sys2Proof

/-! ## The digits of a number (R99) -/

/-- The low `n` hexadecimal digits of a number, least significant first. -/
def hexDigits : Nat → Nat → List Nat
  | 0, _ => []
  | n + 1, v => v % 16 :: hexDigits n (v / 16)

theorem nibbles_append (a b : List Byte) : nibbles (a ++ b) = nibbles a ++ nibbles b := List.flatMap_append

/-- The nibbles of the bytes of a number are its hexadecimal digits. -/
theorem nibbles_toBE (n v : Nat) : nibbles (toBE n v) = (hexDigits (2 * n) v).reverse := by
  induction n generalizing v with
  | zero => rfl
  | succ n ih =>
    have hlast : nibbles [BitVec.ofNat 8 v] = [v / 16 % 16, v % 16] := by
      simp only [nibbles, List.flatMap_cons, List.flatMap_nil, List.append_nil, BitVec.toNat_ofNat, List.cons.injEq, and_true]
      omega
    have hsplit : toBE (n + 1) v = toBE n (v / 256) ++ [BitVec.ofNat 8 v] := List.reverse_cons
    rw [hsplit, nibbles_append, hlast, ih, Nat.mul_succ, hexDigits, hexDigits, Nat.div_div_eq_div_mul, List.reverse_cons, List.reverse_cons,
      List.append_assoc]
    rfl

/-- An accumulator is 31 digits over a sign nibble. -/
theorem nibbles_accumulator (x : BitVec 128) : nibbles (toBE 16 x.toNat) = (hexDigits 31 (x.toNat / 16)).reverse ++ [x.toNat % 16] := by
  rw [nibbles_toBE]
  exact List.reverse_cons

theorem packDigits_succ (n v : Nat) : packDigits (n + 1) v = packDigits n (v / 10) * 16 + v % 10 := by
  simp [packDigits, toDigits, List.foldl_append]

theorem packDigits_lt (n v : Nat) : packDigits n v < 16 ^ n := by
  induction n generalizing v with
  | zero => exact Nat.one_pos
  | succ n ih =>
    have h := ih (v / 10)
    rw [packDigits_succ, Nat.pow_succ]
    omega

theorem hexDigits_packDigits (n v : Nat) : hexDigits n (packDigits n v) = toDigits n v := by
  induction n generalizing v with
  | zero => rfl
  | succ n ih =>
    have hdiv : (packDigits n (v / 10) * 16 + v % 10) / 16 = packDigits n (v / 10) := by omega
    have hmod : (packDigits n (v / 10) * 16 + v % 10) % 16 = v % 10 := by omega
    rw [packDigits_succ, hexDigits, toDigits, hdiv, hmod, ih]

theorem toDigits_lt {n v d : Nat} (h : d ∈ toDigits n v) : d < 10 := by
  induction n generalizing v with
  | zero => exact absurd h List.not_mem_nil
  | succ n ih =>
    rcases List.mem_cons.mp h with rfl | h
    · exact Nat.mod_lt _ (by decide)
    · exact ih h

/-- The value of decimal digits, most significant first. -/
def digitsNat (l : List Nat) : Nat := l.foldl (fun a d => a * 10 + d) 0

theorem digitsNat_toDigits (n v : Nat) : digitsNat (toDigits n v).reverse = v % 10 ^ n := by
  unfold digitsNat
  rw [List.foldl_reverse]
  induction n generalizing v with
  | zero => rw [Nat.pow_zero, Nat.mod_one]; rfl
  | succ n ih =>
    rw [toDigits, List.foldr_cons, ih, Nat.pow_succ', Nat.mod_mul]
    omega

theorem digitsNat_lt {l : List Nat} (h : ∀ d ∈ l, d < 10) : digitsNat l < 10 ^ l.length := by
  unfold digitsNat
  induction l using List.reverseRecOn with
  | nil => exact Nat.one_pos
  | append_singleton l d ih =>
    have hl := ih fun x hx => h x (List.mem_append_left _ hx)
    have hd := h d (List.mem_append_right _ List.mem_cons_self)
    rw [List.foldl_append, List.length_append, List.length_singleton, Nat.pow_succ, List.foldl_cons, List.foldl_nil]
    omega

theorem digitsVal_eq (l : List Nat) (a : Nat) :
    digitsVal l a = if l.all (fun d => d < 10) then some (l.foldl (fun a d => a * 10 + d) a) else none := by
  induction l generalizing a with
  | nil => rfl
  | cons d l ih =>
    unfold digitsVal
    rw [ih]
    by_cases hd : d < 10 <;> simp [hd]

/-! ## Accumulators (R159) -/

theorem decMag_eq (x : BitVec 128) : decMag x = digitsNat (hexDigits 31 (x.toNat / 16)).reverse := by
  unfold decMag
  rw [nibbles_accumulator, List.dropLast_concat]
  rfl

theorem decOk_eq (x : BitVec 128) :
    decOk x = ((hexDigits 31 (x.toNat / 16)).reverse.all (fun d => d < 10) && signOk (x.toNat % 16)) := by
  unfold decOk
  dsimp only
  rw [nibbles_accumulator, List.dropLast_concat, List.getLastD_concat]
  rfl

/-- An operand reads as the decimal unit reads it, where it passes the decimal check. -/
theorem daVal_eq (x : BitVec 128) : daVal x = if decOk x then some (decMag x, decMinus x) else none := by
  unfold daVal unpackDec daBytes decMinus
  dsimp only
  rw [decOk_eq, decMag_eq, nibbles_accumulator, List.dropLast_concat, List.getLastD_concat, digitsVal_eq]
  cases hs : signOk (x.toNat % 16)
  · simp
  · cases hd : (hexDigits 31 (x.toNat / 16)).reverse.all fun d => d < 10
    · rfl
    · rfl

theorem daVal_some_iff {x : BitVec 128} {a : Nat × Bool} : daVal x = some a ↔ decOk x = true ∧ (decMag x, decMinus x) = a := by
  rw [daVal_eq]
  split
  next h => simp [h]
  next h => simp [h]

theorem hexDigits_length (n v : Nat) : (hexDigits n v).length = n := by
  induction n generalizing v with
  | zero => rfl
  | succ n ih => rw [hexDigits, List.length_cons, ih]

theorem decMag_lt {x : BitVec 128} (h : decOk x = true) : decMag x < 10 ^ 31 := by
  rw [decOk_eq, Bool.and_eq_true, List.all_eq_true] at h
  have hlt := digitsNat_lt fun d hd => decide_eq_true_iff.mp (h.1 d hd)
  rwa [List.length_reverse, hexDigits_length, ← decMag_eq] at hlt

/-- The accumulator of the low 31 digits of `m` over a sign nibble. -/
def packed (m s : Nat) : BitVec 128 := BitVec.ofNat 128 (packDigits 31 m * 16 + s)

section
variable {m s : Nat} (hs : s < 16)
include hs

theorem packed_toNat : (packed m s).toNat = packDigits 31 m * 16 + s := by
  have h := packDigits_lt 31 m
  rw [packed, BitVec.toNat_ofNat]
  exact Nat.mod_eq_of_lt (by omega)

theorem hexDigits_packed : hexDigits 31 ((packed m s).toNat / 16) = toDigits 31 m := by
  have hdiv : (packDigits 31 m * 16 + s) / 16 = packDigits 31 m := by omega
  rw [packed_toNat hs, hdiv, hexDigits_packDigits]

theorem decMag_packed : decMag (packed m s) = m % 10 ^ 31 := by
  rw [decMag_eq, hexDigits_packed hs, digitsNat_toDigits]

theorem decMinus_packed : decMinus (packed m s) = (s == 13) := by
  have hmod : (packDigits 31 m * 16 + s) % 16 = s := by omega
  rw [decMinus, packed_toNat hs, hmod]

theorem decOk_packed : decOk (packed m s) = signOk s := by
  have hmod : (packDigits 31 m * 16 + s) % 16 = s := by omega
  have hdigits : (toDigits 31 m).reverse.all (fun d => d < 10) = true :=
    List.all_eq_true.mpr fun d hd => decide_eq_true (toDigits_lt (List.mem_reverse.mp hd))
  rw [decOk_eq, hexDigits_packed hs, packed_toNat hs, hmod, hdigits, Bool.true_and]

/-- A sign nibble joined to digits over zero. -/
theorem packed_or : packed m 0 ||| BitVec.ofNat 128 s = packed m s := by
  apply BitVec.eq_of_toNat_eq
  rw [BitVec.toNat_or, packed_toNat (by decide), packed_toNat hs, BitVec.toNat_ofNat, Nat.mod_eq_of_lt (by omega), Nat.add_zero,
    show packDigits 31 m * 16 = packDigits 31 m <<< 4 from (Nat.shiftLeft_eq _ 4).symm]
  exact (Nat.shiftLeft_add_eq_or_of_lt hs _).symm

end

/-- R160: a magnitude below 10^31 with its sign reads back as that value. -/
theorem daVal_daOf {m : Nat} (neg : Bool) (h : m < 10 ^ 31) : daVal (daOf m (signOf m neg)) = some (m, neg && m != 0) := by
  have hda : daOf m (signOf m neg) = packed m (signOf m neg) := by
    rw [daOf, show m % tenTo31 = m from Nat.mod_eq_of_lt h]
    rfl
  have hsign : signOf m neg < 16 ∧ signOk (signOf m neg) = true ∧ (signOf m neg == 13) = (neg && m != 0) := by
    unfold signOf
    split
    next hm => exact ⟨by decide, rfl, hm.symm⟩
    next hm => exact ⟨by decide, rfl, (Bool.eq_false_iff.mpr hm).symm⟩
  obtain ⟨hlt, hok, hminus⟩ := hsign
  rw [hda, daVal_some_iff, decOk_packed hlt, decMag_packed hlt, decMinus_packed hlt, Nat.mod_eq_of_lt h, hminus]
  exact ⟨hok, rfl⟩

/-! ## The decimal unit (R194) -/

theorem natAbs_signed (x : Nat × Bool) : (signed x).natAbs = x.1 := by
  unfold signed
  split
  · rw [Int.natAbs_neg, Int.natAbs_natCast]
  · exact Int.natAbs_natCast _

theorem signed_neg_iff (x : Nat × Bool) : signed x < 0 ↔ (x.2 && x.1 != 0) = true := by
  obtain ⟨m, neg⟩ := x
  cases neg with
  | false => simp [signed]
  | true =>
    show -(m : Int) < 0 ↔ (true && m != 0) = true
    rw [Bool.true_and, bne_iff_ne]
    omega

/-- A subtraction is an addition of the other sign. -/
theorem signed_sub_eq_add (a b : Nat × Bool) (inv : Bool) :
    (if inv then signed a - signed b else signed a + signed b) = signed a + signed (b.1, b.2 != inv) := by
  obtain ⟨m, neg⟩ := b
  cases inv <;> cases neg <;> simp [signed, sub_eq_add_neg]

theorem getLsbD_putFlag (f : BitVec 16) {i : Nat} (hi : i < 16) (j : Nat) (b : Bool) :
    (putFlag f i b).getLsbD j = if i = j then b else f.getLsbD j := by
  have hbit : ((1 : BitVec 16) <<< i).getLsbD j = decide (i = j) := by
    rw [show (1 : BitVec 16) <<< i = BitVec.twoPow 16 i from BitVec.twoPow_eq 16 i |>.symm, BitVec.getLsbD_twoPow, decide_eq_true hi, Bool.true_and]
  have hset : (if b then (1 : BitVec 16) <<< i else 0).getLsbD j = (b && decide (i = j)) := by
    cases b
    · exact BitVec.getLsbD_zero
    · exact hbit
  unfold putFlag
  rw [BitVec.getLsbD_or, BitVec.getLsbD_and, BitVec.getLsbD_not, hbit, hset]
  by_cases h : i = j
  · simp [h]
  · by_cases hj : j < 16
    · simp [h, hj]
    · simp [h, hj, BitVec.getLsbD_of_ge f j (by omega)]

/-- DCO, ES and DOV among the flags that an addition sets. -/
theorem getLsbD_putFlags (f : BitVec 16) (dco dzr es dov : Bool) :
    let u := putFlag (putFlag (putFlag (putFlag f 8 dco) 9 dzr) 10 es) 15 dov
    u.getLsbD 8 = dco ∧ u.getLsbD 10 = es ∧ u.getLsbD 15 = dov := by
  simp [getLsbD_putFlag, -BitVec.getLsbD_eq_getElem]

/-- What the latches of the decimal unit hold once they are written out under the working sign, and DOV. -/
def MicroRegs.latches (r : MicroRegs) : BitVec 128 × Bool := (r.decOut r.sign, r.flags.getLsbD 15)

/-- The low 31 digits of a true sum with its sign, and whether digits are lost. -/
def trueSum (v : Int) : BitVec 128 × Bool := (packed (v.natAbs % 10 ^ 31) (if v < 0 then 13 else 12), decide (v.natAbs ≥ 10 ^ 31))

theorem trueSum_signed (m : Nat) (neg : Bool) :
    trueSum (signed (m, neg)) = (packed (m % 10 ^ 31) (if neg && m != 0 then 13 else 12), decide (m ≥ 10 ^ 31)) := by
  simp only [trueSum, natAbs_signed, signed_neg_iff]

theorem dxrOf_eq (m : Nat) : dxrOf m = packed (m % 10 ^ 31) 0 := rfl

/-- Digits are written out with a minus unless they are those of a zero: a sum that lost its carry is none. -/
theorem decOut_of_dxr {u : MicroRegs} {m : Nat} (h : u.dxr = dxrOf m) (minus : Bool) : u.decOut minus = packed (m % 10 ^ 31)
    (if minus && !(m % 10 ^ 31 == 0 && !(u.flags.getLsbD 8 && !u.flags.getLsbD 10)) then 13 else 12) := by
  unfold MicroRegs.decOut
  dsimp only
  rw [h, dxrOf_eq, decMag_packed (by decide), Nat.mod_mod]
  split
  · exact packed_or (s := 13) (by decide)
  · exact packed_or (s := 12) (by decide)

section
variable (r : MicroRegs) (inv : Bool)

/-- The sum that the decimal adder forms: an effective subtraction adds the complement. -/
def MicroRegs.adderSum (es : Bool) : Nat := if es then decMag r.dxa + (10 ^ 31 - decMag r.dxb) else decMag r.dxa + decMag r.dxb

variable {es : Bool} (hes : (decMinus r.dxa != (decMinus r.dxb != inv)) = es)
include hes

theorem addDec_dxr : (r.addDec inv).dxr = dxrOf (r.adderSum es) := by
  subst hes
  rfl

theorem addDec_flags : (r.addDec inv).flags.getLsbD 8 = decide (r.adderSum es ≥ 10 ^ 31) ∧ (r.addDec inv).flags.getLsbD 10 = es
    ∧ (r.addDec inv).flags.getLsbD 15 = (!es && decide (r.adderSum es ≥ 10 ^ 31)) := by
  subst hes
  exact getLsbD_putFlags r.flags _ _ _ _

end

/-- The latches hold the true sum `m` under the working sign where they hold its digits, tell a zero of it, and DOV tells a loss of digits. -/
theorem latches_eq_trueSum {u : MicroRegs} {n m : Nat} (hdxr : u.dxr = dxrOf n) (hdigits : n % 10 ^ 31 = m % 10 ^ 31)
    (hzero : (m % 10 ^ 31 = 0 ∧ (u.flags.getLsbD 8 && !u.flags.getLsbD 10) = false) ↔ m = 0) (hlost : u.flags.getLsbD 15 = decide (m ≥ 10 ^ 31)) :
    u.latches = trueSum (signed (m, u.sign)) := by
  have hplus : (m % 10 ^ 31 == 0 && !(u.flags.getLsbD 8 && !u.flags.getLsbD 10)) = (m == 0) := by
    rw [Bool.eq_iff_iff, Bool.and_eq_true, beq_iff_eq, beq_iff_eq, Bool.not_eq_true']
    exact hzero
  rw [MicroRegs.latches, decOut_of_dxr hdxr, hdigits, hplus, hlost, trueSum_signed]
  rfl

section
variable {r : MicroRegs} {inv neg : Bool} (ha : decMinus r.dxa = neg)
include ha

/-- Operands of one effective sign: the adder forms the sum of the magnitudes. -/
theorem addDec_latches_same (hb : (decMinus r.dxb != inv) = neg) : (r.addDec inv).flags.getLsbD 10 = false
    ∧ (r.addDec inv).latches = trueSum (signed (decMag r.dxa, neg) + signed (decMag r.dxb, neg)) := by
  have hes : (decMinus r.dxa != (decMinus r.dxb != inv)) = false := by rw [ha, hb]; exact bne_self_eq_false _
  obtain ⟨h8, h10, h15⟩ := addDec_flags r inv hes
  have hsum : r.adderSum false = decMag r.dxa + decMag r.dxb := rfl
  have hsigned : signed (decMag r.dxa, neg) + signed (decMag r.dxb, neg) = signed (decMag r.dxa + decMag r.dxb, neg) := by
    cases neg <;> simp [signed, Int.add_comm]
  rw [hsum] at h8 h15
  subst ha
  rw [hsigned]
  refine ⟨h10, latches_eq_trueSum (addDec_dxr r inv hes) rfl ?_ h15⟩
  simp only [h8, h10, Bool.not_false, Bool.and_true, decide_eq_false_iff_not]
  omega

variable (hb : (decMinus r.dxb != inv) = !neg)
include hb

theorem effective_subtraction : (decMinus r.dxa != (decMinus r.dxb != inv)) = true := by
  rw [ha, hb]
  cases neg <;> rfl

/-- Operands of opposite signs, the first not the smaller: the carry out is the complement's, the rest the difference. -/
theorem addDec_latches_carry (hle : decMag r.dxb ≤ decMag r.dxa) (hlt : decMag r.dxa < 10 ^ 31) :
    (r.addDec inv).flags.getLsbD 8 = true
    ∧ (r.addDec inv).latches = trueSum (signed (decMag r.dxa, neg) + signed (decMag r.dxb, !neg)) := by
  have hes := effective_subtraction ha hb
  obtain ⟨h8, h10, h15⟩ := addDec_flags r inv hes
  have hsum : r.adderSum true = decMag r.dxa - decMag r.dxb + 10 ^ 31 := by
    show decMag r.dxa + (10 ^ 31 - decMag r.dxb) = _
    omega
  have hsigned : signed (decMag r.dxa, neg) + signed (decMag r.dxb, !neg) = signed (decMag r.dxa - decMag r.dxb, neg) := by
    cases neg <;> simp [signed] <;> omega
  have hcarry : (r.addDec inv).flags.getLsbD 8 = true := by
    rw [h8, hsum]
    exact decide_eq_true (by omega)
  subst ha
  rw [hsigned]
  refine ⟨hcarry, latches_eq_trueSum (addDec_dxr r inv hes) (by rw [hsum, Nat.add_mod_right]) ?_ ?_⟩
  · rw [hcarry, h10, Nat.mod_eq_of_lt (by omega)]
    simp
  · rw [h15]
    exact (decide_eq_false (by omega)).symm

/-- The first the smaller: no carry out, and the complement of what the adder forms is the difference under the other sign. -/
theorem addDec_latches_borrow (hle : decMag r.dxa < decMag r.dxb) (hlt : decMag r.dxb < 10 ^ 31) :
    (r.addDec inv).flags.getLsbD 8 = false ∧ (r.addDec inv).flags.getLsbD 10 = true
    ∧ (r.addDec inv).recomplement.latches = trueSum (signed (decMag r.dxa, neg) + signed (decMag r.dxb, !neg)) := by
  have hes := effective_subtraction ha hb
  obtain ⟨h8, h10, h15⟩ := addDec_flags r inv hes
  have hsum : r.adderSum true = 10 ^ 31 - (decMag r.dxb - decMag r.dxa) := by
    show decMag r.dxa + (10 ^ 31 - decMag r.dxb) = _
    omega
  have hsigned : signed (decMag r.dxa, neg) + signed (decMag r.dxb, !neg) = signed (decMag r.dxb - decMag r.dxa, !neg) := by
    cases neg <;> simp [signed] <;> omega
  have hcarry : (r.addDec inv).flags.getLsbD 8 = false := by
    rw [h8, hsum]
    exact decide_eq_false (by omega)
  have hdxr : (r.addDec inv).recomplement.dxr = dxrOf (decMag r.dxb - decMag r.dxa) := by
    have hmag : decMag (r.addDec inv).dxr = 10 ^ 31 - (decMag r.dxb - decMag r.dxa) := by
      rw [addDec_dxr r inv hes, hsum, dxrOf_eq, decMag_packed (by decide), Nat.mod_mod, Nat.mod_eq_of_lt (by omega)]
    show dxrOf (tenTo31 - decMag (r.addDec inv).dxr) = _
    rw [hmag, tenTo31, Nat.sub_sub_self (by omega)]
  subst ha
  rw [hsigned]
  refine ⟨hcarry, h10, latches_eq_trueSum hdxr rfl ?_ ?_⟩
  · show (_ ∧ ((r.addDec inv).flags.getLsbD 8 && !(r.addDec inv).flags.getLsbD 10) = false) ↔ _
    rw [hcarry, Nat.mod_eq_of_lt (by omega)]
    simp
  · exact h15.trans (decide_eq_false (by omega)).symm

end

/-- R194: the routine of ADDP and SUBP leaves the true sum in the latches. -/
theorem addRoutine_latches (r : MicroRegs) (inv : Bool) {x y : BitVec 128} {a b : Nat × Bool} (ha : daVal x = some a) (hb : daVal y = some b) :
    (r.addRoutine inv x y).map MicroRegs.latches = some (trueSum (if inv then signed a - signed b else signed a + signed b)) := by
  obtain ⟨hx, rfl⟩ := daVal_some_iff.mp ha
  obtain ⟨hy, rfl⟩ := daVal_some_iff.mp hb
  rw [signed_sub_eq_add]
  have hload : r.loadDec x y = some ({ r with dxa := x, dxb := y, sign := decMinus x != decMinus y }.flagged [(15, false)]) := by
    rw [MicroRegs.loadDec, hx, hy]
    rfl
  unfold MicroRegs.addRoutine
  rw [hload]
  generalize hr : ({ r with dxa := x, dxb := y, sign := decMinus x != decMinus y } : MicroRegs).flagged [(15, false)] = u
  have hdxa : u.dxa = x := by subst hr; rfl
  have hdxb : u.dxb = y := by subst hr; rfl
  subst hdxa hdxb
  refine congrArg some ?_
  dsimp only
  by_cases hsame : (decMinus u.dxb != inv) = decMinus u.dxa
  · obtain ⟨h10, hl⟩ := addDec_latches_same rfl hsame
    rw [h10, if_neg (by simp), hl, hsame]
  · have hopp : (decMinus u.dxb != inv) = !decMinus u.dxa := Bool.eq_not_of_ne hsame
    rw [hopp]
    by_cases hle : decMag u.dxb ≤ decMag u.dxa
    · obtain ⟨h8, hl⟩ := addDec_latches_carry rfl hopp hle (decMag_lt hx)
      rw [h8, if_neg (by simp), hl]
    · obtain ⟨h8, h10, hl⟩ := addDec_latches_borrow rfl hopp (Nat.lt_of_not_le hle) (decMag_lt hy)
      rw [h8, h10]
      exact hl

/-! ## How a decimal instruction ends (R157, R160, R161) -/

theorem tenTo31_eq : tenTo31 = 10 ^ 31 := rfl

/-- The registers that a decimal instruction leaves over `c` with the value `v` in DA[r]. -/
def Ctx.decimal (c : Ctx) (r : Nat) (v : Int) (ov : Bool) : Ctx :=
  (((c.setDA r (packed (v.natAbs % 10 ^ 31) (if v < 0 then 13 else 12))).setSb bZ (v.natAbs % 10 ^ 31 == 0)).setSb bN
    (decide (v < 0) && v.natAbs % 10 ^ 31 != 0)).setSb bDV ov

/-- A value below zero has a magnitude. -/
theorem signOf_natAbs (v : Int) : signOf v.natAbs (decide (v < 0)) = if v < 0 then 13 else 12 := by
  unfold signOf
  by_cases hv : v < 0
  · rw [if_pos hv, if_pos (by simp only [hv, decide_true, Bool.true_and, bne_iff_ne]; omega)]
  · rw [if_neg hv, if_neg (by simp [hv])]

theorem Ctx.sb_setSb_of_ne (c : Ctx) {n m : Nat} (b : Bool) (h : n ≠ m) : (c.setSb n b).sb m = c.sb m := by
  have hbit : (1#64 <<< n).getLsbD m = false := by
    rw [← BitVec.twoPow_eq, BitVec.getLsbD_twoPow, decide_eq_false h, Bool.and_false]
  unfold Ctx.setSb Ctx.sb
  cases b
  · by_cases hm : m < 64
    · simp [hbit, hm, -BitVec.getLsbD_eq_getElem]
    · simp [BitVec.getLsbD_of_ge c.psw m (by omega)]
  · simp [hbit]

/-- Whether decimal overflow is enabled is not for the result to change. -/
theorem Ctx.decimal_bDOM (c : Ctx) (r : Nat) (v : Int) (ov : Bool) : (c.decimal r v ov).sb bDOM = c.sb bDOM := by
  unfold Ctx.decimal
  rw [Ctx.sb_setSb_of_ne _ _ (by decide), Ctx.sb_setSb_of_ne _ _ (by decide), Ctx.sb_setSb_of_ne _ _ (by decide)]
  rfl

theorem decResult_eq (c : Ctx) (r : Nat) (v : Int) (ov : Bool) : decResult c r v ov
    = if ov && c.sb bDOM then .trap (c.decimal r v ov) 0x204 0 else .ok (c.decimal r v ov) := by
  rw [← Ctx.decimal_bDOM c r v ov]
  unfold decResult
  dsimp only
  rw [signOf_natAbs]
  rfl

theorem retireDec_eq (t : State) (k : Nat) (c : Ctx) (r : Nat) (v : Int) (ov : Bool) : retireDec t k c r v ov
    = if ov && c.sb bDOM then retireTrap t k 4 0x204 0 (c.decimal r v ov) else retire t k 4 (c.decimal r v ov) := rfl

/-- A decimal result over the registers that an instruction starts from completes over those of the virtual engine. -/
theorem regEnd_decResult (t : State) (k r : Nat) (v : Int) (ov : Bool) :
    regEnd t k 4 (decResult (t.resumeCtx k) r v ov) = retireDec t k (t.ctx k) r v ov := by
  obtain ⟨m, hm⟩ := resumeCtx_eq t k
  have hdom : ({ t.ctx k with micro := m } : Ctx).sb bDOM = (t.ctx k).sb bDOM := rfl
  rw [hm, decResult_eq, retireDec_eq, hdom]
  split
  · rfl
  · rfl

/-- What an instruction on two accumulators comes to: `g` of their values, or `bad` where one is no packed number. -/
def onValues (x y : BitVec 128) (g : Nat × Bool → Nat × Bool → State) (bad : State) : State :=
  match daVal x, daVal y with
  | some a, some b => g a b
  | _, _ => bad

theorem regEnd_onValues {t : State} {k : Nat} {x y : BitVec 128} {op : Nat × Bool → Nat × Bool → RegRes} {g : Nat × Bool → Nat × Bool → State}
    (hg : ∀ a b, regEnd t k 4 (op a b) = g a b) :
    regEnd t k 4 (match daVal x, daVal y with
      | some a, some b => op a b
      | _, _ => .exc 0x203) = onValues x y g (nullify t k 4 0x203) := by
  unfold onValues
  cases daVal x <;> cases daVal y
  case some.some => exact hg _ _
  all_goals rfl

@[simp] theorem resumeCtx_DA (t : State) (k n : Nat) : (t.resumeCtx k).DA n = (t.ctx k).DA n := by
  rw [Ctx.DA, resumeCtx_da]
  rfl

/-- The registers whose accumulators a decimal instruction reads: a micro-routine has those it read first (R151). -/
def Ctx.decSource (c : Ctx) : Option Byte → Ctx
  | some op => c.operands op
  | none => c

/-- The register fields of a decimal instruction on two accumulators are in range, and R3 is zero (R99, R107). -/
structure DecimalForm (f : FA) : Prop where
  r3 : f.r3 = 0
  r1 : f.r1.toNat < 8
  r2 : f.r2.toNat < 8

theorem DecimalForm.form_ok {f : FA} (hd : DecimalForm f) {mask : BitVec 9} (hfn : fnOk f mask = true) :
    ¬ (!fnOk f mask || f.r3 != 0 || !daOk f.r1 || !daOk f.r2) = true := by
  simp [hfn, hd.r3, daOk, hd.r1, hd.r2]

theorem fnOk_of_scale {f : FA} (h : f.fn &&& 0x1E0 = 0) : fnOk f 0x1F = true := beq_iff_eq.mpr h

section
variable {s t : State} {p k : Nat} (h : Fetched s p k 4 t)
include h

theorem decInstr_ends {f : FA} (hd : DecimalForm f) {mask : BitVec 9} (hfn : fnOk f mask = true) {ok : Bool} (hok : ok = true)
    {micro : Option Byte} {op : Ctx → Nat × Bool → Nat × Bool → RegRes} {g : Nat × Bool → Nat × Bool → State}
    (hg : ∀ a b, regEnd t k 4 (op (t.resumeCtx k) a b) = g a b) :
    decInstr p f s mask micro ok op = .next (onValues (((t.resumeCtx k).decSource micro).DA f.r1.toNat)
      (((t.resumeCtx k).decSource micro).DA f.r2.toNat) g (nullify t k 4 0x203)) := by
  subst hok
  unfold decInstr
  rw [regInstr_fetched h, if_neg (by simpa using hd.form_ok hfn)]
  cases micro with
  | none => exact congrArg _ (regEnd_onValues hg)
  | some b => exact congrArg _ (regEnd_onValues hg)

/-- The state in which the decimal unit has run its routine on the operands (R194). -/
def latched (t : State) (p : Nat) (inv : Bool) (x y : BitVec 128) : State :=
  t.updEng p fun e => { e with work := (e.work.addRoutine inv x y).getD e.work }

theorem addSubP_ends {f : FA} (hd : DecimalForm f) (hf : f.fn = 0) (inv : Bool) {x y : BitVec 128} (hx : (t.ctx k).DA f.r1.toNat = x)
    (hy : (t.ctx k).DA f.r2.toNat = y) : addSubP inv p f s = .next (onValues x y (fun a b =>
      let v := if inv then signed a - signed b else signed a + signed b
      retireDec (latched t p inv x y) k (t.ctx k) f.r1.toNat v (decide (v.natAbs ≥ 10 ^ 31))) (nullify t k 4 0x203)) := by
  unfold addSubP
  rw [instr_fetched h rfl]
  dsimp only
  rw [if_neg (hd.form_ok (fnOk_of_zero hf 0)), hx, hy]
  refine congrArg _ ?_
  unfold onValues
  cases daVal x <;> cases daVal y
  case some.some a b =>
    dsimp only
    rw [decResult_eq, retireDec_eq, tenTo31_eq]
    generalize (if inv then signed a - signed b else signed a + signed b) = v
    by_cases htrap : (decide (v.natAbs ≥ 10 ^ 31) && (t.ctx k).sb bDOM) = true
    · rw [if_pos htrap, if_pos htrap]
      rfl
    · rw [if_neg htrap, if_neg htrap]
      rfl
  all_goals rfl

theorem execMulp_ends {f : FA} (hd : DecimalForm f) (hf : f.fn = 0) {x y : BitVec 128} (hx : ((t.resumeCtx k).operands 0x92).DA f.r1.toNat = x)
    (hy : ((t.resumeCtx k).operands 0x92).DA f.r2.toNat = y) : execMulp p f s = .next (onValues x y (fun a b =>
      retireDec t k (t.ctx k) f.r1.toNat (signed a * signed b) (decide ((signed a * signed b).natAbs ≥ 10 ^ 31))) (nullify t k 4 0x203)) := by
  subst hx hy
  exact decInstr_ends h hd (fnOk_of_zero hf 0) rfl (micro := some 0x92) fun a b => regEnd_decResult t k f.r1.toNat _ _

theorem execCmpp_ends {f : FA} (hd : DecimalForm f) (hf : f.fn = 0) {x y : BitVec 128} (hx : (t.ctx k).DA f.r1.toNat = x)
    (hy : (t.ctx k).DA f.r2.toNat = y) : execCmpp p f s = .next (onValues x y (fun a b =>
      retire t k 4 (((t.ctx k).setSb bZ (signed a == signed b)).setSb bN (decide (signed a < signed b)))) (nullify t k 4 0x203)) := by
  rw [← resumeCtx_DA] at hx hy
  subst hx hy
  refine decInstr_ends h hd (fnOk_of_zero hf 0) rfl (micro := none) fun a b => ?_
  obtain ⟨m, hm⟩ := resumeCtx_eq t k
  rw [hm]
  rfl

/-- DIVP over the values of its operands (R163). -/
theorem execDivp_ends {f : FA} (hd : DecimalForm f) (hf : f.fn &&& 0x1E0 = 0) (h1 : odd5 f.r1 = false) {x y : BitVec 128}
    (hx : ((t.resumeCtx k).operands 0x93).DA f.r1.toNat = x) (hy : ((t.resumeCtx k).operands 0x93).DA f.r2.toNat = y) :
    execDivp p f s = .next (onValues x y (fun a b =>
      let n := a.1 * 10 ^ (f.fn.toNat % 32)
      let q := n / b.1
      if b.1 = 0 ∨ q ≥ 10 ^ 31 then nullify t k 4 0x205
      else retire t k 4 ((((t.ctx k).setDA f.r1.toNat (daOf q (signOf q (a.2 != b.2)))).setDA (f.r1.toNat + 1)
        (daOf (n % b.1) (signOf (n % b.1) a.2))).setDecZN q (a.2 != b.2))) (nullify t k 4 0x203)) := by
  subst hx hy
  refine decInstr_ends h hd (fnOk_of_scale hf) (by rw [h1]; rfl) (micro := some 0x93) fun a b => ?_
  obtain ⟨m, hm⟩ := resumeCtx_eq t k
  rw [hm]
  dsimp only
  rw [tenTo31_eq]
  by_cases hb : b.1 = 0
  · rw [if_pos hb, if_pos (.inl hb)]
    rfl
  · rw [if_neg hb]
    by_cases hq : a.1 * 10 ^ (f.fn.toNat % 32) / b.1 ≥ 10 ^ 31
    · rw [if_pos hq, if_pos (.inr hq)]
      rfl
    · rw [if_neg hq, if_neg (not_or.mpr ⟨hb, hq⟩)]
      rfl

/-- What an instruction on one accumulator comes to. -/
def onValue (x : BitVec 128) (g : Nat × Bool → State) (bad : State) : State :=
  match daVal x with
  | some a => g a
  | none => bad

theorem execMovp_ends {f : FA} (hd : DecimalForm f) (hf : f.fn = 0) {x : BitVec 128} (hx : (t.ctx k).DA f.r2.toNat = x) :
    execMovp p f s = .next (onValue x (fun a => retire t k 4 (((t.ctx k).setDA f.r1.toNat x).setDecZN a.1 a.2)) (nullify t k 4 0x203)) := by
  subst hx
  unfold execMovp
  obtain ⟨m, hm⟩ := resumeCtx_eq t k
  have hda : ∀ n, ({ t.ctx k with micro := m } : Ctx).DA n = (t.ctx k).DA n := fun _ => rfl
  rw [regInstr_fetched h, if_neg (hd.form_ok (fnOk_of_zero hf 0)), hm]
  refine congrArg _ ?_
  unfold onValue
  simp only [hda]
  cases daVal ((t.ctx k).DA f.r2.toNat)
  · rfl
  · rfl

/-- CVBP: the magnitude of a word has at most 19 digits. -/
theorem execCvbp_ends {f : FA} (hf : f.fn = 0) (h3 : f.r3 = 0) (h1 : f.r1.toNat < 8) {v : Int}
    (hv : (((t.resumeCtx k).operands 0x96).G f.r2).toInt = v) : execCvbp p f s = .next (retire t k 4
      ((((t.ctx k).setDA f.r1.toNat (packed v.natAbs (if v < 0 then 13 else 12))).setSb bZ (v == 0)).setSb bN (decide (v < 0)))) := by
  have hsmall : v.natAbs % 10 ^ 31 = v.natAbs := by
    have hlow := BitVec.le_two_mul_toInt (x := ((t.resumeCtx k).operands 0x96).G f.r2)
    have hhigh := BitVec.two_mul_toInt_lt (x := ((t.resumeCtx k).operands 0x96).G f.r2)
    rw [hv] at hlow hhigh
    exact Nat.mod_eq_of_lt (by omega)
  have hzero : (v.natAbs == 0) = (v == 0) := by
    rw [Bool.eq_iff_iff, beq_iff_eq, beq_iff_eq, Int.natAbs_eq_zero]
  have hneg : (decide (v < 0) && v.natAbs != 0) = decide (v < 0) := by
    rw [Bool.eq_iff_iff, Bool.and_eq_true, decide_eq_true_iff, bne_iff_ne]
    omega
  have hform : ¬ (!fnOk f 0 || f.r3 != 0 || !daOk f.r1) = true := by
    simp [fnOk_of_zero hf, h3, daOk, h1]
  have hda : daOf v.natAbs (signOf v.natAbs (decide (v < 0))) = packed v.natAbs (if v < 0 then 13 else 12) := by
    rw [daOf, tenTo31_eq, hsmall, signOf_natAbs]
    rfl
  unfold execCvbp
  rw [regInstr_fetched h, if_neg hform]
  dsimp only
  rw [hv, hda, Ctx.setDecZN, hzero, hneg]
  obtain ⟨m, hm⟩ := resumeCtx_eq t k
  rw [hm]
  rfl

/-- CVPB: fixed-point overflow where a word cannot hold the value. -/
theorem execCvpb_ends {f : FA} (hf : f.fn = 0) (h3 : f.r3 = 0) (h2 : f.r2.toNat < 8) {x : BitVec 128}
    (hx : ((t.resumeCtx k).operands 0x97).DA f.r2.toNat = x) : execCvpb p f s = .next (onValue x (fun a =>
      let r : Word := BitVec.ofInt 64 (signed a)
      retireFx t k (((t.ctx k).logic f.r1 r).setSb bV (decide (signed a ≠ r.toInt)))) (nullify t k 4 0x203)) := by
  have hform : ¬ (!fnOk f 0 || f.r3 != 0 || !daOk f.r2) = true := by
    simp [fnOk_of_zero hf, h3, daOk, h2]
  obtain ⟨m, hm⟩ := resumeCtx_eq t k
  unfold execCvpb onValue
  cases hv : daVal x with
  | none =>
    rw [regInstr_fetched h, if_neg hform, hx, hv]
    rfl
  | some a =>
    refine regInstr_overflow h (m := m) ?_ (Ctx.sb_setSb _ _ (by decide)) rfl
    dsimp only
    rw [if_neg hform, hx, hv, hm]
    rfl

end

/-- SHRP: what a shift by `n` and the rounding digit `d` make of a magnitude, and whether digits are lost (R164). -/
def shifted (n : Int) (d m : Nat) : Nat × Bool :=
  if 0 ≤ n then (m * 10 ^ n.toNat, decide (m * 10 ^ n.toNat ≥ 10 ^ 31))
  else (m / 10 ^ n.natAbs + (if m / 10 ^ (n.natAbs - 1) % 10 + d ≥ 10 then 1 else 0), false)

/-- The result of a shift, to the left and to the right. -/
theorem retireDec_shifted (t : State) (k r : Nat) (n : Int) (d : Nat) (a : Nat × Bool) :
    retireDec t k (t.ctx k) r (signed ((shifted n d a.1).1, a.2)) (shifted n d a.1).2
      = if 0 ≤ n then retireDec t k (t.ctx k) r (signed (a.1 * 10 ^ n.toNat, a.2)) (decide (a.1 * 10 ^ n.toNat ≥ 10 ^ 31))
        else retireDec t k (t.ctx k) r
          (signed (a.1 / 10 ^ n.natAbs + (if a.1 / 10 ^ (n.natAbs - 1) % 10 + d ≥ 10 then 1 else 0), a.2)) false := by
  unfold shifted
  split
  · rfl
  · rfl

theorem execShrp_ends {s t : State} {p k : Nat} (h : Fetched s p k 4 t) {f : FC} (h1 : f.r1.toNat < 8) (h2 : f.r2.toNat < 8)
    (hz : f.imm14.toNat / 16 % 16 = 0) (hd : f.imm14.toNat % 16 < 10) {n : Int} (hn : (f.imm14.extractLsb' 8 6).toInt = n) (hr : n ≠ -32)
    {x : BitVec 128} (hx : (t.ctx k).DA f.r2.toNat = x) : execShrp p f s = .next (onValue x (fun a =>
      let r := shifted n (f.imm14.toNat % 16) a.1
      retireDec t k (t.ctx k) f.r1.toNat (signed (r.1, a.2)) r.2) (nullify t k 4 0x203)) := by
  have hform : ¬ (f.imm14.toNat / 16 % 16 != 0 || decide (n = -32) || decide (f.imm14.toNat % 16 ≥ 10) || !daOk f.r1 || !daOk f.r2) = true := by
    simp [hz, hr, hd, daOk, h1, h2]
  unfold execShrp onValue
  rw [regInstr_fetched h]
  dsimp only
  rw [hn, if_neg hform, resumeCtx_DA, hx]
  refine congrArg _ ?_
  cases daVal x with
  | none => rfl
  | some a =>
    dsimp only
    rw [← regEnd_decResult]
    unfold shifted
    by_cases hs : 0 ≤ n
    · rw [if_pos hs, if_pos hs]
      rfl
    · rw [if_neg hs, if_neg hs]
      dsimp only
      rw [add_ite, Nat.add_zero]
      rfl

/-- Settles O13: reading back, the decimal unit's latches, and each instruction by the values of its operands. -/
theorem decimalResults : Obligations.DecimalResults := by
  unfold Obligations.DecimalResults
  refine ⟨fun m neg hm => daVal_daOf neg hm, fun r inv x y a b ha hb => addRoutine_latches r inv ha hb, fun s t p k h => ?_⟩
  refine ⟨fun f hfn h3 h1 h2 => ⟨fun hf => ?_, fun hodd => execDivp_ends h ⟨h3, h1, h2⟩ hfn hodd rfl rfl⟩,
    fun f h1 h2 hz hd => ?_, fun f hf h3 => ⟨fun h1 => execCvbp_ends h hf h3 h1 rfl, fun h2 => ?_⟩⟩
  · have hform : DecimalForm f := ⟨h3, h1, h2⟩
    refine ⟨addSubP_ends h hform hf false rfl rfl, addSubP_ends h hform hf true rfl rfl, execMulp_ends h hform hf rfl rfl,
      execCmpp_ends h hform hf rfl rfl, ?_⟩
    · refine (execMovp_ends h hform hf rfl).trans (congrArg _ ?_)
      unfold onValue
      cases daVal ((t.ctx k).DA f.r2.toNat) <;> rfl
  · intro n hr
    refine (execShrp_ends h h1 h2 hz hd rfl hr rfl).trans (congrArg _ ?_)
    unfold onValue
    cases daVal ((t.ctx k).DA f.r2.toNat) with
    | none => rfl
    | some a => exact retireDec_shifted t k f.r1.toNat n (f.imm14.toNat % 16) a
  · refine (execCvpb_ends h hf h3 h2 rfl).trans (congrArg _ ?_)
    unfold onValue
    cases daVal (((t.resumeCtx k).operands 0x97).DA f.r2.toNat) <;> rfl

end Sys2Proof.Machine

/-! SUPPORT. Maintenance of lines and the locking of ways (R208 to R215): how each instruction ends once its line or its way is known, and the
statements about them, O22 and O23. -/

namespace Sys2Proof.Machine

open Sys2Proof

/-! ## Maintenance of lines (R212 to R215) -/

section
variable {s t : State} {p k : Nat} (h : Fetched s p k 4 t)
include h

section
variable {f : FB} {a : Word} {u : Option Word} (hr : f.r1 = 0) (he : eaFB (t.ctx k) f 64 false false = some (a, u))
include hr he

/-- An instruction on one line whose body ends in `w` completes there, with the update of its base. -/
theorem maintInstr_completes {priv : Bool} (hp : (priv && (s.ctx k).sb bPS) = false) {body : State → Nat → Word → Except Stop State} {w : State}
    (hb : body t k a = .ok w) : maintInstr p f s priv body = .next (retire w k 4 ((w.ctx k).setBase f.b u)) := by
  refine instr_completes h hp (u := w.setCtx k ((w.ctx k).setBase f.b u)) ?_
  simp [he, hr, hb, bind, Except.bind]

section
variable {l : Nat} {t1 : State} (hl : maintLine t p k .load a = .ok (some l, t1))
include hl

theorem execPfetch_completes : execPfetch p f s = .next (retire t1 k 4 ((t1.ctx k).setBase f.b u))
    ∨ execPfetch p f s = .next (retire (addFill t1 p l .prefetch) k 4 (((addFill t1 p l .prefetch).ctx k).setBase f.b u)) := by
  cases hhave : otherOwners t1 p l != [] || (t1.eng p).l1d.any (·.line == l) || (t1.eng p).holdsD l with
  | true => exact .inl (maintInstr_completes h hr he rfl (by simp only [hl, hhave, if_true]))
  | false => exact .inr (maintInstr_completes h hr he rfl (by simp only [hl, hhave, Bool.false_eq_true, if_false]))

theorem execClnl_completes {t2 : State} (hs : settle t1 p k [l] = .ok t2) :
    execClnl p f s = .next (retire (writeBack t2 l) k 4 (((writeBack t2 l).ctx k).setBase f.b u)) :=
  maintInstr_completes h hr he rfl (by simp [hl, hs, bind, Except.bind])

theorem execFlsl_completes {t2 w : State} (hs : settle t1 p k [l] = .ok t2) (hw : dropDomes (writeBack t2 l) l (fun _ => true) = w) :
    execFlsl p f s = .next (retire w k 4 ((w.ctx k).setBase f.b u)) :=
  maintInstr_completes h hr he rfl (by simp [hl, hs, hw, bind, Except.bind])

theorem execIinvl_completes {w : State} (hw : (t1.updEng p fun e =>
      { e with l1i := e.l1i.filter (· != l)
               fills := e.fills.map fun x => if x.line == l && x.kind == .fetch then { x with drop := true } else x }) = w) :
    execIinvl p f s = .next (retire w k 4 ((w.ctx k).setBase f.b u)) :=
  maintInstr_completes h hr he rfl (by simp only [hl, hw, bind, Except.bind])

omit h hr he in
/-- An address whose line is known lies in a store. -/
theorem translate_of_maintLine : ∃ x t', translate t p k .load a = .ok (.mem x, t') := by
  unfold maintLine at hl
  cases htr : translate t p k .load a with
  | error e => rw [htr] at hl; cases hl
  | ok y =>
    obtain ⟨ph, t'⟩ := y
    rw [htr] at hl
    cases ph with
    | mem x => exact ⟨x, t', rfl⟩
    | page | window => cases hl

theorem execInvl_completes (hp : (s.ctx k).sb bPS = false) {t2 t3 w : State} (hst : maintLine t p k .store a = .ok (some l, t2))
    (ho : otherOwners t2 p l = []) (hop : (t2.ve k).opened = false) (hc : ownCommit t2 p k = .ok t3) (hw : dropDomes t3 l (fun _ => true) = w) :
    execInvl p f s = .next (retire w k 4 ((w.ctx k).setBase f.b u)) := by
  obtain ⟨x, t', htr⟩ := translate_of_maintLine hl
  exact maintInstr_completes (priv := true) h hr he hp (by simp [htr, hst, ho, hop, hc, hw, bind, Except.bind])

end
end

/-! ## A real range, and the locking of ways (R208 to R211, R215) -/

variable (hp : (s.ctx k).sb bPS = false) {f : FA}
include hp

theorem execInvr_completes (hr : f.r1 = 0) (hf : f.fn = 0) (h1 : 1 ≤ ((t.ctx k).G f.r3).toNat) (h2 : ((t.ctx k).G f.r3).toNat ≤ 1048576)
    {ls : List Nat} {t1 : State} (hls : realLines t (veInst k) ((t.ctx k).G f.r2).toNat ((t.ctx k).G f.r3).toNat = .ok ls)
    (hs : settle t p k ls = .ok t1) :
    execInvr p f s = .next (advance (ls.foldl (fun s l => dropDomes (writeBack s l) l fun _ => true) t1) k 4) := by
  have hform : (f.r1 != 0 || f.fn != 0 || decide (((t.ctx k).G f.r3).toNat < 1) || decide (((t.ctx k).G f.r3).toNat > 1048576)) = false := by
    simp [hr, hf]
    omega
  refine instr_completes (priv := true) h hp ?_
  simp only [hform, Bool.false_eq_true, if_false, hls, hs, bind, Except.bind]

section
variable {w : Nat} {x : WayLock} (hw : wayOf t (towerOf p) (veInst k) (f.fn.toNat % 4) = some (w, x))
include hw

theorem execLockw_queries (hf : f.fn.toNat / 4 = 64) (h2 : f.r2 = 0) (h3 : f.r3 = 0) :
    execLockw p f s = .next (retire t k 4 ((t.ctx k).setG f.r1 (BitVec.ofNat 64 (lkst w x)))) := by
  have hfield : f.fn.toNat % 256 / 4 = 0 := by omega
  have hquery : f.fn.getLsbD 8 = true := by
    rw [BitVec.getLsbD, Nat.testBit_eq_decide_div_mod_eq]
    simp
    omega
  refine instr_completes (priv := true) h hp (u := t.setCtx k ((t.ctx k).setG f.r1 (BitVec.ofNat 64 (lkst w x)))) ?_
  simp [hw, hfield, hquery, h2, h3]

theorem execLockw_locks (hf : f.fn.toNat / 4 = 0) (h1 : 1 ≤ ((t.ctx k).G f.r3).toNat) (h2 : ((t.ctx k).G f.r3).toNat ≤ 4096)
    (h3 : ((t.ctx k).G f.r2).toNat % 4096 + ((t.ctx k).G f.r3).toNat ≤ 4096) {m g : Nat} {t1 t2 t3 : State} {ls : List Nat}
    (htr : translate t p k .load ((t.ctx k).G f.r2) = .ok (.mem m, t1))
    (ht2 : (if x.locked then t1 else t1.updDome (towerOf p) fun y =>
      { y with locks := kvSet y.locks w { x with locked := true, held := 0, removed := 0 } }) = t2)
    (hls : linesOf m ((t.ctx k).G f.r3).toNat = ls) (hpl : placeLines t2 p (towerOf p) w ls = .ok (g, t3)) :
    execLockw p f s = .next (retire t3 k 4 (((t3.ctx k).setG f.r1 (BitVec.ofNat 64 g)).setSb bZ (g == ls.length))) := by
  have hfield : f.fn.toNat % 256 / 4 = 0 := by omega
  have hquery : f.fn.getLsbD 8 = false := by
    rw [BitVec.getLsbD, Nat.testBit_eq_decide_div_mod_eq]
    simp
    omega
  have hrange : (decide (((t.ctx k).G f.r3).toNat < 1) || decide (((t.ctx k).G f.r3).toNat > 4096)
      || decide (((t.ctx k).G f.r2).toNat % 4096 + ((t.ctx k).G f.r3).toNat > 4096)) = false := by
    simp
    omega
  refine instr_completes (priv := true) h hp (u := t3.setCtx k (((t3.ctx k).setG f.r1 (BitVec.ofNat 64 g)).setSb bZ (g == ls.length))) ?_
  simp only [hw, hfield, hquery, hrange, bne_self_eq_false, Bool.false_eq_true, if_false, htr, ht2, hls, hpl, bind, Except.bind]

end

theorem execUnlkw_refuses
    (hf : f.r1 ≠ 0 ∨ f.r2 ≠ 0 ∨ f.r3 ≠ 0 ∨ 4 ≤ f.fn.toNat ∨ wayOf t (towerOf p) (veInst k) (f.fn.toNat % 4) = none) :
    execUnlkw p f s = .next (nullify t k 4 0x104) := by
  refine instr_nullified (priv := true) h hp ?_
  cases hw : wayOf t (towerOf p) (veInst k) (f.fn.toNat % 4) with
  | none => simp only [hw]
  | some y =>
    have hdiv : 4 ≤ f.fn.toNat ↔ f.fn.toNat / 4 ≠ 0 := by omega
    simp only [hw, reduceCtorEq, or_false, hdiv] at hf
    simp only [hw]
    exact if_pos (by simpa [or_assoc] using hf)

theorem execUnlkw_unlocks (h1 : f.r1 = 0) (h2 : f.r2 = 0) (h3 : f.r3 = 0) (hf : f.fn.toNat < 4) {w : Nat} {x : WayLock}
    (hw : wayOf t (towerOf p) (veInst k) f.fn.toNat = some (w, x)) :
    execUnlkw p f s = .next (advance (t.updDome (towerOf p) fun e =>
      { e with locks := kvSet e.locks w { x with locked := false, held := 0, removed := 0 }
               lines := e.lines.map fun z => if z.way == w then { z with locked := false } else z }) k 4) := by
  have hmod : f.fn.toNat % 4 = f.fn.toNat := Nat.mod_eq_of_lt hf
  have hdiv : f.fn.toNat / 4 = 0 := by omega
  refine instr_completes (priv := true) h hp ?_
  simp only [hmod, hw]
  exact if_neg (by simp [h1, h2, h3, hdiv])

end

/-- Settles O22: each instruction ends as its body does, once the operand's line or way is known and its holders have committed. -/
theorem cacheInstructionResults : Obligations.CacheInstructionResults := by
  unfold Obligations.CacheInstructionResults
  refine ⟨fun s t p k h => ⟨fun f a u l t1 hr he => ⟨fun hl => ?_, fun hl hp t2 t3 hst ho hop hc => ?_⟩,
    fun f ls t1 hr hf hp h1 h2 hls hs => execInvr_completes h hp hr hf h1 h2 hls hs⟩, fun s t p k w x f h hp hw => ⟨?_, ?_⟩⟩
  · exact ⟨execPfetch_completes h hr he hl, fun t2 hs => ⟨execClnl_completes h hr he hl hs, execFlsl_completes h hr he hl hs rfl⟩,
      execIinvl_completes h hr he hl rfl⟩
  · exact execInvl_completes h hr he hl hp hst ho hop hc rfl
  · exact execLockw_queries h hp hw
  · exact fun hf h1 h2 h3 m t1 htr g t3 hpl => execLockw_locks h hp hw hf h1 h2 h3 htr rfl rfl hpl

/-- The state of a way that is not locked and counts no line is its number alone. -/
theorem lkst_unlocked (w : Nat) (x : WayLock) : lkst w { x with locked := false, held := 0, removed := 0 } = w * 65536 := by
  simp [lkst, b2n]

/-- Settles O23: the privilege comes first, then the form and the handle, then the way is freed. -/
theorem unlockingAWay : Obligations.UnlockingAWay := by
  unfold Obligations.UnlockingAWay
  intro s t p k f h
  refine ⟨fun hp => instr_privileged h hp _, fun hp => ⟨execUnlkw_refuses h hp, fun w x h1 h2 h3 hf hw => ⟨lkst_unlocked w x, ?_⟩⟩⟩
  exact execUnlkw_unlocks h hp h1 h2 h3 hf hw

end Sys2Proof.Machine

/-! SUPPORT. Line fills (R198, R214): the state that refutes O31. A fill adds its line to a dome, and in a table of domes whose keys do not rise
that puts the new value of the dome before an older one. -/

namespace Sys2Proof.Machine

open Sys2Proof

/-- The two copies of line 1 in M, while a fill of line 0 is under way in engine 32, of tower 2. -/
def fillBesideTwoCopies : State := { twoCopies with engines := [(32, { fills := [{ line := 0, kind := .load }] })] }

/-- The first byte of line 1 that is committed after a command. -/
def committedNext : Res → Option Byte
  | .next u => some (byteAt u 64)
  | _ => none

theorem committedNext_fill : committedNext (exec (.lineFillComplete 32 0) fillBesideTwoCopies) = some 2 := by
  show committedNext (execLineFillComplete 32 0 fillBesideTwoCopies) = some 2
  decide

theorem byteAt_fillBesideTwoCopies : byteAt fillBesideTwoCopies 64 = 1 := by decide

/-- Refutes O31: the fill of line 0 puts the new value of dome 2 before dome 5 in a table whose keys do not rise, and line 1, of which both
have a copy in M, is committed with the bytes of the other copy afterwards. -/
theorem not_lineFillsInstallTheirLine : ¬ Obligations.LineFillsInstallTheirLine := by
  unfold Obligations.LineFillsInstallTheirLine
  intro hfills
  obtain ⟨u, hu, -, -, hbytes⟩ := hfills fillBesideTwoCopies 32 0 { line := 0, kind := .load } (by decide)
  have hafter : byteAt u 64 = 2 := by
    have h := committedNext_fill
    rw [hu] at h
    exact Option.some.inj h
  have hsame : (2 : Byte) = 1 := calc
    2 = byteAt u 64 := hafter.symm
    _ = byteAt fillBesideTwoCopies 64 := hbytes (by decide) 64
    _ = 1 := byteAt_fillBesideTwoCopies
  exact absurd hsame (by decide)

end Sys2Proof.Machine

/-! SUPPORT. Faults and what they leave (R32, R71, R331, R340, R368): what is logged, and what the loss of instances keeps of the stores and of the
Belfry. -/

namespace Sys2Proof.Machine

open Sys2Proof

section
variable {s t u : State}

/-! ## What a command leaves as it is before it acts -/

@[simp] theorem State.quiet_live (s : State) : s.quiet.live = s.live := rfl
@[simp] theorem lineExists_quiet (s : State) (l : Nat) : lineExists s.quiet l = lineExists s l := rfl

/-! ## What a fault records -/

/-- `t` is `s` but for what is logged and sent, and what the self-test controller notes of spares and repairs. -/
def Records (s t : State) : Prop := ∃ o fs b ts, t = { s with out := o, hp := { s.hp with fns := fs }, bel := b, tst := ts }

theorem Records.refl (s : State) : Records s s := ⟨_, _, _, _, rfl⟩

theorem Records.trans (h : Records s t) (g : Records t u) : Records s u := by
  obtain ⟨_, _, _, _, rfl⟩ := h
  obtain ⟨_, _, _, _, rfl⟩ := g
  exact ⟨_, _, _, _, rfl⟩

theorem Records.eng (h : Records s t) (p : Nat) : t.eng p = s.eng p := by obtain ⟨_, _, _, _, rfl⟩ := h; rfl
theorem Records.ve (h : Records s t) (k : Nat) : t.ve k = s.ve k := by obtain ⟨_, _, _, _, rfl⟩ := h; rfl
theorem Records.clk (h : Records s t) : t.clk = s.clk := by obtain ⟨_, _, _, _, rfl⟩ := h; rfl
theorem Records.mem (h : Records s t) : t.mem = s.mem := by obtain ⟨_, _, _, _, rfl⟩ := h; rfl

theorem logEvent_records (s : State) (e : LogEntry) : Records s (logEvent s e) := by
  obtain ⟨o, fs, b, h, -⟩ := logEvent_frame s e
  exact ⟨o, fs, b, s.tst, h⟩

theorem scheduleFuse_records (s : State) (x : UnitId) (kind : Nat) : Records s (scheduleFuse s x kind) := by
  unfold scheduleFuse
  split
  · exact Records.refl s
  · split
    · exact Records.refl s
    · split
      · exact logEvent_records s _
      · exact Records.trans ⟨s.out, s.hp.fns, s.bel, _, rfl⟩ (logEvent_records _ _)

theorem noteSpares_records (s : State) (d : Nat) : Records s (noteSpares s d) := by
  unfold noteSpares
  dsimp only
  split
  · exact ⟨s.out, s.hp.fns, s.bel, _, rfl⟩
  · split
    · exact Records.refl s
    · exact Records.trans ⟨s.out, s.hp.fns, s.bel, _, rfl⟩ (logEvent_records _ _)

/-! ## What the log leaves of the Belfry -/

theorem notify_keeps (s : State) (c : Bool) (b : Belfry) (q : Option Nat) (v : Nat) :
    let u := if c = true then sendMsix { s with bel := { b with outstanding := q } } 0 v else { s with bel := b }
    u.bel.fatal = b.fatal ∧ u.bel.merges = b.merges := by
  cases c with
  | true =>
    have hbel := (sendMsix_posts 0 0 v { s with bel := { b with outstanding := q } }).bel
    simp only [if_true, hbel, and_self]
  | false => exact ⟨rfl, rfl⟩

theorem logWrite_keeps (s : State) (e : LogEntry) : (logWrite s e).bel.fatal = s.bel.fatal ∧ (logWrite s e).bel.merges = s.bel.merges := by
  unfold logWrite
  split
  · exact ⟨rfl, rfl⟩
  · exact notify_keeps s _ _ _ _

theorem logWrite_last (s : State) (e : LogEntry) (h : s.bel.stopped = false) :
    (logWrite s e).bel.log.getLast? = some { e with eseq := s.bel.eseq } := by
  obtain ⟨b, hposts, -, hlast⟩ := logWrite_posts s e
  rw [hposts.bel]
  exact (hlast h).2.2

theorem flushMerge_fatal (s : State) (m : Merge) : (flushMerge s m).bel.fatal = s.bel.fatal := by
  unfold flushMerge
  dsimp only
  split
  · rfl
  · exact (logWrite_keeps _ _).1

theorem logEvent_fatal (s : State) (e : LogEntry) : (logEvent s e).bel.fatal = s.bel.fatal := by
  unfold logEvent
  split
  · exact (logWrite_keeps s e).1
  · split
    · split
      · rfl
      · exact (logWrite_keeps _ e).1.trans (flushMerge_fatal s _)
    · exact (logWrite_keeps s e).1

/-! ## What the loss of an instance keeps (R71, R368) -/

/-- The runs of parity errors of the main-store ports, and whether a device-fatal fault has been. -/
def State.alarms (s : State) : KV Parity × Bool := (s.mem.parity, s.bel.fatal)

theorem State.alarms_eq (hm : t.mem = s.mem) (hb : t.bel = s.bel) : t.alarms = s.alarms := by
  unfold State.alarms
  rw [hm, hb]

theorem Posts.alarms {n : Nat} (h : Posts n s t) : t.alarms = s.alarms := State.alarms_eq h.mem h.bel

theorem logEvent_alarms (s : State) (e : LogEntry) : (logEvent s e).alarms = s.alarms := by
  unfold State.alarms
  rw [logEvent_fatal, (logEvent_records s e).mem]

theorem completeNow_alarms (s : State) (n seq st d c : Nat) (b : List Byte) : (completeNow s n seq st d c b).alarms = s.alarms :=
  (completeNow_posts n seq st d c b s).alarms

theorem sendSlots_alarms (s : State) (l : List (List Byte)) : (sendSlots s l).alarms = s.alarms := by
  induction s, l using sendSlots.induct with
  | case1 s => rfl
  | case2 s a => rfl
  | case3 s a b => rfl
  | case4 s a b c l ih => exact ih

theorem sendGroup_alarms (s : State) (k : Nat) : (sendGroup s k).alarms = s.alarms := by
  unfold sendGroup
  split
  · split
    · rfl
    · dsimp only
      split
      · exact sendSlots_alarms _ _
      · rfl
  · rfl

theorem closeGroup_alarms (s : State) (i n : Nat) (l : List MLine) (a : Deferred) : (closeGroup s i n l a).alarms = s.alarms := by
  unfold closeGroup sendGroups
  exact (foldl_keeps State.alarms sendGroup_alarms _ _).trans (State.alarms_eq rfl rfl)

theorem closeHub_alarms (s : State) (i n : Nat) (a : Deferred) : (closeHub s i n a).alarms = s.alarms := by
  unfold closeHub
  exact (closeGroup_alarms _ _ _ _ _).trans (State.alarms_eq rfl rfl)

theorem complete_alarms (s : State) (n seq st d c : Nat) (b : List Byte) : (complete s n seq st d c b).alarms = s.alarms := by
  unfold complete
  split
  · split
    · rfl
    · split
      · rfl
      · exact (closeHub_alarms _ _ _ _).trans (State.alarms_eq rfl rfl)
  · exact completeNow_alarms s n seq st d c b

theorem freeDispatch_alarms (s : State) (r : Request) : (freeDispatch s r).alarms = s.alarms := by
  unfold freeDispatch
  split <;> rfl

@[simp] theorem State.updEng_alarms (s : State) (p : Nat) (f : Engine → Engine) : (s.updEng p f).alarms = s.alarms := rfl
@[simp] theorem State.updDome_alarms (s : State) (d : Nat) (f : Dome → Dome) : (s.updDome d f).alarms = s.alarms := rfl
@[simp] theorem State.updVe_alarms (s : State) (k : Nat) (f : VE → VE) : (s.updVe k f).alarms = s.alarms := rfl
@[simp] theorem State.updInst_alarms (s : State) (i : Nat) (f : Inst → Inst) : (s.updInst i f).alarms = s.alarms := rfl

theorem leaveEngine_alarms (s : State) (p k : Nat) : (leaveEngine s p k).alarms = s.alarms := by
  have hwin : (rollWindow s (towerOf p)).alarms = s.alarms := by
    unfold rollWindow
    dsimp only
    split <;> rfl
  simp [leaveEngine, chargeTime, hwin]

/-! ### A rollback (R330) -/

theorem dropDomes_foldl_keeps (s : State) (q : Nat → Bool) (ls : List Nat) : let u := ls.foldl (fun s l => dropDomes s l q) s
    u.ves = s.ves ∧ u.mem = s.mem ∧ u.bel = s.bel ∧ u.clk = s.clk := by
  simpa only [Prod.mk.injEq] using
    foldl_keeps (fun s : State => (s.ves, s.mem, s.bel, s.clk)) (f := fun s l => dropDomes s l q) (fun _ _ => rfl) ls s

theorem rollback_keeps (s : State) (p : Nat) :
    (rollback s p).mem = s.mem ∧ (rollback s p).bel = s.bel ∧ (rollback s p).clk = s.clk := by
  unfold rollback
  extract_lets t lost dropped k cleared
  obtain ⟨-, hkept⟩ := dropDomes_foldl_keeps s (· == t) lost
  cases k with
  | some k => exact hkept
  | none => exact hkept

theorem rollback_alarms (s : State) (p : Nat) : (rollback s p).alarms = s.alarms :=
  by
  obtain ⟨hmem, hbel, -⟩ := rollback_keeps s p
  exact State.alarms_eq hmem hbel

/-! ### The instance off the module -/

theorem withdrawAll_alarms (s : State) (i : Nat) : (withdrawAll s i).alarms = s.alarms := by
  unfold withdrawAll
  exact State.alarms_eq rfl rfl

theorem stopInst_alarms (s : State) (i : Nat) : (stopInst s i).alarms = s.alarms := by
  unfold stopInst
  extract_lets off idle
  have hoff : off.alarms = s.alarms := by
    refine foldl_keeps State.alarms (fun s e => ?_) _ s
    exact (leaveEngine_alarms _ _ _).trans (rollback_alarms s _)
  calc _ = idle.alarms := State.alarms_eq rfl rfl
    _ = off.alarms := withdrawAll_alarms off i
    _ = s.alarms := hoff

theorem pushHold_alarms (s : State) (g d n : Nat) : (pushHold s g d n).alarms = s.alarms := rfl

theorem setJobs_alarms (s : State) (cz : Bool) (l : List Job) : (s.setJobs cz l).alarms = s.alarms := by
  cases cz <;> rfl

theorem dropJobs_alarms (s : State) (i : Nat) : (dropJobs s i).alarms = s.alarms := by
  unfold dropJobs
  extract_lets free freed noXce noCze
  have hfree (cz : Bool) (s : State) : (free cz s).alarms = s.alarms := foldl_keeps State.alarms (fun s _ => pushHold_alarms s _ _ _) _ s
  have hslots (l : List Nat) (f : State → Nat → KV Page) : (l.foldl (fun s pg => { s with pages := f s pg }) noCze).alarms = noCze.alarms :=
    foldl_keeps State.alarms (f := fun s pg => { s with pages := f s pg }) (fun _ _ => rfl) l noCze
  calc _ = noCze.alarms := hslots _ _
    _ = noXce.alarms := setJobs_alarms _ _ _
    _ = freed.alarms := setJobs_alarms _ _ _
    _ = s.alarms := (hfree true _).trans (hfree false s)

theorem failRequests_alarms (s : State) (n : Nat) : (failRequests s n).alarms = s.alarms :=
  foldl_keeps State.alarms (fun s r => (completeNow_alarms _ _ _ _ _ _ _).trans (freeDispatch_alarms s r)) _ s

theorem failCommands_alarms (s : State) (i : Nat) : (failCommands s i).alarms = s.alarms := by
  refine foldl_keeps State.alarms (fun s op => ?_) _ s
  split
  · exact complete_alarms _ _ _ _ _ _ _
  · rfl

theorem stopFetch_alarms (s : State) (n : Nat) : (stopFetch s n).alarms = s.alarms := rfl

theorem faultNow_alarms (s : State) (i : Nat) : (faultNow s i).alarms = s.alarms := by
  unfold faultNow
  dsimp only
  split
  · rfl
  · rw [State.updInst_alarms, failCommands_alarms, dropJobs_alarms, failRequests_alarms, stopFetch_alarms, stopInst_alarms]

theorem dropRequests_alarms (s : State) (n : Nat) : (dropRequests s n).alarms = s.alarms := by
  unfold dropRequests
  extract_lets freed
  calc _ = freed.alarms := State.alarms_eq rfl rfl
    _ = s.alarms := foldl_keeps State.alarms freeDispatch_alarms _ s

theorem State.withUnits_alarms (s : State) (c : Css) (tw : Twin) : ({ s with css := c, twin := tw } : State).alarms = s.alarms := rfl

theorem leaveModule_alarms (s : State) (i : Nat) : (leaveModule s i).alarms = s.alarms := by
  unfold leaveModule
  rw [State.updInst_alarms, failCommands_alarms, State.withUnits_alarms, dropRequests_alarms, dropJobs_alarms, stopFetch_alarms, stopInst_alarms]

theorem surrender_alarms (s : State) (i cls : Nat) : (surrender s i cls).alarms = s.alarms := by
  unfold surrender
  dsimp only
  rw [logEvent_alarms]
  split
  · exact (sendSlots_alarms _ _).trans (leaveModule_alarms s i)
  · exact leaveModule_alarms s i

/-- A device-fatal fault leaves the runs of parity errors as they are, and its mark. -/
theorem deviceFatal_alarms (s : State) (d src un : Nat) : (deviceFatal s d src un).alarms = (s.mem.parity, true) := by
  have hloss (s : State) (i : Nat) : (if s.covered i && decide (s.twin.link ≥ 2) then surrender s i 6 else faultNow s i).alarms = s.alarms := by
    split
    · exact surrender_alarms s i 6
    · exact faultNow_alarms s i
  unfold deviceFatal
  refine (foldl_keeps State.alarms hloss _ _).trans ?_
  unfold State.alarms
  rw [(logEvent_records s _).mem]

end

end Sys2Proof.Machine

/-! SUPPORT. The recovery ladder (R326 to R331): the events of an engine that has faulted, each in the state in which it acts. -/

namespace Sys2Proof.Machine

open Sys2Proof

/-! ## The time that an event brings (assumption log 11) -/

/-- The timebase once a time `t` has come. -/
def State.tbAfter (s : State) (t : Nat) : Nat := if s.clk.tb < t then t % 2 ^ 64 else s.clk.tb

theorem VE.after_csn (v : VE) (d : Nat) : (v.after d).csn = v.csn := by
  unfold VE.after
  split <;> rfl

theorem passUntil_reaches (s : State) (t : Nat) : ∃ vs, passUntil s t = { s with clk := { s.clk with tb := s.tbAfter t }, ves := vs }
    ∧ ∀ k, (kvGet {} vs k).csn = (s.ve k).csn := by
  unfold passUntil State.tbAfter
  split
  next h =>
    refine ⟨_, ?_, fun k => (congrArg VE.csn (tick_ve s (t - s.clk.tb) k)).trans (VE.after_csn _ _)⟩
    rw [← Nat.add_sub_cancel' h.le, Nat.add_sub_cancel_left]
    rfl
  · exact ⟨s.ves, rfl, fun _ => rfl⟩

section
variable {s : State} {p : Nat} {c : EngineCause} (h : s.live = true)
include h

/-! ## A fault that a retry clears (R329) -/

theorem engineFaultDetected_logs {n : Nat} (hf : (s.eng p).fenced = false) (hr : (s.eng p).phase = .run)
    (hc : c = .residue ∨ c = .registerParity ∨ c = .microcode) (hn : n = 1 ∨ n = 2) : execEngineFaultDetected p c n s
      = .next (logEvent (if c = .microcode then s.quiet.setEng p { s.eng p with cs := reloaded s (s.eng p).cs false } else s.quiet)
          { engineEntry s.quiet 1 1 p 1 { cause := causeCode c, tb := s.clk.tb, ve := (s.eng p).ve } with ref := 0 }) := by
  unfold execEngineFaultDetected
  rcases hc with rfl | rfl | rfl <;> rcases hn with rfl | rfl <;> exact if_neg (by simp [h, hf, hr])

end

theorem State.eng_updEng_other (s : State) {p j : Nat} (h : p ≠ j) (f : Engine → Engine) : (s.updEng p f).eng j = s.eng j := by
  unfold State.updEng
  rw [State.eng_setEng, if_neg h]

theorem State.updVe_eng (s : State) (k p : Nat) (f : VE → VE) : (s.updVe k f).eng p = s.eng p := rfl

theorem dropCommitGroup_eng (s : State) (p j : Nat) : (dropCommitGroup s p).eng j = s.eng j := rfl

theorem dropCommitGroup_clk (s : State) (p : Nat) : (dropCommitGroup s p).clk = s.clk := rfl

/-! ## A checkstop (R201, R326, R330) -/

theorem dropDomes_ve (s : State) (l : Nat) (q : Nat → Bool) (p : Nat) : ((dropDomes s l q).eng p).ve = (s.eng p).ve := by
  unfold State.eng kvGet dropDomes dropL1
  dsimp only
  rw [kvFind_kvMap]
  cases kvFind s.engines p with
  | none => rfl
  | some e =>
    dsimp only [Option.map_some, Option.getD_some]
    split <;> rfl

theorem dropDomes_badSlots (s : State) (l : Nat) (q : Nat → Bool) (d : Nat) : ((dropDomes s l q).dome d).badSlots = (s.dome d).badSlots := by
  have hinvalid (x : Dome) : (x.invalidate l).badSlots = x.badSlots := by
    unfold Dome.invalidate
    split <;> rfl
  unfold State.dome kvGet dropDomes dropL1
  dsimp only
  rw [kvFind_kvMap]
  cases kvFind s.domes d with
  | none => rfl
  | some x =>
    dsimp only [Option.map_some, Option.getD_some]
    split
    · exact hinvalid x
    · rfl

section
variable (s : State) (p : Nat)

theorem dropDomes_foldl_ve (q : Nat → Bool) (ls : List Nat) : ((ls.foldl (fun s l => dropDomes s l q) s).eng p).ve = (s.eng p).ve :=
  foldl_keeps (fun s : State => (s.eng p).ve) (f := fun s l => dropDomes s l q) (fun s l => dropDomes_ve s l q p) ls s

theorem rollback_eng : ((rollback s p).eng p).l1d = [] ∧ ((rollback s p).eng p).commit = none ∧ ((rollback s p).eng p).ve = (s.eng p).ve := by
  unfold rollback
  extract_lets t lost dropped k cleared
  have hcleared : (cleared.eng p).l1d = [] ∧ (cleared.eng p).commit = none ∧ (cleared.eng p).ve = (s.eng p).ve := by
    unfold cleared
    rw [State.eng_updEng_same]
    exact ⟨rfl, rfl, dropDomes_foldl_ve s p _ lost⟩
  cases k with
  | some k => exact hcleared
  | none => exact hcleared

/-- The virtual engine on the engine is at its checkpoint, which stays in its slot. -/
theorem rollback_ve {k : Nat} (hk : (s.eng p).ve = some k) : ((rollback s p).ve k).cur = (s.ve k).ckpt
    ∧ ((rollback s p).ve k).hasCtx = (s.ve k).hasCtx ∧ ((rollback s p).ve k).tower = (s.ve k).tower
    ∧ ((rollback s p).ve k).slot = (s.ve k).slot := by
  unfold rollback
  extract_lets t lost dropped on cleared
  have hon : on = some k := (dropDomes_foldl_ve s p _ lost).trans hk
  have hve : cleared.ve k = s.ve k := State.ve_congr (dropDomes_foldl_keeps s (· == t) lost).1 k
  rw [hon]
  dsimp only
  rw [State.ve_updVe_same, hve]
  exact ⟨rfl, rfl, rfl, rfl⟩

theorem rollback_badSlots (d : Nat) : ((rollback s p).dome d).badSlots = (s.dome d).badSlots := by
  unfold rollback
  extract_lets t lost dropped k cleared
  have hdropped : (dropped.dome d).badSlots = (s.dome d).badSlots :=
    foldl_keeps (fun s : State => (s.dome d).badSlots) (f := fun s l => dropDomes s l (· == t)) (fun s l => dropDomes_badSlots s l _ d) lost s
  cases k with
  | some k => exact hdropped
  | none => exact hdropped

/-- An engine that begins its quick check after a fault of cause `c` at time `tb`. -/
def Engine.checked (c : EngineCause) (tb : Nat) (x : Engine) : Engine :=
  { x with lastStop := some tb, phase := .quickCheck, recovery := { cause := causeCode c, tb := tb, since := tb, ve := x.ve } }

/-- Engine `p`, at its checkpoint, in the quick check. -/
def quickChecked (c : EngineCause) : State := (dropCommitGroup (rollback s p) p).updEng p (Engine.checked c s.clk.tb)

variable {s p} {c : EngineCause}

theorem quickChecked_eng : (quickChecked s p c).eng p = ((rollback s p).eng p).checked c s.clk.tb := by
  rw [quickChecked, State.eng_updEng_same, dropCommitGroup_eng]

theorem quickChecked_keeps : (quickChecked s p c).ves = (rollback s p).ves ∧ (quickChecked s p c).domes = (rollback s p).domes
    ∧ (quickChecked s p c).mem = (rollback s p).mem := by
  unfold quickChecked dropCommitGroup
  simp only [State.updEng_ves, State.updEng_domes, State.updEng_mem, and_self]

theorem damaged_quickChecked {k : Nat} (hk : (s.eng p).ve = some k) : damaged (quickChecked s p c) k = damaged s k := by
  obtain ⟨-, hctx, htower, hslot⟩ := rollback_ve s p hk
  obtain ⟨hves, hdomes, -⟩ := quickChecked_keeps (s := s) (p := p) (c := c)
  have hdome (d : Nat) : ((quickChecked s p c).dome d).badSlots = (s.dome d).badSlots := by
    rw [← rollback_badSlots s p d, State.dome, hdomes, State.dome]
  unfold damaged
  rw [State.ve_congr hves, hctx, htower, hslot, hdome]

section
variable (hf : (s.eng p).fenced = false) (hph : (s.eng p).phase ≠ .quickCheck) (hr : (s.eng p).role = .dispatch)
  (hl : ∀ t, (s.eng p).lastStop = some t → t + 100000000 ≤ s.clk.tb) (hd : ∀ k, (s.eng p).ve = some k → damaged s k = false)
include hf hph hr hl hd

/-- The first checkstop within a second, of an engine whose checkpoint is in a good slot. -/
theorem checkstop_quickChecks : checkstop s p c = quickChecked s p c := by
  have hclk : (dropCommitGroup (rollback s p) p).clk = s.clk := by
    rw [dropCommitGroup_clk, (rollback_keeps s p).2.2]
  have hphase : ((s.eng p).phase == .quickCheck) = false := beq_eq_false_iff_ne.mpr hph
  have hgood (k : Nat) (hk : (s.eng p).ve = some k) : damaged (quickChecked s p c) k = false := (damaged_quickChecked hk).trans (hd k hk)
  have hslot : (match (s.eng p).ve with
      | some k => if damaged (quickChecked s p c) k then loseCheckpoint (quickChecked s p c) (towerOf p) k else quickChecked s p c
      | none => quickChecked s p c) = quickChecked s p c := by
    cases hk : (s.eng p).ve with
    | none => rfl
    | some k => exact if_neg (by rw [hgood k hk]; exact Bool.false_ne_true)
  have hspare : ((s.eng p).ve.isNone && ((s.eng p).role == .spare || (s.eng p).role == .reserve) && (s.eng p).standFor.isNone) = false := by
    rw [hr]
    cases (s.eng p).ve.isNone <;> rfl
  refine Eq.trans ?_ hslot
  unfold checkstop quickChecked Engine.checked
  simp only [hf, hphase, hspare, hclk, Bool.or_false, Bool.false_eq_true, if_false]
  cases hlast : (s.eng p).lastStop with
  | none => rfl
  | some t =>
    have hlong : decide (s.clk.tb < t + 100000000) = false := decide_eq_false (not_lt.mpr (hl t hlast))
    simp only [hlong]
    rfl

theorem engineCheckstop_quickChecks (h : s.live = true) (hp : p < 136) (ht : towerOf p < s.variant.towers) :
    ∃ u, execEngineCheckstop p c s = .next u ∧ (u.eng p).phase = .quickCheck ∧ (u.eng p).lastStop = some s.clk.tb
      ∧ (u.eng p).recovery = { cause := causeCode c, tb := s.clk.tb, since := s.clk.tb, ve := (s.eng p).ve }
      ∧ (u.eng p).l1d = [] ∧ (u.eng p).commit = none ∧ (∀ k, (s.eng p).ve = some k → u.ctx k = (s.ve k).ckpt) ∧ u.mem = s.mem := by
  have hexec : execEngineCheckstop p c s = .next (quickChecked s.quiet p c) := by
    unfold execEngineCheckstop
    simp only [State.quiet_live, h, hp, ht, State.quiet_variant, decide_true, Bool.and_self, if_true]
    rw [checkstop_quickChecks (s := s.quiet) hf hph hr hl hd]
  obtain ⟨hl1d, hcommit, hve⟩ := rollback_eng s.quiet p
  obtain ⟨hves, -, hmem⟩ := quickChecked_keeps (s := s.quiet) (p := p) (c := c)
  refine ⟨_, hexec, ?_⟩
  rw [quickChecked_eng]
  refine ⟨rfl, rfl, congrArg (Recovery.mk (causeCode c) s.clk.tb s.clk.tb) hve, hl1d, hcommit, fun k hk => ?_,
    hmem.trans (rollback_keeps s.quiet p).1⟩
  exact (congrArg VE.cur (State.ve_congr hves k)).trans (rollback_ve s.quiet p hk).1

end
end

/-! ## Sparing (R331) -/

/-- An engine in the place of another, its caches walked (R207). -/
def Engine.placed (x : Engine) : Engine :=
  { x with l1d := [], l1i := [], fills := [], stream := {}, role := .dispatch, phase := .run, standFor := none }

section
variable (s : State) (p q : Nat)

/-- Engine `q` before it takes the work of another. -/
def spareReady : State := (walkL1 s q).updEng q fun e => { e with role := .dispatch, phase := .run, standFor := none }

theorem spareReady_eng (j : Nat) : (spareReady s q).eng j = if q = j then (s.eng q).placed else s.eng j := by
  unfold spareReady walkL1 State.updEng
  simp only [State.eng_setEng]
  split <;> rfl

theorem takePlace_records (kind : Nat) (r : Recovery) : Records (moveVe (spareReady s q) p q) (takePlace s p q kind r) :=
  (logEvent_records _ _).trans ((scheduleFuse_records _ _ _).trans (noteSpares_records _ _))

theorem rollWindow_engines (d : Nat) : (rollWindow s d).engines = s.engines := by
  unfold rollWindow
  dsimp only
  split <;> rfl

/-- The role and the phase of every engine. -/
def State.posts (j : Nat) : Role × EPhase := ((s.eng j).role, (s.eng j).phase)

variable {s p}

theorem State.posts_of_engines {t : State} (h : t.engines = s.engines) : t.posts = s.posts := by
  funext j
  unfold State.posts State.eng
  rw [h]

theorem State.updEng_posts {f : Engine → Engine} (h : ∀ e, (f e).role = e.role ∧ (f e).phase = e.phase) : (s.updEng p f).posts = s.posts := by
  funext j
  unfold State.posts State.updEng
  rw [State.eng_setEng]
  split
  next hj => rw [(h _).1, (h _).2, hj]
  · rfl

theorem leaveEngine_posts (k : Nat) : (leaveEngine s p k).posts = s.posts := by
  refine (State.updEng_posts ?_).trans (State.posts_of_engines ?_)
  · exact fun _ => ⟨rfl, rfl⟩
  · simp only [chargeTime, State.updVe_engines, State.updDome_engines, rollWindow_engines]

/-- A virtual engine that is moved changes no engine's role or phase. -/
theorem moveVe_posts : (moveVe s p q).posts = s.posts := by
  unfold moveVe
  split
  · rfl
  · have hoff : (s.updEng p fun e => { e with ve := none }).posts = s.posts := State.updEng_posts fun _ => ⟨rfl, rfl⟩
    dsimp only
    split
    · exact (leaveEngine_posts _).trans hoff
    · refine (State.updEng_posts ?_).trans ((State.posts_of_engines ?_).trans hoff)
      · exact fun _ => ⟨rfl, rfl⟩
      · exact State.updVe_engines _ _ _

/-- The engine that takes another's place is dispatched to and runs. -/
theorem takePlace_posts (kind : Nat) (r : Recovery) : (takePlace s p q kind r).posts q = (.dispatch, .run) := by
  have hpost : (moveVe (spareReady s q) p q).posts q = (.dispatch, .run) := by
    rw [moveVe_posts, State.posts, spareReady_eng, if_pos rfl]
    rfl
  rw [← hpost, State.posts, (takePlace_records s p q kind r).eng q, State.posts]

theorem moveVe_moves {k : Nat} (hpq : p ≠ q) (hk : (s.eng p).ve = some k) (hi : (s.inst (veInst k)).st ≠ .quiescing) :
    (moveVe s p q).eng p = { s.eng p with ve := none } ∧ (moveVe s p q).eng q = { s.eng q with ve := some k }
      ∧ ((moveVe s p q).ve k).on = some q := by
  have hst : (((s.updEng p fun e => { e with ve := none }).inst (veInst k)).st == .quiescing) = false := beq_eq_false_iff_ne.mpr hi
  unfold moveVe
  simp only [hk, hst, Bool.false_eq_true, if_false]
  refine ⟨?_, ?_, ?_⟩
  · rw [State.eng_updEng_other _ hpq.symm, State.updVe_eng, State.eng_updEng_same]
  · rw [State.eng_updEng_same, State.updVe_eng, State.eng_updEng_other _ hpq]
  · rw [State.ve_congr (State.updEng_ves _ _ _), State.ve_updVe_same]

/-- Engine `q` takes the place of engine `p`, which runs virtual engine `k`. -/
theorem takePlace_moves {k kind : Nat} {r : Recovery} (hpq : p ≠ q) (hk : (s.eng p).ve = some k) (hi : (s.inst (veInst k)).st ≠ .quiescing) :
    (takePlace s p q kind r).eng p = { s.eng p with ve := none } ∧ (takePlace s p q kind r).eng q = { (s.eng q).placed with ve := some k }
      ∧ ((takePlace s p q kind r).ve k).on = some q := by
  have hp : (spareReady s q).eng p = s.eng p := by rw [spareReady_eng, if_neg hpq.symm]
  have hq : (spareReady s q).eng q = (s.eng q).placed := by rw [spareReady_eng, if_pos rfl]
  obtain ⟨hmp, hmq, hon⟩ := moveVe_moves (s := spareReady s q) q hpq (by rw [hp, hk]) hi
  have hrec := takePlace_records s p q kind r
  rw [hrec.eng p, hrec.eng q, hrec.ve k, hmp, hmq, hp, hq]
  exact ⟨rfl, rfl, hon⟩

end

/-! ## The ends of the quick check and of a bring-up (R330, R331) -/

/-- The commit point that a recovery goes on from, zero where no virtual engine was on the engine. -/
def State.resumed (s : State) (r : Recovery) : Nat :=
  match r.ve with
  | some k => (s.ve k).csn
  | none => 0

theorem engineEntry_names (s : State) (ev cls p n : Nat) (r : Recovery) :
    let e := engineEntry s ev cls p n r
    e.cls = cls ∧ (e.event, e.ladder, e.ref) = (ev, n, s.resumed r) := by
  unfold engineEntry State.resumed
  cases r.ve with
  | none => exact ⟨rfl, rfl⟩
  | some k => exact ⟨rfl, rfl⟩

/-- Engine `p` back in service after its quick check, its control store reloaded (R189). -/
def recovered (s : State) (p : Nat) : State := s.updEng p fun e => { e with phase := .run, cs := reloaded s e.cs false }

/-- The entry of the engine's return (R330). -/
def returnEntry (s : State) (p : Nat) (r : Recovery) : LogEntry := { engineEntry s 2 2 p 2 r with param := paramAt 52 4 (delayUs s r) }

section
variable {s : State} {p k : Nat} (h : s.live = true) (hf : (s.eng p).fenced = false) (hph : (s.eng p).phase = .quickCheck)
  (hk : (s.eng p).ve = some k) (hi : (s.inst (veInst k)).st ≠ .quiescing)

/-- The quick check may end: engine `p` is in it. -/
theorem quickCheck_guard (h : s.live = true) (hf : (s.eng p).fenced = false) (hph : (s.eng p).phase = .quickCheck) :
    (!s.quiet.live || (s.eng p).fenced || (s.eng p).phase != .quickCheck) = false := by
  rw [State.quiet_live, h, hf, hph]
  rfl

include h hf hph hk hi

theorem quickCheckEnd_returns {w : State} (hw : passUntil s.quiet ((s.eng p).recovery.since + 3100) = w) (hin : w.insts = s.insts) :
    execQuickCheckEnd p true s = .next (logEvent (recovered w p) (returnEntry (recovered w p) p (s.eng p).recovery)) := by
  have hst : (((recovered w p).inst (veInst k)).st == .quiescing) = false := by
    rw [State.inst, recovered, State.updEng_insts, hin]
    exact beq_eq_false_iff_ne.mpr hi
  unfold recovered at hst
  unfold execQuickCheckEnd
  simp only [quickCheck_guard h hf hph, State.quiet_eng, Bool.false_eq_true, if_false, if_true, hk, hw, hst]
  rfl

theorem quickCheckEnd_passes : ∃ u, execQuickCheckEnd p true s = .next u
    ∧ u.eng p = { s.eng p with phase := .run, cs := reloaded s (s.eng p).cs false } ∧ u.clk.tb = s.tbAfter ((s.eng p).recovery.since + 3100)
    ∧ (s.bel.stopped = false → u.bel.log.getLast?.map (fun x => (x.event, x.ladder, x.ref)) = some (2, 2, s.resumed (s.eng p).recovery)) := by
  obtain ⟨vs, hpass, hcsn⟩ := passUntil_reaches s.quiet ((s.eng p).recovery.since + 3100)
  generalize hw : passUntil s.quiet ((s.eng p).recovery.since + 3100) = w at hpass
  have hrec := logEvent_records (recovered w p) (returnEntry (recovered w p) p (s.eng p).recovery)
  refine ⟨_, quickCheckEnd_returns h hf hph hk hi hw (by rw [hpass]; rfl), ?_, ?_, fun hb => ?_⟩
  · rw [hrec.eng, recovered, State.eng_updEng_same, hpass]
    rfl
  · rw [hrec.clk, recovered, State.updEng_clk, hpass]
    rfl
  · obtain ⟨hcls, hnames⟩ := engineEntry_names (recovered w p) 2 2 p 2 (s.eng p).recovery
    have hresumed : (recovered w p).resumed (s.eng p).recovery = s.resumed (s.eng p).recovery := by
      unfold State.resumed
      cases (s.eng p).recovery.ve with
      | none => rfl
      | some j =>
        dsimp only
        rw [recovered, State.ve_congr (State.updEng_ves _ _ _), hpass]
        exact hcsn j
    have hbel : (recovered w p).bel.stopped = false := by
      rw [recovered, State.updEng_bel, hpass]
      exact hb
    rw [logEvent_eq_logWrite _ (by rw [returnEntry, hcls]; decide), logWrite_last _ _ hbel, ← hresumed]
    exact congrArg some hnames

/-- A quick check that fails, with an idle structural spare in the tower: the spare takes the engine's work. -/
theorem quickCheckEnd_fails {q : Nat}
    (hq : idleSpare (s.updEng p fun x => { x with fenced := true, phase := .run, standFor := none }) (towerOf p) = some q) :
    ∃ u, execQuickCheckEnd p false s = .next u ∧ (u.eng p).fenced = true ∧ (u.eng p).ve = none ∧ (u.eng q).role = .dispatch
      ∧ (u.eng q).ve = some k ∧ (u.eng q).l1d = [] ∧ (u.eng q).l1i = [] ∧ (u.ve k).on = some q := by
  obtain ⟨vs, hpass, -⟩ := passUntil_reaches s.quiet ((s.eng p).recovery.since + 3100)
  generalize hw : passUntil s.quiet ((s.eng p).recovery.since + 3100) = w at hpass
  have hengines : w.engines = s.engines := by rw [hpass]; rfl
  have heng (j : Nat) : w.eng j = s.eng j := by rw [State.eng, hengines, State.eng]
  generalize hv : (w.updEng p fun x => { x with fenced := true, phase := .run, standFor := none }) = v
  have hvp : v.eng p = { s.eng p with fenced := true, phase := .run, standFor := none } := by rw [← hv, State.eng_updEng_same, heng]
  have hspare : idleSpare v (towerOf p) = some q := by
    rw [← hq, ← hv, hpass]
    rfl
  have hpq : p ≠ q := by
    rintro rfl
    have hidle := List.find?_some hspare
    rw [hvp] at hidle
    simp at hidle
  have hexec : execQuickCheckEnd p false s = .next (takePlace v p q 0 (s.eng p).recovery) := by
    unfold execQuickCheckEnd
    simp only [quickCheck_guard h hf hph, State.quiet_eng, Bool.false_eq_true, if_false, hw]
    unfold spareEngine
    simp only [hv, hspare, heng]
  have hvi : (v.inst (veInst k)).st ≠ .quiescing := by
    rw [← hv, hpass]
    exact hi
  obtain ⟨hup, huq, hon⟩ := takePlace_moves (kind := 0) (r := (s.eng p).recovery) q hpq (by rw [hvp]; exact hk) hvi
  refine ⟨_, hexec, ?_⟩
  rw [hup, huq, hvp]
  exact ⟨rfl, rfl, rfl, rfl, rfl, rfl, hon⟩

end

theorem takePlace_clk (s : State) (p q kind : Nat) (r : Recovery) : (takePlace s p q kind r).clk = s.clk := by
  rw [(takePlace_records s p q kind r).clk]
  exact congrArg Prod.fst (moveVe_upkeep (spareReady s q) p q)

theorem fuseReserveUp_serves {s : State} (h : s.live = true) {t x : Nat} (hx : (s.eng (128 + t)).phase = .bringUp x)
    (hf : (s.eng (128 + t)).fenced = false) : ∃ u, execFuseReserveUp t s = .next u ∧ (u.eng (128 + t)).role = .dispatch
      ∧ (u.eng (128 + t)).phase = .run ∧ u.clk.tb = s.tbAfter ((s.eng (128 + t)).recovery.since + 4000) := by
  obtain ⟨vs, hpass, -⟩ := passUntil_reaches s.quiet ((s.eng (128 + t)).recovery.since + 4000)
  have hexec : execFuseReserveUp t s = .next (takePlace (passUntil s.quiet ((s.eng (128 + t)).recovery.since + 4000)) x (128 + t) 1
      (s.eng (128 + t)).recovery) := by
    unfold execFuseReserveUp
    simp only [State.quiet_eng, hx, hf, State.quiet_live, h, Bool.not_false, Bool.and_self, if_true]
  obtain ⟨hrole, hphase⟩ := Prod.mk.inj (takePlace_posts (s := passUntil s.quiet ((s.eng (128 + t)).recovery.since + 4000)) (p := x) (128 + t) 1
    (s.eng (128 + t)).recovery)
  refine ⟨_, hexec, hrole, hphase, ?_⟩
  rw [takePlace_clk, hpass]
  rfl

end Sys2Proof.Machine

/-! SUPPORT. Errors of caches and stores (R216, R224, R227, R237, R243, R244, R326, R340), and the statement about recovery, O56. -/

namespace Sys2Proof.Machine

open Sys2Proof

section
variable {s : State}

/-! ## Dome lines (R216) -/

theorem domeError_present {t l : Nat} (hp : (domeFind (s.dome t) l).isSome = true) :
    domeError s t l .clean = s ∧ domeError s t l .correctable = logCache s 2 t 3 ∧ domeError s t l .tagOne = logCache s 2 t 5
      ∧ domeError s t l .uncorrectable = domeLost s t l := by
  have hnone : ¬ (domeFind (s.dome t) l).isNone = true := by rw [Option.isNone_iff_eq_none, ← ne_eq, Option.ne_none_iff_isSome, hp]
  exact ⟨if_neg hnone, if_neg hnone, if_neg hnone, if_neg hnone⟩

/-- A clean copy with an uncorrectable code goes, except where an engine has written over it. -/
theorem domeLost_clean {t l : Nat} {x : DomeLine} (hx : domeFind (s.dome t) l = some x) (hst : x.st = .E ∨ x.st = .S) :
    domeLost s t l = logEvent (if (enginesOf t).any (fun q => (s.eng q).holdsD l) then s else dropDomes s l (· == t))
      { s.entry 0x10 1 2 t with detail := 4 } := by
  have hlost : domeLost s t l = logCache (if (enginesOf t).any (fun q => (s.eng q).holdsD l) then s else dropDomes s l (· == t)) 2 t 4 := by
    unfold domeLost
    rcases hst with hst | hst <;> simp only [hx, hst]
  rw [hlost]
  split <;> rfl

/-! ## Store lines (R237, R238, R244) -/

/-- Does a dome hold line `l` in a state that `q` selects? -/
def heldIn (s : State) (l : Nat) (q : DomeState → Bool) : Bool := s.domes.any fun d => d.2.lines.any fun x => x.line == l && q x.st

section
variable {l : Nat} (hl : lineExists s l = true) (hp : s.mem.poison.contains l = false)
include hl hp

theorem storeFail_newer (hm : heldIn s l (· == .M) = true) : storeFail s l = s := by
  unfold heldIn at hm
  unfold storeFail
  simp only [hl, hp, hm, Bool.not_true, Bool.or_self, Bool.false_or, if_true]

theorem storeFail_mended (hm : heldIn s l (· == .M) = false) (hc : heldIn s l (fun x => x == .S || x == .E) = true) : storeFail s l = logEvent s
    { s.entry 0x11 1 (storeUnit l).1 (storeUnit l).2 with addr := l * 64, detail := 3 } := by
  unfold heldIn at hm hc
  unfold storeFail
  simp only [hl, hp, hm, hc, Bool.not_true, Bool.or_self, Bool.false_eq_true, if_false, if_true]

end

/-! ## Scrubs and failed reads -/

variable (h : s.live = true)
include h

theorem execDomeScrub_finds {t l : Nat} (hs : (s.dome t).stopped = false) (e : LineError) :
    execDomeScrub t l e s = .next (domeError s.quiet t l e) := by
  unfold execDomeScrub
  simp only [State.quiet_live, h, State.quiet_dome, hs, Bool.not_false, Bool.and_self, if_true]

section
variable {t n : Nat} (hs : (s.dome t).stopped = false) (hn : n < 512) (hbad : (s.dome t).badSlots.contains n = false)
include hs hn hbad

theorem checkpointScrub_guard : (!s.quiet.live || (s.dome t).stopped || decide (n ≥ 512) || (s.dome t).badSlots.contains n) = false := by
  rw [State.quiet_live, h, hs, hbad, decide_eq_false (not_le.mpr hn)]
  rfl

theorem checkpointScrub_corrects : execCheckpointScrub t n .correctable s = .next (logCache s.quiet 2 t 3) := by
  unfold execCheckpointScrub
  simp only [State.quiet_dome, checkpointScrub_guard h hs hn hbad, Bool.false_eq_true, if_false]

/-- A damaged slot that holds no checkpoint is used no more. -/
theorem checkpointScrub_retires (hfree : ∀ x ∈ s.ves, ¬ (x.2.hasCtx = true ∧ x.2.tower = t ∧ x.2.slot = n)) :
    execCheckpointScrub t n .uncorrectable s
      = .next (s.quiet.setDome t { s.dome t with badSlots := (s.dome t).badSlots ++ [n] }) := by
  have hnone : s.quiet.ves.find? (fun e => e.2.hasCtx && e.2.tower == t && e.2.slot == n) = none := by
    refine List.find?_eq_none.mpr fun x hx => ?_
    simpa [and_assoc] using hfree x hx
  unfold execCheckpointScrub
  simp only [State.quiet_dome, checkpointScrub_guard h hs hn hbad, Bool.false_eq_true, if_false, hnone]
  rfl

end

theorem storeReadError_fails (l : Nat) : execStoreReadError l s = .next (storeFail s.quiet l) := by
  unfold execStoreReadError
  simp only [State.quiet_live, h, if_true]

section
variable {l : Nat} (hl : lineExists s l = true)
include hl

theorem storeScrub_meetsPoison (hp : s.mem.poison.contains l = true) (e : LineError) :
    execStoreScrub l e s = .next (logPoisoned s.quiet l) := by
  unfold execStoreScrub
  simp only [State.quiet_live, h, lineExists_quiet, hl, State.quiet_mem, hp, Bool.not_true, Bool.or_self,
    Bool.false_eq_true, if_false, if_true]

variable (hp : s.mem.poison.contains l = false)
include hp

theorem storeScrub_corrects : execStoreScrub l .correctable s = .next (logEvent s.quiet
    { s.entry 0x11 1 (storeUnit l).1 (storeUnit l).2 with addr := l * 64, detail := 1 }) := by
  unfold execStoreScrub
  simp only [State.quiet_live, h, lineExists_quiet, hl, State.quiet_mem, hp, Bool.not_true, Bool.or_self,
    Bool.false_eq_true, if_false]
  rfl

theorem storeScrub_fails : execStoreScrub l .uncorrectable s = .next (storeFail s.quiet l) := by
  unfold execStoreScrub
  simp only [State.quiet_live, h, lineExists_quiet, hl, State.quiet_mem, hp, Bool.not_true, Bool.or_self,
    Bool.false_eq_true, if_false]

end

/-! ## Address parity (R224) -/

/-- The window is repeated, and the fourth consecutive error is device-fatal. -/
theorem addressParityError_counts {port l : Nat} (hport : port < 32) (hl : l * 64 < 0x10000000) (hm : l % 32 = port) {x : Parity} {n : Nat}
    (hx : kvGet {} s.mem.parity port = x)
    (hn : (if x.line = l ∧ (x.tb = s.clk.tb ∨ (x.tb + 1 = s.clk.tb ∧ Config.pick s.free % 2 = 0)) then x.count + 1 else 1) = n) :
    ∃ u, execAddressParityError port l s = .next u ∧ u.mem.parity = kvSet s.mem.parity port { line := l, tb := s.clk.tb, count := n }
      ∧ u.bel.fatal = (s.bel.fatal || decide (4 ≤ n)) := by
  have hguard : (!s.quiet.live || decide (port ≥ 32) || decide (l * 64 ≥ 0x10000000) || portOf l != port) = false := by
    rw [State.quiet_live, h, decide_eq_false (not_le.mpr hport), decide_eq_false (not_le.mpr hl), portOf, hm]
    simp
  have hcount : (if (x.line == l && (x.tb == s.clk.tb || (x.tb + 1 == s.clk.tb && Config.pick s.free % 2 == 0))) = true
      then x.count + 1 else 1) = n := by
    rw [← hn]
    simp only [Bool.and_eq_true, Bool.or_eq_true, beq_iff_eq]
  generalize hv : ({ s.quiet.fresh.2 with
    mem := { s.mem with parity := kvSet s.mem.parity port { line := l, tb := s.clk.tb, count := n } } } : State) = v
  have halarms : v.alarms = (kvSet s.mem.parity port { line := l, tb := s.clk.tb, count := n }, s.bel.fatal) := by
    rw [← hv]
    rfl
  have hexec : execAddressParityError port l s = if n ≥ 4 then .next (deviceFatal v 3 5 (port / 2))
      else .next (logEvent v { v.entry 0x11 1 5 (port / 2) with addr := l * 64, detail := 2 }) := by
    unfold execAddressParityError State.fresh
    simp only [hguard, Bool.false_eq_true, if_false, State.quiet_mem, State.quiet_clk, State.quiet_free, hx, hcount]
    rw [← hv]
    rfl
  by_cases h4 : 4 ≤ n
  · obtain ⟨hparity, hfatal⟩ := Prod.mk.inj (deviceFatal_alarms v 3 5 (port / 2))
    refine ⟨_, hexec.trans (if_pos h4), hparity.trans (congrArg Prod.fst halarms), hfatal.trans ?_⟩
    rw [decide_eq_true h4, Bool.or_true]
  · obtain ⟨hparity, hfatal⟩ := Prod.mk.inj ((logEvent_alarms v { v.entry 0x11 1 5 (port / 2) with addr := l * 64, detail := 2 }).trans halarms)
    refine ⟨_, hexec.trans (if_neg h4), hparity, hfatal.trans ?_⟩
    rw [decide_eq_false h4, Bool.or_false]

/-! ## First-level caches (R216) -/

theorem cacheError_dropsInstructions {p l : Nat} (hl : (s.eng p).l1i.contains l = true) : execCacheError (.l1iLine p l) s
    = .next (logEvent (s.quiet.setEng p { s.eng p with l1i := (s.eng p).l1i.filter (· != l) })
        { s.entry 0x10 1 1 (engineUnit p) with detail := 1 }) := by
  unfold execCacheError
  simp only [State.quiet_live, h, Bool.not_true, Bool.false_eq_true, if_false, State.quiet_eng, hl, if_true]
  rfl

theorem cacheError_dropsData {p l : Nat} {x : L1Line} (hx : l1Find (s.eng p) l = some x) (hst : x.st ≠ .D) : execCacheError (.l1dLine p l) s
    = .next (logEvent (s.quiet.setEng p { s.eng p with l1d := (s.eng p).l1d.filter (·.line != l) })
        { s.entry 0x10 1 1 (engineUnit p) with detail := 2 }) := by
  have hclean : (x.st == .D) = false := beq_eq_false_iff_ne.mpr hst
  unfold execCacheError
  simp only [State.quiet_live, h, Bool.not_true, Bool.false_eq_true, if_false, State.quiet_eng, hx, hclean]
  rfl

/-! ## Check lines (R227) -/

omit h in
theorem checkLineWriteback_unchanged {a b : Nat} (hx : (s.mem.checks.find a b).bind (·.changed) = none) :
    execCheckLineWriteback a b s = .next s.quiet := by
  unfold execCheckLineWriteback
  simp only [State.quiet_mem, hx]

theorem checkLineWriteback_flushes {a b tb : Nat} (hx : (s.mem.checks.find a b).bind (·.changed) = some tb) :
    ∃ u, execCheckLineWriteback a b s = .next u ∧ u.clk.tb = s.tbAfter (tb + 200)
      ∧ u.mem = { s.mem with checks := s.mem.checks.flush a b } := by
  obtain ⟨vs, hpass, -⟩ := passUntil_reaches s.quiet (tb + 200)
  unfold execCheckLineWriteback
  simp only [State.quiet_live, h, State.quiet_mem, hx, if_true, hpass]
  exact ⟨_, rfl, rfl, rfl⟩

end

/-! ## Granules zeroed (R243) -/

theorem cellFind_filter_key (q : Nat → Bool) (c : List Host.Cell) (a : Nat) :
    cellFind (c.filter fun x => q x.1) a = if q a then cellFind c a else 0 := by
  induction c with
  | nil => simp [cellFind]
  | cons x c ih =>
    obtain ⟨k, b⟩ := x
    by_cases hk : k = a
    · subst hk
      cases hq : q k with
      | true => simp [cellFind, hq]
      | false => simp [hq, ih]
    · cases hq : q k <;> simp [cellFind, hq, hk, ih]

section
variable {s : State} {a n x : Nat}

theorem cellFind_zeroRange (s : State) (a n x : Nat) :
    cellFind (zeroRange s a n).mem.store x = if a ≤ x ∧ x < a + n then 0 else cellFind s.mem.store x := by
  refine (cellFind_filter_key (fun k => !(decide (a ≤ k) && decide (k < a + n))) s.mem.store x).trans ?_
  by_cases hin : a ≤ x ∧ x < a + n
  · simp [hin]
  · simp only [if_neg hin, ← Bool.decide_and, decide_eq_false hin, Bool.not_false, if_true]

/-- A line that lies whole in the zeroed range is committed with zeros. -/
theorem committed_zeroRange (ha : a % 64 = 0) (hn : n % 64 = 0) (h1 : a ≤ x) (h2 : x < a + n) :
    (committed (zeroRange s a n) (x / 64)).1 = zeros 64 := by
  have hin : (decide (a ≤ x / 64 * 64) && decide (x / 64 * 64 < a + n)) = true := by
    simp only [Bool.and_eq_true, decide_eq_true_eq]
    omega
  have hnone : (zeroRange s a n).domes.findSome? (fun d => d.2.lines.find? fun y => y.line == x / 64 && y.st == .M) = none := by
    refine List.findSome?_eq_none_iff.mpr fun d hd => List.find?_eq_none.mpr fun y hy hyl => ?_
    obtain ⟨d', -, rfl⟩ := List.mem_map.mp hd
    obtain ⟨hline, -⟩ := Bool.and_eq_true_iff.mp hyl
    have hout : (!(decide (a ≤ y.line * 64) && decide (y.line * 64 < a + n))) = true := (List.mem_filter.mp hy).2
    rw [beq_iff_eq.mp hline, hin] at hout
    cases hout
  have hline : (zeroRange s a n).mem.line (x / 64) = zeros 64 := by
    refine List.eq_replicate_iff.mpr ⟨by simp [Mem.line, storeRead], fun b hb => ?_⟩
    obtain ⟨i, hi, rfl⟩ := List.mem_map.mp hb
    rw [cellFind_zeroRange, if_pos]
    have := List.mem_range.mp hi
    omega
  unfold committed
  rw [hnone]
  exact hline

end

theorem poolBase_aligned (s : State) : s.poolBase % 64 = 0 := by
  unfold State.poolBase State.journalBytes
  omega

/-- Where a granule begins, and its size. -/
def granuleRange (s : State) (bulk : Bool) (g : Nat) : Nat × Nat :=
  (if bulk then 0x1000000000 + g * 2097152 else s.poolBase + g * 65536, if bulk then 2097152 else 65536)

theorem granuleRange_aligned (s : State) (bulk : Bool) (g : Nat) :
    (granuleRange s bulk g).1 % 64 = 0 ∧ (granuleRange s bulk g).2 % 64 = 0 := by
  have hbase := poolBase_aligned s
  unfold granuleRange
  cases bulk with
  | false =>
    show (s.poolBase + g * 65536) % 64 = 0 ∧ 65536 % 64 = 0
    omega
  | true =>
    show (0x1000000000 + g * 2097152) % 64 = 0 ∧ 2097152 % 64 = 0
    omega

theorem granuleZeroDone_zeroes {s : State} (h : s.live = true) {bulk : Bool} {g : Nat} (hz : s.zeroing.contains (bulk, g) = true) :
    execGranuleZeroDone bulk g s = .next (zeroRange { s.quiet with zeroing := s.zeroing.filter (· != (bulk, g)) }
      (granuleRange s bulk g).1 (granuleRange s bulk g).2) := by
  unfold execGranuleZeroDone granuleRange
  simp only [State.quiet_live, h, State.quiet_zeroing, hz, Bool.and_self, if_true]
  cases bulk with
  | false => rfl
  | true => rfl

/-! ## Merged entries (R340) -/

theorem flushMerge_ends (s : State) (m : Merge) (hb : s.bel.stopped = false) : (flushMerge s m).clk = s.clk
    ∧ (flushMerge s m).bel.merges = s.bel.merges.filter (fun x => !sameMerge m.last x)
    ∧ (m.count ≠ 0 → (flushMerge s m).bel.log.getLast? = some { m.last with count := m.count, eseq := s.bel.eseq })
    ∧ (m.count = 0 → (flushMerge s m).bel.log = s.bel.log) := by
  unfold flushMerge
  extract_lets b v
  by_cases h0 : m.count = 0
  · rw [if_pos (beq_iff_eq.mpr h0)]
    exact ⟨rfl, rfl, fun hne => absurd h0 hne, fun _ => rfl⟩
  · rw [if_neg (by simpa using h0)]
    exact ⟨congrArg Prod.fst (logWrite_upkeep v _), (logWrite_keeps v _).2, fun _ => logWrite_last v _ hb, fun h => absurd h h0⟩

theorem eventMergeFlush_ends {s : State} (h : s.live = true) {ev src un : Nat} {m : Merge}
    (hm : s.bel.merges.find? (fun m => m.event == ev && m.source == src && m.unit == un) = some m) (hb : s.bel.stopped = false) :
    ∃ u, execEventMergeFlush ev src un s = .next u ∧ u.clk.tb = s.tbAfter (m.tb0 + 100000000)
      ∧ u.bel.merges = s.bel.merges.filter (fun x => !sameMerge m.last x)
      ∧ (m.count ≠ 0 → u.bel.log.getLast? = some { m.last with count := m.count, eseq := s.bel.eseq })
      ∧ (m.count = 0 → u.bel.log = s.bel.log) := by
  obtain ⟨vs, hpass, -⟩ := passUntil_reaches s.quiet (m.tb0 + 100000000)
  generalize hw : passUntil s.quiet (m.tb0 + 100000000) = w at hpass
  have hexec : execEventMergeFlush ev src un s = .next (flushMerge w m) := by
    unfold execEventMergeFlush
    simp only [State.quiet_live, h, State.quiet_bel, hm, hb, Bool.not_false, Bool.and_self, if_true, hw]
  have hbel : w.bel = s.bel := by rw [hpass]; rfl
  have htb : w.clk.tb = s.tbAfter (m.tb0 + 100000000) := by rw [hpass]; rfl
  obtain ⟨hclk, hends⟩ := flushMerge_ends w m (by rw [hbel, hb])
  rw [hbel] at hends
  exact ⟨_, hexec, (congrArg Clk.tb hclk).trans htb, hends⟩

/-- Settles O56: each event in the state in which it acts. -/
theorem recoveryResults : Obligations.RecoveryResults := by
  unfold Obligations.RecoveryResults
  intro s p c h w e reach
  refine ⟨fun n hf hr hc hn => engineFaultDetected_logs h hf hr hc hn,
    fun hp ht hf hph hr hl hd => engineCheckstop_quickChecks hf hph hr hl hd h hp ht,
    fun hf hph k hk hi => ⟨quickCheckEnd_passes h hf hph hk hi, fun q hq => quickCheckEnd_fails h hf hph hk hi hq⟩,
    fun t x hx hf => fuseReserveUp_serves h hx hf, fun t l hs hl => ?domes, fun t n hs hn hbad => ?slots,
    fun l hl hp => ⟨storeScrub_meetsPoison h hl hp .clean, storeScrub_meetsPoison h hl hp .uncorrectable⟩, fun l hl hp => ?lines,
    fun port l hport hl hm => ?parity, fun l hl => cacheError_dropsInstructions h hl,
    fun l x hx hst => cacheError_dropsData h hx hst,
    fun a b => ⟨checkLineWriteback_unchanged, fun tb hx => checkLineWriteback_flushes h hx⟩, fun bulk g hz => ?granules,
    fun ev src un m hm hb => eventMergeFlush_ends h hm hb⟩
  case domes =>
    obtain ⟨hclean, hone, htag, hlost⟩ := domeError_present (s := s.quiet) hl
    refine ⟨(execDomeScrub_finds h hs _).trans (congrArg _ hclean), (execDomeScrub_finds h hs _).trans (congrArg _ hone),
      (execDomeScrub_finds h hs _).trans (congrArg _ htag), fun x hx hst => ?_⟩
    exact (execDomeScrub_finds h hs _).trans (congrArg _ (hlost.trans (domeLost_clean (s := s.quiet) hx hst)))
  case slots => exact ⟨checkpointScrub_corrects h hs hn hbad, checkpointScrub_retires h hs hn hbad⟩
  case lines =>
    refine ⟨storeScrub_corrects h hl hp, fun hm => ?_, fun hm hc => ?_⟩
    · have hsame := storeFail_newer (s := s.quiet) hl hp hm
      exact ⟨(storeScrub_fails h hl hp).trans (congrArg _ hsame), (storeReadError_fails h l).trans (congrArg _ hsame)⟩
    · have hmended := storeFail_mended (s := s.quiet) hl hp hm hc
      exact ⟨(storeScrub_fails h hl hp).trans (congrArg _ hmended), (storeReadError_fails h l).trans (congrArg _ hmended)⟩
  case parity =>
    intro x n
    exact addressParityError_counts h hport hl hm (x := x) (n := n) rfl rfl
  case granules =>
    obtain ⟨hbase, hsize⟩ := granuleRange_aligned s bulk g
    refine ⟨_, granuleZeroDone_zeroes h hz, rfl, fun a => ⟨fun ⟨h1, h2⟩ => ⟨?_, committed_zeroRange hbase hsize h1 h2⟩, fun hout => ?_⟩⟩
    · rw [cellFind_zeroRange]
      exact if_pos ⟨h1, h2⟩
    · rw [cellFind_zeroRange]
      exact if_neg fun ⟨h1, h2⟩ => hout.elim (fun hb => absurd h1 (not_le.mpr hb)) fun hs => absurd h2 (not_lt.mpr hs)

end Sys2Proof.Machine

/-! SUPPORT. Adapter messages (R264, R275): the state that refutes O60. The clause on a WAITINT asks for journal space in the state before the
message, the model in the state in which the operation's pieces are marked done. In a table of subchannels whose keys do not rise this update
lists the operation a second time, and the space it counts for started operations grows with it. -/

namespace Sys2Proof.Machine

open Sys2Proof

/-! ## A WAITINT that a message satisfies -/

/-- A message that an operation waits for goes to that operation. -/
theorem execAdapterMsix_waiter {s : State} {dev vec i n : Nat} (hlive : s.live = true) (hcss : s.css.stopped = false) (hn : n < 65536)
    (hw : waiterOf s dev vec = some (i * 65536 + n)) : execAdapterMsix dev vec s = .next (endWaitint s.quiet i n) := by
  have hw' : waiterOf s.quiet dev vec = some (i * 65536 + n) := hw
  have hi : (i * 65536 + n) / 65536 = i := by omega
  have hsub : (i * 65536 + n) % 65536 = n := by omega
  unfold execAdapterMsix
  simp only [show s.quiet.live = s.live from rfl, State.quiet_css, hlive, hcss, hw', Bool.not_true, Bool.or_self, Bool.false_eq_true, if_false, hi,
    hsub]

/-- Does the operation `e` wait for vector `vec` of device `dev`? -/
def awaits (dev vec : Nat) (e : Nat × Sub) : Bool :=
  e.2.st == .active && e.2.device == dev && cceCmd (curCce e.2) == 0x23 && cceAddr (curCce e.2) % 2048 == vec && !e.2.pieces.isEmpty

/-- The only operation listed that waits for a vector is the one that its message reaches. -/
theorem waiterOf_only {s : State} {dev vec : Nat} {e : Nat × Sub} (h : s.css.subs.filter (awaits dev vec) = [e]) :
    waiterOf s dev vec = some e.1 := by
  show ((s.css.subs.filter (awaits dev vec)).mergeSort fun a b => a.2.order ≤ b.2.order).head?.map Prod.fst = some e.1
  rw [h, List.mergeSort_singleton]
  rfl

/-- A CCE whose pieces are done without an error stays the current one while its ONCE_DONE entry has no space (R264). -/
theorem settleCce_waits {s : State} {i n : Nat} (hdone : (s.sub i n).pieces.any (fun p => !p.done) = false)
    (herr : pieceError (s.sub i n) = none) (hspace : doneReady s (s.sub i n) = false) : settleCce s i n = s := by
  unfold settleCce
  simp only [hdone, herr, hspace, Bool.false_eq_true, if_false, Bool.not_false, if_true]

/-! ## The state -/

/-- A once-only WAITINT of one interval, for vector 0, the last CCE of its program. -/
def lastWaitint : List Byte := [0x23, 2, 0, 0, 0, 0, 0, 1, 0, 0, 0, 0, 0, 0, 0, 0]

/-- An operation that waits for the message, its ONCE_ISSUE entry written. -/
def onceWaiter : Sub := { st := .active, onceOpen := true, prog := [lastWaitint], pieces := [{ lba := 0, len := 0, off := 0 }] }

/-- The same operation with its message come. -/
def answeredWaiter : Sub := { onceWaiter with pieces := [{ lba := 0, len := 0, off := 0, done := true }] }

/-- The operation on subchannel 0, in a table that lists subchannel 1 before it. Its latest entry is so old that four of the 262,144 slots of the
journal are free: enough for another entry of one started operation, and not of two. -/
def waiterListedLast : State :=
  { clk := { phase := .run }
    css := { subs := [(1, {}), (0, onceWaiter)], jsn := 262141, journal := [{ type := 2, jsn := 1, inst := 0, sub := 0 }] } }

/-- The message come: the operation is listed before subchannel 1 now, and still after it. -/
def waiterListedTwice : State :=
  { waiterListedLast with css := { waiterListedLast.css with subs := [(0, answeredWaiter), (1, {}), (0, onceWaiter)] } }

theorem waiterOf_waiterListedLast : waiterOf waiterListedLast 0 0 = some (0 * 65536 + 0) :=
  waiterOf_only (e := (0, onceWaiter)) (by decide)

theorem startedOps_grows : startedOps waiterListedLast = 1 ∧ startedOps waiterListedTwice = 2 := by decide

theorem freeEntries_stay : freeEntries waiterListedLast = 4 ∧ freeEntries waiterListedTwice = 4 := by decide

theorem spaceForEntry_waiterListedLast : spaceForEntry waiterListedLast = true := by
  rw [spaceForEntry, freeEntries_stay.1, startedOps_grows.1]
  rfl

theorem doneReady_waiterListedTwice : doneReady waiterListedTwice answeredWaiter = false := by
  rw [doneReady, spaceForEntry, freeEntries_stay.2, startedOps_grows.2]
  rfl

theorem pieceError_answeredWaiter : pieceError answeredWaiter = none := by
  show (List.mergeSort ([] : List Piece) fun a b => a.lba ≤ b.lba).head?.bind (·.err) = none
  rw [List.mergeSort_nil]
  rfl

/-- The message leaves the operation where it is. -/
theorem adapterMsix_waiterListedLast : exec (.adapterMsix 0 0) waiterListedLast = .next waiterListedTwice := by
  have hset : settleCce waiterListedTwice 0 0 = waiterListedTwice :=
    settleCce_waits (by decide) pieceError_answeredWaiter doneReady_waiterListedTwice
  calc exec (.adapterMsix 0 0) waiterListedLast
    _ = .next (endWaitint waiterListedLast.quiet 0 0) := execAdapterMsix_waiter rfl rfl (by decide) waiterOf_waiterListedLast
    _ = .next (settleCce waiterListedTwice 0 0) := rfl
    _ = .next waiterListedTwice := congrArg _ hset

/-- Refutes O60: the message that a once-only WAITINT waits for finds journal space for its ONCE_DONE entry, but marking the operation answered
lists it twice in a table whose keys do not rise, and for two operations the space is too small, so that it does not end. -/
theorem not_channelResults : ¬ Obligations.ChannelResults := by
  unfold Obligations.ChannelResults
  intro hresults
  obtain ⟨-, -, -, -, -, -, -, -, -, hadapter, -, -⟩ := hresults waiterListedLast 0 0 rfl rfl (by decide)
  obtain ⟨-, hwaitint⟩ := hadapter 0 0
  obtain ⟨u, hu, hending, -, -⟩ := hwaitint waiterOf_waiterListedLast rfl (by decide) (by decide) (.inr spaceForEntry_waiterListedLast)
  rw [adapterMsix_waiterListedLast] at hu
  cases hu
  exact absurd hending (by decide)

end Sys2Proof.Machine

/-! SUPPORT. Compression requests (R305) and the start of a job on an engine (R300, R301, R317): the admission of a request that passes its checks,
the engine that takes a job or suspends its own for it, and the statement about them, O40. -/

namespace Sys2Proof.Machine

open Sys2Proof

/-! ## Requests -/

/-- Both opcodes of a compression request are judged alike. -/
theorem exec_compression {n : Nat} {q : BitVec 32} {c : Instr × Nat} (s : State)
    (h : c ∈ [(Instr.compress n q, 0x20), (.decompress n q, 0x21)]) : exec c.1 s = compressRequest s n q.toNat c.2 := by
  simp only [List.mem_cons, List.not_mem_nil, or_false] at h
  rcases h with rfl | rfl <;> rfl

section
variable {s : State} {n q op : Nat} {r : Request} (h : takeReq s.quiet n q op = some r)
include h

theorem compressRequest_refused {b : Nat} (hf : compressFault s.quiet r.entry = some b) :
    compressRequest s n q op = .next (answer s.quiet r .fieldInvalid b) := by
  unfold compressRequest
  simp only [h, hf]

theorem compressRequest_offered (hf : compressFault s.quiet r.entry = none) :
    compressRequest s n q op = .next (offerJob s.quiet r true { inst := n - 1, seq := q, entry := r.entry }) := by
  unfold compressRequest
  simp only [h, hf]

end

/-- A compression job joins the end of its queue, waiting for staging or not. -/
theorem addJob_compression (s : State) (j : Job) :
    ∃ st order, (st = .queued ∨ st = .staging) ∧ (addJob s true j).cze.jobs = s.cze.jobs ++ [{ j with st := st, order := order }] := by
  refine ⟨if stagedBytes j.entry != 0 && !stagingFits s j.entry then .staging else .queued, s.cze.order, ?_, rfl⟩
  split
  · exact .inr rfl
  · exact .inl rfl

/-! ## The jobs of a kind, and the one that starts -/

@[simp] theorem State.accel_setAccel (s : State) (cz : Bool) (a : Accel) : (s.setAccel cz a).accel cz = a := by
  cases cz <;> rfl

theorem State.putJob_jobs (s : State) (cz : Bool) (j : Job) :
    ((s.putJob cz j).accel cz).jobs = (s.accel cz).jobs.map fun x => if x.same j then j else x := by
  unfold State.putJob State.setJobs
  rw [State.accel_setAccel]

theorem Job.same_iff (a b : Job) : a.same b = true ↔ a.inst = b.inst ∧ a.seq = b.seq := by simp [Job.same]

/-- Putting a job back leaves under each SEQ a job where there was one. -/
theorem State.putJob_keeps {s : State} {cz : Bool} {x j : Job} (r : Job) (hx : x ∈ (s.accel cz).jobs) (hj : x.same j = true) :
    ∃ y ∈ ((s.putJob cz r).accel cz).jobs, y.same j = true := by
  rw [State.putJob_jobs]
  refine ⟨_, List.mem_map_of_mem hx, ?_⟩
  split
  next hr =>
    rw [Job.same_iff] at hr hj ⊢
    exact ⟨hr.1.symm.trans hj.1, hr.2.symm.trans hj.2⟩
  · exact hj

/-- A job of the queue that is started on an engine runs there. -/
theorem startJob_runs {s : State} {cz : Bool} {x j : Job} (e : Nat) (hx : x ∈ (s.accel cz).jobs) (hj : x.same j = true) :
    ∃ y ∈ ((startJob s cz j e).accel cz).jobs, y.same j = true ∧ y.st = .running e := by
  unfold startJob
  rw [State.putJob_jobs, State.accel_setAccel]
  exact ⟨_, List.mem_map.mpr ⟨x, hx, if_pos hj⟩, Job.same_refl j, rfl⟩

/-- The job that comes next is one of the queue. -/
theorem nextJob_mem {s : State} {cz : Bool} {e : Nat} {j : Job} (h : nextJob s cz e = some j) : j ∈ (s.accel cz).jobs :=
  (List.mem_filter.mp (List.mem_mergeSort.mp (List.mem_of_head? h))).1

/-! ## The start of a job (R300, R301, R317) -/

section
variable {s : State} {e : Nat} {j : Job} (hl : s.live = true)
include hl

theorem execCompressionJobStart_takes (he : e < accelCount s.quiet true) (ht : takesJobs s.quiet true e = true)
    (ho : jobOn s.quiet true e = none) (hn : nextJob s.quiet true e = some j) :
    execCompressionJobStart e s = .next (startJob s.quiet true j e) := by
  unfold execCompressionJobStart
  simp [hl, he, ht, ho, hn]

variable (he : e < accelCount s.quiet false) (ht : takesJobs s.quiet false e = true) (hn : nextJob s.quiet false e = some j)
include he ht hn

theorem execCipherJobStart_takes (ho : jobOn s.quiet false e = none) :
    execCipherJobStart e s = .next (startJob s.quiet false j e) := by
  unfold execCipherJobStart
  simp [hl, he, ht, ho, hn]

/-- With every engine of the group busy, the engine whose job is to give way suspends it and takes the other. -/
theorem execCipherJobStart_preempts {r : Job} (ho : jobOn s.quiet false e = some r)
    (hb : (((groupEngines s.quiet false j.inst).filter (takesJobs s.quiet false)).all fun q => (jobOn s.quiet false q).isSome) = true)
    (hv : victim s.quiet j.inst (reqPrio j.entry) = some r) :
    execCipherJobStart e s
      = .next (startJob (s.quiet.putJob false { r with st := .suspended, suspends := r.suspends + 1 }) false j e) := by
  unfold execCipherJobStart
  simp only [State.quiet_live, hl, ht, ho, hn, hb, hv, Job.same_refl, Nat.not_le.mpr he, decide_false, Bool.not_true, Bool.or_self, Bool.false_eq_true,
    Bool.and_self, if_false, if_true]

end

/-- Settles O40: a request ends at its checks, at the pool or in the queue; a job that starts is one of the queue and stays one when another
is suspended for it. -/
theorem compressionAndJobStartResults : Obligations.CompressionAndJobStartResults := by
  unfold Obligations.CompressionAndJobStartResults
  constructor
  case left =>
    intro s n q r w i c hc hr
    obtain ⟨-, rfl, -, -⟩ := takeReq_key hr
    rw [exec_compression s hc]
    refine ⟨fun b hf => compressRequest_refused hr hf, fun hf hg => ⟨fun hu => ?_, fun hu => ?_⟩⟩
    · rw [compressRequest_offered hr hf]
      exact congrArg _ (offerJob_busy hg hu)
    · rw [compressRequest_offered hr hf, offerJob_queued hg hu]
      obtain ⟨st, order, hq, hjobs⟩ := addJob_compression (w.setStage r.fn r.seq .running)
        (offeredJob w r true { inst := i, seq := q.toNat, entry := r.entry })
      exact ⟨_, _, rfl, hjobs, rfl, rfl, rfl, rfl, hq⟩
  case right =>
    intro s e j w hl
    refine ⟨fun he ht ho hn => ?cipher, fun he ht ho hn => ?compression, fun he ht hn r ho hb hv => ?suspension⟩
    case cipher => exact ⟨_, execCipherJobStart_takes hl he ht hn ho, startJob_runs e (nextJob_mem hn) (Job.same_refl j)⟩
    case compression => exact ⟨_, execCompressionJobStart_takes hl he ht ho hn, startJob_runs e (nextJob_mem hn) (Job.same_refl j)⟩
    case suspension =>
      obtain ⟨x, hx, hxj⟩ := State.putJob_keeps { r with st := .suspended, suspends := r.suspends + 1 } (nextJob_mem hn) (Job.same_refl j)
      exact ⟨_, execCipherJobStart_preempts hl he ht hn ho hb hv, startJob_runs e hx hxj⟩

end Sys2Proof.Machine

/-! SUPPORT. The ends of a compression job (R306, R312 to R316): COMPRESS by whether its stream fits, DECOMPRESS by what the check pass finds, and the
statement about them, O42. -/

namespace Sys2Proof.Machine

open Sys2Proof

/-! ## The end of a COMPRESS (R314) -/

section
variable {v : State} {j : Job} {d : List Byte}

/-- A framed stream that fits is written whole, and COUNT is its length. -/
theorem compressEnd_fits : let z := deflate d (par j.entry 37)
    let out := framed (par j.entry 36) (par j.entry 37) d z.bytes
    out.length ≤ reqDstLen j.entry →
      compressEnd v j d = endJob (jobWrite v j out) true j 0 0 out.length (zResult d (spans d.length) z.stored) :=
  fun h => if_neg (Nat.not_lt.mpr h)

/-- One that does not fit leaves DST undefined, and COUNT is the source of whole spans. -/
theorem compressEnd_full : let z := deflate d (par j.entry 37)
    let out := framed (par j.entry 36) (par j.entry 37) d z.bytes
    reqDstLen j.entry < out.length → ∃ k, compressEnd v j d = endJob (undefinedDst v j) true j 9 0 (k * 65535) [] :=
  fun h => ⟨_, if_pos h⟩

end

/-! ## The end of a DECOMPRESS (R315, R316) -/

section
variable {v : State} {j : Job} {d : List Byte}

theorem decompressEnd_decoded {r : Inf} (h : inflate (par j.entry 36) d (reqDstLen j.entry) = .ok r) :
    decompressEnd v j d
      = endJob (jobWrite v j r.out.toList) true j 0 0 r.out.toList.length (zResult r.out.toList r.blocks r.stored) := by
  unfold decompressEnd
  rw [h]

theorem decompressEnd_full {n : Nat} (h : inflate (par j.entry 36) d (reqDstLen j.entry) = .error (.full n)) :
    decompressEnd v j d = endJob v true j 9 0 n [] := by
  unfold decompressEnd
  rw [h]
  rfl

theorem decompressEnd_streamError {reason pos : Nat}
    (h : inflate (par j.entry 36) d (reqDstLen j.entry) = .error (.stream reason pos)) :
    decompressEnd v j d = endJob v true j 3 8 0 (toBE 1 reason ++ zeros 3 ++ toBE 4 pos) := by
  unfold decompressEnd
  rw [h]
  rfl

theorem decompressEnd_checkFailed {detail computed given : Nat}
    (h : inflate (par j.entry 36) d (reqDstLen j.entry) = .error (.check detail computed given)) :
    decompressEnd v j d = endJob v true j 8 detail 0 (toBE 4 computed ++ toBE 4 given) := by
  unfold decompressEnd
  rw [h]
  rfl

end

/-! ## Which end a job comes to whose source holds (R240, R313) -/

/-- How job `j` ends with the source `d`. -/
def compressionEnd (v : State) (j : Job) (d : List Byte) : State :=
  if chkOk j.entry d = false then endJob v true j 8 1 0 []
  else if reqOp j.entry = 0x20 then compressEnd v j d
  else decompressEnd v j d

theorem execCompressionJobDone_ends {s : State} {e : Nat} {src d a : List Byte} {j : Job} (hl : s.live = true)
    (hj : jobOn s.quiet true e = some j) (hw : jobWaits s.quiet j = false) (ho : jobOwners s.quiet j = [])
    (hd : jobData (jobZones s.quiet j) j src [] none = .ok d a) :
    execCompressionJobDone e src none s = .next (compressionEnd (jobZones s.quiet j) j d) := by
  unfold execCompressionJobDone compressionEnd
  simp only [hj, State.quiet_live, hl, hw, ho, hd, Bool.not_true, Bool.or_self, bne_self_eq_false, Bool.false_eq_true, if_false,
    Bool.not_eq_true', beq_iff_eq]
  split
  · rfl
  · split <;> rfl

section
variable {v : State} {j : Job} {d : List Byte}

theorem compressionEnd_badCheck (h : chkOk j.entry d = false) : compressionEnd v j d = endJob v true j 8 1 0 [] := if_pos h

variable (h : chkOk j.entry d = true)
include h

theorem compressionEnd_compress (hop : reqOp j.entry = 0x20) : compressionEnd v j d = compressEnd v j d :=
  (if_neg (by simp [h])).trans (if_pos hop)

theorem compressionEnd_decompress (hop : reqOp j.entry = 0x21) : compressionEnd v j d = decompressEnd v j d :=
  (if_neg (by simp [h])).trans (if_neg (by simp [hop]))

end

/-- Settles O42: the check over the source first, then COMPRESS by the length of its stream and DECOMPRESS by the outcome of its check pass. -/
theorem compressionJobEnds : Obligations.CompressionJobEnds := by
  unfold Obligations.CompressionJobEnds
  intro s e src j w hl hj hw ho v d a hd run
  have hend : run = .next (compressionEnd v j d) := execCompressionJobDone_ends hl hj hw ho hd
  refine ⟨fun hc => hend.trans (congrArg _ (compressionEnd_badCheck hc)), fun hc hop => ?compress, fun hc hop => ?decompress⟩
  case compress =>
    rw [compressionEnd_compress hc hop] at hend
    refine ⟨fun hfits => hend.trans (congrArg _ (compressEnd_fits hfits)), fun hfull => ?_⟩
    obtain ⟨k, hk⟩ := compressEnd_full hfull
    exact ⟨k, hend.trans (congrArg _ hk)⟩
  case decompress =>
    rw [compressionEnd_decompress hc hop] at hend
    exact ⟨fun r hr => hend.trans (congrArg _ (decompressEnd_decoded hr)), fun n hn => hend.trans (congrArg _ (decompressEnd_full hn)),
      fun reason pos hs => hend.trans (congrArg _ (decompressEnd_streamError hs)),
      fun detail computed given hk => hend.trans (congrArg _ (decompressEnd_checkFailed hk))⟩

end Sys2Proof.Machine

/-! SUPPORT. The side band: SMBus and the TAP (R346, R407, R411, R419, R428, R429, R448, R469), and the statement about it, O54. -/

namespace Sys2Proof.Machine

open Sys2Proof

/-! What a command has sent and the free values it has taken are no part of what the Spire answers from or judges by. -/

theorem smbusObject_congr {s t : State} (hspire : t.spire = s.spire) : smbusObject t = smbusObject s := by
  unfold smbusObject headSignature headEntry bootEntry? identitySeeds
  rw [hspire]

theorem pkgFault_quiet (s : State) (m : List Byte) : pkgFault s.quiet m = pkgFault s m := rfl

/-- An entry of the Spire changes the Spire in its measurement registers only. -/
theorem spireEvent_spire (s : State) {e : LogEntry} (h : e.cls ≠ 1) (d : List Byte) :
    (spireEvent s e d).spire = { s.spire with mreg := (spireEvent s e d).spire.mreg } := by
  have hspire : (logEvent s e).spire = s.spire := (logEvent_written s h).1
  unfold spireEvent
  dsimp only
  split
  · rw [hspire]
  · unfold extendReg
    rw [hspire]

/-! ## The target of the side band -/

/-- While the target does not answer, every command of the side band is a NACK. -/
theorem sideBand_nacks {s : State} (h : smbusUp s = false) (b : List Byte) (v : Byte) :
    ∀ c ∈ [Instr.objSelect b, .objStatus, .objRead, .attestStart b, .pkgWrite b, .pkgCommit v, .pkgStatus, .health, .select b, .eventRead,
      .alertAck v, .clkStatus, .gateRead, .bistStatus, .calStatus, .warmReset v], exec c s = .next { s with out := [.smbusNack] } := by
  have hdown : smbusUp s.quiet = false := h
  have read (f : State → List Byte) : smbusRead s f = .next { s with out := [.smbusNack] } :=
    congrArg Host.Outcome.next (if_neg (by simp [hdown]))
  have write (f : State → State) : smbusWrite s f = .next { s with out := [.smbusNack] } :=
    congrArg Host.Outcome.next (if_neg (by simp [hdown]))
  have guarded (r : Res) : (if (!smbusUp s.quiet) = true then .next (s.quiet.emit .smbusNack) else r) = .next { s with out := [.smbusNack] } :=
    if_pos (by simp [hdown])
  simp only [List.forall_mem_cons, List.not_mem_nil, false_imp_iff, implies_true, and_true]
  exact ⟨(write _ : execObjSelect b s = _), guarded _, guarded _, (write _ : execAttestStart b s = _), (write _ : execPkgWrite b s = _),
    (write _ : execPkgCommit v s = _), (read _ : execPkgStatus s = _), (read _ : execHealth s = _), (write _ : execSelect b s = _), guarded _,
    (write _ : execAlertAck v s = _), (read _ : execClkStatus s = _), (read _ : execGateRead s = _), (read _ : execBistStatus s = _),
    (read _ : execCalStatus s = _), (write _ : execWarmReset v s = _)⟩

section
variable {s : State} (hup : smbusUp s = true)
include hup

theorem smbusRead_up (f : State → List Byte) : smbusRead s f = .next { s with out := [.smbus (f s.quiet)] } :=
  congrArg Host.Outcome.next (if_pos (c := smbusUp s.quiet = true) hup)

theorem smbusWrite_up (f : State → State) : smbusWrite s f = .next (f s.quiet) :=
  congrArg Host.Outcome.next (if_pos (c := smbusUp s.quiet = true) hup)

theorem smbus_answers : ¬ (!smbusUp s.quiet) = true := by
  have hq : smbusUp s.quiet = true := hup
  simp [hq]

/-! ## Objects (R411) -/

theorem objSelect_selects {b : List Byte} (hl : b.length = 9) (h4 : fieldBE b 0 1 ≤ 4) : execObjSelect b s = .next { s.quiet with
    spire := { s.spire with objSel := fieldBE b 0 1, objEntry := fieldBE b 1 8, objOff := 0 } } :=
  (smbusWrite_up hup _).trans (congrArg Host.Outcome.next (if_pos (by simp [hl, h4])))

/-- OBJ_STATUS gives the status of the object and its length. -/
theorem objStatus_answers : ∃ u code, execObjStatus s = .next u
    ∧ u.out = [.smbus (toBE 1 code ++ toBE 3 (smbusObject s).2.length ++ zeros 4)] ∧ u.spire = s.spire
    ∧ ∀ c, (smbusObject s).1 = some c → code = c.code := by
  have hobj : smbusObject s.quiet.fresh.2 = smbusObject s := smbusObject_congr rfl
  unfold execObjStatus
  dsimp only
  rw [if_neg (smbus_answers hup), hobj]
  exact ⟨_, _, rfl, rfl, rfl, fun c hc => by rw [hc]⟩

/-- OBJ_READ gives the next bytes of the object, and zero bytes once there are none. -/
theorem objRead_answers {d : List Byte} (hd : d = slice (smbusObject s).2 s.spire.objOff 240) : execObjRead s = .next { s with
    out := [.smbus (if d = [] then zeros 240 else d)], spire := { s.spire with objOff := s.spire.objOff + d.length } } := by
  have hobj : smbusObject s.quiet = smbusObject s := smbusObject_congr rfl
  refine (if_neg (smbus_answers hup)).trans ?_
  rw [hobj, State.quiet_spire, ← hd]
  simp only [List.isEmpty_iff]
  rfl

theorem attestStart_asks {b : List Byte} (hl : b.length = 32) (hn : s.spire.smbNonce = none) : execAttestStart b s = .next { s.quiet with
    spire := { s.spire with smbNonce := some (askReport s 1 b), smbReport := none, objSel := 2, objOff := 0 } } :=
  (smbusWrite_up hup _).trans (congrArg Host.Outcome.next (if_neg (by simp [hl, hn])))

/-! ## Owner key packages (R407) -/

theorem pkgWrite_stages {b : List Byte} (h3 : 3 ≤ b.length) (h243 : b.length ≤ 243) : execPkgWrite b s = .next { s.quiet with
    spire := { s.spire with pkgStaging := patch s.spire.pkgStaging (fieldBE b 0 3) (b.drop 3) } } :=
  (smbusWrite_up hup _).trans (congrArg Host.Outcome.next (if_neg (by simp; omega)))

theorem pkgCommit_ignored {v : Byte} (hv : v ≠ 0xA5) : execPkgCommit v s = .next s.quiet :=
  (smbusWrite_up hup _).trans (congrArg Host.Outcome.next (if_pos (by simpa using hv)))

theorem pkgCommit_checks (hrun : s.spire.stopped = false) :
    execPkgCommit 0xA5 s = .next { s.quiet with spire := { s.spire with pkgState := 1, pkgReason := 0 } } :=
  (smbusWrite_up hup _).trans (congrArg Host.Outcome.next ((if_neg (by decide)).trans (if_neg (by simp [hrun]))))

/-- The check of a committed package ends: the package is rejected for the first check that fails, or waits for a reset. -/
theorem pkgCheckDone_ends (hrun : s.spire.stopped = false) (hst : s.spire.pkgState = 1) : ∃ u, execPkgCheckDone s = .next u
    ∧ (∀ x, pkgFault s s.spire.pkgStaging = some x → u.spire = { s.spire with pkgState := 3, pkgReason := x })
    ∧ (pkgFault s s.spire.pkgStaging = none → u.spire.pkgState = 2 ∧ u.spire.pendingPkg = some (s.spire.pkgStaging.take 256)
        ∧ u.spire.package = s.spire.package) := by
  have hq : smbusUp s.quiet = true := hup
  have hchecks : ¬ (!smbusUp s.quiet || s.quiet.spire.stopped || s.quiet.spire.pkgState != 1) = true := by simp [hq, hrun, hst]
  unfold execPkgCheckDone
  dsimp only
  rw [if_neg hchecks, State.quiet_spire, pkgFault_quiet]
  cases pkgFault s s.spire.pkgStaging with
  | some reason =>
    refine ⟨_, rfl, fun x hx => ?_, by simp⟩
    cases hx
    exact (logEvent_written _ (by simp [State.entry])).1
  | none =>
    refine ⟨_, rfl, by simp, fun _ => ?_⟩
    rw [spireEvent_spire _ (by simp [State.entry])]
    exact ⟨rfl, rfl, rfl⟩

/-! ## The Belfry (R346) -/

theorem select_selects {b : List Byte} (hl : b.length = 9) (h2 : fieldBE b 0 1 < 2) : execSelect b s = .next { s.quiet with
    bel := { s.bel with selSticky := fieldBE b 0 1 == 1, sel := fieldBE b 1 8 } } :=
  (smbusWrite_up hup _).trans (congrArg Host.Outcome.next (if_pos (by simp [hl, h2])))

theorem eventRead_sticky {e : LogEntry} (hs : s.bel.selSticky = true) (he : s.bel.sticky[s.bel.sel]? = some e) :
    execEventRead s = .next { s with out := [.smbus (logBytes e)], bel := { s.bel with sel := s.bel.sel + 1 } } := by
  refine (if_neg (smbus_answers hup)).trans ((if_pos hs).trans ?_)
  rw [State.quiet_bel, he]
  rfl

theorem eventRead_log {e : LogEntry} (hs : s.bel.selSticky = false)
    (he : (s.bel.log.find? fun e => decide (s.bel.sel ≤ e.eseq)) = some e) :
    execEventRead s = .next { s with out := [.smbus (logBytes e)], bel := { s.bel with sel := e.eseq + 1 } } := by
  refine (if_neg (smbus_answers hup)).trans ((if_neg (by simp [hs])).trans ?_)
  rw [State.quiet_bel, he]
  rfl

theorem alertAck_clears : execAlertAck 0 s = .next { s.quiet with bel := { s.bel with alert := false, healthMax := 0 } } :=
  (smbusWrite_up hup _).trans (congrArg Host.Outcome.next (if_pos (by decide)))

theorem alertAck_ignored {v : Byte} (hv : v ≠ 0) : execAlertAck v s = .next s.quiet :=
  (smbusWrite_up hup _).trans (congrArg Host.Outcome.next (if_neg (by simpa using hv)))

/-! ## The self-test controller (R448) -/

theorem bistStatus_latched {k : Nat} {x : UnitId} (h : s.tst.hubLatch = some (k, x)) : execBistStatus s = .next { s with
    out := [.smbus (toBE 8 s.tst.bistPass ++ toBE 8 s.tst.bistFail ++ toBE 8 s.tst.bistIncomplete
      ++ toBE 1 1 ++ toBE 1 k ++ toBE 1 x.source ++ zeros 1 ++ toBE 2 x.unit ++ toBE 1 s.tst.fuseUsed ++ toBE 1 s.tst.repairs.length)] } := by
  unfold execBistStatus
  rw [smbusRead_up hup]
  simp only [State.quiet_tst, h]
  rfl

theorem bistStatus_clear (h : s.tst.hubLatch = none) : execBistStatus s = .next { s with
    out := [.smbus (toBE 8 s.tst.bistPass ++ toBE 8 s.tst.bistFail ++ toBE 8 s.tst.bistIncomplete
      ++ zeros 6 ++ toBE 1 s.tst.fuseUsed ++ toBE 1 s.tst.repairs.length)] } := by
  unfold execBistStatus
  rw [smbusRead_up hup]
  simp only [State.quiet_tst, h]
  rfl

end

/-! ## The TAP (R469) -/

/-- Outside cold reset every instruction but IDCODE acts as BYPASS. -/
theorem tapInstruction_scans (s : State) {t : TapInsn} (ht : t ≠ .idcode) : execTapInstruction t s
    = .next { s with out := [if s.clk.phase = .coldReset then .tap t 0 else .tap .bypass 0] } := by
  unfold execTapInstruction
  split
  · exact absurd rfl ht
  · simp only [beq_iff_eq, State.quiet_clk]
    split <;> rfl

/-- Settles O54: while the target does not answer, the NACK of every command; while it does, one lemma for each command; then the TAP. -/
theorem sideBandResults : Obligations.SideBandResults := by
  unfold Obligations.SideBandResults
  intro s b v tap
  refine ⟨fun hdown => sideBand_nacks hdown b v, fun hup => ?_, rfl, fun ht => tapInstruction_scans s ht⟩
  refine ⟨objSelect_selects hup, objStatus_answers hup, fun _ => objRead_answers hup, attestStart_asks hup, pkgWrite_stages hup,
    pkgCommit_ignored hup, pkgCommit_checks hup, (smbusRead_up hup _ : execPkgStatus s = _), fun hrun hst => ?_,
    (smbusRead_up hup _ : execHealth s = _), select_selects hup,
    fun _ => eventRead_sticky hup, fun _ => eventRead_log hup, alertAck_clears hup, alertAck_ignored hup, (smbusRead_up hup _ : execClkStatus s = _),
    (smbusRead_up hup _ : execGateRead s = _), fun _ _ => bistStatus_latched hup, bistStatus_clear hup, (smbusRead_up hup _ : execCalStatus s = _)⟩
  obtain ⟨u, hu, hrejected, haccepted⟩ := pkgCheckDone_ends hup hrun hst
  refine ⟨u, hu, ?_⟩
  split
  next x hx => exact hrejected x hx
  next hx => exact haccepted hx

end Sys2Proof.Machine

/-! SUPPORT. The step, and what reset leaves (R424, R425): O1 and O3. -/

namespace Sys2Proof.Machine

open Sys2Proof

/-- Settles O1: a step on a queue that is not empty is its second case. -/
theorem stepRunsTheFrontCommand : Obligations.StepRunsTheFrontCommand := by
  unfold Obligations.StepRunsTheFrontCommand
  intro c r s h
  unfold step
  rw [h]

/-- Empty stores are in canonical form, and an empty log is within its size. -/
theorem reset_inv : State.reset.Inv := by
  refine ⟨?_, Nat.zero_le _, Nat.zero_le _⟩
  decide

/-- Settles O3: every table of the state after reset is empty. -/
theorem resetMeetsTheInvariant : Obligations.ResetMeetsTheInvariant := by
  unfold Obligations.ResetMeetsTheInvariant
  exact ⟨reset_inv, rfl, rfl, rfl, rfl, rfl, fun _ => rfl⟩

end Sys2Proof.Machine

/-! SUPPORT. What the work of engines and hub leaves alone: the queue of waiting commands, the self-test controller, whether the Belfry has
stopped, and of the twin state all but the groups on their way to the partner. -/

namespace Sys2Proof.Machine

open Sys2Proof

/-- The twin state without what the sending of groups and the receiving of lines move on. -/
def Twin.standing (t : Twin) : Twin := { t with
  groups := [], notes := [], keyNotes := [], txSeq := 0, sent := [], released := 0, credit := 0, buckets := [], lastAck := []
  rxJournal := [], rxSlots := [], rxControl := [] }

/-- What completions, mirror groups, commit points, jobs and channel operations never touch. -/
def State.outside (s : State) : List Instr × Tst × Twin × Bool := (s.pending, s.tst, s.twin.standing, s.bel.stopped)

theorem outside_eq {s t : State} (hp : t.pending = s.pending) (ht : t.tst = s.tst) (hw : t.twin.standing = s.twin.standing)
    (hb : t.bel.stopped = s.bel.stopped) : t.outside = s.outside := by
  rw [State.outside, hp, ht, hw, hb, State.outside]

theorem pending_of_outside {s t : State} (h : t.outside = s.outside) : t.pending = s.pending := congrArg Prod.fst h
theorem tst_of_outside {s t : State} (h : t.outside = s.outside) : t.tst = s.tst := congrArg (·.2.1) h
theorem standing_of_outside {s t : State} (h : t.outside = s.outside) : t.twin.standing = s.twin.standing := congrArg (·.2.2.1) h
theorem stopped_of_outside {s t : State} (h : t.outside = s.outside) : t.bel.stopped = s.bel.stopped := congrArg (·.2.2.2) h

variable (s : State)

@[simp] theorem State.quiet_outside : s.quiet.outside = s.outside := rfl
@[simp] theorem State.emit_outside (o : Output) : (s.emit o).outside = s.outside := rfl
@[simp] theorem State.setVe_outside (k : Nat) (x : VE) : (s.setVe k x).outside = s.outside := rfl
@[simp] theorem State.updVe_outside (k : Nat) (f : VE → VE) : (s.updVe k f).outside = s.outside := rfl
@[simp] theorem State.setInst_outside (i : Nat) (x : Inst) : (s.setInst i x).outside = s.outside := rfl
@[simp] theorem State.updInst_outside (i : Nat) (f : Inst → Inst) : (s.updInst i f).outside = s.outside := rfl
@[simp] theorem State.updEng_outside (p : Nat) (f : Engine → Engine) : (s.updEng p f).outside = s.outside := rfl
@[simp] theorem State.updDome_outside (t : Nat) (f : Dome → Dome) : (s.updDome t f).outside = s.outside := rfl
@[simp] theorem State.setSub_outside (i n : Nat) (x : Sub) : (s.setSub i n x).outside = s.outside := rfl
@[simp] theorem State.setSlot_outside (g n : Nat) (x : Slot) : (s.setSlot g n x).outside = s.outside := rfl
@[simp] theorem State.setPage_outside (n : Nat) (x : Page) : (s.setPage n x).outside = s.outside := rfl
@[simp] theorem State.setRing_outside (n k : Nat) (r : Ring) : (s.setRing n k r).outside = s.outside := rfl
@[simp] theorem State.updFn_outside (n : Nat) (f : Fn → Fn) : (s.updFn n f).outside = s.outside := rfl
@[simp] theorem State.setReqs_outside (l : List Request) : (s.setReqs l).outside = s.outside := rfl
@[simp] theorem State.setStage_outside (n q : Nat) (g : Stage) : (s.setStage n q g).outside = s.outside := rfl
@[simp] theorem State.putReq_outside (r : Request) : (s.putReq r).outside = s.outside := rfl
@[simp] theorem State.setJobs_outside (cz : Bool) (l : List Job) : (s.setJobs cz l).outside = s.outside := by cases cz <;> rfl
@[simp] theorem State.putJob_outside (cz : Bool) (j : Job) : (s.putJob cz j).outside = s.outside := State.setJobs_outside s cz _
@[simp] theorem pushHold_outside (g t d : Nat) : (pushHold s g t d).outside = s.outside := rfl
@[simp] theorem mapP_outside (p : Nat) (f : DomeLine → DomeLine) : (mapP s p f).outside = s.outside := rfl
@[simp] theorem askCommit_outside (ps : List Nat) : (askCommit s ps).outside = s.outside := rfl
@[simp] theorem dropDomes_outside (l : Nat) (q : Nat → Bool) : (dropDomes s l q).outside = s.outside := rfl
@[simp] theorem walkL1_outside (p : Nat) : (walkL1 s p).outside = s.outside := rfl
@[simp] theorem advance_outside (k n : Nat) : (advance s k n).outside = s.outside := rfl

theorem Posts.outside {n : Nat} {s t : State} (h : Posts n s t) : t.outside = s.outside := by
  obtain ⟨l, fs, is, rfl, -⟩ := h
  rfl

/-! ## Messages, the log and completions (R54, R61, R337) -/

@[simp] theorem sendMsix_outside (n v : Nat) : (sendMsix s n v).outside = s.outside := (sendMsix_posts 0 n v s).outside
@[simp] theorem hostWrite_outside (n a : Nat) (d : List Byte) : (hostWrite s n a d).outside = s.outside := (hostWrite_posts n a d s).outside
@[simp] theorem gather_outside (n k : Nat) : (gather s n k).outside = s.outside := (gather_posts n k s).outside

@[simp] theorem logWrite_outside (e : LogEntry) : (logWrite s e).outside = s.outside := by
  unfold logWrite
  split
  · rfl
  · obtain ⟨b, hp, -, -, -, hst⟩ := notify_posts s _ _ _ _
    exact hp.outside.trans (outside_eq rfl rfl rfl hst)

@[simp] theorem flushMerge_outside (m : Merge) : (flushMerge s m).outside = s.outside := by
  unfold flushMerge
  dsimp only
  split
  · rfl
  · exact (logWrite_outside _ _).trans rfl

theorem withMerges_outside (l : List Merge) : ({ s with bel := { s.bel with merges := l } } : State).outside = s.outside := rfl

@[simp] theorem logEvent_outside (e : LogEntry) : (logEvent s e).outside = s.outside := by
  unfold logEvent
  split
  · simp
  · split
    · split
      · rfl
      · simp [withMerges_outside]
    · simp [withMerges_outside]

@[simp] theorem logPoison_outside (i l d r : Nat) : (logPoison s i l d r).outside = s.outside := logEvent_outside s _

@[simp] theorem drainRing_outside (n k : Nat) : (drainRing s n k).outside = s.outside := (drainRing_posts n k s).outside

@[simp] theorem completeNow_outside (n seq st d c : Nat) (b : List Byte) : (completeNow s n seq st d c b).outside = s.outside := by
  unfold completeNow
  split <;> simp

@[simp] theorem passUntil_outside (t : Nat) : (passUntil s t).outside = s.outside := by
  unfold passUntil
  split <;> rfl

/-! ## Lines, groups and the journal (R201, R205, R261, R359) -/

@[simp] theorem writeBack_outside (l : Nat) : (writeBack s l).outside = s.outside := by
  unfold writeBack
  split <;> rfl

@[simp] theorem writeBacks_outside (ls : List Nat) : (ls.foldl writeBack s).outside = s.outside :=
  foldl_keeps State.outside writeBack_outside ls s

@[simp] theorem sendLine_outside (p l : Nat) (d : List Byte) (q : Bool) : (sendLine s p l d q).outside = s.outside := by
  simp [sendLine]

@[simp] theorem drainStream_outside (p : Nat) : (drainStream s p).outside = s.outside := by
  refine foldl_keeps State.outside (fun s b => ?_) _ _
  split <;> simp

@[simp] theorem noteLine_outside (l : Nat) : (noteLine s l).outside = s.outside := by
  unfold noteLine
  split
  · rfl
  · split
    · split <;> rfl
    · rfl

@[simp] theorem hubLine_outside (a : Nat) (d : List Byte) : (hubLine s a d).outside = s.outside := noteLine_outside _ _

@[simp] theorem hubWrite_outside (a : Nat) (d : List Byte) : (hubWrite s a d).outside = s.outside := by
  refine foldl_keeps State.outside (fun s c => ?_) _ _
  simp

@[simp] theorem mergeLine_outside (a : Nat) (d : List Byte) : (mergeLine s a d).outside = s.outside := by
  unfold mergeLine
  dsimp only
  split <;> exact noteLine_outside _ _

@[simp] theorem sendSlots_outside (l : List (List Byte)) : (sendSlots s l).outside = s.outside := by
  induction s, l using sendSlots.induct with
  | case1 | case2 | case3 => rfl
  | case4 s a b c l ih => exact ih

@[simp] theorem sendControl_outside (k : Nat) (l : List Nat) : (sendControl s k l).outside = s.outside := rfl

@[simp] theorem sendGroup_outside (k : Nat) : (sendGroup s k).outside = s.outside := by
  unfold sendGroup
  split
  · split
    · rfl
    · dsimp only
      split
      · exact sendSlots_outside _ _
      · rfl
  · rfl

@[simp] theorem sendGroups_outside : (sendGroups s).outside = s.outside := foldl_keeps State.outside sendGroup_outside _ _

@[simp] theorem closeGroup_outside (i n : Nat) (l : List MLine) (a : Deferred) : (closeGroup s i n l a).outside = s.outside :=
  sendGroups_outside _

@[simp] theorem closeHub_outside (i n : Nat) (a : Deferred) : (closeHub s i n a).outside = s.outside := closeGroup_outside _ _ _ _ _

@[simp] theorem complete_outside (n seq st d c : Nat) (b : List Byte) : (complete s n seq st d c b).outside = s.outside := by
  unfold complete
  split
  · split
    · rfl
    · split <;> simp
  · simp

@[simp] theorem answer_outside (r : Request) (st : Status) (d : Nat) : (answer s r st d).outside = s.outside := complete_outside s _ _ _ _ _ _

@[simp] theorem journalOne_outside (i n t : Nat) (d : Bool) : (journalOne s i n t d).outside = s.outside := by
  unfold journalOne
  extract_lets x e m l t
  split <;> exact outside_eq rfl rfl rfl rfl

@[simp] theorem closeEntry_outside (i : Nat) (a : Deferred) : (closeEntry s i a).outside = s.outside := by
  unfold closeEntry
  split <;> simp

@[simp] theorem journal_outside (i n t : Nat) (d : Bool) (a : Deferred) : (journal s i n t d a).outside = s.outside := by
  have carry (s : State) : (carryOld s).outside = s.outside := by
    refine foldl_keeps State.outside (fun s e => ?_) _ _
    split
    · split <;> simp
    · rfl
  simp [journal, carry]

@[simp] theorem releaseGroup_outside (i n : Nat) : (releaseGroup s i n).outside = s.outside := by
  unfold releaseGroup
  dsimp only
  split
  · rfl
  · split <;> simp

@[simp] theorem presentSub_outside (i n : Nat) (d : Bool) : (presentSub s i n d).outside = s.outside := by
  simp [presentSub]

@[simp] theorem takeGroup_outside (i n : Nat) : (takeGroup s i n).outside = s.outside := by
  unfold takeGroup
  dsimp only
  split <;> simp

/-! ## Commit points (R320 to R323) -/

@[simp] theorem freeDispatch_outside (r : Request) : (freeDispatch s r).outside = s.outside := by
  unfold freeDispatch
  split <;> simp

@[simp] theorem finishRestarts_outside (i v : Nat) (st : Status) : (finishRestarts s i v st).outside = s.outside :=
  foldl_keeps State.outside (fun s _ => complete_outside s _ _ _ _ _ _) _ _

@[simp] theorem consume_outside (k : Nat) (t : Taken) : (consume s k t).outside = s.outside := by
  cases t with
  | message seq =>
    unfold consume
    dsimp only
    split <;> simp
  | restart | io | signal | accel | deferred => simp [consume]

@[simp] theorem hubZone_outside (i r : Nat) : (hubZone s i r).outside = s.outside := by
  unfold hubZone
  split <;> rfl

@[simp] theorem hubUse_outside (i r n : Nat) : (hubUse s i r n).outside = s.outside :=
  foldl_keeps State.outside (fun s _ => hubZone_outside s _ _) _ _

@[simp] theorem writePieces_outside (l : List (Nat × Nat)) (d : List Byte) : (writePieces s l d).outside = s.outside := by
  induction l generalizing s d with
  | nil => rfl
  | cons p l ih => exact (ih _ _).trans (hubWrite_outside s _ _)

@[simp] theorem instWrite_outside (i r : Nat) (d : List Byte) : (instWrite s i r d).outside = s.outside := by
  simp [instWrite]

@[simp] theorem writeArea_outside (i v a : Nat) (b : List Byte) (q : Bool) : (writeArea s i v a b q).outside = s.outside := by
  unfold writeArea pendAccel
  dsimp only
  split <;> split <;> simp

@[simp] theorem runEffect_outside (e : Effect) : (runEffect s e).outside = s.outside := by
  cases e with
  | startOp i n v b => exact (State.setSub_outside _ i n _).trans (takeGroup_outside s i n)
  | job j cz =>
    unfold runEffect
    dsimp only
    split
    · rfl
    · split <;> rfl
  | completion | signal | restart | areaWrite | hostStore => simp [runEffect]

@[simp] theorem takeCommit_outside (p k : Nat) (es : List Effect) (o w l : Bool) : (takeCommit s p k es o w l).outside = s.outside := by
  simp [takeCommit, cleanEngine]

@[simp] theorem rollWindow_outside (t : Nat) : (rollWindow s t).outside = s.outside := by
  unfold rollWindow
  dsimp only
  split <;> simp

@[simp] theorem leaveEngine_outside (p k : Nat) : (leaveEngine s p k).outside = s.outside := by
  simp [leaveEngine, chargeTime]

@[simp] theorem writeKeyPage_outside (pg o : Nat) (d : List Byte) : (writeKeyPage s pg o d).outside = s.outside := by
  unfold writeKeyPage
  dsimp only
  split <;> simp

@[simp] theorem finishCommit_outside (p k : Nat) (b : CommitBuf) : (finishCommit s p k b).outside = s.outside := by
  unfold finishCommit
  extract_lets dirty taken drained x slotted freed i released written consumed done
  have hwritten : written.outside = released.outside := by
    refine foldl_keeps State.outside (fun s w => ?_) _ _
    split <;> simp
  have hconsumed : consumed.outside = written.outside := foldl_keeps State.outside (fun s t => consume_outside s k t) _ _
  have hdone : done.outside = consumed.outside := foldl_keeps State.outside runEffect_outside _ _
  have h : done.outside = s.outside := by
    simp [hdone, hconsumed, hwritten, released, freed, slotted, drained, taken]
  split
  · simp [h]
  · split <;> simp [h]

@[simp] theorem commitNow_outside (p k : Nat) (es : List Effect) (l : Bool) : (commitNow s p k es l).outside = s.outside := by
  unfold commitNow
  dsimp only
  split <;> simp

@[simp] theorem commitWait_outside (p k : Nat) (l : Bool) : (commitWait s p k l).outside = s.outside := by
  unfold commitWait
  split <;> simp

@[simp] theorem commitOff_outside (p k : Nat) : (commitOff s p k).outside = s.outside := by
  unfold commitOff
  split <;> simp

@[simp] theorem releaseBarrier_outside (i : Nat) (m : Word) : (releaseBarrier s i m).outside = s.outside := by
  refine (foldl_keeps State.outside (fun s v => ?_) _ _).trans (State.setInst_outside s i _)
  dsimp only
  split
  · split <;> simp
  · rfl

/-! ## Jobs (R117, R292, R295) -/

@[simp] theorem noteKey_outside (i n : Nat) (x : Slot) : (noteKey s i n x).outside = s.outside := by
  unfold noteKey
  split <;> rfl

@[simp] theorem leaveJob_outside (cz : Bool) (j : Job) (st : Nat) : (leaveJob s cz j st).outside = s.outside := by
  unfold leaveJob
  extract_lets left freed
  have hfreed : freed.outside = s.outside := by
    unfold freed
    split <;> simp [left]
  split
  · exact hfreed
  · exact hfreed

@[simp] theorem areaDone_outside (j : Job) (st d c : Nat) (b : List Byte) : (areaDone s j st d c b).outside = s.outside := by
  unfold areaDone
  split <;> simp

@[simp] theorem endJob_outside (cz : Bool) (j : Job) (st d c : Nat) (b : List Byte) : (endJob s cz j st d c b).outside = s.outside := by
  unfold endJob
  extract_lets n op waits x noted left
  have hnoted : noted.outside = s.outside := by
    unfold noted
    split
    · split
      · simp
      · split <;> simp
    · rfl
  have hleft : left.outside = s.outside := by
    unfold left
    split <;> simp [hnoted]
  split
  · simp [hleft]
  · split <;> simp [hleft]

theorem endedJob_outside {s t : State} {cz : Bool} {i q : Nat} {j : Job} (h : endedJob s cz i q = some (j, t)) : t.outside = s.outside := by
  unfold endedJob at h
  split at h
  · split at h
    · cases h
      exact leaveJob_outside s cz _ _
    · cases h
  · cases h

/-! ## Channel operations (R254 to R257, R262 to R270) -/

@[simp] theorem endSub_outside (i n : Nat) (st : Status) (d v : Nat) : (endSub s i n st d v).outside = s.outside := by
  simp [endSub, endWith]

@[simp] theorem endPoisoned_outside (i n l : Nat) : (endPoisoned s i n l).outside = s.outside := by
  simp [endPoisoned]

@[simp] theorem endError_outside (i n : Nat) (e : Nat × Nat × Nat) : (endError s i n e).outside = s.outside := endSub_outside s _ _ _ _ _

@[simp] theorem losePath_outside (i n : Nat) : (losePath s i n).outside = s.outside := by
  unfold losePath
  dsimp only
  split
  · simp
  · split
    · rfl
    · split
      · simp
      · split <;> split <;> simp

@[simp] theorem finishCce_outside (i n : Nat) : (finishCce s i n).outside = s.outside := by
  unfold finishCce
  dsimp only
  split <;> simp

@[simp] theorem endProgram_outside (i n : Nat) : (endProgram s i n).outside = s.outside := by
  unfold endProgram
  split <;> simp

@[simp] theorem sendPieces_outside (i n : Nat) (c : List Byte) (ps : List Piece) : (sendPieces s i n c ps).outside = s.outside := rfl

theorem onceIssue_outside {s t : State} {i n : Nat} (h : onceIssue s i n = .go t ∨ onceIssue s i n = .hold t) : t.outside = s.outside := by
  have hj (x : Sub) (a : Deferred) : (journal (s.setSub i n x) i n 2 false a).outside = s.outside := journal_outside _ _ _ _ _ _
  unfold onceIssue at h
  dsimp only at h
  split at h
  · obtain h | h := h <;> cases h
    rfl
  · split at h
    · obtain h | h := h <;> cases h
      rfl
    · split at h <;> obtain h | h := h <;> cases h <;> exact hj _ _

@[simp] theorem runCces_outside (fuel i n : Nat) : (runCces fuel s i n).outside = s.outside := by
  induction fuel generalizing s with
  | zero => rfl
  | succ fuel ih =>
    have hnext (t : State) (c : List Byte) (x : Sub) : (if cceMore c = true then runCces fuel ((finishCce t i n).setSub i n x) i n
        else endProgram (finishCce t i n) i n).outside = t.outside := by
      split <;> simp [ih]
    unfold runCces
    extract_lets x c m redone owners
    split
    · rfl
    · split
      · simp
      · split
        · simp
        · split
          · simp
          · split
            next t ht => exact onceIssue_outside (.inr ht)
            next t ht =>
              refine Eq.trans ?_ (onceIssue_outside (.inl ht))
              dsimp only
              split
              · exact hnext t c _
              · split
                · split
                  · rfl
                  · split
                    · exact hnext _ c _
                    · exact hnext t c _
                · split
                  · split
                    · split
                      · rfl
                      · exact hnext _ c _
                    · rfl
                  · rw [sendPieces_outside]
                    split
                    · split <;> split <;> simp
                    · split <;> simp

@[simp] theorem runSub_outside (i n : Nat) : (runSub s i n).outside = s.outside := runCces_outside s 257 i n

@[simp] theorem loseLink_outside (p : Nat) : (loseLink s p).outside = s.outside := by
  unfold loseLink
  refine (foldl_keeps State.outside (fun s e => ?_) _ _).trans ((logEvent_outside _ _).trans rfl)
  split <;> simp

/-! ## An instance off the module (R71, R368) -/

theorem dropDomes_foldl_outside (q : Nat → Bool) (ls : List Nat) : (ls.foldl (fun s l => dropDomes s l q) s).outside = s.outside :=
  foldl_keeps State.outside (f := fun s l => dropDomes s l q) (fun s l => dropDomes_outside s l q) ls s

@[simp] theorem rollback_outside (p : Nat) : (rollback s p).outside = s.outside := by
  unfold rollback
  extract_lets t lost dropped k cleared
  have hcleared : cleared.outside = s.outside := dropDomes_foldl_outside s _ _
  cases k with
  | some k => exact hcleared
  | none => exact hcleared

@[simp] theorem withdrawAll_outside (i : Nat) : (withdrawAll s i).outside = s.outside := rfl

@[simp] theorem stopInst_outside (i : Nat) : (stopInst s i).outside = s.outside := by
  unfold stopInst
  extract_lets off idle
  have hoff : off.outside = s.outside := foldl_keeps State.outside (fun s e => by simp) _ s
  exact hoff

@[simp] theorem dropJobs_outside (i : Nat) : (dropJobs s i).outside = s.outside := by
  unfold dropJobs
  extract_lets free freed noXce noCze
  have hfree (cz : Bool) (s : State) : (free cz s).outside = s.outside := foldl_keeps State.outside (fun s _ => pushHold_outside s _ _ _) _ s
  have hslots (l : List Nat) (f : State → Nat → KV Page) : (l.foldl (fun s pg => { s with pages := f s pg }) noCze).outside = noCze.outside :=
    foldl_keeps State.outside (f := fun s pg => { s with pages := f s pg }) (fun _ _ => rfl) l noCze
  calc _ = noCze.outside := hslots _ _
    _ = freed.outside := by simp [noCze, noXce]
    _ = s.outside := (hfree true _).trans (hfree false s)

@[simp] theorem failCommands_outside (i : Nat) : (failCommands s i).outside = s.outside := by
  refine foldl_keeps State.outside (fun s op => ?_) _ s
  split <;> simp

@[simp] theorem failRequests_outside (n : Nat) : (failRequests s n).outside = s.outside :=
  foldl_keeps State.outside (fun s r => by simp) _ s

@[simp] theorem dropRequests_outside (n : Nat) : (dropRequests s n).outside = s.outside :=
  foldl_keeps State.outside freeDispatch_outside _ s

@[simp] theorem stopFetch_outside (n : Nat) : (stopFetch s n).outside = s.outside := rfl

@[simp] theorem faultNow_outside (i : Nat) : (faultNow s i).outside = s.outside := by
  unfold faultNow
  dsimp only
  split <;> simp

@[simp] theorem leaveModule_outside (i : Nat) : (leaveModule s i).outside = s.outside := by
  have hunits (t : State) (c : Css) (g : List Group) (n : KV (List Nat)) (k : KV (List MLine)) :
      ({ t with css := c, twin := { t.twin with groups := g, notes := n, keyNotes := k } } : State).outside = t.outside := rfl
  simp [leaveModule, hunits]

@[simp] theorem surrender_outside (i c : Nat) : (surrender s i c).outside = s.outside := by
  unfold surrender
  dsimp only
  split <;> simp

end Sys2Proof.Machine

/-! SUPPORT. The twin commands (R354, R355, R358, R363, R366, R368, R372), and the statement about them, O48. -/

namespace Sys2Proof.Machine

open Sys2Proof

theorem State.inst_congr {s t : State} (h : t.insts = s.insts) (i : Nat) : t.inst i = s.inst i := by
  unfold State.inst
  rw [h]

theorem protecting_of_outside {s t : State} (h : t.outside = s.outside) : t.twin.protecting = s.twin.protecting :=
  congrArg (fun x => x.2.2.1.protecting) h

theorem handing_of_outside {s t : State} (h : t.outside = s.outside) : t.twin.handing = s.twin.handing :=
  congrArg (fun x => x.2.2.1.handing) h

@[simp] theorem State.setStage_twin (s : State) (n q : Nat) (g : Stage) : (s.setStage n q g).twin = s.twin := rfl

/-! ## What the log and the completion of a manager command leave -/

@[simp] theorem logEvent_insts (s : State) (e : LogEntry) : (logEvent s e).insts = s.insts := by
  obtain ⟨o, fs, b, h, -⟩ := logEvent_frame s e
  rw [h]

@[simp] theorem logEvent_twin (s : State) (e : LogEntry) : (logEvent s e).twin = s.twin := by
  obtain ⟨o, fs, b, h, -⟩ := logEvent_frame s e
  rw [h]

@[simp] theorem completeNow_command_insts (s : State) (q st d c : Nat) (b : List Byte) : (completeNow s 0 q st d c b).insts = s.insts :=
  (completeNow_posts 0 q st d c b s).insts

@[simp] theorem completeNow_twin (s : State) (n q st d c : Nat) (b : List Byte) : (completeNow s n q st d c b).twin = s.twin :=
  (completeNow_posts n q st d c b s).twin

@[simp] theorem wake_insts (s : State) : (wake s).insts = s.insts := by
  obtain ⟨o, fs, b, h⟩ := setPower_frame s 0
  rw [wake, h]

@[simp] theorem wake_twin (s : State) : (wake s).twin = s.twin := by
  obtain ⟨o, fs, b, h⟩ := setPower_frame s 0
  rw [wake, h]

theorem done_command {r : Request} (h : r.fn = 0) (t : State) (c : Nat) (b : List Byte) :
    done t r c b = completeNow t 0 r.seq 0 0 c b := by
  rw [done, h, complete_local (.inl rfl)]

theorem closeHub_insts (s : State) (i n : Nat) (a : Deferred) : (closeHub s i n a).insts = s.insts := foldl_keeps State.insts sendGroup_insts _ _

theorem closeHub_protecting (s : State) (i n : Nat) (a : Deferred) : (closeHub s i n a).twin.protecting = s.twin.protecting :=
  protecting_of_outside (closeHub_outside s i n a)

theorem closeHub_handing (s : State) (i n : Nat) (a : Deferred) : (closeHub s i n a).twin.handing = s.twin.handing :=
  handing_of_outside (closeHub_outside s i n a)

/-! ## TWIN_PAIR (R353, R358) -/

section
variable {s : State} {q : BitVec 32} {r : Request}

theorem twinQuery_eq (h : takeCmd s.quiet q.toNat 0x70 = some r) : execTwinQuery q s = .next (if par r.entry 36 = 0
    then done s.quiet r 0 (toBE 8 (jlStatus s) ++ toBE 4 (s.twin.partner.getD 0) ++ toBE 4 (poolGuaranteed s poolMirror 0))
    else done s.quiet r 0 (toBE 1 (s.inst (reqTarget r.entry)).role.code ++ toBE 1 (b2n (s.inst (reqTarget r.entry)).copying)
      ++ toBE 6 (kvGet 0 s.twin.lastAck (reqTarget r.entry)))) := by
  unfold execTwinQuery
  simp only [h, beq_iff_eq]
  split <;> rfl

theorem twinPair_refused (h : takeCmd s.quiet q.toNat 0x71 = some r) (h1 : s.twin.st ≠ .linked) (h2 : s.twin.st ≠ .alone ∨ s.twin.link < 2) :
    execTwinPair q s = .next (refuse s.quiet r 0xFFFF (8 + s.twin.st.code)) := by
  have hg : (!(s.quiet.twin.st == .linked || (s.quiet.twin.st == .alone && decide (s.quiet.twin.link ≥ 2)))) = true := by
    rcases h2 with h2 | h2 <;> simp [h1, h2]
  unfold execTwinPair
  simp only [h, hg, if_true]
  rfl

/-- TWIN_PAIR in a twin state that allows it tells the partner whether DKEY slot 0 holds a key, and goes on by the partner's word. -/
theorem twinPair_eq (h : takeCmd s.quiet q.toNat 0x71 = some r) (hst : s.twin.st = .linked ∨ (s.twin.st = .alone ∧ 2 ≤ s.twin.link))
    (hp : s.twin.pairing = none) (hrun : s.spire.stopped = false) : let told (v : Nat) : State := sendControl s.quiet ctlPair [s.spire.modid, v]
    execTwinPair q s = .next (match dkeyOf s 0, s.twin.partnerPairs with
      | none, _ => answer (told 0) r .keyAbsent 0
      | some _, some true => becomePaired (told 1) r.seq
      | some _, some false => answer { told 1 with twin := { (told 1).twin with partnerPairs := none } } r .keyAbsent 0
      | some _, none => { told 1 with twin := { (told 1).twin with pairing := some r.seq } }.setStage 0 r.seq .running) := by
  have hg : (!(s.quiet.twin.st == .linked || (s.quiet.twin.st == .alone && decide (s.quiet.twin.link ≥ 2)))) = false := by
    rcases hst with h1 | ⟨h1, h2⟩ <;> simp [*]
  have hpp (v : Nat) : (sendControl s.quiet ctlPair [s.spire.modid, v]).twin.partnerPairs = s.twin.partnerPairs := rfl
  unfold execTwinPair
  simp only [h, hg, Bool.false_eq_true, if_false]
  simp only [State.quiet_twin, State.quiet_spire, hp, Option.isSome_none, hrun,
    show dkeyOf s.quiet 0 = dkeyOf s 0 from rfl, hpp]
  cases dkeyOf s 0 with
  | none => rfl
  | some k =>
    rcases s.twin.partnerPairs with _ | _ | _ <;> rfl

/-! ## TWIN_PROTECT (R363) -/

theorem twinProtect_refused (h : takeCmd s.quiet q.toNat 0x72 = some r) (hst : s.twin.st ≠ .paired) :
    execTwinProtect q s = .next (refuse s.quiet r (reqTarget r.entry) (8 + s.twin.st.code)) := by
  unfold execTwinProtect
  simp only [h, bne_iff_ne, State.quiet_twin, ne_eq, hst, not_false_eq_true, if_true]
  rfl

/-- The partner has created the copy: an instance that holds nothing is PRIMARY at once, the copy of another is filled first. -/
def startCopy (s : State) (r : Request) (i : Nat) (x : Inst) : State :=
  let s := sendProtect (wake s) i
  if x.st == .defined && x.main.isEmpty && x.bulk.isEmpty then done (s.setInst i { x with role := .primary, copying := false }) r 0 []
  else
    let s := (s.setInst i { x with role := .exposed, copying := true }).setStage 0 r.seq .running
    let l := granuleLines s i
    let s := closeHub { s with twin := { s.twin with protecting := kvSet s.twin.protecting i r.seq } } i 0x12 .nothing
    if l.isEmpty then sendControl s ctlCopyDone [i] else { s with twin := { s.twin with copies := kvSet s.twin.copies i l } }

section
variable (h : takeCmd s.quiet q.toNat 0x72 = some r) (hst : s.twin.st = .paired) {x : Inst} (hx : s.inst (reqTarget r.entry) = x)
  (hrole : x.role = .local_ ∨ x.role = .exposed) (hlife : x.st = .defined ∨ x.st = .running ∨ x.st = .quiesced) (himp : x.importing = none)
include h hst hx hrole hlife himp

theorem twinProtect_unmirrored (hm : x.main.any (fun g => !g.mir) = true) : execTwinProtect q s = .next (answer s.quiet r .resourceLimit 2) := by
  have hg : (!((x.role == .local_ || x.role == .exposed) && (x.st == .defined || x.st == .running || x.st == .quiesced) && x.importing.isNone))
      = false := by
    rcases hrole with h1 | h1 <;> rcases hlife with h2 | h2 | h2 <;> simp [h1, h2, himp]
  unfold execTwinProtect
  simp only [h, State.quiet_twin, hst, bne_self_eq_false, Bool.false_eq_true, if_false, State.quiet_inst, hx, hg, hm, if_true]

theorem twinProtect_mirrored (hm : x.main.any (fun g => !g.mir) = false) (hb : x.bulk.any (fun g => !g.mir) = false) :
    ∃ u, execTwinProtect q s = .next u ∧ (Config.pick s.free % 3 = 0 → u = startCopy s.quiet.fresh.2 r (reqTarget r.entry) x) := by
  have hg : (!((x.role == .local_ || x.role == .exposed) && (x.st == .defined || x.st == .running || x.st == .quiesced) && x.importing.isNone))
      = false := by
    rcases hrole with h1 | h1 <;> rcases hlife with h2 | h2 | h2 <;> simp [h1, h2, himp]
  unfold execTwinProtect
  simp only [h, State.quiet_twin, hst, bne_self_eq_false, Bool.false_eq_true, if_false, State.quiet_inst, hx, hg, hm, hb]
  dsimp only [State.fresh, State.quiet_free]
  split
  next h1 => exact ⟨_, rfl, fun h0 => absurd h0 (by omega)⟩
  next h2 => exact ⟨_, rfl, fun h0 => absurd h0 (by omega)⟩
  next =>
    refine ⟨startCopy s.quiet.fresh.2 r (reqTarget r.entry) x, ?_, fun _ => rfl⟩
    unfold startCopy
    simp only [apply_ite Host.Outcome.next]
    rfl

end

theorem granuleLines_ne_nil {s : State} {i : Nat} (h : (s.inst i).main ≠ [] ∨ (s.inst i).bulk ≠ []) : granuleLines s i ≠ [] := by
  unfold granuleLines
  rcases h with h | h <;> obtain ⟨g, l, hg⟩ := List.exists_cons_of_ne_nil h <;> simp [hg]

/-- The copy of an instance that holds nothing needs no filling. -/
theorem startCopy_empty {s : State} {r : Request} (hfn : r.fn = 0) {i : Nat} {x : Inst} (hst : x.st = .defined) (hm : x.main = []) (hb : x.bulk = []) :
    ((startCopy s r i x).inst i).role = .primary := by
  unfold startCopy
  simp only [hst, hm, hb, beq_self_eq_true, List.isEmpty_nil, Bool.and_self, if_true]
  rw [done_command hfn, State.inst_congr (completeNow_command_insts _ _ _ _ _ _), State.inst_setInst_same]

/-- Copy lines depend on the granules and on the size of the journal alone. -/
theorem granuleLines_congr {s t : State} {i : Nat} (hm : (t.inst i).main = (s.inst i).main) (hb : (t.inst i).bulk = (s.inst i).bulk)
    (himg : t.img = s.img) : granuleLines t i = granuleLines s i := by
  have hp : t.poolBase = s.poolBase := by rw [State.poolBase, State.journalBytes, himg, State.poolBase, State.journalBytes]
  rw [granuleLines, granuleLines, hm, hb, hp]

theorem sendProtect_img (s : State) (i : Nat) : (sendProtect (wake s) i).img = s.img := by
  obtain ⟨o, fs, b, h⟩ := setPower_frame s 0
  rw [wake, h]
  rfl

theorem startCopy_fills {s : State} {r : Request} {i : Nat} (h : (s.inst i).main ≠ [] ∨ (s.inst i).bulk ≠ []) : let u := startCopy s r i (s.inst i)
    (u.inst i).role = .exposed ∧ (u.inst i).copying = true ∧ kvFind u.twin.copies i = some (granuleLines s i)
      ∧ kvFind u.twin.protecting i = some r.seq := by
  have he : ((s.inst i).st == .defined && (s.inst i).main.isEmpty && (s.inst i).bulk.isEmpty) = false := by
    rcases h with h | h <;> simp [h]
  unfold startCopy
  rw [if_neg (by simp [he])]
  extract_lets marked l twin closed twin' copied
  have hmarked : marked.inst i = { s.inst i with role := .exposed, copying := true } := State.inst_setInst_same (sendProtect (wake s) i) i _
  have hl : l = granuleLines s i := granuleLines_congr (by rw [hmarked]) (by rw [hmarked]) (sendProtect_img s i)
  have hne : l.isEmpty = false := by simp [hl, granuleLines_ne_nil h]
  have hinsts : closed.insts = marked.insts := closeHub_insts _ i 0x12 .nothing
  have hclosed : closed.inst i = { s.inst i with role := .exposed, copying := true } :=
    (State.inst_congr hinsts i).trans hmarked
  have hprot : closed.twin.protecting = kvSet marked.twin.protecting i r.seq := closeHub_protecting _ i 0x12 .nothing
  have hcopied : copied = { closed with twin := { closed.twin with copies := kvSet closed.twin.copies i l } } :=
    if_neg (by simp [hne])
  rw [hcopied]
  refine ⟨congrArg Inst.role hclosed, congrArg Inst.copying hclosed, ?_, ?_⟩
  · simp [kvFind_kvSet, hl]
  · simp [kvFind_kvSet, hprot]

/-! ## TWIN_HANDOVER (R368) -/

@[simp] theorem commitOffs_outside (s : State) (l : List (Nat × Nat)) : (l.foldl (fun s e => commitOff s e.1 e.2) s).outside = s.outside :=
  foldl_keeps State.outside (fun s e => commitOff_outside s e.1 e.2) l s

@[simp] theorem tryHandover_outside (s : State) (i : Nat) : (tryHandover s i).outside = s.outside := by
  unfold tryHandover
  split
  · rfl
  · dsimp only
    split <;> simp

theorem tryHandover_handing (s : State) (i : Nat) : (tryHandover s i).twin.handing = s.twin.handing :=
  handing_of_outside (tryHandover_outside s i)

theorem twinHandover_refused (h : takeCmd s.quiet q.toNat 0x73 = some r) (hst : s.twin.st ≠ .paired) :
    execTwinHandover q s = .next (refuse s.quiet r (reqTarget r.entry) (8 + s.twin.st.code)) := by
  unfold execTwinHandover
  simp only [h, bne_iff_ne, State.quiet_twin, ne_eq, hst, not_false_eq_true, if_true]
  rfl

theorem twinHandover_not_primary (h : takeCmd s.quiet q.toNat 0x73 = some r) (hst : s.twin.st = .paired)
    (hrole : (s.inst (reqTarget r.entry)).role ≠ .primary) :
    execTwinHandover q s = .next (refuse s.quiet r (reqTarget r.entry) (s.inst (reqTarget r.entry)).st.code) := by
  unfold execTwinHandover
  simp [h, hst, hrole]

theorem twinHandover_starts (h : takeCmd s.quiet q.toNat 0x73 = some r) (hst : s.twin.st = .paired)
    (hrole : (s.inst (reqTarget r.entry)).role = .primary)
    (hlife : (s.inst (reqTarget r.entry)).st = .running ∨ (s.inst (reqTarget r.entry)).st = .quiesced) :
    ∃ u, execTwinHandover q s = .next u ∧ kvFind u.twin.handing (reqTarget r.entry) = some r.seq := by
  have hg : (!((s.inst (reqTarget r.entry)).role == .primary
      && ((s.inst (reqTarget r.entry)).st == .running || (s.inst (reqTarget r.entry)).st == .quiesced))) = false := by
    rcases hlife with h1 | h1 <;> simp [hrole, h1]
  unfold execTwinHandover
  simp only [h, State.quiet_twin, hst, bne_self_eq_false, Bool.false_eq_true, if_false, State.quiet_inst, hg]
  refine ⟨_, rfl, ?_⟩
  rw [tryHandover_handing, closeHub_handing]
  simp [withdrawAll, kvFind_kvSet]

/-! ## TWIN_FORCE (R366) -/

theorem twinForce_refused (h : takeCmd s.quiet q.toNat 0x74 = some r) (hst : s.twin.st ≠ .alone ∨ s.twin.unanswered = false) :
    execTwinForce q s = .next (refuse s.quiet r 0xFFFF (8 + s.twin.st.code)) := by
  have hg : (!(s.twin.st == .alone && s.twin.unanswered)) = true := by
    rcases hst with h1 | h1 <;> simp [h1]
  unfold execTwinForce
  simp only [h, State.quiet_twin, hg, if_true]
  rfl

theorem twinForce_other (h : takeCmd s.quiet q.toNat 0x74 = some r) (hst : s.twin.st = .alone) (hun : s.twin.unanswered = true)
    (hp : s.twin.partner ≠ some (fieldBE r.entry 40 8)) : execTwinForce q s = .next (answer s.quiet r .fieldInvalid 40) := by
  unfold execTwinForce
  simp [h, hst, hun, hp.symm]

@[simp] theorem endForce_takeAll (s : State) : (endForce s).twin.takeAll = s.twin.takeAll := by
  unfold endForce
  split
  · split <;> simp
  · rfl

@[simp] theorem endForce_unanswered (s : State) : (endForce s).twin.unanswered = s.twin.unanswered := by
  unfold endForce
  split
  · split <;> simp
  · rfl

theorem twinForce_starts (h : takeCmd s.quiet q.toNat 0x74 = some r) (hst : s.twin.st = .alone) (hun : s.twin.unanswered = true)
    (hp : s.twin.partner = some (fieldBE r.entry 40 8)) :
    ∃ u, execTwinForce q s = .next u ∧ u.twin.takeAll = some s.clk.tb ∧ u.twin.unanswered = false := by
  unfold execTwinForce
  simp only [h, State.quiet_twin, hst, hun, hp, beq_self_eq_true, Bool.and_self, Bool.not_true, Bool.false_eq_true, if_false, bne_self_eq_false]
  exact ⟨_, rfl, by simp, by simp⟩

end

/-- Settles O48: a copy that is started is followed through the closing of its group, which leaves roles and commands alone; the other
clauses are equations. -/
theorem twinCommands : Obligations.TwinCommands := by
  unfold Obligations.TwinCommands
  intro s q r w i e x
  refine ⟨fun h => ⟨fun hp => ?_, fun hp => ?_⟩, fun h => ⟨twinPair_refused h, fun hst hp hrun => ?_⟩,
    fun h => ⟨twinProtect_refused h, fun hst hrole hlife himp => ⟨twinProtect_unmirrored h hst rfl hrole hlife himp, fun hm hb => ?_⟩⟩,
    fun h => ⟨twinHandover_refused h, twinHandover_not_primary h, twinHandover_starts h⟩,
    fun h => ⟨twinForce_refused h, twinForce_other h, twinForce_starts h⟩⟩
  · exact (twinQuery_eq h).trans (by rw [if_pos hp])
  · exact (twinQuery_eq h).trans (by rw [if_neg hp])
  · have heq := twinPair_eq h hst hp hrun
    refine ⟨fun hk => ?_, fun k hk hpp => ?_, fun k hk hpp => ?_, fun k hk hpp => ?_⟩ <;> rw [hk] at heq
    · exact heq
    · rw [hpp] at heq
      exact heq
    · rw [hpp] at heq
      exact heq
    · rw [hpp] at heq
      exact ⟨_, heq, rfl, rfl⟩
  · obtain ⟨u, hu, hcopy⟩ := twinProtect_mirrored h hst rfl hrole hlife himp hm hb
    refine ⟨u, hu, fun h0 => ?_⟩
    rw [hcopy h0]
    refine ⟨fun ⟨hd, hm, hb⟩ => startCopy_empty (takeCmd_key h).2.1 hd hm hb, fun hg => ?_⟩
    have hl : granuleLines s.quiet.fresh.2 i = granuleLines s i := granuleLines_congr rfl rfl rfl
    rw [← hl]
    exact startCopy_fills (s := s.quiet.fresh.2) hg

end Sys2Proof.Machine

/-! SUPPORT. The image commands and the calibration page (R389 to R393, R449 to R452), and the statement about them, O49. -/

namespace Sys2Proof.Machine

open Sys2Proof

/-! ## The regions of the NOR and MREG7 -/

@[simp] theorem region_setRegion_same (s : State) (k : Nat) (r : Region) : region (setRegion s k r) k = r := by
  unfold region setRegion
  by_cases h0 : k = 0
  · simp [h0]
  · by_cases h1 : k = 1 <;> simp [h0, h1]

theorem region_congr {s t : State} (h : t.spire = s.spire) (k : Nat) : region t k = region s k := by
  unfold region
  rw [h]

@[simp] theorem logEvent_spire (s : State) (e : LogEntry) : (logEvent s e).spire = s.spire :=
  congrArg (·.2.2) (logEvent_upkeep s e)

/-- A Spire event of a running Spire extends MREG7, from the number that the event takes. -/
theorem spireEvent_running (s : State) (e : LogEntry) (h : List Byte) (hrun : s.spire.stopped = false) :
    spireEvent s e h = extendReg (logEvent s e) 7 (padTo 32 (toBE 2 e.event ++ zeros 6 ++ toBE 8 s.bel.eseq ++ h.take 16)) := by
  unfold spireEvent
  simp [hrun]

@[simp] theorem region_extendReg (s : State) (n : Nat) (v : List Byte) (k : Nat) : region (extendReg s n v) k = region s k := rfl

theorem region_spireEvent (s : State) (e : LogEntry) (h : List Byte) (k : Nat) : region (spireEvent s e h) k = region s k := by
  unfold spireEvent
  dsimp only
  split
  · exact region_congr (logEvent_spire s e) k
  · rw [region_extendReg, region_congr (logEvent_spire s e)]

theorem getD_modify_same {α : Type} (l : List α) (n : Nat) (f : α → α) (d : α) :
    (l.modify n f).getD n d = if n < l.length then f (l.getD n d) else d := by
  rw [List.getD_eq_getElem?_getD, List.getElem?_modify_eq]
  split
  next h => simp [List.getD_eq_getElem?_getD, h]
  next h => simp [Nat.not_lt.mp h]

theorem extendReg_mreg (s : State) (n : Nat) (v : List Byte) : (extendReg s n v).spire.mreg.getD n []
    = if n < s.spire.mreg.length then sha256 (s.spire.mreg.getD n [] ++ v) else [] :=
  getD_modify_same _ _ _ _

section
variable {s : State} {q : BitVec 32} {r : Request} {data : List Byte}

/-! ## IMAGE_QUERY (R390) -/

theorem imageQuery_region (h : takeCmd s.quiet q.toNat 0x78 = some r) (hk : par r.entry 36 < 3) : let x := region s.quiet (par r.entry 36)
    execImageQuery q s = .next (if reqDstLen r.entry = 0 ∨ regionHeader s.quiet x = []
      then done s.quiet r 0 (regionResult s.quiet (par r.entry 36) x)
      else done (hostWrite s.quiet 0 (reqDst r.entry) (regionHeader s.quiet x)) r 256 (regionResult s.quiet (par r.entry 36) x)) := by
  have h3 : (par r.entry 36 == 3) = false := by simp; omega
  unfold execImageQuery
  simp only [h, h3, Bool.false_eq_true, if_false, Bool.or_eq_true, beq_iff_eq, List.isEmpty_iff]
  split <;> rfl

theorem imageQuery_inForce (h : takeCmd s.quiet q.toNat 0x78 = some r) (hk : par r.entry 36 = 3) (hd : reqDstLen r.entry = 0) :
    execImageQuery q s = .next (done s.quiet r 0 (inForceResult s.quiet)) := by
  unfold execImageQuery
  simp [h, hk, hd]

/-! ## IMAGE_WRITE and IMAGE_PUSH (R389, R391, R392) -/

theorem writeRegion_region (s : State) (r : Request) (k : Nat) (m : List Byte) :
    region (writeRegion s r k m) k = { region s k with marker := false, writing := some r.seq, new := m, reason := 0, offset := 0 } :=
  (region_congr (t := writeRegion s r k m) (s := setRegion s k _) rfl k).trans (region_setRegion_same s k _)

section
variable (hrun : s.spire.stopped = false)
include hrun

theorem imageWrite_inForce (h : takeCmd s.quiet q.toNat 0x79 = some r) (hk : s.spire.inForce = par r.entry 36) :
    execImageWrite q data s = .next (refuse s.quiet r 0xFFFF 0) := by
  unfold execImageWrite
  simp [h, hrun, hk]

theorem imageWrite_eq (h : takeCmd s.quiet q.toNat 0x79 = some r) (hk : s.spire.inForce ≠ par r.entry 36) (hlen : data.length = reqSrcLen r.entry) :
    execImageWrite q data s = .next (match checkBytes s.quiet data with
      | some (x, o) => rejectImage s.quiet r (par r.entry 36) x o
      | none => writeRegion s.quiet r (par r.entry 36) data) := by
  unfold execImageWrite
  simp only [h, State.quiet_spire, hrun, Bool.false_eq_true, if_false, beq_iff_eq, hk, padTo_of_length hlen]
  split <;> simp_all

theorem imagePush_eq (h : takeCmd s.quiet q.toNat 0x7A = some r) (hfree : ∀ x ∈ s.insts, x.2.st = .free) (hlen : data.length = reqSrcLen r.entry) :
    execImagePush q data s = .next (match checkBytes s.quiet data with
      | some (x, o) => rejectImage s.quiet r 2 x o
      | none => writeRegion s.quiet r 2 data) := by
  have hnone : (s.quiet.insts.find? fun e => e.2.st != .free) = none := by
    rw [List.find?_eq_none]
    intro x hx
    simp [hfree x hx]
  unfold execImagePush
  simp only [h, State.quiet_spire, hrun, Bool.false_eq_true, if_false, padTo_of_length hlen, hnone]
  split <;> simp_all

theorem imagePush_refused (h : takeCmd s.quiet q.toNat 0x7A = some r) {i : Nat} {x : Inst}
    (hx : (s.insts.find? fun y => y.2.st != .free) = some (i, x)) : execImagePush q data s = .next (refuse s.quiet r i x.st.code) := by
  unfold execImagePush
  simp [h, hrun, hx]

end

theorem imageNorWriteDone_eq {k : Nat} (hk : (List.range 3).find? (fun k => (region s.quiet k).writing == some q.toNat) = some k)
    (hr : s.req? 0 q.toNat = some r) (hlive : s.live = true) (hstop : s.hp.stopped = false) :
    ∃ u, execImageNorWriteDone q s = .next (done u r 0 (regionResult u k (region u k)))
      ∧ region u k = { image := some (.bytes (region s k).new), marker := true } := by
  have hl : (!s.quiet.live || s.quiet.hp.stopped) = false := by simp [hlive, hstop]
  unfold execImageNorWriteDone
  simp only [hk, show s.quiet.req? 0 q.toNat = some r from hr, hl, Bool.false_eq_true, if_false]
  refine ⟨_, rfl, ?_⟩
  rw [region_spireEvent, region_setRegion_same]
  rfl

/-! ## IMAGE_SELECT (R393) -/

theorem imageSelect_refused (h : takeCmd s.quiet q.toNat 0x7B = some r) (hst : regionState (region s.quiet (par r.entry 36)) ≠ 1) :
    execImageSelect q s = .next (refuse s.quiet r 0xFFFF 0) := by
  unfold execImageSelect
  simp [h, hst]

/-- Region `k` made the preferred one; with `drop` the marker of the push region goes. -/
def preferRegion (s : State) (k : Nat) (drop : Bool) : State :=
  let s := { s with spire := { s.spire with preferred := k } }
  if drop then { s with spire := { s.spire with push := { s.spire.push with marker := false } } } else s

theorem imageSelect_valid (h : takeCmd s.quiet q.toNat 0x7B = some r) (hst : regionState (region s.quiet (par r.entry 36)) = 1)
    (hrun : s.spire.stopped = false) : let p := preferRegion s.quiet (par r.entry 36) (par r.entry 37 == 1)
    ∃ e : LogEntry, e.event = 0xA1 ∧ execImageSelect q s = .next (done (extendReg (logEvent p e) 7
      (padTo 32 (toBE 2 0xA1 ++ zeros 6 ++ toBE 8 s.bel.eseq))) r 0 []) := by
  intro p
  have hp : p.spire.stopped = false ∧ p.bel = s.bel := by
    unfold p preferRegion
    dsimp only
    split <;> exact ⟨hrun, rfl⟩
  obtain ⟨hstop, hbel⟩ := hp
  refine ⟨{ p.entry 0xA1 0 0x0D 0 with detail := 0x7B, param := paramAt 48 1 3 }, rfl, ?_⟩
  have hev := spireEvent_running p { p.entry 0xA1 0 0x0D 0 with detail := 0x7B, param := paramAt 48 1 3 } [] hstop
  rw [hbel, List.take_nil, List.append_nil] at hev
  have hexec : execImageSelect q s = .next (done (spireEvent p { p.entry 0xA1 0 0x0D 0 with detail := 0x7B, param := paramAt 48 1 3 } []) r 0 []) := by
    unfold execImageSelect
    simp only [h, hst, bne_self_eq_false, Bool.false_eq_true, if_false]
    rfl
  rw [hexec, hev]
  rfl

/-! ## The calibration page (R449 to R452) -/

theorem calRead_eq (h : takeCmd s.quiet q.toNat 0x7C = some r) :
    execCalRead q s = .next (done (hostWrite s.quiet 0 (reqDst r.entry) (calBytes s s.tst.cal)) r 4096 []) := by
  unfold execCalRead
  simp only [h]
  rfl

theorem calWrite_faulty (h : takeCmd s.quiet q.toNat 0x7D = some r) (hlen : data.length = 4096) {o : Nat}
    (ho : (calFault s.quiet data).or (calReserved data) = some o) :
    execCalWrite q data s = .next (complete s.quiet 0 r.seq 3 8 0 (zeros 4 ++ toBE 4 o ++ zeros 8)) := by
  unfold execCalWrite
  simp only [h, padTo_of_length hlen, ho]
  rfl

theorem calWrite_taken (h : takeCmd s.quiet q.toNat 0x7D = some r) (hlen : data.length = 4096)
    (ho : (calFault s.quiet data).or (calReserved data) = none) :
    ∃ u, execCalWrite q data s = .next u ∧ u.tst.calBuffer = some (calMerge s.quiet data) ∧ u.tst.calWriter = some r.seq := by
  unfold execCalWrite
  simp only [h, padTo_of_length hlen, ho]
  exact ⟨_, rfl, rfl, rfl⟩

theorem calNorWriteDone_eq (hlive : s.live = true) {m : List Byte} {n : Nat} (hm : s.tst.calBuffer = some m) (hn : s.tst.calWriter = some n) :
    ∃ u, execCalNorWriteDone s = .next (complete u 0 n 0 0 0 []) ∧ u.tst.cal = .bytes m ∧ u.tst.calBuffer = none := by
  unfold execCalNorWriteDone
  simp only [State.quiet_tst, hm, hn, show s.quiet.live = true from hlive, Bool.not_true, Bool.false_eq_true, if_false]
  refine ⟨_, rfl, ?_⟩
  unfold calWritten
  rw [tst_of_outside (logEvent_outside _ _)]
  exact ⟨rfl, rfl⟩

theorem recal_eq (h : takeCmd s.quiet q.toNat 0x7E = some r) : execRecal q s
    = .next (complete { s.quiet with tst := { s.tst with recal := s.tst.recal ||| par r.entry 36 } } r.fn r.seq 0 0 0 []) := by
  unfold execRecal
  simp only [h]
  rfl

end

theorem preferRegion_spire (s : State) (k : Nat) (drop : Bool) : (preferRegion s k drop).spire.preferred = k
    ∧ (drop = true → (preferRegion s k drop).spire.push.marker = false) ∧ (preferRegion s k drop).spire.mreg = s.spire.mreg := by
  cases drop <;> simp [preferRegion]

/-- Settles O49: an image or a page of the length that the request names is taken as it is; IMAGE_SELECT is a Spire event, which extends
MREG7. -/
theorem imageAndCalibrationCommands : Obligations.ImageAndCalibrationCommands := by
  unfold Obligations.ImageAndCalibrationCommands
  intro s q data r w e k
  refine ⟨fun h hk => ⟨fun hd => ?_, fun hd hh => ?_⟩, imageQuery_inForce,
    fun h hrun => ⟨imageWrite_inForce hrun h, fun hk hlen => ⟨_, imageWrite_eq hrun h hk hlen, ?_⟩⟩,
    fun h hrun hlen => ⟨fun hfree => ⟨_, imagePush_eq hrun h hfree hlen, ?_⟩, fun i x => imagePush_refused hrun h⟩,
    fun h hrun => ⟨imageSelect_refused h, fun hst => ?_⟩, fun kk => imageNorWriteDone_eq, calRead_eq,
    fun h hlen => ⟨fun o => calWrite_faulty h hlen, calWrite_taken h hlen⟩, fun m n hlive => calNorWriteDone_eq hlive, recal_eq⟩
  · exact (imageQuery_region h hk).trans (by rw [if_pos hd])
  · exact (imageQuery_region h hk).trans (by rw [if_neg (not_or.mpr ⟨hd, hh⟩)])
  · rcases checkBytes w data with _ | ⟨x, o⟩
    · simp [writeRegion_region, k, e]
    · rfl
  · rcases checkBytes w data with _ | ⟨x, o⟩
    · exact ⟨congrArg Region.writing (writeRegion_region w r 2 data), congrArg Region.new (writeRegion_region w r 2 data)⟩
    · rfl
  · obtain ⟨ev, -, hexec⟩ := imageSelect_valid h hst hrun
    obtain ⟨hpref, hpush, hmreg⟩ := preferRegion_spire w k (par e 37 == 1)
    refine ⟨_, hexec, ?_, fun hd => ?_, ?_⟩
    · simpa [extendReg] using hpref
    · simpa [extendReg] using hpush (by simp [hd])
    · have hp : (preferRegion s.quiet (par r.entry 36) (par r.entry 37 == 1)).spire.mreg = s.spire.mreg := hmreg
      rw [extendReg_mreg, logEvent_spire, hp]

end Sys2Proof.Machine

/-! SUPPORT. Runtime self-tests (R437, R439, R442 to R447), and the statement about them, O55. -/

namespace Sys2Proof.Machine

open Sys2Proof

/-! ## What fencing, repair and stopping units leave alone -/

section
variable (s : State)

@[simp] theorem State.fresh_outside : s.fresh.2.outside = s.outside := rfl
@[simp] theorem State.setAccel_outside (cz : Bool) (a : Accel) : (s.setAccel cz a).outside = s.outside := by cases cz <;> rfl
@[simp] theorem unitFenced_outside (c n u l : Nat) : (unitFenced s c n u l).1.outside = s.outside := logEvent_outside s _
/-- A unit fenced says so in an entry of its own, which stands last in the log. -/
theorem unitFenced_last {s : State} (hb : s.bel.stopped = false) {c : Nat} (hc : c ≠ 1) (n u l : Nat) :
    (unitFenced s c n u l).1.bel.log.getLast?.map (fun e => (e.event, e.source)) = some (0x31, n) := by
  have h := ((logEvent_written s (e := { s.entry 0x31 c n u with param := paramAt 48 2 l }) hc).2 hb).2
  unfold unitFenced logged
  rw [h]
  rfl

@[simp] theorem testFailed_outside (u : UnitId) (c : Nat) : (testFailed s u c).outside = s.outside := logEvent_outside _ _

theorem testFailed_eng (u : UnitId) (c p : Nat) : (testFailed s u c).eng p = s.eng p := (logEvent_records _ _).eng p

@[simp] theorem moveOps_outside (c : Nat) (l : List Nat) : (moveOps s c l).outside = s.outside := rfl

@[simp] theorem raiseDeferred_outside (i : Nat) (q : VE → Bool) (e : LogEntry) (n : Nat) : (raiseDeferred s i q e n).outside = s.outside := by
  unfold raiseDeferred
  split <;> simp

@[simp] theorem deviceFatal_outside (d n u : Nat) : (deviceFatal s d n u).outside = s.outside := by
  unfold deviceFatal
  refine (foldl_keeps State.outside (fun s i => ?_) _ _).trans ?_
  · split <;> simp
  · exact logEvent_outside s _

@[simp] theorem stopChe_outside (c : Nat) : (stopChe s c).outside = s.outside := by
  unfold stopChe
  split
  · rfl
  · dsimp only
    split
    · exact deviceFatal_outside _ _ _ _
    · simp only [unitFenced_outside, logEvent_outside, moveOps_outside]
      rfl

@[simp] theorem stopAccel_outside (cz : Bool) (e : Nat) : (stopAccel s cz e).outside = s.outside := by
  unfold stopAccel
  extract_lets src a job fenced requeued lost masks gone left hit ended
  have hrequeued : requeued.outside = s.outside := by
    unfold requeued
    generalize job = j
    cases j with
    | none => simp [fenced]
    | some j =>
      dsimp only
      split <;> simp [fenced]
  split
  · rfl
  · dsimp only
    refine (foldl_keeps State.outside (fun s i => raiseDeferred_outside s i _ _ _) _ _).trans ?_
    refine (foldl_keeps State.outside (fun s j => endJob_outside s cz j _ _ _ _) _ _).trans ?_
    rw [unitFenced_outside, hrequeued]

@[simp] theorem moveVe_outside (p q : Nat) : (moveVe s p q).outside = s.outside := by
  unfold moveVe
  split
  · rfl
  · dsimp only
    split <;> simp

@[simp] theorem endStandIn_outside (p q : Nat) : (endStandIn s p q).outside = s.outside := by
  unfold endStandIn
  dsimp only
  split
  · split <;> simp
  · simp

@[simp] theorem answerTest_outside (t : TestRun) (b : List Byte) : (answerTest s t b).outside = s.outside :=
  foldl_keeps State.outside (fun s q => complete_outside s 0 q 0 0 0 b) _ _

@[simp] theorem walkDome_outside (t : Nat) : (walkDome s t).outside = s.outside :=
  (State.updDome_outside _ t _).trans (foldl_keeps State.outside (fun s l => by simp) _ s)

@[simp] theorem backInService_outside (t : TestRun) : (backInService s t).outside = s.outside := by
  unfold backInService
  split
  · dsimp only
    split <;> simp
  · simp
  · rfl

end

/-! ## Tests cut short (R437, R446) -/

/-- The tables of the controller with the test of unit `u` cut. -/
def Tst.cut (t : Tst) (u : UnitId) : Tst := { t with running := t.running.filter (·.unit != u), incomplete := t.incomplete + 1 }

/-- A test cut short is an entry INCOMPLETE, and the answer to those who wait. -/
theorem cutTest_eq (s : State) (t : TestRun) (c g w : Nat) : ∃ (v : State) (e : LogEntry), cutTest s t c g w = answerTest (logEvent v e) t (testResult 2 0 c g w)
    ∧ v.outside = ({ s with tst := s.tst.cut t.unit } : State).outside ∧ e.event = 0x81 ∧ e.cls = 0 ∧ e.detail = c := by
  unfold cutTest
  extract_lets _ counted back p walked e logged
  refine ⟨walked, _, rfl, ?_, rfl, rfl, rfl⟩
  have hback : back.outside = counted.outside := by
    unfold back
    split <;> simp
  have hwalked : walked.outside = back.outside := by
    unfold walked
    split
    · simp
    · split <;> simp
  exact hwalked.trans hback

theorem cutTest_outside (s : State) (t : TestRun) (c g w : Nat) : (cutTest s t c g w).outside = ({ s with tst := s.tst.cut t.unit } : State).outside := by
  obtain ⟨v, e, heq, hv, -⟩ := cutTest_eq s t c g w
  rw [heq, answerTest_outside, logEvent_outside, hv]

/-- With nobody waiting, the entry stands last in the log. -/
theorem cutTest_logs (s : State) {t : TestRun} (ht : t.waiters = []) (c g w : Nat) (hrun : s.bel.stopped = false) :
    (cutTest s t c g w).bel.log.getLast?.map (fun e => (e.event, e.detail)) = some (0x81, c) := by
  obtain ⟨v, e, heq, hv, hevent, hcls, hdetail⟩ := cutTest_eq s t c g w
  have hlog := ((logEvent_written v (e := e) (by simp [hcls])).2 ((stopped_of_outside hv).trans hrun)).2
  rw [heq, answerTest, ht, List.foldl_nil, hlog]
  simp [hevent, hdetail]

theorem withCut_outside {s t : State} (h : t.outside = s.outside) (u : UnitId) :
    ({ t with tst := t.tst.cut u } : State).outside = ({ s with tst := s.tst.cut u } : State).outside := by
  have hp := pending_of_outside h
  have hw := standing_of_outside h
  have hb := stopped_of_outside h
  exact outside_eq hp (congrArg (Tst.cut · u) (tst_of_outside h)) hw hb

theorem cutOne_outside (s : State) (c : Nat) (t : TestRun) : (cutOne c s t).outside = ({ s with tst := s.tst.cut t.unit } : State).outside := by
  have cut (u : State) (h : u.outside = s.outside) : (cutFree u t c).outside = ({ s with tst := s.tst.cut t.unit } : State).outside := by
    exact (cutTest_outside _ t c _ _).trans (withCut_outside ((State.fresh_outside _).trans ((State.fresh_outside _).trans h)) t.unit)
  unfold cutOne
  split
  · exact cut _ (by simp)
  · exact cut s rfl

@[simp] theorem cutAll_stopped (s : State) (c : Nat) : (cutAll s c).bel.stopped = s.bel.stopped :=
  foldl_keeps (fun s => s.bel.stopped) (fun s t => stopped_of_outside (cutOne_outside s c t)) _ s

theorem cutOne_foldl_tst (c : Nat) (l : List TestRun) (s : State) : (l.foldl (cutOne c) s).tst
    = { s.tst with running := (l.foldl (cutOne c) s).tst.running, incomplete := s.tst.incomplete + l.length } := by
  induction l generalizing s with
  | nil => rfl
  | cons t l ih =>
    have ht : (cutOne c s t).tst = s.tst.cut t.unit := tst_of_outside (cutOne_outside s c t)
    rw [List.foldl_cons, ih, ht]
    simp [Tst.cut, Nat.add_comm, Nat.add_left_comm]

/-- Every test cut is counted. -/
theorem cutAll_tst (s : State) (c : Nat) :
    (cutAll s c).tst = { s.tst with running := [], incomplete := s.tst.incomplete + s.tst.running.length } := by
  have h := cutOne_foldl_tst c s.tst.running s
  rwa [← cutAll_eq_foldl, cutAll_running] at h

/-! ## Tests that end: what is counted (R439, R443, R447) -/

/-- The tests in progress, and how many have passed and failed. -/
def State.tally (s : State) : List TestRun × Nat × Nat := (s.tst.running, s.tst.passed, s.tst.failed)

theorem tally_of_outside {s t : State} (h : t.outside = s.outside) : t.tally = s.tally := by
  unfold State.tally
  rw [tst_of_outside h]

section
variable (s : State)

@[simp] theorem logEvent_tally (e : LogEntry) : (logEvent s e).tally = s.tally := tally_of_outside (logEvent_outside s e)
@[simp] theorem testFailed_tally (u : UnitId) (c : Nat) : (testFailed s u c).tally = s.tally := tally_of_outside (testFailed_outside s u c)
@[simp] theorem fenceUnit_tally (u : UnitId) : (fenceUnit s u).tally = s.tally := rfl
@[simp] theorem State.updEng_tally (p : Nat) (f : Engine → Engine) : (s.updEng p f).tally = s.tally := rfl
@[simp] theorem State.updDome_tally (t : Nat) (f : Dome → Dome) : (s.updDome t f).tally = s.tally := rfl

@[simp] theorem noteSpares_tally (t : Nat) : (noteSpares s t).tally = s.tally := by
  unfold noteSpares
  dsimp only
  split
  · rfl
  · split
    · rfl
    · exact logEvent_tally _ _

@[simp] theorem scheduleFuse_tally (u : UnitId) (k : Nat) : (scheduleFuse s u k).tally = s.tally := by
  unfold scheduleFuse
  split
  · rfl
  · split
    · rfl
    · split
      · exact logEvent_tally _ _
      · exact logEvent_tally _ _

@[simp] theorem unfence_tally (u : UnitId) : (unfence s u).tally = s.tally := by
  unfold unfence
  extract_lets _ counted p t full _ _ _ back
  have hback : back.tally = counted.tally := by
    unfold back
    split
    · rw [noteSpares_tally, State.updEng_tally]
    all_goals rfl
  rw [logEvent_tally, hback]
  rfl

/-- An engine in its run phase for which no reserve is being brought up is fenced; no other takes its place. -/
theorem loseSpare_tally {p : Nat} (h : (s.eng p).phase = .run) (d : Nat) : (loseSpare s p d).tally = s.tally := by
  unfold loseSpare
  simp [h]

theorem repairUnit_tally (t : TestRun) : (repairUnit s t).2.tally = s.tally := by
  unfold repairUnit
  extract_lets u
  split
  · exact testFailed_tally s u 4
  · split
    · dsimp only
      split
      · simp only [noteSpares_tally, scheduleFuse_tally, testFailed_tally, State.updEng_tally]
        rfl
      · dsimp only
        rw [loseSpare_tally, testFailed_tally]
        · rfl
        · rw [testFailed_eng]
          exact congrArg Engine.phase (State.eng_updEng_same s (engineOfUnit u.unit) fun e =>
            { e with fenced := true, phase := .run, l1d := [], l1i := [] })
    · dsimp only
      split
      · rw [scheduleFuse_tally, testFailed_tally, State.updDome_tally, tally_of_outside (walkDome_outside _ _)]
        rfl
      · simp
        rfl
    · exact (tally_of_outside (stopChe_outside _ _)).trans (testFailed_tally s u 4)
    · exact (tally_of_outside (stopAccel_outside _ _ _)).trans (testFailed_tally s u 4)
    · exact (tally_of_outside (stopAccel_outside _ _ _)).trans (testFailed_tally s u 4)
    · split
      · exact (tally_of_outside (deviceFatal_outside _ _ _ _)).trans (testFailed_tally s u 4)
      · simp
    · rfl

@[simp] theorem patternsOf_tally (u : UnitId) : (patternsOf s u).2.tally = s.tally := by
  unfold patternsOf
  split <;> rfl

end

section
variable {s : State} {q : BitVec 32} {r : Request} {u : UnitId}

/-! ## Tests that start (R442, R443) -/

/-- The test of unit `u` under way. -/
def addTest (s : State) (u : UnitId) (q : List Nat) : State :=
  { s with tst := { s.tst with running := s.tst.running ++ [{ unit := u, standIn := none, waiters := q }] } }

theorem startTest_cipher (h : u.source = 9) (hj : jobOn s false u.unit = none) (l : List Nat) : startTest s u l = .inr (addTest s u l) := by
  unfold startTest
  simp only [h, hj, Option.isSome_none, Bool.false_eq_true, if_false]
  rfl

theorem startTest_fenced (h : u.source = 1) (hf : (s.eng (engineOfUnit u.unit)).fenced = true) (hv : (s.eng (engineOfUnit u.unit)).ve = none)
    (l : List Nat) : startTest s u l = .inr (addTest (s.updEng (engineOfUnit u.unit) fun e => { e with phase := .test }) u l) := by
  unfold startTest
  simp only [h, hf, hv, Bool.true_or, if_true, Option.isSome_none, Bool.false_eq_true, if_false]
  rfl

theorem rollingTestStart_starts {v : State} (hlive : s.live = true) (hstop : s.tst.stopped = false) (hfatal : s.bel.fatal = false)
    (hroll : s.tst.rollOff = false) (hpow : s.clk.power = 0) (hbusy : rotationBusy s u = false) (hu : rollable s u = true)
    (hv : startTest s.quiet u [] = .inr v) : execRollingTestStart u s = .next v := by
  have hbusy' : rotationBusy s.quiet u = false := hbusy
  have hu' : rollable s.quiet u = true := hu
  unfold execRollingTestStart
  simp only [State.quiet_live, hlive, State.quiet_bel, hfatal, State.quiet_tst, hstop, hroll, State.quiet_clk, hpow, hbusy', hu', hv]
  rfl

/-- The unit that SELFTEST_RUN names. -/
def testedUnit (r : Request) : UnitId := ⟨par r.entry 36, fieldBE r.entry 38 2, par r.entry 37⟩

theorem selftestRun_joins (h : takeCmd s.quiet q.toNat 0x75 = some r) (hstop : s.tst.stopped = false) {x : TestRun}
    (hx : s.tst.running.find? (fun x => x.unit == testedUnit r) = some x) : ∃ v, execSelftestRun q s = .next v
      ∧ v.tst.running = s.tst.running.map fun z => if z.unit == testedUnit r then { z with waiters := z.waiters ++ [r.seq] } else z := by
  unfold testedUnit at hx
  unfold execSelftestRun
  simp only [h, State.quiet_tst, hstop, Bool.false_eq_true, if_false, hx]
  exact ⟨_, rfl, rfl⟩

theorem selftestRun_starts (h : takeCmd s.quiet q.toNat 0x75 = some r) (hstop : s.tst.stopped = false)
    (hnone : s.tst.running.find? (fun x => x.unit == testedUnit r) = none)
    (hu : (testedUnit r).source ≠ 1 ∨ (s.eng (engineOfUnit (testedUnit r).unit)).fenced = true) {v : State}
    (hv : startTest (wake s.quiet) (testedUnit r) [r.seq] = .inr v) : execSelftestRun q s = .next (v.setStage 0 r.seq .running) := by
  unfold testedUnit at hnone hu hv
  unfold execSelftestRun
  simp only [h, State.quiet_tst, hstop, Bool.false_eq_true, if_false, hnone, hv]
  rw [if_neg]
  rcases hu with h1 | h1 <;> simp_all

theorem selftestRun_no_spare (h : takeCmd s.quiet q.toNat 0x75 = some r) (hstop : s.tst.stopped = false)
    (hnone : s.tst.running.find? (fun x => x.unit == testedUnit r) = none) (hu : (testedUnit r).source = 1)
    (hf : (s.eng (engineOfUnit (testedUnit r).unit)).fenced = false) (hr : (s.eng (engineOfUnit (testedUnit r).unit)).role = .dispatch)
    (hs : idleSpare s (towerOf (engineOfUnit (testedUnit r).unit)) = none) : execSelftestRun q s = .next (refuse s.quiet r 0xFFFF 1) := by
  have hs' : idleSpare s.quiet (towerOf (engineOfUnit (testedUnit r).unit)) = none := hs
  unfold testedUnit at hnone hu hf hr hs'
  unfold execSelftestRun
  simp only [h, State.quiet_tst, hstop, Bool.false_eq_true, if_false, hnone, hs', State.quiet_eng, hf, hr]
  rw [if_pos]
  simpa using hu

/-- Leaving Sleep touches no table of the engines, the jobs or the tests. -/
theorem wake_tables (s : State) : (wake s).engines = s.engines ∧ (wake s).xce = s.xce ∧ (wake s).tst = s.tst := by
  obtain ⟨o, fs, b, h⟩ := setPower_frame s 0
  rw [wake, h]
  exact ⟨rfl, rfl, rfl⟩

theorem selftestRun_cipher (h : takeCmd s.quiet q.toNat 0x75 = some r) (hstop : s.tst.stopped = false)
    (hnone : s.tst.running.find? (fun x => x.unit == testedUnit r) = none) (hu : (testedUnit r).source = 9)
    (hj : jobOn s false (testedUnit r).unit = none) : ∃ v, execSelftestRun q s = .next v
      ∧ v.tst.running = s.tst.running ++ [{ unit := testedUnit r, standIn := none, waiters := [r.seq] }]
      ∧ ∀ y, v.req? 0 r.seq = some y → y.stage = .running := by
  obtain ⟨-, hxce, htst⟩ := wake_tables s.quiet
  have hj' : jobOn (wake s.quiet) false (testedUnit r).unit = none := by
    rw [← hj]
    unfold jobOn State.accel
    rw [if_neg Bool.false_ne_true, hxce]
    rfl
  refine ⟨_, selftestRun_starts h hstop hnone (.inl (by simp [hu])) (startTest_cipher hu hj' _), ?_, fun y hy => req?_setStage_stage hy⟩
  exact congrArg (fun t => t.running ++ _) htst

theorem selftestRun_fenced (h : takeCmd s.quiet q.toNat 0x75 = some r) (hstop : s.tst.stopped = false)
    (hnone : s.tst.running.find? (fun x => x.unit == testedUnit r) = none) (hu : (testedUnit r).source = 1)
    (hf : (s.eng (engineOfUnit (testedUnit r).unit)).fenced = true) (hv : (s.eng (engineOfUnit (testedUnit r).unit)).ve = none) :
    ∃ v, execSelftestRun q s = .next v
      ∧ v.tst.running = s.tst.running ++ [{ unit := testedUnit r, standIn := none, waiters := [r.seq] }]
      ∧ v.eng (engineOfUnit (testedUnit r).unit) = { s.eng (engineOfUnit (testedUnit r).unit) with phase := .test } := by
  obtain ⟨heng, -, htst⟩ := wake_tables s.quiet
  have he (p : Nat) : (wake s.quiet).eng p = s.eng p := by
    unfold State.eng
    rw [heng]
    rfl
  refine ⟨_, selftestRun_starts h hstop hnone (.inr hf) (startTest_fenced hu (by rw [he, hf]) (by rw [he, hv]) _), ?_, ?_⟩
  · exact congrArg (fun t => t.running ++ _) htst
  · refine Eq.trans (State.eng_updEng_same (wake s.quiet) (engineOfUnit (testedUnit r).unit) fun e => { e with phase := .test }) ?_
    rw [he]

/-! ## SELFTEST_QUERY, SELFTEST_CTL and REPAIR_CTL (R447) -/

theorem selftestQuery_eq (h : takeCmd s.quiet q.toNat 0x76 = some r) :
    execSelftestQuery q s = .next (done (hostWrite s.quiet 0 (reqDst r.entry) (selftestBytes s)) r 64 []) := by
  unfold execSelftestQuery
  simp only [h]
  rfl

theorem selftestCtl_eq (h : takeCmd s.quiet q.toNat 0x77 = some r) (hstop : s.tst.stopped = false) :
    let o : State := { s.quiet with tst := { s.tst with rollOff := (par r.entry 36).testBit 0 } }
    execSelftestCtl q s = .next (done (if (par r.entry 36).testBit 1 then cutAll o 4 else o) r 0 []) := by
  unfold execSelftestCtl
  simp only [h, State.quiet_tst, hstop, Bool.false_eq_true, if_false]
  rfl

theorem repairCtl_eq (h : takeCmd s.quiet q.toNat 0x7F = some r) : let out := reqDstLen r.entry != 0
    let w := if out then hostWrite s.quiet 0 (reqDst r.entry) (padTo 64 (s.tst.repairs.flatMap repairBytes)) else s.quiet
    execRepairCtl q s = .next (done (if par r.entry 36 == 1 then { w with tst := { w.tst with repairs := [] } } else w) r (if out then 64 else 0) []) := by
  unfold execRepairCtl
  simp only [h]
  rfl

/-! ## The end of a test -/

section
variable (hlive : s.live = true) (hstop : s.tst.stopped = false) {x : TestRun} (hx : s.tst.running.find? (fun x => x.unit == u) = some x)
include hlive hstop hx

theorem rollingTestEnd_pass : ∃ v, execRollingTestEnd u .pass s = .next v
    ∧ v.tally = (s.tst.running.filter (·.unit != u), s.tst.passed + 1, s.tst.failed) := by
  unfold execRollingTestEnd
  simp only [State.quiet_tst, hx, State.quiet_live, hlive, hstop, Bool.not_true, Bool.or_self, Bool.false_eq_true, if_false]
  refine ⟨_, rfl, ?_⟩
  rw [tally_of_outside (answerTest_outside _ _ _), patternsOf_tally]
  split
  · rw [unfence_tally, tally_of_outside (backInService_outside _ _)]
    rfl
  · rw [tally_of_outside (backInService_outside _ _)]
    rfl

theorem rollingTestEnd_fail : ∃ v, execRollingTestEnd u .fail s = .next v
    ∧ v.tally = (s.tst.running.filter (·.unit != u), s.tst.passed, s.tst.failed + 1) := by
  unfold execRollingTestEnd
  simp only [State.quiet_tst, hx, State.quiet_live, hlive, hstop, Bool.not_true, Bool.or_self, Bool.false_eq_true, if_false]
  refine ⟨_, rfl, ?_⟩
  rw [tally_of_outside (answerTest_outside _ _ _), patternsOf_tally, repairUnit_tally]
  rfl

theorem rollingTestEnd_incomplete (hs : x.standIn = none) (c got want : Nat) :
    execRollingTestEnd u (.incomplete c got want) s = .next (cutTest s.quiet x c got want) := by
  unfold execRollingTestEnd
  simp [hx, hlive, hstop, hs]

end

theorem selftestControllerStop_eq (hlive : s.live = true) (hstop : s.tst.stopped = false) :
    let c := cutAll s.quiet 5
    execSelftestControllerStop s = .next (unitFenced { c with tst := { c.tst with stopped := true } } 4 0x0E 0 0).1 := by
  unfold execSelftestControllerStop
  simp [hlive, hstop]

/-- The controller that stops is fenced as a unit, and says so last. -/
theorem selftestControllerStop_results (hlive : s.live = true) (hstop : s.tst.stopped = false) :
    ∃ v, execSelftestControllerStop s = .next v ∧ v.tst.stopped = true ∧ v.tst.running = []
      ∧ (s.bel.stopped = false → v.bel.log.getLast?.map (fun e => (e.event, e.source)) = some (0x31, 0x0E)) := by
  refine ⟨_, selftestControllerStop_eq hlive hstop, ?_, ?_, fun hrun => ?_⟩
  · rw [tst_of_outside (unitFenced_outside _ _ _ _ _)]
  · rw [tst_of_outside (unitFenced_outside _ _ _ _ _)]
    exact cutAll_running _ _
  · have hb : (cutAll s.quiet 5).bel.stopped = false := (cutAll_stopped _ _).trans hrun
    generalize cutAll s.quiet 5 = c at hb
    exact unitFenced_last (s := { c with tst := { c.tst with stopped := true } }) hb (by decide) 0x0E 0 0

end

/-- Settles O55: a test that is cut or that ends changes the tables of the controller by its own counts alone, whatever its unit's repair does
to the rest. -/
theorem selfTestResults : Obligations.SelfTestResults := by
  unfold Obligations.SelfTestResults
  intro s q r u w e t mine list
  refine ⟨fun h hstop => ⟨fun x hx => ?_, selftestRun_cipher h hstop, selftestRun_fenced h hstop, selftestRun_no_spare h hstop⟩,
    selftestQuery_eq, fun h hstop => ⟨fun hb => ?_, fun hb => ?_⟩, fun h => ⟨fun hd => ?_, fun hd hc => ?_⟩,
    fun hlive hstop => ⟨fun hfatal hroll hpow hbusy hu hs hj => ?_, fun x hx => ⟨?_, ?_, fun c got want hs hw => ?_⟩,
      selftestControllerStop_results hlive hstop⟩⟩
  · obtain ⟨v, hv, hrun⟩ := selftestRun_joins h hstop hx
    refine ⟨v, hv, fun y => ?_⟩
    rw [hrun]
    simp only [List.mem_map, beq_iff_eq, eq_comm (a := y)]
    rfl
  · exact (selftestCtl_eq h hstop).trans (by rw [hb, if_neg Bool.false_ne_true])
  · refine ⟨_, (selftestCtl_eq h hstop).trans (by rw [if_pos hb]), ?_⟩
    have ht (v : State) : (done v r 0 []).tst = v.tst := tst_of_outside (complete_outside v _ _ _ _ _ _)
    rw [ht, cutAll_tst]
    exact ⟨rfl, rfl, rfl⟩
  · refine (repairCtl_eq h).trans ?_
    simp [show reqDstLen r.entry = 0 from hd, e, w, t]
  · refine (repairCtl_eq h).trans ?_
    simp [show reqDstLen r.entry ≠ 0 from hd, show par r.entry 36 ≠ 1 from hc, e, w, t, list]
  · exact rollingTestStart_starts hlive hstop hfatal hroll hpow hbusy hu (startTest_cipher (s := w) hs hj [])
  · obtain ⟨v, hv, htally⟩ := rollingTestEnd_pass hlive hstop hx
    exact ⟨v, hv, congrArg (·.2.1) htally, congrArg (·.1) htally⟩
  · obtain ⟨v, hv, htally⟩ := rollingTestEnd_fail hlive hstop hx
    exact ⟨v, hv, congrArg (·.2.2) htally⟩
  · have hu : x.unit = u := by simpa using List.find?_some hx
    have ht := tst_of_outside (cutTest_outside s.quiet x c got want)
    refine ⟨_, rollingTestEnd_incomplete hlive hstop hx hs c got want, ?_, ?_, cutTest_logs s.quiet hw c got want⟩
    · rw [ht]
      rfl
    · rw [ht, ← hu]
      rfl

end Sys2Proof.Machine

/-! SUPPORT. The Jalarn link, its flits, pairing, the roles of instances and the mirror groups (R348 to R353, R358 to R363, R368). -/

namespace Sys2Proof.Machine

open Sys2Proof

/-! ## What a log entry leaves of the tables that the link speaks of -/

section
variable (s : State) (e : LogEntry)

@[simp] theorem logEvent_img : (logEvent s e).img = s.img := by
  obtain ⟨o, fs, b, h, -⟩ := logEvent_frame s e
  rw [h]

@[simp] theorem logEvent_clk : (logEvent s e).clk = s.clk := congrArg Prod.fst (logEvent_upkeep s e)

end

/-! ## The link comes up (R348, R352) -/

section
variable {s : State}

/-- The first message of a link that has just come up goes out in a flit of its own, the one flit in the replay buffer. -/
theorem sendControl_first (hsent : s.twin.sent = []) (hrel : s.twin.released = 0) (hseq : s.twin.fseq = 0) (htx : s.twin.txSeq = 0)
    (kind : Nat) (l : List Nat) : ∃ k < 4096, ∃ f, f = flitBytes k 4095 s.twin.ackTx 0 [slotBytes 4 false 0 0 0 (Config.message kind l)]
      ∧ (sendControl s kind l).out.getLast? = some (.jalarn f) ∧ (sendControl s kind l).twin.sent = [(k, f)]
      ∧ (sendControl s kind l).twin.txSeq = (k + 1) % 4096 := by
  refine ⟨Config.pick s.free % 4096, Nat.mod_lt _ (by decide), _, rfl, ?_⟩
  simp [sendControl, sendSlots, sendFlit, State.fresh, State.emit, hsent, hrel, hseq, htx]

/-- The link with width `n`, nothing sent and the whole credit. -/
def linkWith (s : State) (n : Nat) : State :=
  { s with twin := { s.twin with link := n, fseq := 0, replays := 0, txSeq := 0, sent := [], released := 0, credit := 524288 } }

/-- The entries of a training that ends: LINK_UP, and at x4 LANE_DEGRADED. -/
def linkLogged (s : State) (x4 : Bool) (lane : Nat) : State :=
  let n := if x4 then 3 else 2
  let s := linkWith s n
  let s := logEvent s { jlEntry s 0x70 0 with param := paramAt 48 1 n }
  if x4 then logEvent s { jlEntry s 0x78 4 with param := paramAt 48 1 lane } else s

/-- Those entries leave the link, the Spire, the clock and the image alone. -/
theorem linkLogged_keeps (s : State) (x4 : Bool) (lane : Nat) : let u := linkLogged s x4 lane
    u.twin = (linkWith s (if x4 then 3 else 2)).twin ∧ u.spire = s.spire ∧ u.clk = s.clk ∧ u.img = s.img := by
  cases x4 <;> simp [linkLogged, linkWith]

theorem jalarnLinkUp_eq (hlive : s.live = true) (hjlk : s.variant.jlk = true) (himg : s.img.twin = true) (hlink : s.twin.link = 1)
    (x4 : Bool) (lane : Nat) : let u := linkLogged s.quiet x4 lane
    execJalarnLinkUp x4 lane s = .next (sendControl u ctlIdent ([u.spire.modid, u.spire.boot, u.clk.tb]
      ++ (u.img.structHash ++ u.img.ucodeHash).map BitVec.toNat)) := by
  unfold execJalarnLinkUp
  simp only [State.quiet_live, hlive, State.quiet_variant, hjlk, State.quiet_img, himg, State.quiet_twin, hlink]
  rfl

/-- The partner known by its IDENT. -/
def identified (s : State) (m : IdentMsg) : State :=
  { s with twin := { s.twin with
    partner := some m.modid.toNat, posB := decide (m.modid.toNat < s.spire.modid), mismatch := !(m.structHash == s.img.structHash)
    st := if s.twin.st == .none && m.structHash == s.img.structHash then .linked else s.twin.st } }

/-- IDENT moves a lower timebase on, with an entry, where the structure hashes are equal. -/
theorem ident_steps (m : IdentMsg) (h : linkUp s = true) : ∃ u, execIdent m s = .next u ∧ u.twin = (identified s.quiet m).twin
    ∧ u.clk.tb = (if m.structHash = s.img.structHash then max s.clk.tb m.tb.toNat else s.clk.tb) := by
  have hup : linkUp s.quiet = true := h
  unfold execIdent
  simp only [hup, Bool.not_true, Bool.false_eq_true, if_false]
  by_cases hh : m.structHash = s.img.structHash
  · by_cases htb : s.clk.tb < m.tb.toNat
    · rw [if_pos (by simp [hh, htb])]
      exact ⟨_, rfl, logEvent_twin _ _, by simp [hh, Nat.max_eq_right (Nat.le_of_lt htb)]⟩
    · rw [if_neg (by simp [htb])]
      exact ⟨_, rfl, rfl, by simp [hh, Nat.max_eq_left (Nat.le_of_not_lt htb)]⟩
  · rw [if_neg (by simp [hh])]
    exact ⟨_, rfl, rfl, by simp [hh]⟩

theorem ident_results (m : IdentMsg) (h : linkUp s = true) : ∃ u, execIdent m s = .next u ∧ u.twin.partner = some m.modid.toNat
    ∧ u.twin.posB = decide (m.modid.toNat < s.spire.modid) ∧ u.twin.mismatch = decide (m.structHash ≠ s.img.structHash)
    ∧ u.twin.st = (if s.twin.st = .none ∧ m.structHash = s.img.structHash then .linked else s.twin.st)
    ∧ u.clk.tb = (if m.structHash = s.img.structHash then max s.clk.tb m.tb.toNat else s.clk.tb) := by
  obtain ⟨u, hu, htwin, htb⟩ := ident_steps m h
  refine ⟨u, hu, ?_, ?_, ?_, ?_, htb⟩ <;> rw [htwin]
  · rfl
  · rfl
  · simp [identified, Bool.beq_eq_decide_eq]
  · simp [identified]

/-! ## The link goes down (R351, R353, R364) -/

theorem endTwinCommands_twin (s : State) : (endTwinCommands s).twin
    = { s.twin with protecting := [], handing := [], pairing := none, partnerPairs := none, copies := [] } :=
  foldl_keeps State.twin (fun s q => completeNow_twin s 0 q _ 0 0 []) _ _

theorem endTwinCommands_insts (s : State) : (endTwinCommands s).insts = s.insts :=
  foldl_keeps State.insts (fun s q => completeNow_command_insts s q _ 0 0 []) _ _

theorem link_of_outside {s t : State} (h : t.outside = s.outside) : t.twin.link = s.twin.link := congrArg (fun x => x.2.2.1.link) h
theorem st_of_outside {s t : State} (h : t.outside = s.outside) : t.twin.st = s.twin.st := congrArg (fun x => x.2.2.1.st) h

theorem losePartnerPaths_outside (s : State) : (losePartnerPaths s).outside = s.outside :=
  foldl_keeps State.outside loseLink_outside _ s

theorem linkDown_twin (s : State) (d : Nat) : (linkDown s d).twin.link = 1
    ∧ (linkDown s d).twin.st = if s.twin.st = .linked then .none else s.twin.st := by
  have hkeep (u : State) : (losePartnerPaths u).twin.link = u.twin.link ∧ (losePartnerPaths u).twin.st = u.twin.st :=
    ⟨link_of_outside (losePartnerPaths_outside u), st_of_outside (losePartnerPaths_outside u)⟩
  unfold linkDown
  extract_lets _ logged t down ended
  have ht : t = s.twin := logEvent_twin s _
  obtain ⟨hlink, hst⟩ := hkeep ended
  rw [hlink, hst]
  have hended : ended.twin.link = down.twin.link ∧ ended.twin.st = down.twin.st := by
    unfold ended
    split
    · rw [endTwinCommands_twin]
      exact ⟨rfl, rfl⟩
    · exact ⟨rfl, rfl⟩
  rw [hended.1, hended.2, ← ht]
  exact ⟨rfl, by simp [down]⟩

theorem receiverLockLost_eq (h : linkUp s = true) : execReceiverLockLost s = .next (linkDown s.quiet 2) := by
  unfold execReceiverLockLost
  simp only [show linkUp s.quiet = true from h, if_true]

/-! ## Flits (R349, R351) -/

theorem putLine_twin (s : State) (m : MLine) : (putLine s m).twin = s.twin := by
  unfold putLine
  split <;> rfl

theorem takeSlot_st (s : State) (x : List Byte) : (takeSlot s x).twin.st = s.twin.st := by
  unfold takeSlot
  dsimp only
  split
  · rfl
  · rfl
  · rw [putLine_twin]
  · rfl

theorem takeAck_unpaired (h : s.twin.st ≠ .paired) (j : Nat) : takeAck s j = s := by
  unfold takeAck
  simp [h]

theorem fieldBE_byte_lt (l : List Byte) (o : Nat) : fieldBE l o 1 < 256 := by
  unfold fieldBE slice
  rcases l.drop o with _ | ⟨b, r⟩
  · decide
  · simpa [beNat] using b.isLt

/-- Bits 7 and 6 of a byte. -/
theorem bits_kind (l : List Byte) (o : Nat) : bits (fieldBE l o 1) 7 6 = fieldBE l o 1 / 64 := by
  have h := fieldBE_byte_lt l o
  unfold bits
  omega

section
variable {f : List Byte} (h : linkUp s = true) (hf : f.length = 256)
include h hf

theorem flitReceive_bad (hg : flitGood s f = false) : execJalarnFlitReceive f s
    = .next (if 16 ≤ s.twin.replays then linkDown s.quiet 1 else { s.quiet with twin := { s.twin with replays := s.twin.replays + 1 } }) := by
  have hup : linkUp s.quiet = true := h
  have hg' : flitGood s.quiet f = false := hg
  unfold execJalarnFlitReceive
  simp only [hup, padTo_of_length hf, hg', Bool.not_true, Bool.not_false, Bool.false_eq_true, if_false, if_true, State.quiet_twin, ge_iff_le]
  split <;> rfl

/-- The state with a good flit counted. -/
def flitTaken (s : State) (f : List Byte) : State :=
  { s.quiet with twin := { s.twin with
    fseq := (s.twin.fseq + 1) % 4096, replays := 0, credit := s.twin.credit + 1024 * fieldBE f 11 1
    sent := s.twin.sent.filter fun e => serialBefore 12 (fieldBE f 3 2 % 4096) e.1 } }

theorem flitReceive_good (hg : flitGood s f = true) (hst : s.twin.st ≠ .paired) : execJalarnFlitReceive f s
    = .next (if fieldBE f 0 1 / 64 = 1 then [slice f 14 76, slice f 90 76, slice f 166 76].foldl takeSlot (flitTaken s f) else flitTaken s f) := by
  have hup : linkUp s.quiet = true := h
  have hg' : flitGood s.quiet f = true := hg
  have hslots : (if (bits (fieldBE f 0 1) 7 6 == 1) = true then (flitSlots f).foldl takeSlot (flitTaken s f) else flitTaken s f)
      = if fieldBE f 0 1 / 64 = 1 then [slice f 14 76, slice f 90 76, slice f 166 76].foldl takeSlot (flitTaken s f) else flitTaken s f := by
    simp only [bits_kind, beq_iff_eq]
    rfl
  have hend (u : State) (hu : u.twin.st ≠ .paired) (j : Nat) : (let v := takeAck u j
      if v.twin.st == .paired then sendGroups v else v) = u := by
    simp [takeAck_unpaired hu, hu]
  have hst' : (if fieldBE f 0 1 / 64 = 1 then [slice f 14 76, slice f 90 76, slice f 166 76].foldl takeSlot (flitTaken s f)
      else flitTaken s f).twin.st ≠ .paired := by
    split
    · have hkeep := foldl_keeps (fun s : State => s.twin.st) takeSlot_st [slice f 14 76, slice f 90 76, slice f 166 76] (flitTaken s f)
      exact fun hc => hst (hkeep.symm.trans hc)
    · exact hst
  unfold execJalarnFlitReceive
  simp only [hup, padTo_of_length hf, hg', Bool.not_true, Bool.false_eq_true, if_false]
  rw [← hend _ hst' (fieldBE f 5 6), ← hslots]
  rfl

end

/-! ## Pairing (R353, R358) -/

section
variable {m : BitVec 22} (h : linkUp s = true) (hst : s.twin.st = .linked ∨ s.twin.st = .alone) (hp : s.twin.partner = some m.toNat)
include h hst hp

theorem pair_eq (k : Bool) : execPair m k s = .next (match s.twin.pairing with
    | some q => if k then becomePaired s.quiet q else completeNow { s.quiet with twin := { s.twin with pairing := none } } 0 q 11 0 0 []
    | none => { s.quiet with twin := { s.twin with partnerPairs := some k } }) := by
  have hg : (!linkUp s.quiet || !(s.quiet.twin.st == .linked || s.quiet.twin.st == .alone) || s.quiet.twin.partner != some m.toNat) = false := by
    have hup : linkUp s.quiet = true := h
    rcases hst with h1 | h1 <;> simp [hup, h1, hp]
  unfold execPair
  simp only [hg, Bool.false_eq_true, if_false]
  simp only [State.quiet_twin]
  cases s.twin.pairing with
  | none => rfl
  | some q => cases k <;> rfl

end

theorem becomePaired_twin {d : List Byte} (hd : dkeyOf s 0 = some d) (q : Nat) : (becomePaired s q).twin.st = .paired
    ∧ (becomePaired s q).twin.key = some (twinKey s d) ∧ (becomePaired s q).twin.pairing = none := by
  unfold becomePaired
  simp [hd]

/-! ## PROTECT, COPY_DONE, SURRENDER, HANDOVER (R363, R368) -/

section
variable (h : linkUp s = true) (hst : s.twin.st = .paired)
include h hst

omit h hst in
theorem protect_taken {m : ProtectMsg} (hf : (s.inst m.i).st ≠ .free) : execProtect m s = .next s.quiet := by
  unfold execProtect
  simp [hf]

theorem protect_creates {m : ProtectMsg} (hi : m.i < 512) (hf : (s.inst m.i).st = .free) (hg : granulesHere s m = true) (hs : m.shares = []) :
    execProtect m s = .next (s.quiet.setInst m.i {
      st := .defined, role := .secondary, copying := !m.empty, vectors := m.vectors, label := m.label.toNat
      main := m.main.map fun g => { num := g, mir := true }, bulk := m.bulk.map fun g => { num := g, mir := true } }) := by
  have hup : linkUp s.quiet = true := h
  have hg' : granulesHere s.quiet m = true := hg
  unfold execProtect
  simp [hup, hst, hi, hf, hg', hs]

theorem copyDone_acked {i q : Nat} (hq : kvFind s.twin.protecting i = some q) (hc : kvFind s.twin.copies i = none) :
    ∃ u, execCopyDone i true s = .next u ∧ (u.inst i).role = .primary ∧ (u.inst i).copying = false ∧ kvFind u.twin.protecting i = none := by
  have hup : linkUp s.quiet = true := h
  unfold execCopyDone
  simp only [hup, State.quiet_twin, hst, hq, hc, Bool.not_true, bne_self_eq_false, Bool.or_self, Option.isSome_none, Bool.false_eq_true, if_false,
    if_true]
  have hinst (t : Twin) (k : Nat) : (completeNow { s.quiet.updInst i (fun x => { x with role := .primary, copying := false }) with twin := t } 0 k 0 0 0 []).inst i
      = { s.inst i with role := .primary, copying := false } :=
    (State.inst_congr (completeNow_command_insts _ _ _ _ _ _) i).trans (State.inst_updInst_same s.quiet i fun x => { x with role := .primary, copying := false })
  refine ⟨_, rfl, ?_, ?_, ?_⟩
  · rw [hinst]
  · rw [hinst]
  · simp [kvFind_kvDel]

theorem copyDone_received {i : Nat} (hr : (s.inst i).role = .secondary) :
    execCopyDone i false s = .next (s.quiet.setInst i { s.inst i with copying := false }) := by
  have hup : linkUp s.quiet = true := h
  unfold execCopyDone
  simp [hup, hst, hr, State.updInst]

theorem surrender_received {i : Nat} (hr : (s.inst i).role = .secondary) (j : BitVec 48) :
    execSurrender i j s = .next { s.quiet with twin := { s.twin with mayTake := kvSet s.twin.mayTake i s.clk.tb } } := by
  have hup : linkUp s.quiet = true := h
  unfold execSurrender
  simp [hup, hst, allowTake, hr]

theorem handover_received {i : Nat} (hr : (s.inst i).role = .secondary) (hn : kvFind s.twin.handing i = none) (j : BitVec 48) :
    execHandover i j s = .next { s.quiet with twin := { s.twin with mayTake := kvSet s.twin.mayTake i s.clk.tb, handed := i :: s.twin.handed } } := by
  have hup : linkUp s.quiet = true := h
  unfold execHandover
  simp [hup, hst, allowTake, hr, hn]

theorem handover_answered {i q : Nat} (hq : kvFind s.twin.handing i = some q) (hr : (s.inst i).role = .local_) (j : BitVec 48) :
    execHandover i j s = .next (completeNow { s.quiet with twin := { s.twin with handing := kvDel s.twin.handing i } } 0 q 0 0 0 []) := by
  have hup : linkUp s.quiet = true := h
  unfold execHandover
  simp [hup, hst, hr, hq]

/-! ## Acknowledgements (R359, R360) -/

omit h hst in
theorem serialBefore_self {j : Nat} (hj : j < 2 ^ 48) : serialBefore 48 j j = false := by
  unfold serialBefore
  rw [Nat.mod_eq_of_lt hj, Nat.add_sub_cancel_left]
  rfl

omit h hst in
/-- The group of a completion acknowledged, no job waiting for it: the completion is written, and nothing else happens. -/
theorem groupAct_completion {g : Group} {n seq st d c : Nat} {l : List Byte} (hg : g.act = .completion n seq st d c l)
    (hx : endedJob (completeNow s n seq st d c l) false (n - 1) seq = none) (hz : endedJob (completeNow s n seq st d c l) true (n - 1) seq = none) :
    groupAct s g = completeNow s n seq st d c l := by
  unfold groupAct
  rw [hg]
  dsimp only
  rw [hx, hz]

omit h hst in
theorem tryHandovers_none (hh : s.twin.handing = []) : tryHandovers s = s := by
  unfold tryHandovers
  rw [hh]
  rfl

theorem mirrorAck_one {j : BitVec 48} {g : Group} {n seq st d c : Nat} {l : List Byte} (hj : j ≠ 0)
    (hjsn : serialBefore 48 j.toNat s.css.jsn = true) (hack : serialBefore 48 j.toNat s.twin.ackRx = false) (hgs : s.twin.groups = [g])
    (hg : g.jsn = some j.toNat) (hact : g.act = .completion n seq st d c l) (hh : s.twin.handing = []) :
    let v := completeNow { s.quiet with twin := { s.twin with
      groups := [], ackRx := j.toNat, lastAck := kvSet s.twin.lastAck g.inst j.toNat } } n seq st d c l
    endedJob v false (n - 1) seq = none → endedJob v true (n - 1) seq = none → execMirrorAck j s = .next (resumeOps v) := by
  intro v hx hz
  have hup : linkUp s.quiet = true := h
  have hjn : j.toNat ≠ 0 := fun h0 => hj (BitVec.eq_of_toNat_eq h0)
  have hself : serialBefore 48 j.toNat j.toNat = false := serialBefore_self j.isLt
  have hv : v.twin.handing = [] := (congrArg Twin.handing (completeNow_twin _ n seq st d c l)).trans hh
  have hacked : ackGroups s.quiet j.toNat = resumeOps (tryHandovers v) := by
    unfold ackGroups
    simp only [State.quiet_twin, hgs, hg, hself, Bool.not_false, Bool.not_true, List.filter_cons_of_pos, List.filter_nil,
      Bool.false_eq_true, not_false_eq_true, List.filter_cons_of_neg, List.foldl_cons, List.foldl_nil, Option.getD_some]
    rw [groupAct_completion hact hx hz]
  have hg : (s.quiet.twin.st == .paired && j.toNat != 0 && serialBefore 48 j.toNat s.quiet.css.jsn
      && !serialBefore 48 j.toNat s.quiet.twin.ackRx) = true := by
    simp [hst, hjn, hjsn, hack]
  unfold execMirrorAck takeAck
  simp only [hup, if_true, hg, hacked, tryHandovers_none hv]

end

/-! ## Refills (R361) -/

/-- The refill of one instance's bucket; what overflows goes to the shared bucket. -/
def fillBucket (rate : Nat → Nat) (s : State) (e : Nat × Inst) : State :=
  let g := (e.2.share poolMirror 0).guarantee
  let b := kvGet 0 s.twin.buckets e.1 + rate g
  let kept := min b (1024 * g)
  let kept := max kept (kvGet 0 s.twin.buckets e.1)
  { s with twin := { s.twin with buckets := kvSet s.twin.buckets e.1 kept, shared := s.twin.shared + (b - kept) } }

/-- What one instance draws from the shared bucket. -/
def drawShared (rate : Nat → Nat) (s : State) (e : Nat × Inst) : State :=
  let sh := e.2.share poolMirror 0
  let b := kvGet 0 s.twin.buckets e.1
  let n := min (min (rate sh.cap) s.twin.shared) (1024 * (sh.guarantee + sh.cap) - b)
  { s with twin := { s.twin with buckets := kvSet s.twin.buckets e.1 (b + n), shared := s.twin.shared - n } }

/-- `t` is `s` but for mirror buckets that have not sunk. -/
def Fuller (s t : State) : Prop :=
  (∃ b n c, t = { s with twin := { s.twin with buckets := b, shared := n, credit := c } }) ∧ ∀ i, kvGet 0 s.twin.buckets i ≤ kvGet 0 t.twin.buckets i

theorem Fuller.refl (s : State) : Fuller s s := ⟨⟨_, _, _, rfl⟩, fun _ => Nat.le_refl _⟩

theorem Fuller.trans {s t u : State} (h : Fuller s t) (g : Fuller t u) : Fuller s u := by
  obtain ⟨⟨b, n, c, rfl⟩, hb⟩ := h
  obtain ⟨⟨b', n', c', rfl⟩, hb'⟩ := g
  exact ⟨⟨b', n', c', rfl⟩, fun i => Nat.le_trans (hb i) (hb' i)⟩

theorem Fuller.groups {s t : State} (h : Fuller s t) : t.twin.groups = s.twin.groups := by
  obtain ⟨⟨b, n, c, rfl⟩, -⟩ := h
  rfl

theorem Fuller.foldl {f : State → Nat × Inst → State} (h : ∀ s e, Fuller s (f s e)) (l : List (Nat × Inst)) (s : State) : Fuller s (l.foldl f s) :=
  List.foldlRecOn (motive := Fuller s) l f (Fuller.refl s) fun _ ht x _ => ht.trans (h _ x)

theorem le_kvGet_kvSet {t : KV Nat} {k v : Nat} (h : kvGet 0 t k ≤ v) (i : Nat) : kvGet 0 t i ≤ kvGet 0 (kvSet t k v) i := by
  rw [kvGet_kvSet]
  split
  next hk => rwa [← hk]
  next => exact Nat.le_refl _

theorem fillBucket_fuller (rate : Nat → Nat) (s : State) (e : Nat × Inst) : Fuller s (fillBucket rate s e) :=
  ⟨⟨_, _, _, rfl⟩, le_kvGet_kvSet (Nat.le_max_right _ _)⟩

theorem drawShared_fuller (rate : Nat → Nat) (s : State) (e : Nat × Inst) : Fuller s (drawShared rate s e) :=
  ⟨⟨_, _, _, rfl⟩, le_kvGet_kvSet (Nat.le_add_right _ _)⟩

/-- After the refill the bucket of an instance in the table holds its rate more, up to its bound. -/
theorem fillBuckets_bucket (rate : Nat → Nat) (l : KV Inst) (s : State) {i : Nat} {x : Inst} (hx : kvFind l i = some x) :
    let g := (x.share poolMirror 0).guarantee
    min (kvGet 0 s.twin.buckets i + rate g) (1024 * g) ≤ kvGet 0 (l.foldl (fillBucket rate) s).twin.buckets i := by
  induction l generalizing s with
  | nil => cases hx
  | cons e l ih =>
    obtain ⟨k, y⟩ := e
    by_cases hk : k = i
    · obtain rfl : y = x := by simpa [kvFind, hk] using hx
      refine Nat.le_trans ?_ ((Fuller.foldl (fillBucket_fuller rate) l (fillBucket rate s (k, y))).2 i)
      subst hk
      simp only [fillBucket, kvGet_kvSet, if_true]
      exact Nat.le_max_left _ _
    · have hx' : kvFind l i = some x := by simpa [kvFind, hk] using hx
      refine Nat.le_trans (min_le_min_right _ (Nat.add_le_add_right ((fillBucket_fuller rate s (k, y)).2 i) _)) ?_
      exact ih (fillBucket rate s (k, y)) hx'

theorem sendGroups_none (hg : s.twin.groups = []) : sendGroups s = s := by
  unfold sendGroups
  rw [hg]
  rfl

theorem runCopies_none (hc : s.twin.copies = []) (n : Nat) : runCopies s n = (n, s) := by
  unfold runCopies
  rw [hc]
  rfl

/-- The shared bucket less what the copies have used, and what the instances draw from it. -/
def drawn (rate : Nat → Nat) (quota : Nat) (c : Nat × State) : State :=
  let u : State := { c.2 with twin := { c.2.twin with shared := c.2.twin.shared - (quota - c.1), credit := c.2.twin.credit - (quota - c.1) } }
  sendGroups (u.insts.foldl (drawShared rate) u)

/-- The three steps of a refill: the buckets, the copies, the draw. -/
def refilled (rate : Nat → Nat) (s : State) : State :=
  let v := s.insts.foldl (fillBucket rate) s
  let v : State := { v with twin := { v.twin with shared := v.twin.shared + rate 128 } }
  let quota := min v.twin.credit ((v.twin.shared - s.twin.shared) / 2)
  drawn rate quota (runCopies v quota)

/-- Slots that one refill gives for `u` units of a guarantee. -/
def refillRate (s : State) (u : Nat) : Nat := if s.twin.link == 3 then 3 * u / 2 else 3 * u

theorem mirrorRefill_eq (h : linkUp s = true) (hst : s.twin.st = .paired) :
    execMirrorRefill s = .next (refilled (refillRate s) s.quiet) := by
  have hup : linkUp s.quiet = true := h
  unfold execMirrorRefill
  simp only [hup, State.quiet_twin, hst, Bool.not_true, bne_self_eq_false, Bool.or_self, Bool.false_eq_true, if_false]
  rfl

/-- With no group and no copy under way the copies use nothing, and no flit goes out. -/
theorem drawn_fuller (rate : Nat → Nat) (quota : Nat) (hg : s.twin.groups = []) (hc : s.twin.copies = []) :
    Fuller s (drawn rate quota (runCopies s quota)) := by
  have hdraw (u : State) (hu : u.twin.groups = []) : Fuller u (sendGroups (u.insts.foldl (drawShared rate) u)) := by
    have h := Fuller.foldl (drawShared_fuller rate) u.insts u
    rwa [sendGroups_none (h.groups.trans hu)]
  rw [runCopies_none hc]
  exact Fuller.trans ⟨⟨_, _, _, rfl⟩, fun _ => Nat.le_refl _⟩ (hdraw _ hg)

theorem refilled_fuller (rate : Nat → Nat) (hg : s.twin.groups = []) (hc : s.twin.copies = []) :
    Fuller (s.insts.foldl (fillBucket rate) s) (refilled rate s) := by
  have hfill := Fuller.foldl (fillBucket_fuller rate) s.insts s
  unfold refilled
  generalize s.insts.foldl (fillBucket rate) s = v at hfill ⊢
  obtain ⟨⟨b, n, c, rfl⟩, -⟩ := hfill
  exact Fuller.trans ⟨⟨_, _, _, rfl⟩, fun _ => Nat.le_refl _⟩ (drawn_fuller rate _ hg hc)

theorem mirrorRefill_results (h : linkUp s = true) (hst : s.twin.st = .paired) (hg : s.twin.groups = []) (hc : s.twin.copies = []) :
    ∃ u, execMirrorRefill s = .next u ∧ u.out = [] ∧ u.mem = s.mem ∧ ∀ i x, kvFind s.insts i = some x → let g := (x.share poolMirror 0).guarantee
      min (kvGet 0 s.twin.buckets i + (if s.twin.link = 3 then 3 * g / 2 else 3 * g)) (1024 * g) ≤ kvGet 0 u.twin.buckets i := by
  have hfill := Fuller.foldl (fillBucket_fuller (refillRate s)) s.insts s.quiet
  have hrest : Fuller (s.insts.foldl (fillBucket (refillRate s)) s.quiet) (refilled (refillRate s) s.quiet) := refilled_fuller (refillRate s) hg hc
  obtain ⟨⟨b, n, c, hform⟩, -⟩ := hfill.trans hrest
  refine ⟨_, mirrorRefill_eq h hst, ?_, ?_, fun i x hx => ?_⟩
  · rw [hform]
    rfl
  · rw [hform]
    rfl
  · have hi := Nat.le_trans (fillBuckets_bucket (refillRate s) s.insts s.quiet hx) (hrest.2 i)
    simpa [refillRate] using hi

end

end Sys2Proof.Machine

/-! SUPPORT. Staging, the fence, surrender and takeover (R359, R362 to R366, R368 to R370), and the statement about the events of the link,
O59. -/

namespace Sys2Proof.Machine

open Sys2Proof

/-! ## Staged groups applied (R359, R362) -/

theorem putLine_outside (s : State) (m : MLine) : (putLine s m).outside = s.outside := by
  unfold putLine
  split <;> rfl

theorem applyLine_outside (s : State) (m : MLine) : (applyLine s m).outside = s.outside := by
  unfold applyLine
  dsimp only
  split
  · rfl
  · split
    · rfl
    · split
      · rfl
      · exact putLine_outside s m

theorem putLine_insts (s : State) (m : MLine) : (putLine s m).insts = s.insts := by
  unfold putLine
  split <;> rfl

theorem applyLine_insts (s : State) (m : MLine) : (applyLine s m).insts = s.insts := by
  unfold applyLine
  dsimp only
  split
  · rfl
  · split
    · rfl
    · split
      · rfl
      · exact putLine_insts s m

theorem discardStatuses_outside (s : State) (i : Nat) : (discardStatuses s i).outside = s.outside :=
  foldl_keeps State.outside (fun s n => presentSub_outside s i n true) _ s

theorem freePages_outside (s : State) (l : List Nat) : (freePages s l).outside = s.outside :=
  foldl_keeps State.outside (f := fun s pg => s.setPage pg {}) (fun _ _ => rfl) l s

theorem freeWays_outside (s : State) (i h : Nat) (l : List Nat) : (l.foldl (fun s t => freeWays s i t h) s).outside = s.outside :=
  foldl_keeps State.outside (f := fun s t => freeWays s i t h) (fun _ _ => rfl) l s

theorem destroyInst_outside (s : State) (i : Nat) : (destroyInst s i).outside = s.outside := by
  unfold destroyInst
  extract_lets x discarded granules pages ways rings dropped
  calc _ = dropped.outside := rfl
    _ = rings.outside := dropRequests_outside rings _
    _ = ways.outside := rfl
    _ = pages.outside := freeWays_outside pages i 0 _
    _ = (freePages granules x.keyPages).outside := rfl
    _ = granules.outside := freePages_outside granules _
    _ = s.outside := discardStatuses_outside s i

theorem importSeq_outside (s : State) (i : Nat) (d : List Byte) : (importSeq s i d).outside = s.outside :=
  (foldl_keeps State.outside (fun s k => State.setRing_outside s (i + 1) k _) _ _).trans (State.updInst_outside s i _)

theorem followMirror_outside (s : State) (i : Nat) : (followMirror s i).outside = s.outside := by
  unfold followMirror
  split
  · rfl
  · split
    · exact destroyInst_outside s i
    · extract_lets st main bulk dropped shown
      have hdropped : dropped.outside = s.outside := by
        unfold dropped
        split <;> rfl
      refine (foldl_keeps State.outside (fun s x => ?_) _ _).trans hdropped
      split
      · exact importSeq_outside s i _
      · rfl

theorem applyGroup_outside (s : State) (j i : Nat) (ls : List MLine) : (applyGroup s j i ls).outside = s.outside :=
  (followMirror_outside _ i).trans (foldl_keeps State.outside applyLine_outside ls s)

/-- A group of an instance that is no copy here changes no instance. -/
theorem applyGroup_inst {s : State} {i : Nat} (h : (s.inst i).role ≠ .secondary) (j : Nat) (ls : List MLine) (k : Nat) :
    (applyGroup s j i ls).inst k = s.inst k := by
  have hlines (k : Nat) : (ls.foldl applyLine s).inst k = s.inst k := State.inst_congr (foldl_keeps State.insts applyLine_insts ls s) k
  have hset (k : Nat) : ((ls.foldl applyLine s).updInst i fun x => if x.role == .secondary then { x with lastJsn := j } else x).inst k = s.inst k := by
    unfold State.updInst
    rw [State.inst_setInst]
    split
    next hk =>
      subst hk
      rw [hlines]
      exact if_neg (by simpa using h)
    next => exact hlines k
  unfold applyGroup followMirror
  dsimp only
  rw [if_pos]
  · exact hset k
  · rw [hset]
    simpa using h

theorem staged_of_outside {s t : State} (h : t.outside = s.outside) : t.twin.staged = s.twin.staged := congrArg (fun x => x.2.2.1.staged) h

theorem stagingApply_empty {s : State} (hlive : s.live = true) (hst : s.twin.st = .paired) (h : s.twin.staged = []) :
    execStagingApply s = .next s.quiet := by
  unfold execStagingApply applyFirst
  simp [hlive, hst, h]

theorem stagingApply_first {s : State} (hlive : s.live = true) (hst : s.twin.st = .paired) {j i : Nat} {ls : List MLine}
    {rest : List (Nat × Nat × List MLine)} (h : s.twin.staged = (j, i, ls) :: rest) : ∃ u, execStagingApply s = .next u ∧ u.twin.staged = rest
      ∧ ((s.inst i).role ≠ .secondary → ∀ k, u.inst k = s.inst k) := by
  unfold execStagingApply applyFirst
  simp only [State.quiet_live, hlive, State.quiet_twin, hst, h, beq_self_eq_true, Bool.and_self, if_true]
  exact ⟨_, rfl, staged_of_outside (applyGroup_outside _ _ _ _), fun hr k => applyGroup_inst (s := { s.quiet with twin := _ }) hr j ls k⟩

/-! ## The partner lost (R364) -/

/-- Time passing touches the clock and the timers of the virtual engines alone. -/
theorem passUntil_twin (s : State) (t : Nat) : (passUntil s t).twin = s.twin := by
  unfold passUntil
  split <;> rfl

theorem passUntil_insts (s : State) (t : Nat) : (passUntil s t).insts = s.insts := by
  unfold passUntil
  split <;> rfl

theorem partnerLost_results {s : State} (hlive : s.live = true) (hst : s.twin.st = .paired) (hask : s.twin.asking = false) :
    ∃ u, execPartnerLostTimeout s = .next u ∧ u.twin.asking = true ∧ (2 ≤ s.twin.link → u.twin.link = 1) := by
  unfold execPartnerLostTimeout
  simp only [State.quiet_live, hlive, State.quiet_twin, hst, hask, Bool.not_true, bne_self_eq_false, Bool.or_self, Bool.false_eq_true, if_false]
  refine ⟨_, rfl, rfl, fun hl => ?_⟩
  show (if (tick s.quiet 2000).twin.link ≥ 2 then linkDown (tick s.quiet 2000) 3 else tick s.quiet 2000).twin.link = 1
  rw [if_pos (show (tick s.quiet 2000).twin.link ≥ 2 from hl)]
  exact (linkDown_twin _ 3).1

/-! ## The fence (R365, R366) -/

/-- What a closing event does touches neither the twin state nor the tests. -/
theorem groupAct_outside (s : State) (g : Group) : (groupAct s g).outside = s.outside := by
  unfold groupAct
  split
  · split
    · split
      · exact finishCommit_outside s _ _ _
      · rfl
    · rfl
  · dsimp only
    split
    next h => exact (endedJob_outside h).trans (completeNow_outside s _ _ _ _ _ _)
    next h => exact (endedJob_outside h).trans (completeNow_outside s _ _ _ _ _ _)
    next => exact completeNow_outside s _ _ _ _ _ _
  · split
    next h => exact (areaDone_outside _ _ _ _ _ _).trans (endedJob_outside h)
    next => rfl
  · split
    · exact State.putReq_outside s _
    · rfl
  · exact runSub_outside _ _ _
  · rfl
  · split
    · exact releaseBarrier_outside s _ _
    · rfl
  · rfl

/-- The module on its own: its primaries exposed, nothing held back. -/
def alone (s : State) : State := { s with
  twin := { s.twin with st := .alone, groups := [], notes := [], keyNotes := [], asking := false, fenceOut := true }
  insts := kvMap (fun _ x => if x.role == .primary || x.role == .exposed then { x with role := .exposed, copying := false } else x) s.insts }

theorem leavePair_eq (s : State) : leavePair s = endTwinCommands (s.twin.groups.foldl groupAct (alone s)) := rfl

theorem leavePair_st (s : State) : (leavePair s).twin.st = .alone := by
  rw [leavePair_eq, endTwinCommands_twin]
  exact st_of_outside (foldl_keeps State.outside groupAct_outside s.twin.groups (alone s))

theorem alone_inst {s : State} {i : Nat} (h : (s.inst i).role = .primary) : ((alone s).inst i).role = .exposed := by
  unfold State.inst alone
  dsimp only
  rw [kvGet_kvMap _ _ _ _ rfl]
  rw [if_pos]
  rw [show (kvGet {} s.insts i).role = .primary from h]
  rfl

theorem leavePair_exposes {s : State} (hg : s.twin.groups = []) {i : Nat} (h : (s.inst i).role = .primary) :
    ((leavePair s).inst i).role = .exposed := by
  rw [leavePair_eq, hg, List.foldl_nil, State.inst_congr (endTwinCommands_insts _), alone_inst h]

/-- The time at which a fence cycle asks. -/
def askTime (s : State) : State :=
  let s := if s.twin.askTb.isNone && s.twin.posB then tick s 1000 else s
  passUntil s (roundUp s.clk.tb 4)

theorem askTime_keeps (s : State) : (askTime s).twin = s.twin ∧ (askTime s).insts = s.insts := by
  unfold askTime
  extract_lets ticked
  have hticked : ticked.twin = s.twin ∧ ticked.insts = s.insts := by
    unfold ticked
    split <;> exact ⟨rfl, rfl⟩
  exact ⟨(passUntil_twin _ _).trans hticked.1, (passUntil_insts _ _).trans hticked.2⟩

/-- A fence cycle that asks: time passes, and the answer is noted. -/
def asked (s : State) (low : Bool) : State :=
  let s := if s.twin.askTb.isNone && s.twin.posB then tick s 1000 else s
  let s := passUntil s (roundUp s.clk.tb 4)
  { s with twin := { s.twin with askTb := some (s.twin.askTb.getD s.clk.tb), ackLow := low, fenceOut := low } }

theorem asked_results (s : State) (low : Bool) : (asked s low).insts = s.insts
    ∧ ∃ t, (asked s low).twin = { s.twin with askTb := some t, ackLow := low, fenceOut := low } := by
  obtain ⟨ht, hi⟩ := askTime_keeps s
  refine ⟨hi, s.twin.askTb.getD (askTime s).clk.tb, ?_⟩
  have h : (asked s low).twin = { (askTime s).twin with
    askTb := some ((askTime s).twin.askTb.getD (askTime s).clk.tb), ackLow := low, fenceOut := low } := rfl
  rw [h, ht]

/-- A fence cycle answered: the module is on its own, and may take every copy over. -/
def fencedOff (s : State) : State :=
  let u := leavePair s
  let u : State := { u with twin := { u.twin with takeAll := some s.clk.tb, unanswered := false } }
  logEvent u { jlEntry u 0x73 4 with detail := 1 }

theorem fencedOff_twin (s : State) : (fencedOff s).twin = { (leavePair s).twin with takeAll := some s.clk.tb, unanswered := false } :=
  logEvent_twin _ _

theorem fencedOff_insts (s : State) : (fencedOff s).insts = (leavePair s).insts := logEvent_insts _ _

section
variable {s : State} (hlive : s.live = true) (hst : s.twin.st = .paired) (hask : s.twin.asking = true)
include hlive hst hask

theorem fenceAsk_eq (hl : s.twin.latch = false) (low : Bool) : execFenceAsk low s
    = .next (if low then fencedOff (asked s.quiet low) else asked s.quiet low) := by
  unfold execFenceAsk
  extract_lets w ticked passed _ v
  rw [if_neg (by simp [w, hlive, hst, hask, hl])]
  have hv : v = asked s.quiet low := rfl
  clear_value v
  subst hv
  cases low with
  | false => rfl
  | true =>
    rw [if_pos rfl, if_pos rfl]
    unfold fencedOff
    rfl

theorem fenceAsk_answered (hl : s.twin.latch = false) : ∃ u, execFenceAsk true s = .next u ∧ u.twin.st = .alone ∧ u.twin.takeAll.isSome = true
      ∧ u.twin.unanswered = false ∧ (s.twin.groups = [] → ∀ i, (s.inst i).role = .primary → (u.inst i).role = .exposed) := by
  obtain ⟨hi, t, ht⟩ := asked_results s.quiet true
  refine ⟨_, (fenceAsk_eq hlive hst hask hl true).trans (by rw [if_pos rfl]), ?_, ?_, ?_, fun hg i hr => ?_⟩
  · rw [fencedOff_twin]
    exact leavePair_st _
  · rw [fencedOff_twin]
    rfl
  · rw [fencedOff_twin]
  · have hinst : (fencedOff (asked s.quiet true)).inst i = (leavePair (asked s.quiet true)).inst i := State.inst_congr (fencedOff_insts _) i
    rw [hinst]
    exact leavePair_exposes (s := asked s.quiet true) (by rw [ht]; exact hg) (by rw [State.inst_congr hi]; exact hr)

theorem fenceAsk_waits (hl : s.twin.latch = false) :
    ∃ u, execFenceAsk false s = .next u ∧ u.twin.st = .paired ∧ u.twin.asking = true ∧ u.twin.askTb.isSome = true := by
  obtain ⟨-, t, ht⟩ := asked_results s.quiet false
  refine ⟨_, (fenceAsk_eq hlive hst hask hl false).trans (by rw [if_neg Bool.false_ne_true]), ?_⟩
  rw [ht]
  exact ⟨hst, hask, rfl⟩

theorem fenceUnanswered_results {x : Nat} (hx : s.twin.askTb = some x) : ∃ u, execFenceUnanswered s = .next u ∧ u.twin.st = .alone ∧ u.twin.unanswered = true := by
  unfold execFenceUnanswered
  simp only [State.quiet_live, hlive, State.quiet_twin, hst, hask, hx, Bool.not_true, bne_self_eq_false, Bool.or_self, Bool.false_eq_true, if_false]
  exact ⟨_, rfl, leavePair_st _, rfl⟩

end

/-! ## Surrender (R368) -/

/-- The life states of the instances. -/
def State.lives (s : State) (j : Nat) : InstState := (s.inst j).st

theorem lives_of_insts {s t : State} (h : t.insts = s.insts) : t.lives = s.lives := by
  funext j
  unfold State.lives
  rw [State.inst_congr h]

theorem Hub.lives {s t : State} (h : Hub s t) : t.lives = s.lives := by
  obtain ⟨o, f, hp, is, m, c, hd, tw, rfl, hi⟩ := h
  funext j
  exact (hi j).1

theorem State.updInst_lives (s : State) (i : Nat) (f : Inst → Inst) (j : Nat) :
    (s.updInst i f).lives j = if i = j then (f (s.inst i)).st else s.lives j := by
  unfold State.lives State.updInst
  rw [State.inst_setInst]
  split <;> rfl

theorem withdrawAll_lives (s : State) (i : Nat) : (withdrawAll s i).lives = s.lives := by
  funext j
  refine (State.updInst_lives s i (fun x => { x with arrivals := [] }) j).trans ?_
  split
  next h => rw [← h, State.lives]
  next => rfl

theorem dropDomes_foldl_insts (s : State) (q : Nat → Bool) (ls : List Nat) : (ls.foldl (fun s l => dropDomes s l q) s).insts = s.insts :=
  foldl_keeps State.insts (f := fun s l => dropDomes s l q) (fun _ _ => rfl) ls s

theorem rollback_insts (s : State) (p : Nat) : (rollback s p).insts = s.insts := by
  unfold rollback
  extract_lets t lost dropped k cleared
  have hcleared : cleared.insts = s.insts := dropDomes_foldl_insts s _ _
  cases k with
  | some k => exact hcleared
  | none => exact hcleared

theorem leaveEngine_insts (s : State) (p k : Nat) : (leaveEngine s p k).insts = s.insts := by
  unfold leaveEngine chargeTime rollWindow
  dsimp only
  split <;> rfl

theorem stopInst_lives (s : State) (i : Nat) : (stopInst s i).lives = s.lives := by
  unfold stopInst
  extract_lets off idle
  have hoff : off.insts = s.insts :=
    foldl_keeps State.insts (fun s e => (leaveEngine_insts _ _ _).trans (rollback_insts s _)) _ s
  calc _ = idle.lives := lives_of_insts rfl
    _ = off.lives := withdrawAll_lives off i
    _ = s.lives := lives_of_insts hoff

theorem setJobs_insts (s : State) (cz : Bool) (l : List Job) : (s.setJobs cz l).insts = s.insts := by
  cases cz <;> rfl

theorem dropJobs_insts (s : State) (i : Nat) : (dropJobs s i).insts = s.insts := by
  unfold dropJobs
  extract_lets free freed noXce noCze
  have hfree (cz : Bool) (s : State) : (free cz s).insts = s.insts :=
    foldl_keeps State.insts (f := fun s (j : Job) => pushHold s (accelPool cz) 0 (s.clk.tb - j.tb)) (fun _ _ => rfl) _ s
  have hslots (l : List Nat) (f : State → Nat → KV Page) : (l.foldl (fun s pg => { s with pages := f s pg }) noCze).insts = noCze.insts :=
    foldl_keeps State.insts (f := fun s pg => { s with pages := f s pg }) (fun _ _ => rfl) l noCze
  calc _ = noCze.insts := hslots _ _
    _ = noXce.insts := setJobs_insts _ _ _
    _ = freed.insts := setJobs_insts _ _ _
    _ = s.insts := (hfree true _).trans (hfree false s)

theorem failCommands_lives (s : State) (i : Nat) : (failCommands s i).lives = s.lives := by
  refine foldl_keeps State.lives (fun s op => ?_) _ s
  split
  · exact (complete_hub _ _ _ _ _ _ s).lives
  · rfl

theorem stopFetch_lives (s : State) (n : Nat) : (stopFetch s n).lives = s.lives := rfl

theorem dropRequests_lives (s : State) (n : Nat) : (dropRequests s n).lives = s.lives :=
  lives_of_insts (Prod.mk.inj (dropRequests_keeps s n)).1

theorem State.withUnits_lives (s : State) (c : Css) (tw : Twin) : ({ s with css := c, twin := tw } : State).lives = s.lives := rfl

/-- The instance that leaves is FAULTED, the others stay as they are. -/
theorem leaveModule_lives (s : State) (i j : Nat) : (leaveModule s i).lives j = if i = j then .faulted else s.lives j := by
  unfold leaveModule
  rw [State.updInst_lives, failCommands_lives, State.withUnits_lives, dropRequests_lives, lives_of_insts (dropJobs_insts _ i), stopFetch_lives,
    stopInst_lives]

theorem surrender_lives (s : State) (i c j : Nat) : (surrender s i c).lives j = if i = j then .faulted else s.lives j := by
  unfold surrender
  extract_lets k left told
  have htold : told.lives = left.lives := by
    unfold told
    split
    · exact lives_of_insts (sendSlots_insts left _)
    · rfl
  rw [lives_of_insts (logEvent_insts told _), htold]
  exact leaveModule_lives s i j

/-- Every instance of a list surrendered is FAULTED. -/
theorem surrenders_lives (c : Nat) (l : List Nat) (s : State) (j : Nat) (h : j ∈ l ∨ s.lives j = .faulted) :
    (l.foldl (fun s i => surrender s i c) s).lives j = .faulted := by
  induction l generalizing s with
  | nil => exact h.resolve_left List.not_mem_nil
  | cons i l ih =>
    refine ih (surrender s i c) ?_
    rw [surrender_lives]
    by_cases hij : i = j
    · exact .inr (if_pos hij)
    · rw [if_neg hij]
      exact h.imp_left fun hm => (List.mem_cons.mp hm).resolve_left (Ne.symm hij)

theorem mem_of_kvFind {α : Type} {l : KV α} {k : Nat} {v : α} (h : kvFind l k = some v) : (k, v) ∈ l := by
  induction l with
  | nil => cases h
  | cons e l ih =>
    obtain ⟨j, w⟩ := e
    by_cases hj : j = k
    · subst hj
      obtain rfl : w = v := by simpa [kvFind] using h
      exact List.mem_cons_self
    · exact List.mem_cons_of_mem _ (ih (by simpa [kvFind, hj] using h))

/-- An instance that is not FREE stands in the table. -/
theorem mem_instancesIn {s : State} {i : Nat} {q : TwinRole → Bool} (hst : (s.inst i).st ≠ .free) (hq : q (s.inst i).role = true) :
    i ∈ instancesIn s q := by
  unfold State.inst kvGet at hst hq
  cases hx : kvFind s.insts i with
  | none =>
    rw [hx] at hst
    exact absurd rfl hst
  | some x =>
    rw [hx] at hst hq
    unfold instancesIn
    refine List.mem_mergeSort.mpr (List.mem_map.mpr ⟨(i, x), List.mem_filter.mpr ⟨mem_of_kvFind hx, ?_⟩, rfl⟩)
    simpa using ⟨hst, hq⟩

/-! ## The fenced module (R365, R366, R425) -/

theorem fenceLatch_fences {s : State} (hlive : s.live = true) (hl : s.twin.latch = false)
    (hpos : s.twin.posB = true ∨ (s.twin.asking = false ∧ s.twin.fenceOut = false)) : ∃ u, execFenceLatchSet s = .next u
      ∧ u.twin.latch = true ∧ u.twin.fenceIn = true ∧ u.twin.ackLow = true ∧ u.twin.st = .fenced ∧ u.twin.fenceOut = false
      ∧ ∀ i, (s.inst i).role = .primary ∨ (s.inst i).role = .exposed → (s.inst i).st ≠ .free → (u.inst i).st = .faulted := by
  have hg : (s.twin.latch || (!s.twin.posB && (s.twin.asking || s.twin.fenceOut))) = false := by
    rcases hpos with h1 | ⟨h1, h2⟩
    · simp [hl, h1]
    · simp [hl, h1, h2]
  unfold execFenceLatchSet
  simp only [State.quiet_clk, live_phase hlive, State.quiet_twin, hg, Bool.false_eq_true, if_false]
  refine ⟨_, rfl, ?_, ?_, ?_, ?_, ?_, fun i hr hst => ?_⟩
  iterate 5 rw [logEvent_twin, endTwinCommands_twin]
  have hm : i ∈ instancesIn s.quiet fun r => r == .primary || r == .exposed := mem_instancesIn hst (by rcases hr with h | h <;> simp [h])
  rw [State.inst_congr ((logEvent_insts _ _).trans (endTwinCommands_insts _))]
  exact surrenders_lives 4 _ s.quiet i (.inl hm)

theorem fenceLatch_stopped {s : State} (hlive : s.live = false) (hp : s.clk.phase ≠ .frozen) :
    execFenceLatchSet s = .next { s.quiet with twin := { s.twin with latch := true, fenceIn := true, ackLow := true } } := by
  have hrun : s.clk.phase ≠ .run := fun h => by simp [State.live, h] at hlive
  unfold execFenceLatchSet
  simp only [State.quiet_clk]
  split
  · rfl
  · rfl
  · rfl
  · rfl
  next h => exact absurd h hp
  next h => exact absurd h hrun

/-! ## Takeover (R366, R369, R370) -/

/-- The roles of the instances, and whether their copies are being filled. -/
def State.ranks (s : State) (j : Nat) : TwinRole × Bool := ((s.inst j).role, (s.inst j).copying)

theorem ranks_of_insts {s t : State} (h : t.insts = s.insts) : t.ranks = s.ranks := by
  funext j
  unfold State.ranks
  rw [State.inst_congr h]

theorem State.setInst_ranks (s : State) (i : Nat) {x : Inst} (hr : x.role = (s.inst i).role) (hc : x.copying = (s.inst i).copying) :
    (s.setInst i x).ranks = s.ranks := by
  funext j
  unfold State.ranks
  rw [State.inst_setInst]
  split
  next hj => rw [hr, hc, hj]
  next => rfl

theorem State.updInst_ranks (s : State) (i : Nat) {f : Inst → Inst} (h : ∀ x, (f x).role = x.role ∧ (f x).copying = x.copying) :
    (s.updInst i f).ranks = s.ranks :=
  State.setInst_ranks s i (h _).1 (h _).2

theorem takeGroup_ranks (s : State) (i n : Nat) : (takeGroup s i n).ranks = s.ranks := by
  unfold takeGroup
  dsimp only
  split
  · rfl
  · exact State.setInst_ranks s i rfl rfl

theorem logPoison_insts (s : State) (i l d r : Nat) : (logPoison s i l d r).insts = s.insts := logEvent_insts s _

theorem endSub_insts (s : State) (i n : Nat) (st : Status) (d v : Nat) : (endSub s i n st d v).insts = s.insts := journal_insts _ _ _ _ _ _

theorem noteLine_insts (s : State) (l : Nat) : (noteLine s l).insts = s.insts := by
  unfold noteLine
  split
  · rfl
  · split
    · split <;> rfl
    · rfl

theorem hubWrite_insts (s : State) (a : Nat) (d : List Byte) : (hubWrite s a d).insts = s.insts := by
  refine foldl_keeps State.insts (fun s c => ?_) _ s
  exact noteLine_insts _ _

theorem writePieces_insts (s : State) (l : List (Nat × Nat)) (d : List Byte) : (writePieces s l d).insts = s.insts := by
  induction l generalizing s d with
  | nil => rfl
  | cons p l ih => exact (ih _ _).trans (hubWrite_insts s _ _)

theorem hubZone_insts (s : State) (i r : Nat) : (hubZone s i r).insts = s.insts := by
  unfold hubZone
  split <;> rfl

theorem instWrite_insts (s : State) (i r : Nat) (d : List Byte) : (instWrite s i r d).insts = s.insts :=
  (writePieces_insts _ _ _).trans (foldl_keeps State.insts (fun s _ => hubZone_insts s _ _) _ s)

theorem writeStatus_insts (s : State) (i n : Nat) : (writeStatus s i n).insts = s.insts := by
  unfold writeStatus
  dsimp only
  rw [State.setSub_insts]
  split
  · exact instWrite_insts s _ _ _
  · rfl

theorem hostWrite_ranks (s : State) (n a : Nat) (d : List Byte) : (hostWrite s n a d).ranks = s.ranks := by
  unfold hostWrite
  split
  · rfl
  · dsimp only
    split
    · exact ranks_of_insts rfl
    · unfold logDirty
      split
      · exact ranks_of_insts rfl
      · dsimp only
        refine (State.updInst_ranks _ (n - 1) ?_).trans (ranks_of_insts rfl)
        exact fun _ => ⟨rfl, rfl⟩

theorem sendMsix_insts (s : State) (n v : Nat) : (sendMsix s n v).insts = s.insts := by
  obtain ⟨o, fs, h⟩ := sendMsix_frame s n v
  rw [h]

theorem gather_insts (s : State) (n k : Nat) : (gather s n k).insts = s.insts := by
  unfold gather
  dsimp only
  split
  · rfl
  · split
    · exact sendMsix_insts _ _ _
    · rfl

theorem State.setSub_ranks (s : State) (i n : Nat) (x : Sub) : (s.setSub i n x).ranks = s.ranks := rfl

/-- An operation of the partner's entered here, with its CARRY entry. -/
theorem entered_ranks (s : State) (i n : Nat) (x : Sub) : (journal (takeGroup (s.setSub i n x) i n) i n 7 false).ranks = s.ranks :=
  (ranks_of_insts (journal_insts _ _ _ _ _ _)).trans ((takeGroup_ranks _ _ _).trans (ranks_of_insts rfl))

theorem redoOp_ranks (s : State) (i : Nat) (es : List JEntry) (e : JEntry) (since : Nat) : (redoOp s i es e since).ranks = s.ranks := by
  unfold redoOp
  rcases onceState es with ⟨opened, doneCces⟩
  dsimp only
  split
  · rw [ranks_of_insts (endSub_insts _ _ _ _ _ _), entered_ranks]
  · split
    · rw [ranks_of_insts (endSub_insts _ _ _ _ _ _)]
      split
      · rw [ranks_of_insts (logPoison_insts _ _ _ _ _), State.setSub_ranks, entered_ranks]
      · rw [State.setSub_ranks, entered_ranks]
    · rw [State.setSub_ranks, entered_ranks]

theorem endedOp_ranks (s : State) (i : Nat) (es : List JEntry) (e : JEntry) : (endedOp s i es e).ranks = s.ranks := by
  unfold endedOp
  extract_lets z x held shown taken entered
  have hentered : entered.ranks = s.ranks := entered_ranks s i e.sub _
  split
  · exact hentered
  · exact (ranks_of_insts (writeStatus_insts _ _ _)).trans hentered

theorem scanJournal_ranks (s : State) (i since : Nat) : (scanJournal s i since).ranks = s.ranks := by
  refine foldl_keeps State.ranks (fun s n => ?_) _ s
  split
  · rfl
  · split
    · rfl
    · split
      · exact endedOp_ranks s _ _ _
      · exact redoOp_ranks s _ _ _ _

theorem rewriteCompletions_ranks (s : State) (i : Nat) : (rewriteCompletions s i).ranks = s.ranks :=
  foldl_keeps State.ranks (fun s _ => (ranks_of_insts (gather_insts _ _ _)).trans (hostWrite_ranks s _ _ _)) _ s

theorem allDirty_ranks (s : State) (i : Nat) : (allDirty s i).ranks = s.ranks := by
  unfold allDirty
  split
  · rfl
  · exact State.updInst_ranks s i fun _ => ⟨rfl, rfl⟩

theorem logTakeover_insts (s : State) (i : Nat) : (logTakeover s i).insts = s.insts := by
  unfold logTakeover
  dsimp only
  split
  · exact (sendMsix_insts _ _ _).trans (logEvent_insts s _)
  · exact logEvent_insts s _

/-- The instance taken over is EXPOSED, whatever the scan of its journal and the rewriting of its completions do. -/
theorem takeInst_rank (s : State) (i since : Nat) : (takeInst s i since).ranks i = (.exposed, false) := by
  unfold takeInst
  extract_lets control exposed scanned dirty
  calc (logTakeover dirty i).ranks i = dirty.ranks i := congrFun (ranks_of_insts (logTakeover_insts dirty i)) i
    _ = scanned.ranks i := congrFun ((allDirty_ranks _ i).trans (rewriteCompletions_ranks scanned i)) i
    _ = exposed.ranks i := congrFun (scanJournal_ranks exposed i since) i
    _ = (.exposed, false) := by
      unfold State.ranks exposed
      rw [State.inst_updInst_same]

theorem endForce_insts (s : State) : (endForce s).insts = s.insts := by
  unfold endForce
  split
  · split
    · rfl
    · exact completeNow_command_insts _ _ _ _ _ _
  · rfl

@[simp] theorem endForce_mayTake (s : State) : (endForce s).twin.mayTake = s.twin.mayTake := by
  unfold endForce
  split
  · split <;> simp
  · rfl

theorem takeSince_of_nextTake {s : State} {i : Nat} (h : nextTake s i = true) : ∃ since, takeSince s i = some since := by
  have hm : i ∈ (instancesIn s (· == .secondary)).filter fun j => !(s.inst j).copying && (takeSince s j).isSome :=
    List.mem_of_head? (by simpa [nextTake] using h)
  have hi := (List.mem_filter.mp hm).2
  exact Option.isSome_iff_exists.mp (Bool.and_eq_true_iff.mp hi).2

theorem mayTake_of_outside {s t : State} (h : t.outside = s.outside) : t.twin.mayTake = s.twin.mayTake :=
  congrArg (fun x => x.2.2.1.mayTake) h

/-- The module told the partner, where the instance was handed over. -/
def tellTakeover (s : State) (i : Nat) (handed : Bool) : State :=
  if handed && s.twin.link ≥ 2 then sendControl s ctlHandover [i, (s.inst i).lastJsn] else s

theorem tellTakeover_keeps (s : State) (i : Nat) (handed : Bool) : (tellTakeover s i handed).insts = s.insts
    ∧ (tellTakeover s i handed).twin.mayTake = s.twin.mayTake := by
  unfold tellTakeover
  split
  · exact ⟨sendSlots_insts s _, mayTake_of_outside (sendControl_outside s _ _)⟩
  · exact ⟨rfl, rfl⟩

theorem takeover_results {s : State} {i : Nat} (hlive : s.live = true) (hn : nextTake s i = true) (hr : (s.inst i).role = .secondary)
    (hs : s.twin.staged = []) : ∃ u, execTakeover i s = .next u ∧ (u.inst i).role = .exposed ∧ (u.inst i).copying = false
      ∧ kvFind u.twin.mayTake i = none := by
  obtain ⟨since, hsince⟩ := takeSince_of_nextTake hn
  have hn' : nextTake s.quiet i = true := hn
  have hsince' : takeSince s.quiet i = some since := hsince
  unfold execTakeover
  simp only [State.quiet_live, hlive, hn', State.quiet_twin, hs, List.foldl_nil, hsince', State.quiet_inst, hr, Bool.not_true, Bool.or_self,
    bne_self_eq_false, Bool.false_eq_true, if_false]
  generalize ht : takeInst _ i since = t
  have hrank : t.ranks i = (.exposed, false) := by
    rw [← ht]
    exact takeInst_rank _ i since
  obtain ⟨hi, hm⟩ := tellTakeover_keeps { t with twin := { t.twin with
    mayTake := kvDel t.twin.mayTake i, handed := t.twin.handed.filter (· != i) } } i (t.twin.handed.contains i)
  have hinst : ∀ u : State, u.insts = t.insts → ((u.inst i).role, (u.inst i).copying) = (.exposed, false) := fun u hu =>
    (congrFun (ranks_of_insts hu) i).trans hrank
  refine ⟨_, rfl, ?_, ?_, ?_⟩
  · exact congrArg Prod.fst (hinst _ ((endForce_insts _).trans hi))
  · exact congrArg Prod.snd (hinst _ ((endForce_insts _).trans hi))
  · rw [endForce_mayTake]
    refine (congrArg (kvFind · i) hm).trans ?_
    simp [kvFind_kvDel]

/-- Settles O59, event by event: what an event does to the link, to the pair and to the instances, beside the rest that follows from it. -/
theorem twinEventResults : Obligations.TwinEventResults := by
  unfold Obligations.TwinEventResults
  intro s w t sec
  refine ⟨fun x4 lane hlive hjlk himg hlink => ?_, fun m h => ident_results m h, fun h => ⟨_, receiverLockLost_eq h, linkDown_twin s.quiet 2⟩,
    fun f h hf => ⟨fun hg hr => ?_, fun hg hr => ?_, fun hg hst => flitReceive_good h hf hg hst⟩,
    fun m k h hst hp => ⟨fun hn => ?_, fun q d hq hk hd => ?_, fun q hq hk => ?_⟩,
    fun h hst => ⟨fun m => ⟨protect_taken, protect_creates h hst⟩, fun i q => copyDone_acked h hst, fun i => copyDone_received h hst,
      fun i j hr => surrender_received h hst hr j, fun i j hr hn => handover_received h hst hr hn j,
      fun i j q hq hr => handover_answered h hst hq hr j, fun j g n seq st d c l => mirrorAck_one h hst, mirrorRefill_results h hst⟩,
    fun hlive hst => ⟨stagingApply_empty hlive hst, fun j i ls rest => stagingApply_first hlive hst, partnerLost_results hlive hst,
      fun hask hl => ⟨fenceAsk_answered hlive hst hask hl, fenceAsk_waits hlive hst hask hl⟩, fun x hask hx => fenceUnanswered_results hlive hst hask hx⟩,
    fenceLatch_fences, fenceLatch_stopped, fun i => takeover_results⟩
  · obtain ⟨htwin, hspire, hclk, hi⟩ := linkLogged_keeps s.quiet x4 lane
    obtain ⟨k, hk, f, hf, hout, hsent, htx⟩ := sendControl_first (s := linkLogged s.quiet x4 lane) (by rw [htwin]; rfl) (by rw [htwin]; rfl)
      (by rw [htwin]; rfl) (by rw [htwin]; rfl) ctlIdent (([s.spire.modid, s.spire.boot, s.clk.tb]
        ++ (s.img.structHash ++ s.img.ucodeHash).map BitVec.toNat))
    have hexec := jalarnLinkUp_eq hlive hjlk himg hlink x4 lane
    dsimp only at hexec
    rw [hspire, hclk, hi] at hexec
    refine ⟨_, hexec, ?_, ?_, ?_, k, hk, f, ?_, hout, hsent, htx⟩
    · exact (link_of_outside (sendControl_outside _ _ _)).trans (congrArg Twin.link htwin)
    · exact congrArg Twin.credit htwin
    · exact congrArg Twin.fseq htwin
    · rw [htwin] at hf
      exact hf
  · exact (flitReceive_bad h hf hg).trans (by rw [if_neg (Nat.not_le.mpr hr)])
  · exact ⟨_, (flitReceive_bad h hf hg).trans (by rw [if_pos hr]), (linkDown_twin w 1).1⟩
  · have heq := pair_eq h hst hp k
    rw [show s.twin.pairing = none from hn] at heq
    exact heq
  · have heq := pair_eq h hst hp k
    rw [show s.twin.pairing = some q from hq, hk] at heq
    exact ⟨_, hk ▸ heq, becomePaired_twin (s := w) hd q⟩
  · have heq := pair_eq h hst hp k
    rw [show s.twin.pairing = some q from hq, hk] at heq
    exact hk ▸ heq

end Sys2Proof.Machine

/-! SUPPORT. The queue of waiting commands, in the model's order, and the statement about every command, O2. No operation of the model touches
the queue (`_pending`, for `simp`); accesses and bodies of instructions, which may stop, carry it through (`_yields`), and each command leads to a
state that has it, never to a fault or a refusal (`_leads`). -/

namespace Sys2Proof.Machine

open Sys2Proof

/-! ## Branches, folds and results -/

@[simp] theorem ite_pending {c : Prop} [Decidable c] {s t : State} :
    (if c then s else t).pending = if c then s.pending else t.pending :=
  apply_ite State.pending c s t

@[simp] theorem foldl_pending {α : Type} {f : State → α → State} {l : List α} {s : State}
    (hf : ∀ s x, (f s x).pending = s.pending) : (l.foldl f s).pending = s.pending :=
  foldl_keeps State.pending hf l s

@[simp] theorem foldl_snd_pending {α β : Type} {f : β × State → α → β × State} {l : List α} {x : β × State}
    (hf : ∀ x a, (f x a).2.pending = x.2.pending) : (l.foldl f x).2.pending = x.2.pending :=
  foldl_keeps (·.2.pending) hf l x

@[simp] theorem logEvent_pending (s : State) (e : LogEntry) : (logEvent s e).pending = s.pending :=
  pending_of_outside (logEvent_outside s e)

@[simp] theorem setErrBit_pending (s : State) (n b : Nat) : (setErrBit s n b).pending = s.pending := by
  simp [setErrBit, sendMsix]

@[simp] theorem raiseErr_pending (s : State) (n : Nat) (e : ErrKind) : (raiseErr s n e).pending = s.pending := by
  unfold raiseErr
  dsimp only
  (repeat' split) <;> simp

theorem snd_pending {α : Type} {p : α × State} {a : α} {s : State} (e : p = (a, s)) : s.pending = p.2.pending := by
  rw [e]

/-- A command leads to a state whose queue is `pq`, not to a fault or a refusal. -/
@[simp] def Leads (pq : List Instr) : Res → Prop
  | .next s => s.pending = pq
  | _ => False

/-- The states that a stop carries have the queue `pq`. -/
@[simp] def Stop.Queued (pq : List Instr) : Stop → Prop
  | .wait s | .hold s => s.pending = pq
  | .after s st => s.pending = pq ∧ st.Queued pq
  | _ => True

/-- An access or the body of an instruction ends with `P`, or in a stop whose states have the queue `pq`. -/
@[simp] def Yields (pq : List Instr) {α : Type} (P : α → Prop) : Except Stop α → Prop
  | .ok a => P a
  | .error e => e.Queued pq

/-- The states in which a run of elements ends. -/
@[simp] def BlkEnd.Queued (pq : List Instr) : BlkEnd → Prop
  | .done s | .more s => s.pending = pq
  | .stop s e => s.pending = pq ∧ e.Queued pq

variable {pq : List Instr}

theorem Yields.bind {α β : Type} {P : α → Prop} {Q : β → Prop} {x : Except Stop α} {f : α → Except Stop β} (hx : Yields pq P x)
    (hf : ∀ a, P a → Yields pq Q (f a)) : Yields pq Q (x >>= f) := by
  cases x with
  | ok a => exact hf a hx
  | error e => exact hx

theorem Yields.ite_bind {α β : Type} {P : α → Prop} {Q : β → Prop} {c : Prop} [Decidable c] {x y : Except Stop α} {f : α → Except Stop β}
    (hx : Yields pq P x) (hy : Yields pq P y) (hf : ∀ a, P a → Yields pq Q (f a)) : Yields pq Q (if c then x >>= f else y >>= f) := by
  split
  · exact hx.bind hf
  · exact hy.bind hf

theorem Yields.ok {α : Type} {P : α → Prop} {x : Except Stop α} {a : α} (e : x = .ok a) (h : Yields pq P x) : P a := by
  subst e
  exact h

theorem Yields.error {α : Type} {P : α → Prop} {x : Except Stop α} {st : Stop} (e : x = .error st) (h : Yields pq P x) : st.Queued pq := by
  subst e
  exact h

theorem Yields.foldlM {α : Type} {f : State → α → Except Stop State}
    (hf : ∀ s x, s.pending = pq → Yields pq (·.pending = pq) (f s x)) (l : List α) {s : State} (h : s.pending = pq) :
    Yields pq (·.pending = pq) (l.foldlM f s) := by
  induction l generalizing s with
  | nil => exact h
  | cons x l ih => exact Yields.bind (hf s x h) fun t ht => ih ht

@[simp] theorem State.updFn_pending (s : State) (n : Nat) (f : Fn → Fn) : (s.updFn n f).pending = s.pending := rfl
@[simp] theorem State.setRing_pending (s : State) (n k : Nat) (r : Ring) : (s.setRing n k r).pending = s.pending := rfl
@[simp] theorem State.setReqs_pending (s : State) (l : List Request) : (s.setReqs l).pending = s.pending := rfl
@[simp] theorem State.putReq_pending (s : State) (r : Request) : (s.putReq r).pending = s.pending := rfl
@[simp] theorem State.setStage_pending (s : State) (n q : Nat) (g : Stage) : (s.setStage n q g).pending = s.pending := rfl

/-! ## Tables, messages and the log -/

@[simp] theorem State.fresh_pending (s : State) : (State.fresh s).2.pending = s.pending := rfl
@[simp] theorem tick_pending (s : State) (d : Nat) : (tick s d).pending = s.pending := rfl

@[simp] theorem passUntil_pending (s : State) (t : Nat) : (passUntil s t).pending = s.pending :=
  pending_of_outside (passUntil_outside s t)

@[simp] theorem sendMsix_pending (s : State) (n v : Nat) : (sendMsix s n v).pending = s.pending :=
  pending_of_outside (sendMsix_outside s n v)

@[simp] theorem logWrite_pending (s : State) (e : LogEntry) : (logWrite s e).pending = s.pending :=
  pending_of_outside (logWrite_outside s e)

@[simp] theorem flushMerge_pending (s : State) (m : Merge) : (flushMerge s m).pending = s.pending :=
  pending_of_outside (flushMerge_outside s m)

@[simp] theorem setPower_pending (s : State) (n : Nat) : (setPower s n).pending = s.pending := by
  simp [setPower]

/-! ## Stores and caches -/

@[simp] theorem dropL1_pending (s : State) (l : Nat) (q : Nat → Bool) (icache : Bool) : (dropL1 s l q icache).pending = s.pending := rfl

@[simp] theorem writeBack_pending (s : State) (l : Nat) : (writeBack s l).pending = s.pending :=
  pending_of_outside (writeBack_outside s l)

@[simp] theorem dropDomes_pending (s : State) (l : Nat) (t : Nat → Bool) : (dropDomes s l t).pending = s.pending := rfl

theorem makeRoom_pending {s u : State} {t l w : Nat} (e : makeRoom s t l = .inr (w, u)) : u.pending = s.pending := by
  unfold makeRoom at e
  dsimp only at e
  split at e
  · cases e
    rfl
  · split at e
    · cases e
      simp
    · split at e
      · split at e <;> cases e
      · cases e

theorem domeHave_pending {s u : State} {t l : Nat} {excl : Bool} (e : domeHave s t l excl = .inr u) : u.pending = s.pending := by
  unfold domeHave at e
  dsimp only at e
  split at e
  · split at e <;> cases e <;> simp
  · split at e
    · cases e
    next hr =>
      cases e
      simp [makeRoom_pending hr]

theorem l1Room_pending {s u : State} {p l : Nat} (e : l1Room s p l = some u) : u.pending = s.pending := by
  unfold l1Room at e
  dsimp only at e
  split at e
  · cases e
    rfl
  · split at e <;> cases e
    rfl

@[simp] theorem l1Put_pending (s : State) (p : Nat) (x : L1Line) : (l1Put s p x).pending = s.pending := rfl
@[simp] theorem askCommit_pending (s : State) (ps : List Nat) : (askCommit s ps).pending = s.pending := rfl

theorem waitOn_queued {s : State} {w : Nat ⊕ Unit} (h : s.pending = pq) : (waitOn s w).Queued pq := by
  cases w <;> simp [waitOn, h]

theorem makeDirty_yields {s : State} {p l : Nat} {data : List Byte} (h : s.pending = pq) : Yields pq (·.pending = pq) (makeDirty s p l data) := by
  unfold makeDirty
  dsimp only
  split
  · exact waitOn_queued h
  next h8 =>
    split
    · simpa [domeHave_pending h8] using h
    · split
      · simpa using h
      next h12 =>
        simpa [l1Room_pending h12, domeHave_pending h8] using h

theorem openLine_yields {s : State} {p l : Nat} (h : s.pending = pq) : Yields pq (·.pending = pq) (openLine s p l) := by
  unfold openLine
  split
  · exact waitOn_queued h
  next h7 =>
    simpa [domeHave_pending h7] using h

@[simp] theorem sendLine_pending (s : State) (p l : Nat) (d : List Byte) (poison : Bool) : (sendLine s p l d poison).pending = s.pending :=
  pending_of_outside (sendLine_outside s p l d poison)

@[simp] theorem drainStream_pending (s : State) (p : Nat) : (drainStream s p).pending = s.pending :=
  pending_of_outside (drainStream_outside s p)

theorem leaveStream_yields {s : State} {p : Nat} (h : s.pending = pq) : Yields pq (·.pending = pq) (leaveStream s p) := by
  unfold leaveStream
  dsimp only
  split
  · simpa using h
  · split
    · exact h
    · split
      · simpa using h
      · exact makeDirty_yields (by simpa using h)

theorem storeLine_yields {s : State} {p a : Nat} {d : List Byte} {va : Word} (h : s.pending = pq) :
    Yields pq (·.pending = pq) (storeLine s p a d va) := by
  unfold storeLine
  dsimp only
  split
  · simpa using h
  · split
    · split
      · simpa using h
      · split
        · exact h
        · refine Yields.bind (openLine_yields h) ?_
          intro s1 h1
          simpa using h1
    · split
      · refine Yields.bind (leaveStream_yields h) ?_
        intro s1 h1
        split
        · exact trivial
        · refine Yields.bind (makeDirty_yields h1) ?_
          intro s2 h2
          exact h2
      · refine Yields.bind (P := fun t : State => t.pending = pq) h ?_
        intro s1 h1
        split
        · exact trivial
        · refine Yields.bind (makeDirty_yields h1) ?_
          intro s2 h2
          exact h2

@[simp] theorem addFill_pending (s : State) (p l : Nat) (k : FillKind) : (addFill s p l k).pending = s.pending := rfl

theorem loadLine_yields {s : State} {p a n : Nat} {va : Word} (h : s.pending = pq) : Yields pq (·.2.pending = pq) (loadLine s p a n va) := by
  unfold loadLine
  dsimp only
  split
  · simpa using h
  · split
    · exact trivial
    · split
      · exact h
      · split
        · refine Yields.bind (leaveStream_yields h) ?_
          intro s1 h1
          split
          · exact h1
          · simpa using h1
        · refine Yields.bind (P := fun t : State => t.pending = pq) h ?_
          intro s1 h1
          split
          · exact h1
          · simpa using h1

/-! ## Completions -/

@[simp] theorem hostWrite_pending (s : State) (n addr : Nat) (data : List Byte) : (hostWrite s n addr data).pending = s.pending :=
  pending_of_outside (hostWrite_outside s n addr data)

@[simp] theorem gather_pending (s : State) (n k : Nat) : (gather s n k).pending = s.pending :=
  pending_of_outside (gather_outside s n k)

@[simp] theorem drainRing_pending (s : State) (n k : Nat) : (drainRing s n k).pending = s.pending :=
  pending_of_outside (drainRing_outside s n k)

@[simp] theorem drainFn_pending (s : State) (n : Nat) : (drainFn s n).pending = s.pending := by
  simp [drainFn]

@[simp] theorem completeNow_pending (s : State) (n seq st detail count : Nat) (result : List Byte) :
    (completeNow s n seq st detail count result).pending = s.pending :=
  pending_of_outside (completeNow_outside s n seq st detail count result)

/-! ## The sending side of the mirror -/

@[simp] theorem sendSlots_pending (s : State) (l : List (List Byte)) : (sendSlots s l).pending = s.pending :=
  pending_of_outside (sendSlots_outside s l)

@[simp] theorem sendGroups_pending (s : State) : (sendGroups s).pending = s.pending :=
  pending_of_outside (sendGroups_outside s)

@[simp] theorem closeGroup_pending (s : State) (i source : Nat) (lines : List MLine) (act : Deferred) :
    (closeGroup s i source lines act).pending = s.pending :=
  pending_of_outside (closeGroup_outside s i source lines act)

@[simp] theorem closeHub_pending (s : State) (i source : Nat) (act : Deferred) : (closeHub s i source act).pending = s.pending :=
  pending_of_outside (closeHub_outside s i source act)

@[simp] theorem complete_pending (s : State) (n seq st detail count : Nat) (result : List Byte) :
    (complete s n seq st detail count result).pending = s.pending :=
  pending_of_outside (complete_outside s n seq st detail count result)

/-! ## Pools, the journal and commit points -/

@[simp] theorem freeDispatch_pending (s : State) (r : Request) : (freeDispatch s r).pending = s.pending :=
  pending_of_outside (freeDispatch_outside s r)

@[simp] theorem journal_pending (s : State) (i n type : Nat) (discard : Bool) (act : optParam Deferred Deferred.nothing) :
    (journal s i n type discard act).pending = s.pending :=
  pending_of_outside (journal_outside s i n type discard act)

@[simp] theorem releaseGroup_pending (s : State) (i n : Nat) : (releaseGroup s i n).pending = s.pending :=
  pending_of_outside (releaseGroup_outside s i n)

@[simp] theorem engineZone_pending (s : State) (p i r : Nat) : (engineZone s p i r).pending = s.pending := by
  unfold engineZone
  split <;> simp

@[simp] theorem takeGroup_pending (s : State) (i n : Nat) : (takeGroup s i n).pending = s.pending :=
  pending_of_outside (takeGroup_outside s i n)

@[simp] theorem runEffect_pending (s : State) (e : Effect) : (runEffect s e).pending = s.pending :=
  pending_of_outside (runEffect_outside s e)

@[simp] theorem writeKeyPage_pending (s : State) (pg off : Nat) (d : List Byte) : (writeKeyPage s pg off d).pending = s.pending :=
  pending_of_outside (writeKeyPage_outside s pg off d)

@[simp] theorem takeCommit_pending (s : State) (p k : Nat) (effects : List Effect) (opening wait leave : Bool) :
    (takeCommit s p k effects opening wait leave).pending = s.pending :=
  pending_of_outside (takeCommit_outside s p k effects opening wait leave)

@[simp] theorem rollWindow_pending (s : State) (t : Nat) : (rollWindow s t).pending = s.pending :=
  pending_of_outside (rollWindow_outside s t)

@[simp] theorem leaveEngine_pending (s : State) (p k : Nat) : (leaveEngine s p k).pending = s.pending :=
  pending_of_outside (leaveEngine_outside s p k)

@[simp] theorem finishCommit_pending (s : State) (p k : Nat) (b : CommitBuf) : (finishCommit s p k b).pending = s.pending :=
  pending_of_outside (finishCommit_outside s p k b)

@[simp] theorem commitNow_pending (s : State) (p k : Nat) (effects : List Effect) (leave : Bool) :
    (commitNow s p k effects leave).pending = s.pending :=
  pending_of_outside (commitNow_outside s p k effects leave)

@[simp] theorem commitWait_pending (s : State) (p k : Nat) (leave : Bool) : (commitWait s p k leave).pending = s.pending :=
  pending_of_outside (commitWait_outside s p k leave)

@[simp] theorem parkBme_pending (s : State) (p k : Nat) : (parkBme s p k).pending = s.pending := by
  simp [parkBme]

@[simp] theorem rollback_pending (s : State) (p : Nat) : (rollback s p).pending = s.pending :=
  pending_of_outside (rollback_outside s p)

@[simp] theorem walkL1_pending (s : State) (p : Nat) : (walkL1 s p).pending = s.pending := rfl

@[simp] theorem walkDome_pending (s : State) (t : Nat) : (walkDome s t).pending = s.pending :=
  pending_of_outside (walkDome_outside s t)

/-! ## Operands -/

theorem walk_yields {s : State} {p i org : Nat} {va : Word} {lv : Nat} (h : s.pending = pq) :
    Yields pq (·.2.pending = pq) (walk s p i va org lv) := by
  induction lv generalizing s org with
  | zero => exact trivial
  | succ lv ih =>
    unfold walk
    dsimp only
    split
    · exact trivial
    · have hl {r a : Nat} : Yields pq (·.2.pending = pq) (loadLine (engineZone s p i r) p a 8 va) := loadLine_yields (by simpa using h)
      split
      · exact trivial
      next e => exact Yields.error e hl
      next e =>
        have hs := (Yields.ok e hl :)
        split
        · exact trivial
        · split
          · exact hs
          · exact ih hs

theorem xlatVa_yields {s : State} {p k : Nat} {va : Word} (h : s.pending = pq) : Yields pq (·.2.pending = pq) (xlatVa s p k va) := by
  unfold xlatVa
  dsimp only
  have hw : Yields pq (·.2.pending = pq) (walk s.fresh.2 p (veInst k) va (bits ((s.ctx k).K 0).toNat 43 13 * 8192) 4) :=
    walk_yields (by simpa using h)
  split
  · split
    next e =>
      split
      · simpa using (Yields.ok e hw :)
      · exact h
    next e =>
      split
      · exact Yields.error e hw
      · exact h
  · refine Yields.bind hw ?_
    rintro ⟨x, s1⟩ h1
    exact h1

theorem translate_yields {s : State} {p k : Nat} {acc : Access} {va : Word} (h : s.pending = pq) :
    Yields pq (·.2.pending = pq) (translate s p k acc va) := by
  unfold translate
  dsimp only
  split
  · split
    · exact trivial
    · refine Yields.bind (xlatVa_yields h) ?_
      rintro ⟨x, s1⟩ h1
      dsimp only
      split
      · exact trivial
      · split
        · exact trivial
        · refine Yields.bind (P := fun _ => True) ?_ fun _ _ => by simpa using h1
          split
          · split <;> exact trivial
          · exact trivial
  · split
    · exact trivial
    · refine Yields.bind (P := fun _ => True) ?_ fun _ _ => by simpa using h
      split
      · split <;> exact trivial
      · exact trivial

theorem translateOp_yields {s : State} {p k n : Nat} {acc : Access} {va : Word} (h : s.pending = pq) :
    Yields pq (·.2.pending = pq) (translateOp s p k acc va n) := by
  unfold translateOp
  dsimp only
  refine Yields.bind (translate_yields h) ?_
  rintro ⟨x, s1⟩ h1
  dsimp only
  split
  · exact h1
  · refine Yields.bind (translate_yields h1) ?_
    rintro ⟨y, s2⟩ h2
    exact h2

theorem loadChunks_yields {s : State} {p fuel a n : Nat} {va : Word} (h : s.pending = pq) :
    Yields pq (·.2.pending = pq) (loadChunks s p va fuel a n) := by
  induction fuel generalizing s a n va with
  | zero => exact h
  | succ fuel ih =>
    unfold loadChunks
    dsimp only
    split
    · exact h
    · refine Yields.bind (loadLine_yields h) ?_
      rintro ⟨d, s1⟩ h1
      exact Yields.bind (ih h1) fun _ h2 => h2

theorem loadPiece_yields {s : State} {p k n : Nat} {va : Word} {ph : Phys} {keys : Bool} (h : s.pending = pq) :
    Yields pq (·.2.pending = pq) (loadPiece s p k va ph n keys) := by
  unfold loadPiece
  dsimp only
  split
  · exact loadChunks_yields h
  · split
    · exact trivial
    · exact h
  · split
    · simpa using h
    · exact h

theorem loadPieces_yields {s : State} {p k : Nat} {keys : Bool} {l : List (Word × Phys × Nat)} (h : s.pending = pq) :
    Yields pq (·.2.pending = pq) (loadPieces s p k keys l) := by
  induction l generalizing s with
  | nil => exact h
  | cons x l ih =>
    obtain ⟨va, ph, n⟩ := x
    exact Yields.bind (loadPiece_yields h) fun _ h1 => Yields.bind (ih h1) fun _ h2 => h2

theorem loadOp_yields {s : State} {p k : Nat} {va : Word} {n : Nat} {keys : optParam Bool false} (h : s.pending = pq) :
    Yields pq (·.2.pending = pq) (loadOp s p k va n keys) :=
  Yields.bind (translateOp_yields h) fun _ h1 => loadPieces_yields h1

theorem storeChunks_yields {s : State} {p : Nat} {va : Word} {l : List (Nat × List Byte)} (h : s.pending = pq) :
    Yields pq (·.pending = pq) (storeChunks s p va l) := by
  induction l generalizing s va with
  | nil => exact h
  | cons x l ih => exact Yields.bind (storeLine_yields h) fun s1 h1 => ih h1

theorem storePieces_yields {s : State} {p k : Nat} {d : List Byte} {keys : Bool} {l : List (Word × Phys × Nat)} (h : s.pending = pq) :
    Yields pq (·.1.pending = pq) (storePieces s p k d keys l) := by
  induction l generalizing s d with
  | nil => exact h
  | cons x l ih =>
    obtain ⟨va, ph, n⟩ := x
    unfold storePieces
    dsimp only
    split
    · exact Yields.bind (storeChunks_yields h) fun s1 h1 => ih h1
    · split
      · exact trivial
      · exact ih h
    · refine Yields.bind (ih h) ?_
      rintro ⟨s1, es⟩ h1
      exact h1

@[simp] theorem withSteals_pending (s w : State) : (withSteals s w).pending = s.pending := rfl

theorem wholeStore_yields {s : State} {r : Except Stop (State × List Effect)} (h : s.pending = pq) (hr : Yields pq (·.1.pending = pq) r) :
    Yields pq (·.1.pending = pq) (wholeStore s r) := by
  unfold wholeStore
  split
  · simpa using h
  · exact hr

theorem storeOp_yields {s : State} {p k : Nat} {va : Word} {d : List Byte} {keys : optParam Bool false} (h : s.pending = pq) :
    Yields pq (·.1.pending = pq) (storeOp s p k va d keys) := by
  unfold storeOp
  refine Yields.bind (translateOp_yields h) ?_
  rintro ⟨x, y⟩ h1
  refine wholeStore_yields h1 ?_
  exact storePieces_yields h1

@[simp] theorem raiseProg_pending (s : State) (k code ilen fp : Nat) (tea : Option Word) :
    (raiseProg s k code ilen fp tea).pending = s.pending := rfl

@[simp] theorem machineCheck_pending (s : State) (k code access ilen : Nat) (va : Option Word) (line : Nat) :
    (machineCheck s k code access ilen va line).pending = s.pending := by
  simp [machineCheck]

@[simp] theorem State.skipFree_pending (s : State) : (State.skipFree s).pending = s.pending := rfl

theorem stopInstr_pending {s : State} {k ilen : Nat} {st : Stop} (h : s.pending = pq) (hst : st.Queued pq) :
    (stopInstr s k ilen st).pending = pq := by
  induction st generalizing s with
  | exc code tea => simpa [stopInstr] using h
  | mc code access va line => simpa [stopInstr] using h
  | wait s1 => exact hst
  | hold s1 => exact hst
  | after s1 st ih => exact ih hst.1 hst.2

theorem fetchInstr_yields {s : State} {p k n : Nat} (h : s.pending = pq) : Yields pq (·.pending = pq) (fetchInstr s p k n) := by
  unfold fetchInstr
  refine Yields.bind (translateOp_yields h) ?_
  rintro ⟨ps, s1⟩ h1
  refine Yields.foldlM (fun s x h => ?_) ps h1
  dsimp only
  split
  · split
    · simpa using h
    · split
      · exact trivial
      · split
        · exact h
        · simpa using h
  · exact trivial
  · exact h

@[simp] theorem advance_pending (s : State) (k n : Nat) : (advance s k n).pending = s.pending := rfl

@[simp] theorem clearRp_pending (s : State) (k : Nat) : (clearRp s k).pending = s.pending := by
  simp [clearRp]

theorem stopBody_pending {s : State} {k ilen : Nat} {st : Stop} (h : s.pending = pq) (hst : st.Queued pq) :
    (stopBody s k ilen st).pending = pq := by
  induction st generalizing s with
  | exc code tea => exact stopInstr_pending h hst
  | mc code access va line => exact stopInstr_pending h hst
  | wait s1 => simpa [stopBody] using hst
  | hold s1 => exact hst
  | after s1 st ih => exact ih hst.1 hst.2

theorem instr_leads {s : State} {p n : Nat} {priv : Bool} {body : State → Nat → Except Stop Done} (h : s.pending = pq)
    (hb : ∀ s k, s.pending = pq → Yields pq (·.s.pending = pq) (body s k)) :
    Leads pq (instr s p n priv body) := by
  unfold instr
  dsimp only
  split
  · exact h
  next k _ =>
    split
    next e he => exact stopInstr_pending h (Yields.error he (fetchInstr_yields h))
    next s1 hf =>
      have h1 : s1.pending = pq := (Yields.ok hf (fetchInstr_yields h) :)
      split
      · exact stopInstr_pending h1 trivial
      · split
        next e he => exact stopBody_pending h1 (Yields.error he (hb s1 k h1))
        next d hd =>
          have h2 : (if d.moved = true then d.s else advance d.s k n).pending = pq := by simpa using (Yields.ok hd (hb s1 k h1) :)
          split
          · simpa using h2
          · exact h2

theorem regInstr_leads {s : State} {p n : Nat} {priv : Bool} {f : Ctx → RegRes} (h : s.pending = pq) : Leads pq (regInstr s p n priv f) := by
  unfold regInstr
  refine instr_leads h ?_
  intro s1 k h1
  dsimp only
  split
  · exact h1
  · exact h1
  · exact trivial

theorem keepRp_queued {st : Stop} (h : st.Queued pq) : st.keepRp.Queued pq := by
  induction st with
  | after s st ih => exact ⟨h.1, ih h.2⟩
  | _ => exact h

theorem loadInstr_leads {s : State} {p n : Nat} {ea : Ctx → Option (Word × Option Word)} {size : Nat} {b : BitVec 5} {aligned : Nat}
    {f : Ctx → List Byte → RegRes} {keys : optParam Bool false} (h : s.pending = pq) :
    Leads pq (loadInstr s p n ea size b aligned f keys) := by
  unfold loadInstr
  refine instr_leads h ?_
  intro s1 k h1
  dsimp only
  split
  · exact trivial
  · split
    · exact trivial
    · refine Yields.bind (loadOp_yields h1) ?_
      rintro ⟨x, y⟩ h2
      split
      · exact h2
      · exact h2
      · exact trivial

theorem withEffects_yields {s : State} {p k n : Nat} {q : Bool} {act : State → Except Stop (State × List Effect)} (h : s.pending = pq)
    (ha : ∀ s, s.pending = pq → Yields pq (·.1.pending = pq) (act s)) :
    Yields pq (·.s.pending = pq) (withEffects s p k n q act) := by
  unfold withEffects
  dsimp only
  split
  · exact h
  · split
    · simpa using h
    · split
      · split
        · refine Yields.bind (ha s h) ?_
          rintro ⟨s1, es⟩ h1
          simpa using h1
        · simpa using h
      · have hc : (commitNow s p k [] false).pending = pq := by simpa using h
        split
        next e he => exact ⟨hc, Yields.error he (ha _ hc)⟩
        next s1 es he => simpa using (Yields.ok he (ha _ hc) :)

theorem storeInstr_leads {s : State} {p n : Nat} {ea : Ctx → Option (Word × Option Word)} {b : BitVec 5} {aligned : Nat}
    {d : Ctx → Except (Nat × Nat) (List Byte × Ctx)} {keys : optParam Bool false} (h : s.pending = pq) :
    Leads pq (storeInstr s p n ea b aligned d keys) := by
  unfold storeInstr
  refine instr_leads h ?_
  intro s1 k h1
  dsimp only
  split
  · exact trivial
  · split
    · exact trivial
    · split
      · split
        next h24 =>
          exact Yields.error h24 (translateOp_yields h1)
        · exact trivial
      · refine Yields.bind (P := (fun x => x.1.pending = pq)) ?_ ?_
        · refine Yields.bind (storeOp_yields h1) ?_
          rintro ⟨x, y⟩ h2
          exact h2
        · rintro ⟨x, y⟩ h2
          split
          · exact h2
          · refine withEffects_yields h1 ?_
            intro s2 h3
            exact Yields.bind (storeOp_yields h3) fun _ h4 => h4

/-! ## The host port -/

@[simp] theorem writeBase_pending (s : State) (n k : Nat) (cpl : Bool) (v : Nat) : (writeBase s n k cpl v).pending = s.pending := by
  simp [writeBase]

@[simp] theorem stopFetch_pending (s : State) (n : Nat) : (stopFetch s n).pending = s.pending := rfl

@[simp] theorem writeRqCtl_pending (s : State) (n k v : Nat) : (writeRqCtl s n k v).pending = s.pending := by
  simp [writeRqCtl]

@[simp] theorem writeCqCtl_pending (s : State) (n k v : Nat) : (writeCqCtl s n k v).pending = s.pending := by
  simp [writeCqCtl]

@[simp] theorem ringRqDb_pending (s : State) (n k v : Nat) : (ringRqDb s n k v).pending = s.pending := by
  simp [ringRqDb]

@[simp] theorem ringCqDb_pending (s : State) (n k v : Nat) : (ringCqDb s n k v).pending = s.pending := by
  simp [ringCqDb]

@[simp] theorem writeVec_pending (s : State) (n v : Nat) : (writeVec s n v).pending = s.pending := by
  simp [writeVec]

@[simp] theorem regWrite_pending (s : State) (n : Nat) (r : Reg) (o : Nat) (d : List Byte) : (regWrite s n r o d).pending = s.pending := by
  unfold regWrite
  split <;> simp

@[simp] theorem bar0Write_pending (s : State) (n off : Nat) (d : List Byte) : (bar0Write s n off d).pending = s.pending := by
  unfold bar0Write
  dsimp only
  (repeat' split) <;> simp

@[simp] theorem bar2Write_pending (s : State) (n off : Nat) (d : List Byte) : (bar2Write s n off d).pending = s.pending := by
  unfold bar2Write
  (repeat' split) <;> simp

@[simp] theorem sendPending_pending (s : State) (n v : Nat) : (sendPending s n v).pending = s.pending := by
  simp [sendPending]

@[simp] theorem sendAllPending_pending (s : State) (n : Nat) : (sendAllPending s n).pending = s.pending := by
  simp [sendAllPending]

@[simp] theorem msixDword_pending (s : State) (n off v : Nat) : (msixDword s n off v).pending = s.pending := by
  simp [msixDword]

@[simp] theorem bar4Write_pending (s : State) (n off : Nat) (d : List Byte) : (bar4Write s n off d).pending = s.pending := by
  simp [bar4Write]

@[simp] theorem unsupportedRequest_pending (s : State) (n : Nat) : (unsupportedRequest s n).pending = s.pending := rfl

@[simp] theorem hostRegWrite_pending (s : State) (n bar off : Nat) (d : List Byte) : (hostRegWrite s n bar off d).pending = s.pending := by
  unfold hostRegWrite
  dsimp only
  (repeat' split) <;> simp

@[simp] theorem hostRegRead_pending (s : State) (n bar off l : Nat) : (hostRegRead s n bar off l).pending = s.pending := by
  unfold hostRegRead
  dsimp only
  (repeat' split) <;> simp

theorem execReqRingDoorbell_leads {fn k off : Nat} {data : List Byte} {s : State} (h : s.pending = pq) :
    Leads pq (execReqRingDoorbell fn k off data s) := by
  simp [execReqRingDoorbell, h]

theorem execCplRingDoorbell_leads {fn k off : Nat} {data : List Byte} {s : State} (h : s.pending = pq) :
    Leads pq (execCplRingDoorbell fn k off data s) := by
  simp [execCplRingDoorbell, h]

theorem execRingBaseWrite_leads {fn k : Nat} {cpl : Bool} {off : Nat} {data : List Byte} {s : State} (h : s.pending = pq) :
    Leads pq (execRingBaseWrite fn k cpl off data s) := by
  simp [execRingBaseWrite, h]

theorem execReqRingCtlWrite_leads {fn k off : Nat} {data : List Byte} {s : State} (h : s.pending = pq) :
    Leads pq (execReqRingCtlWrite fn k off data s) := by
  simp [execReqRingCtlWrite, h]

theorem execCplRingCtlWrite_leads {fn k off : Nat} {data : List Byte} {s : State} (h : s.pending = pq) :
    Leads pq (execCplRingCtlWrite fn k off data s) := by
  simp [execCplRingCtlWrite, h]

theorem execKeyStagingWrite_leads {fn off : Nat} {data : List Byte} {s : State} (h : s.pending = pq) :
    Leads pq (execKeyStagingWrite fn off data s) := by
  simp [execKeyStagingWrite, h]

theorem execMsixVectorUnmask_leads {fn vec : Nat} {s : State} (h : s.pending = pq) : Leads pq (execMsixVectorUnmask fn vec s) := by
  simp [execMsixVectorUnmask, h]

theorem execRegisterWrite_leads {fn bar off : Nat} {acc : RegAccess} {s : State} (h : s.pending = pq) :
    Leads pq (execRegisterWrite fn bar off acc s) := by
  unfold execRegisterWrite
  split <;> simp [h]

theorem execCoalTimerExpire_leads {fn k : Nat} {s : State} (h : s.pending = pq) : Leads pq (execCoalTimerExpire fn k s) := by
  unfold execCoalTimerExpire
  dsimp only
  (repeat' split) <;> simp [h]

@[simp] theorem resetFn_pending (s : State) (n : Nat) (busy : Bool) : (resetFn s n busy).pending = s.pending := rfl

@[simp] theorem startFlr_pending (s : State) (n : Nat) : (startFlr s n).pending = s.pending := by
  simp [startFlr]

theorem execVfFlr_leads {fn : Nat} {s : State} (h : s.pending = pq) : Leads pq (execVfFlr fn s) := by
  simp [execVfFlr, h]

theorem execPfFlr_leads {s : State} (h : s.pending = pq) : Leads pq (execPfFlr s) := by
  simp [execPfFlr, h]

@[simp] theorem resetVfs_pending (s : State) : (resetVfs s).pending = s.pending := rfl
@[simp] theorem clearVfEnable_pending (s : State) : (clearVfEnable s).pending = s.pending := rfl

theorem execVfEnableClear_leads {s : State} (h : s.pending = pq) : Leads pq (execVfEnableClear s) := by
  simp [execVfEnableClear, h]

theorem execHostPortReset_leads {s : State} (h : s.pending = pq) : Leads pq (execHostPortReset s) := by
  unfold execHostPortReset
  dsimp only
  (repeat' split) <;> simp [h]

@[simp] theorem setBme_pending (s : State) (n : Nat) : (setBme s n).pending = s.pending := by
  simp [setBme]

theorem execBusMasterEnableSet_leads {fn : Nat} {s : State} (h : s.pending = pq) : Leads pq (execBusMasterEnableSet fn s) := by
  simp [execBusMasterEnableSet, h]

theorem execPf0D3hotEnter_leads {s : State} (h : s.pending = pq) : Leads pq (execPf0D3hotEnter s) := by
  simp [execPf0D3hotEnter, h]

theorem execPf0D0Return_leads {s : State} (h : s.pending = pq) : Leads pq (execPf0D0Return s) := by
  unfold execPf0D0Return
  dsimp only
  (repeat' split) <;> simp [h]

@[simp] theorem doeAbort_pending (s : State) : (doeAbort s).pending = s.pending := rfl

theorem execDoeAbort_leads {s : State} (h : s.pending = pq) : Leads pq (execDoeAbort s) := by
  simp [execDoeAbort, h]

@[simp] theorem cfgWrite_pending (s : State) (n : Nat) (r : CfgReg) (v : BitVec 32) : (cfgWrite s n r v).pending = s.pending := by
  unfold cfgWrite
  (repeat' split) <;> simp

theorem execPcieConfigRequest_leads {fn : Nat} {reg : CfgReg} {write : Bool} {data : BitVec 32} {s : State} (h : s.pending = pq) :
    Leads pq (execPcieConfigRequest fn reg write data s) := by
  unfold execPcieConfigRequest
  dsimp only
  (repeat' split) <;> simp [h]

/-! ## Request entries -/

@[simp] theorem readEntry_pending (s : State) (n k : Nat) : (readEntry s n k).pending = s.pending := rfl

theorem execRequestFetchStart_leads {fn k : Nat} {s : State} (h : s.pending = pq) : Leads pq (execRequestFetchStart fn k s) := by
  unfold execRequestFetchStart
  dsimp only
  (repeat' split) <;> simp [h]

@[simp] theorem takeEntry_pending (s : State) (n k : Nat) (e : List Byte) : (takeEntry s n k e).2.pending = s.pending := by
  simp [takeEntry]

@[simp] theorem admitMirrored_pending (s : State) (n seq : Nat) : (admitMirrored s n seq).pending = s.pending := by
  unfold admitMirrored
  (repeat' split) <;> simp

@[simp] theorem poisonIn_pending (s : State) (n : Nat) : (poisonIn s n).pending = s.pending := by
  simp [poisonIn]

theorem execRequestEntryArrive_leads {fn k : Nat} {entry : List Byte} {poisoned : Bool} {s : State} (h : s.pending = pq) :
    Leads pq (execRequestEntryArrive fn k entry poisoned s) := by
  unfold execRequestEntryArrive
  dsimp only
  (repeat' split) <;> simp [h]

@[simp] theorem readFailed_pending (s : State) (n : Nat) : (readFailed s n).pending = s.pending := rfl

@[simp] theorem answer_pending (s : State) (r : Request) (st : Status) (detail : Nat) : (answer s r st detail).pending = s.pending :=
  pending_of_outside (answer_outside s r st detail)

@[simp] theorem done_pending (s : State) (r : Request) (count : Nat) (result : List Byte) : (done s r count result).pending = s.pending := by
  simp [done]

@[simp] theorem refuse_pending (s : State) (r : Request) (inst detail : Nat) : (refuse s r inst detail).pending = s.pending := by
  simp [refuse]

@[simp] theorem wake_pending (s : State) : (wake s).pending = s.pending := by
  simp [wake]

/-! ## The stores of an instance -/

@[simp] theorem hubUse_pending (s : State) (i r n : Nat) : (hubUse s i r n).pending = s.pending :=
  pending_of_outside (hubUse_outside s i r n)

@[simp] theorem instWrite_pending (s : State) (i r : Nat) (d : List Byte) : (instWrite s i r d).pending = s.pending :=
  pending_of_outside (instWrite_outside s i r d)

@[simp] theorem logPoison_pending (s : State) (i l detail ref : Nat) : (logPoison s i l detail ref).pending = s.pending :=
  pending_of_outside (logPoison_outside s i l detail ref)

/-! ## Accelerator jobs -/

@[simp] theorem State.setAccel_pending (s : State) (cz : Bool) (a : Accel) : (State.setAccel s cz a).pending = s.pending :=
  pending_of_outside (State.setAccel_outside s cz a)

@[simp] theorem State.putJob_pending (s : State) (cz : Bool) (j : Job) : (State.putJob s cz j).pending = s.pending :=
  pending_of_outside (State.putJob_outside s cz j)

@[simp] theorem addJob_pending (s : State) (cz : Bool) (j : Job) : (addJob s cz j).pending = s.pending := by
  simp [addJob]

@[simp] theorem noteKey_pending (s : State) (i n : Nat) (x : Slot) : (noteKey s i n x).pending = s.pending :=
  pending_of_outside (noteKey_outside s i n x)

@[simp] theorem endJob_pending (s : State) (cz : Bool) (j : Job) (st detail count : Nat) (result : List Byte) :
    (endJob s cz j st detail count result).pending = s.pending :=
  pending_of_outside (endJob_outside s cz j st detail count result)

@[simp] theorem abortQueued_pending (s : State) (cz : Bool) (i : Nat) : (abortQueued s cz i).pending = s.pending := by
  simp [abortQueued]

@[simp] theorem writeReal_pending (s : State) (i : Nat) (l : List (Nat × Nat)) (d : List Byte) : (writeReal s i l d).pending = s.pending := by
  induction l generalizing s d with
  | nil => rfl
  | cons x l ih => exact (ih _ _).trans (instWrite_pending _ _ _ _)

@[simp] theorem jobWrite_pending (s : State) (j : Job) (d : List Byte) : (jobWrite s j d).pending = s.pending := by
  unfold jobWrite
  split <;> simp

@[simp] theorem jobZones_pending (s : State) (j : Job) : (jobZones s j).pending = s.pending := by
  simp [jobZones]

@[simp] theorem startJob_pending (s : State) (cz : Bool) (j : Job) (e : Nat) : (startJob s cz j e).pending = s.pending := by
  simp [startJob]

@[simp] theorem offerJob_pending (s : State) (r : Request) (cz : Bool) (j : Job) : (offerJob s r cz j).pending = s.pending := by
  unfold offerJob
  dsimp only
  (repeat' split) <;> simp

@[simp] theorem sourceFailed_pending (s : State) (x : Request) : (sourceFailed s x).pending = s.pending := by
  unfold sourceFailed
  dsimp only
  (repeat' split) <;> simp

theorem execHostReadFailed_leads {r : HostRead} {s : State} (h : s.pending = pq) : Leads pq (execHostReadFailed r s) := by
  unfold execHostReadFailed
  dsimp only
  split
  · exact h
  · split
    · split
      · exact h
      · split
        · simpa using h
        · split
          · simpa using h
          · simpa using h
    · split
      · exact h
      · split
        · exact h
        · split
          · simpa using h
          · simpa using h
    · split
      · exact h
      · split
        next h17 =>
          split
          · simpa using (Yields.ok h17 (translate_yields h) :)
          · split
            · simpa using (Yields.ok h17 (translate_yields h) :)
            · simpa using (Yields.ok h17 (translate_yields h) :)
        · exact h

theorem execStagingSpaceFree_leads {fn : Nat} {seq : BitVec 32} {s : State} (h : s.pending = pq) : Leads pq (execStagingSpaceFree fn seq s) := by
  unfold execStagingSpaceFree
  dsimp only
  (repeat' split) <;> simp [h]

/-! ## The channel subsystem -/

@[simp] theorem endWith_pending (after : SubState) (s : State) (i n : Nat) (st : Status) (detail devstat : Nat) :
    (endWith after s i n st detail devstat).pending = s.pending := by
  simp [endWith]

@[simp] theorem endSub_pending (s : State) (i n : Nat) (st : Status) (detail devstat : Nat) :
    (endSub s i n st detail devstat).pending = s.pending :=
  pending_of_outside (endSub_outside s i n st detail devstat)

@[simp] theorem writeStatus_pending (s : State) (i n : Nat) : (writeStatus s i n).pending = s.pending := by
  simp [writeStatus]

@[simp] theorem sendPieces_pending (s : State) (i n : Nat) (c : List Byte) (ps : List Piece) : (sendPieces s i n c ps).pending = s.pending := rfl

@[simp] theorem endPoisoned_pending (s : State) (i n l : Nat) : (endPoisoned s i n l).pending = s.pending :=
  pending_of_outside (endPoisoned_outside s i n l)

@[simp] theorem endError_pending (s : State) (i n : Nat) (e : Nat × Nat × Nat) : (endError s i n e).pending = s.pending :=
  pending_of_outside (endError_outside s i n e)

@[simp] theorem losePath_pending (s : State) (i n : Nat) : (losePath s i n).pending = s.pending :=
  pending_of_outside (losePath_outside s i n)

@[simp] theorem finishCce_pending (s : State) (i n : Nat) : (finishCce s i n).pending = s.pending :=
  pending_of_outside (finishCce_outside s i n)

@[simp] theorem endProgram_pending (s : State) (i n : Nat) : (endProgram s i n).pending = s.pending :=
  pending_of_outside (endProgram_outside s i n)

@[simp] theorem runSub_pending (s : State) (i n : Nat) : (runSub s i n).pending = s.pending :=
  pending_of_outside (runSub_outside s i n)

@[simp] theorem settleCce_pending (s : State) (i n : Nat) : (settleCce s i n).pending = s.pending := by
  unfold settleCce
  dsimp only
  (repeat' split) <;> simp

@[simp] theorem validate_pending (s : State) (i n : Nat) : (validate s i n).pending = s.pending := by
  unfold validate
  dsimp only
  (repeat' split) <;> simp

@[simp] theorem resumeOp_pending (s : State) (i n : Nat) : (resumeOp s i n).pending = s.pending := by
  simp [resumeOp]

@[simp] theorem resumeOps_pending (s : State) : (resumeOps s).pending = s.pending := by
  simp [resumeOps]

theorem execCheStartOperation_leads {che i sub : Nat} {s : State} (h : s.pending = pq) : Leads pq (execCheStartOperation che i sub s) := by
  unfold execCheStartOperation
  dsimp only
  (repeat' split) <;> simp [h]

@[simp] theorem loseDevice_pending (s : State) (dev path : Nat) : (loseDevice s dev path).pending = s.pending := by
  simp [loseDevice]

theorem execDeviceCompletion_leads {i sub : Nat} {c : DevCompletion} {s : State} (h : s.pending = pq) :
    Leads pq (execDeviceCompletion i sub c s) := by
  unfold execDeviceCompletion
  dsimp only
  (repeat' split) <;> simp [h]

theorem execCommandTimeout_leads {i sub : Nat} {s : State} (h : s.pending = pq) : Leads pq (execCommandTimeout i sub s) := by
  unfold execCommandTimeout
  dsimp only
  (repeat' split) <;> simp [h]

@[simp] theorem loseLink_pending (s : State) (path : Nat) : (loseLink s path).pending = s.pending :=
  pending_of_outside (loseLink_outside s path)

theorem execPathLost_leads {path : Nat} {dev : Option Nat} {s : State} (h : s.pending = pq) : Leads pq (execPathLost path dev s) := by
  unfold execPathLost
  dsimp only
  (repeat' split) <;> simp [h]

theorem execPathReissue_leads {i sub path : Nat} {s : State} (h : s.pending = pq) : Leads pq (execPathReissue i sub path s) := by
  unfold execPathReissue
  dsimp only
  (repeat' split) <;> simp [h]

theorem execPathWaitExpire_leads {i sub : Nat} {s : State} (h : s.pending = pq) : Leads pq (execPathWaitExpire i sub s) := by
  unfold execPathWaitExpire
  dsimp only
  (repeat' split) <;> simp [h]

theorem execPathReturn_leads {path : Nat} {dev : Option Nat} {identityOk : Bool} {s : State} (h : s.pending = pq) :
    Leads pq (execPathReturn path dev identityOk s) := by
  unfold execPathReturn
  dsimp only
  (repeat' split) <;> simp [h]

theorem execEndEntryCommit_leads {i sub : Nat} {s : State} (h : s.pending = pq) : Leads pq (execEndEntryCommit i sub s) := by
  unfold execEndEntryCommit
  dsimp only
  (repeat' split) <;> simp [h]

@[simp] theorem endWaitint_pending (s : State) (i n : Nat) : (endWaitint s i n).pending = s.pending := by
  simp [endWaitint]

theorem execAdapterMsix_leads {dev vec : Nat} {s : State} (h : s.pending = pq) : Leads pq (execAdapterMsix dev vec s) := by
  unfold execAdapterMsix
  dsimp only
  (repeat' split) <;> simp [h]

theorem execWaitintTimeout_leads {i sub : Nat} {s : State} (h : s.pending = pq) : Leads pq (execWaitintTimeout i sub s) := by
  unfold execWaitintTimeout
  dsimp only
  (repeat' split) <;> simp [h]

theorem execAdapterDma_leads {dev : Nat} {write : Bool} {addr len : Nat} {data : List Byte} {s : State} (h : s.pending = pq) :
    Leads pq (execAdapterDma dev write addr len data s) := by
  unfold execAdapterDma
  dsimp only
  (repeat' split) <;> simp [h]

/-! ## The cipher engines -/

theorem cipherRequest_leads {s : State} {n q op : Nat} (h : s.pending = pq) : Leads pq (cipherRequest s n q op) := by
  unfold cipherRequest
  dsimp only
  (repeat' split) <;> simp [h]

@[simp] theorem keyLoad_pending (s : State) (i : Nat) (e data : List Byte) (own : Nat) : (keyLoad s i e data own).s.pending = s.pending := by
  unfold keyLoad
  dsimp only
  (repeat' split) <;> simp

@[simp] theorem keyWrapOp_pending (s : State) (i : Nat) (e : List Byte) : (keyWrapOp s i e).s.pending = s.pending := by
  unfold keyWrapOp
  dsimp only
  (repeat' split) <;> simp

@[simp] theorem keyRetire_pending (s : State) (i : Nat) (e : List Byte) (own : Nat) : (keyRetire s i e own).s.pending = s.pending := by
  unfold keyRetire
  dsimp only
  (repeat' split) <;> simp

@[simp] theorem keyLimit_pending (s : State) (i : Nat) (e : List Byte) : (keyLimit s i e).s.pending = s.pending := by
  unfold keyLimit
  dsimp only
  (repeat' split) <;> simp

@[simp] theorem keyOp_pending (s : State) (i : Nat) (e data : List Byte) (own : Nat) : (keyOp s i e data own).s.pending = s.pending := by
  unfold keyOp
  split <;> simp

@[simp] theorem keyRefused_pending (s : State) (i seq : Nat) (st : Status) : (keyRefused s i seq st).pending = s.pending := by
  simp [keyRefused]

theorem keyRequest_leads {s : State} {n q op : Nat} {data : List Byte} (h : s.pending = pq) : Leads pq (keyRequest s n q op data) := by
  unfold keyRequest
  dsimp only
  (repeat' split) <;> simp [h]

theorem execCipherJobStart_leads {e : Nat} {s : State} (h : s.pending = pq) : Leads pq (execCipherJobStart e s) := by
  unfold execCipherJobStart
  dsimp only
  (repeat' split) <;> simp [h]

@[simp] theorem partialOut_pending (s : State) (j : Job) (x : Slot) (src fixed : List Byte) (good : Nat) :
    (partialOut s j x src fixed good).pending = s.pending := by
  simp [partialOut]

theorem execCipherJobDone_leads {e : Nat} {src aad : List Byte} {fault : Option JobFault} {s : State} (h : s.pending = pq) :
    Leads pq (execCipherJobDone e src aad fault s) := by
  unfold execCipherJobDone
  dsimp only
  (repeat' split) <;> simp [h]

/-! ## The compression engines -/

theorem compressRequest_leads {s : State} {n q op : Nat} (h : s.pending = pq) : Leads pq (compressRequest s n q op) := by
  unfold compressRequest
  dsimp only
  (repeat' split) <;> simp [h]

theorem execCompressionJobStart_leads {e : Nat} {s : State} (h : s.pending = pq) : Leads pq (execCompressionJobStart e s) := by
  unfold execCompressionJobStart
  dsimp only
  (repeat' split) <;> simp [h]

@[simp] theorem undefinedDst_pending (s : State) (j : Job) : (undefinedDst s j).pending = s.pending := by
  simp [undefinedDst]

@[simp] theorem compressEnd_pending (s : State) (j : Job) (src : List Byte) : (compressEnd s j src).pending = s.pending := by
  simp [compressEnd]

@[simp] theorem decompressEnd_pending (s : State) (j : Job) (src : List Byte) : (decompressEnd s j src).pending = s.pending := by
  unfold decompressEnd
  split <;> simp

@[simp] theorem tagFailEnd_pending (s : State) (j : Job) (src : List Byte) (good : Nat) : (tagFailEnd s j src good).pending = s.pending := by
  unfold tagFailEnd
  (repeat' split) <;> simp

theorem execCompressionJobDone_leads {e : Nat} {src : List Byte} {fault : Option JobFault} {s : State} (h : s.pending = pq) :
    Leads pq (execCompressionJobDone e src fault s) := by
  unfold execCompressionJobDone
  dsimp only
  (repeat' split) <;> simp [h]

theorem callPieces_yields {s : State} {p k fuel n : Nat} {acc : Access} {va : Word} (h : s.pending = pq) :
    Yields pq (·.2.pending = pq) (callPieces s p k acc fuel va n) := by
  induction fuel generalizing s va n with
  | zero => exact h
  | succ fuel ih =>
    unfold callPieces
    dsimp only
    split
    · exact h
    · refine Yields.bind (translate_yields h) ?_
      rintro ⟨ph, s1⟩ h1
      dsimp only
      split
      · refine Yields.bind (ih h1) ?_
        rintro ⟨r, s2⟩ h2
        exact h2
      · exact trivial

theorem callOperand_yields {s : State} {p k : Nat} {acc : Access} {va : Word} {n : Nat} (h : s.pending = pq) :
    Yields pq (·.2.pending = pq) (callOperand s p k acc va n) :=
  callPieces_yields h

theorem callEffects_yields {s : State} {p k : Nat} {f : FA} {cz : Bool} (h : s.pending = pq) :
    Yields pq (·.1.pending = pq) (callEffects s p k f cz) := by
  unfold callEffects
  dsimp only
  refine Yields.bind (loadOp_yields h) ?_
  rintro ⟨e, s1⟩ h1
  refine Yields.bind (callOperand_yields h1) ?_
  rintro ⟨src, s2⟩ h2
  refine Yields.bind (callOperand_yields h2) ?_
  rintro ⟨aad, s3⟩ h3
  refine Yields.bind (callOperand_yields h3) ?_
  rintro ⟨dst, s4⟩ h4
  refine Yields.bind (callOperand_yields h4) ?_
  rintro ⟨area, s5⟩ h5
  dsimp only
  have now {c : Prop} [Decidable c] {ps : List Nat} {t : State} {l : List Effect} (ht : t.pending = pq) :
      Yields pq (fun x : State × List Effect => x.1.pending = pq) (if c then .error (.wait (askCommit s ps)) else .ok (t, l)) := by
    split
    · simpa using h
    · exact ht
  split
  · exact now h5
  · split
    · exact now h5
    · split
      · exact now h5
      · split
        · exact now h5
        · exact h5

theorem callInstr_leads {p : Nat} {f : FA} {cz : Bool} {s : State} (h : s.pending = pq) : Leads pq (callInstr p f cz s) := by
  unfold callInstr
  refine instr_leads h ?_
  intro s1 k h1
  split
  · exact trivial
  · split
    · exact trivial
    · refine withEffects_yields h1 ?_
      intro s2 h2
      exact callEffects_yields h2

/-! ## Integer, logical and branch instructions -/

theorem logicRR_leads {p : Nat} {f : FA} {s : State} {op : Word → Word → Word} (h : s.pending = pq) : Leads pq (logicRR p f s op) :=
  regInstr_leads h

theorem unaryG_leads {p : Nat} {f : FA} {s : State} {op : Word → Word} (h : s.pending = pq) : Leads pq (unaryG p f s op) :=
  regInstr_leads h

theorem logicRI_leads {p : Nat} {f : FC} {s : State} {op : Word → Word → Word} (h : s.pending = pq) : Leads pq (logicRI p f s op) :=
  regInstr_leads h

theorem shiftRI_leads {p : Nat} {f : FC} {s : State} {op : Word → Nat → Word} (h : s.pending = pq) : Leads pq (shiftRI p f s op) :=
  regInstr_leads h

/-! ## Binary floating point -/

theorem fpInstr_leads {p : Nat} {f : FA} {s : State} {ok : Bool} {op : Fmt → Nat → Bool → FVal → FVal → FVal → Nat × Nat}
    {micro : Option Byte} (h : s.pending = pq) :
    Leads pq (fpInstr p f s ok op micro) :=
  regInstr_leads h

theorem signInstr_leads {p : Nat} {f : FA} {s : State} {op : Nat → Nat → Nat} (h : s.pending = pq) : Leads pq (signInstr p f s op) :=
  regInstr_leads h

/-! ## Packed decimal -/

theorem decInstr_leads {p : Nat} {f : FA} {s : State} {mask : BitVec 9} {micro : Option Byte} {ok : Bool}
    {op : Ctx → Nat × Bool → Nat × Bool → RegRes} (h : s.pending = pq) :
    Leads pq (decInstr p f s mask micro ok op) :=
  regInstr_leads h

theorem addSubP_leads {inv : Bool} {p : Nat} {f : FA} {s : State} (h : s.pending = pq) : Leads pq (addSubP inv p f s) := by
  unfold addSubP
  refine instr_leads h ?_
  intro s1 k h1
  dsimp only
  split
  · exact trivial
  · split
    · split
      · exact h1
      · exact h1
      · exact trivial
    · exact trivial

theorem mapError_yields {c : Prop} [Decidable c] {x : Except Stop Done} (h : Yields pq (·.s.pending = pq) x) :
    Yields pq (fun d : Done => d.s.pending = pq) (if c then x.mapError Stop.keepRp else x) := by
  split
  · cases x with
    | ok d => exact h
    | error st => exact keepRp_queued h
  · exact h

theorem execEditp_leads {p : Nat} {f : FE} {s : State} (h : s.pending = pq) : Leads pq (execEditp p f s) := by
  unfold execEditp
  refine instr_leads h fun s k h => ?_
  dsimp only
  split
  · exact trivial
  · refine Yields.ite_bind (P := fun x : List Byte × State => x.2.pending = pq) h (loadOp_yields h) ?_
    rintro ⟨pat, s1⟩ h1
    refine Yields.bind (translateOp_yields h1) ?_
    rintro ⟨_, s2⟩ h2
    dsimp only
    split
    · have run {t : State} {a : Word} {out : List Byte} {c : State × List Effect → Ctx} (ht : t.pending = pq) : Yields pq
        (fun x : State × List Effect => x.1.pending = pq)
          (storeOp t p k a out >>= fun x : State × List Effect => .ok (x.1.setCtx k (c x), x.2)) := by
        refine Yields.bind (storeOp_yields ht) ?_
        rintro ⟨s3, es⟩ h3
        exact h3
      refine mapError_yields (Yields.bind (run (t := s2) h2) ?_)
      rintro ⟨s3, es⟩ h3
      dsimp only
      split
      · exact h3
      · exact withEffects_yields h2 fun t ht => run ht
    · exact trivial

/-! ## Loads and stores -/

theorem loadG_leads {p : Nat} {f : FB} {s : State} {n : Nat} {signed : Bool} (h : s.pending = pq) : Leads pq (loadG p f s n signed) :=
  loadInstr_leads h

theorem storeG_leads {p : Nat} {f : FB} {s : State} {n : Nat} (h : s.pending = pq) : Leads pq (storeG p f s n) :=
  storeInstr_leads h

theorem casInstr_leads {s : State} {p n : Nat} {ea : Ctx → Option (Word × Option Word)} {r1 b : BitVec 5} (h : s.pending = pq) :
    Leads pq (casInstr s p n ea r1 b) := by
  unfold casInstr
  refine instr_leads h ?_
  intro s1 k h1
  dsimp only
  split
  · exact trivial
  · split
    · exact trivial
    · refine Yields.bind (P := (fun x : State × _ => x.1.pending = pq)) ?_ ?_
      · refine Yields.bind (translateOp_yields h1) ?_
        rintro ⟨x, y⟩ h2
        refine Yields.bind (loadPieces_yields h2) ?_
        rintro ⟨x1, y1⟩ h3
        split
        · refine Yields.bind (P := (fun x : State × _ => x.1.pending = pq)) ?_ ?_
          · refine wholeStore_yields h3 ?_
            exact storePieces_yields h3
          · rintro ⟨x2, y2⟩ h4
            exact h4
        · exact h3
      · rintro ⟨x, y⟩ h2
        split
        · exact h2
        · refine withEffects_yields h1 ?_
          intro s2 h3
          refine Yields.bind (translateOp_yields h3) ?_
          rintro ⟨x1, y1⟩ h4
          refine Yields.bind (loadPieces_yields h4) ?_
          rintro ⟨x2, y2⟩ h5
          split
          · refine Yields.bind (P := (fun x : State × _ => x.1.pending = pq)) ?_ ?_
            · refine wholeStore_yields h5 ?_
              exact storePieces_yields h5
            · rintro ⟨x3, y3⟩ h6
              exact h6
          · exact h5

theorem execLdx_leads {p : Nat} {f : FD} {s : State} (h : s.pending = pq) : Leads pq (execLdx p f s) := by
  unfold execLdx
  split <;> exact loadInstr_leads h

theorem execStx_leads {p : Nat} {f : FD} {s : State} (h : s.pending = pq) : Leads pq (execStx p f s) := by
  unfold execStx
  split <;> exact storeInstr_leads h

theorem loadF_leads {p : Nat} {f : FB} {s : State} {n : Nat} (h : s.pending = pq) : Leads pq (loadF p f s n) :=
  loadInstr_leads h

theorem storeF_leads {p : Nat} {f : FB} {s : State} {n : Nat} (h : s.pending = pq) : Leads pq (storeF p f s n) :=
  storeInstr_leads h

theorem execFldx_leads {p : Nat} {f : FD} {s : State} (h : s.pending = pq) : Leads pq (execFldx p f s) := by
  unfold execFldx
  split <;> exact loadInstr_leads h

theorem execFstx_leads {p : Nat} {f : FD} {s : State} (h : s.pending = pq) : Leads pq (execFstx p f s) := by
  unfold execFstx
  split <;> exact storeInstr_leads h

/-! ## Block-repeat instructions -/

theorem elemRun_yields {e : Elem} {s : State} {p k : Nat} (h : s.pending = pq)
    (he : ∀ s b, s.pending = pq → Yields pq (·.1.pending = pq) (e s b)) :
    Yields pq (·.1.pending = pq) (elemRun e s p k) := by
  unfold elemRun
  dsimp only
  refine Yields.bind (he s _ h) ?_
  rintro ⟨s1, es, fin⟩ h1
  dsimp only
  split
  · exact h1
  · split
    · exact h
    · split
      · simpa using h
      · split
        · split
          · simpa using h1
          · simpa using h
        · have hc : (commitNow s p k [] false).pending = pq := by simpa using h
          split
          next hx => exact ⟨hc, Yields.error hx (he _ _ hc)⟩
          next hx => simpa using (Yields.ok hx (he _ _ hc) :)

theorem elems_queued {e : Elem} {s : State} {p k n : Nat} (h : s.pending = pq)
    (he : ∀ s b, s.pending = pq → Yields pq (·.1.pending = pq) (e s b)) : (elems e p k n s).Queued pq := by
  induction n generalizing s with
  | zero => exact h
  | succ n ih =>
    unfold elems
    split
    next hx => exact ⟨h, Yields.error hx (elemRun_yields h he)⟩
    next s1 fin waits hx =>
      have h1 : s1.pending = pq := (Yields.ok hx (elemRun_yields h he) :)
      split
      · exact h1
      · split
        · exact h1
        · exact ih (by simpa using h1)

theorem blockInstr_leads {p : Nat} {s : State} {n : Nat} {ok : Bool} {rc : BitVec 5} {zero : Ctx → Bool → Ctx} {e : Nat → Elem}
    (h : s.pending = pq) (he : ∀ k s b, s.pending = pq → Yields pq (·.1.pending = pq) (e k s b)) :
    Leads pq (blockInstr p s n ok rc zero e) := by
  unfold blockInstr
  refine instr_leads h fun s k h => ?_
  dsimp only
  split
  · exact trivial
  · split
    · exact h
    · have hr : (elems (e k) p k n s).Queued pq := elems_queued h (he k)
      split
      next hx =>
        rw [hx] at hr
        exact hr
      next hx =>
        rw [hx] at hr
        exact hr
      next hx =>
        rw [hx] at hr
        exact ⟨hr.1, keepRp_queued hr.2⟩

theorem loadByte_yields {s : State} {p k : Nat} {a : Word} (h : s.pending = pq) : Yields pq (·.2.pending = pq) (loadByte s p k a) :=
  Yields.bind (loadOp_yields h) fun _ h1 => h1

theorem movbElem_yields {p : Nat} {f : FE} {k : Nat} {s : State} {x4 : Bool} (h : s.pending = pq) :
    Yields pq (·.1.pending = pq) (movbElem p f k s x4) :=
  Yields.bind (loadByte_yields h) fun _ h1 => Yields.bind (storeOp_yields h1) fun _ h2 => h2

theorem fillbElem_yields {p : Nat} {f : FE} {k : Nat} {s : State} {x4 : Bool} (h : s.pending = pq) :
    Yields pq (·.1.pending = pq) (fillbElem p f k s x4) :=
  Yields.bind (storeOp_yields h) fun _ h1 => h1

theorem cmpbElem_yields {p : Nat} {f : FE} {k : Nat} {s : State} {x4 : Bool} (h : s.pending = pq) :
    Yields pq (·.1.pending = pq) (cmpbElem p f k s x4) := by
  unfold cmpbElem
  dsimp only
  refine Yields.bind (loadByte_yields h) ?_
  rintro ⟨x, y⟩ h1
  refine Yields.bind (loadByte_yields h1) ?_
  rintro ⟨x1, y1⟩ h2
  split <;> exact h2

theorem scanbElem_yields {p : Nat} {f : FE} {k : Nat} {s : State} {x4 : Bool} (h : s.pending = pq) :
    Yields pq (·.1.pending = pq) (scanbElem p f k s x4) := by
  unfold scanbElem
  dsimp only
  refine Yields.bind (loadByte_yields h) ?_
  rintro ⟨x, y⟩ h1
  split <;> exact h1

theorem translateElem_yields {p : Nat} {f : FE} {k : Nat} {s : State} {x4 : Bool} (h : s.pending = pq) :
    Yields pq (·.1.pending = pq) (translateElem p f k s x4) :=
  Yields.bind (loadByte_yields h) fun _ h1 => Yields.bind (loadByte_yields h1) fun _ h2 => Yields.bind (storeOp_yields h2) fun _ h3 => h3

theorem trtbElem_yields {p : Nat} {f : FE} {k : Nat} {s : State} {x4 : Bool} (h : s.pending = pq) :
    Yields pq (·.1.pending = pq) (trtbElem p f k s x4) := by
  unfold trtbElem
  dsimp only
  refine Yields.bind (loadByte_yields h) ?_
  rintro ⟨x, y⟩ h1
  refine Yields.bind (loadByte_yields h1) ?_
  rintro ⟨x1, y1⟩ h2
  split <;> exact h2

theorem crcbElem_yields {p : Nat} {f : FE} {k : Nat} {s : State} {x4 : Bool} (h : s.pending = pq) :
    Yields pq (·.1.pending = pq) (crcbElem p f k s x4) :=
  Yields.bind (loadByte_yields h) fun _ h1 => h1

theorem mulmbElem_yields {p : Nat} {f : FE} {k : Nat} {s : State} {x4 : Bool} (h : s.pending = pq) :
    Yields pq (·.1.pending = pq) (mulmbElem p f k s x4) := by
  unfold mulmbElem
  dsimp only
  refine Yields.bind (loadOp_yields h) ?_
  rintro ⟨x, y⟩ h1
  split
  · split
    · refine Yields.bind (translateOp_yields h1) ?_
      rintro ⟨x1, y1⟩ h2
      exact h2
    · refine Yields.bind (loadOp_yields h1) ?_
      rintro ⟨x1, y1⟩ h2
      refine Yields.bind (storeOp_yields h2) ?_
      rintro ⟨x2, y2⟩ h3
      exact h3
  · split
    · refine Yields.bind (translateOp_yields h1) ?_
      rintro ⟨x1, y1⟩ h2
      exact h2
    · refine Yields.bind (loadOp_yields h1) ?_
      rintro ⟨x1, y1⟩ h2
      exact Yields.bind (storeOp_yields h2) fun _ h3 => h3

/-! ## Control and cache instructions -/

theorem execCommit_leads {p : Nat} {f : FA} {s : State} (h : s.pending = pq) : Leads pq (execCommit p f s) := by
  unfold execCommit
  refine instr_leads h ?_
  intro s1 k h1
  split
  · exact trivial
  · split
    · exact h1
    · simpa using h1

@[simp] theorem logRefusedAnswer_pending (s : State) (p k seq : Nat) : (logRefusedAnswer s p k seq).pending = s.pending := by
  simp [logRefusedAnswer]

theorem signalInstr_leads {p : Nat} {f : FA} {s : State} (h : s.pending = pq) : Leads pq (signalInstr p f s) := by
  unfold signalInstr
  refine instr_leads h ?_
  intro s1 k h1
  dsimp only
  split
  · exact trivial
  · refine withEffects_yields h1 ?_
    intro s2 h2
    split
    · refine Yields.bind (loadOp_yields h2) ?_
      rintro ⟨x, y⟩ h3
      split
      · split
        · exact h3
        · simpa using h3
      · simpa using h3
    · split
      · exact h2
      · split <;> exact h2
    · split <;> exact h2

theorem execSstart_leads {p : Nat} {f : FA} {s : State} (h : s.pending = pq) : Leads pq (execSstart p f s) := by
  unfold execSstart
  refine instr_leads h ?_
  intro s1 k h1
  dsimp only
  split
  · exact trivial
  · refine withEffects_yields h1 ?_
    intro s2 h2
    exact Yields.bind (loadOp_yields h2) fun _ h3 => h3

@[simp] theorem releaseBarrier_pending (s : State) (i : Nat) (m : Word) : (releaseBarrier s i m).pending = s.pending :=
  pending_of_outside (releaseBarrier_outside s i m)

@[simp] theorem completeBarrier_pending (s : State) (i : Nat) (m : Word) (tw : Bool) : (completeBarrier s i m tw).pending = s.pending := by
  simp [completeBarrier]

theorem execBarrier_leads {p : Nat} {f : FA} {s : State} (h : s.pending = pq) : Leads pq (execBarrier p f s) := by
  unfold execBarrier
  refine instr_leads h ?_
  intro s1 k h1
  dsimp only
  split
  · exact trivial
  · split
    · exact h1
    · split
      · exact trivial
      · simpa using h1

theorem maintLine_yields {s : State} {p k : Nat} {acc : Access} {a : Word} (h : s.pending = pq) :
    Yields pq (·.2.pending = pq) (maintLine s p k acc a) := by
  unfold maintLine
  refine Yields.bind (translate_yields h) ?_
  rintro ⟨ph, s1⟩ h1
  cases ph <;> exact h1

theorem maintInstr_leads {p : Nat} {f : FB} {s : State} {priv : Bool} {body : State → Nat → Word → Except Stop State} (h : s.pending = pq)
    (hb : ∀ s k a, s.pending = pq → Yields pq (·.pending = pq) (body s k a)) :
    Leads pq (maintInstr p f s priv body) := by
  unfold maintInstr
  refine instr_leads h fun s k h => ?_
  split
  · exact trivial
  · split
    · exact trivial
    · exact Yields.bind (hb s k _ h) fun s1 h1 => h1

theorem ownCommit_yields {s : State} {p k : Nat} (h : s.pending = pq) : Yields pq (·.pending = pq) (ownCommit s p k) := by
  unfold ownCommit
  split
  · exact h
  · split
    · simpa using h
    · simpa using h

theorem settle_yields {s : State} {p k : Nat} {ls : List Nat} (h : s.pending = pq) : Yields pq (·.pending = pq) (settle s p k ls) := by
  unfold settle
  dsimp only
  split
  · simpa using h
  · split
    · exact ownCommit_yields h
    · exact h

theorem execPfetch_leads {p : Nat} {f : FB} {s : State} (h : s.pending = pq) : Leads pq (execPfetch p f s) := by
  unfold execPfetch
  refine maintInstr_leads h ?_
  intro s1 k a h1
  split
  next h12 =>
    split
    · exact (Yields.ok h12 (maintLine_yields h1) :)
    · simpa using (Yields.ok h12 (maintLine_yields h1) :)
  next h11 =>
    exact (Yields.ok h11 (maintLine_yields h1) :)
  · exact h1

theorem execClnl_leads {p : Nat} {f : FB} {s : State} (h : s.pending = pq) : Leads pq (execClnl p f s) := by
  unfold execClnl
  refine maintInstr_leads h ?_
  intro s1 k a h1
  refine Yields.bind (maintLine_yields h1) ?_
  rintro ⟨x, y⟩ h2
  dsimp only
  split
  · exact h2
  · refine Yields.bind (settle_yields h2) ?_
    intro s2 h3
    simpa using h3

theorem execFlsl_leads {p : Nat} {f : FB} {s : State} (h : s.pending = pq) : Leads pq (execFlsl p f s) := by
  unfold execFlsl
  refine maintInstr_leads h ?_
  intro s1 k a h1
  refine Yields.bind (maintLine_yields h1) ?_
  rintro ⟨x, y⟩ h2
  dsimp only
  split
  · exact h2
  · refine Yields.bind (settle_yields h2) ?_
    intro s2 h3
    simpa using h3

theorem execIinvl_leads {p : Nat} {f : FB} {s : State} (h : s.pending = pq) : Leads pq (execIinvl p f s) := by
  unfold execIinvl
  refine maintInstr_leads h ?_
  intro s1 k a h1
  refine Yields.bind (maintLine_yields h1) ?_
  rintro ⟨x, y⟩ h2
  dsimp only
  split <;> exact h2

theorem execInvl_leads {p : Nat} {f : FB} {s : State} (h : s.pending = pq) : Leads pq (execInvl p f s) := by
  unfold execInvl
  refine maintInstr_leads h ?_
  intro s1 k a h1
  refine Yields.bind (translate_yields h1) ?_
  rintro ⟨x, y⟩ h2
  dsimp only
  split
  · refine Yields.bind (maintLine_yields h1) ?_
    rintro ⟨x, y1⟩ h3
    dsimp only
    split
    · exact h3
    · split
      · simpa using h3
      · split
        · simpa using h3
        · refine Yields.bind (ownCommit_yields h3) ?_
          intro s2 h4
          simpa using h4
  · exact trivial

theorem execInvr_leads {p : Nat} {f : FA} {s : State} (h : s.pending = pq) : Leads pq (execInvr p f s) := by
  unfold execInvr
  refine instr_leads h ?_
  intro s1 k h1
  dsimp only
  split
  · exact trivial
  · split
    · exact trivial
    · refine Yields.bind (settle_yields h1) ?_
      intro s2 h2
      simpa using h2

@[simp] theorem markLocked_pending (s : State) (t w l : Nat) : (markLocked s t w l).pending = s.pending := rfl

theorem placeLine.enter_yields {p w l : Nat} {s : State} {t : Nat} (h : s.pending = pq) :
    Yields pq (·.2.pending = pq) (placeLine.enter p w l s t) := by
  unfold placeLine.enter
  dsimp only
  (repeat' split) <;> simp [h]

theorem placeLine_yields {s : State} {p t w l : Nat} (h : s.pending = pq) : Yields pq (·.2.pending = pq) (placeLine s p t w l) := by
  unfold placeLine
  dsimp only
  split
  · split
    · simpa using h
    · split
      · exact h
      · split
        · simpa using h
        · exact placeLine.enter_yields (by simpa using h)
  · exact placeLine.enter_yields h

theorem placeLines_yields {s : State} {p t w : Nat} {l : List Nat} (h : s.pending = pq) : Yields pq (·.2.pending = pq) (placeLines s p t w l) := by
  induction l generalizing s with
  | nil => exact h
  | cons x l ih =>
    exact Yields.bind (placeLine_yields h) fun _ h1 => Yields.bind (ih h1) fun _ h2 => h2

theorem execLockw_leads {p : Nat} {f : FA} {s : State} (h : s.pending = pq) : Leads pq (execLockw p f s) := by
  unfold execLockw
  refine instr_leads h ?_
  intro s1 k h1
  dsimp only
  split
  · exact trivial
  · split
    · exact trivial
    · split
      · split
        · exact trivial
        · exact h1
      · split
        · exact trivial
        · refine Yields.bind (translate_yields h1) ?_
          rintro ⟨x, y⟩ h2
          split
          · refine Yields.bind (placeLines_yields (by simpa using h2)) ?_
            rintro ⟨x, y1⟩ h3
            exact h3
          · exact trivial

theorem execUnlkw_leads {p : Nat} {f : FA} {s : State} (h : s.pending = pq) : Leads pq (execUnlkw p f s) := by
  unfold execUnlkw
  refine instr_leads h ?_
  intro s1 k h1
  dsimp only
  split
  · exact trivial
  · split
    · exact trivial
    · exact h1

/-! ## Privileged instructions -/

theorem execMfk_leads {p : Nat} {f : FA} {s : State} (h : s.pending = pq) : Leads pq (execMfk p f s) := by
  unfold execMfk
  refine instr_leads h ?_
  intro s1 k h1
  split
  · exact trivial
  · exact h1

theorem execMtk_leads {p : Nat} {f : FA} {s : State} (h : s.pending = pq) : Leads pq (execMtk p f s) := by
  unfold execMtk
  refine instr_leads h ?_
  intro s1 k h1
  split
  · exact trivial
  · exact h1

theorem execWait_leads {p : Nat} {f : FA} {s : State} (h : s.pending = pq) : Leads pq (execWait p f s) := by
  unfold execWait
  refine instr_leads h ?_
  intro s1 k h1
  split
  · exact trivial
  · exact h1

theorem execRfi_leads {p : Nat} {f : FA} {s : State} (h : s.pending = pq) : Leads pq (execRfi p f s) := by
  unfold execRfi
  refine instr_leads h ?_
  intro s1 k h1
  dsimp only
  split
  · exact trivial
  · split
    · exact trivial
    · refine Yields.bind (loadLine_yields h1) ?_
      rintro ⟨x, y⟩ h2
      split
      · exact trivial
      · exact h2

theorem lraReal_yields {s : State} {p k : Nat} {va : Word} (h : s.pending = pq) : Yields pq (·.2.pending = pq) (lraReal s p k va) := by
  unfold lraReal
  dsimp only
  split
  · split
    · exact h
    · split
      next h11 =>
        exact (Yields.ok h11 (xlatVa_yields h) :)
      · exact h
      next h11 =>
        exact Yields.error h11 (xlatVa_yields h)
  · split <;> exact h

theorem execLra_leads {p : Nat} {f : FB} {s : State} (h : s.pending = pq) : Leads pq (execLra p f s) := by
  unfold execLra
  refine instr_leads h ?_
  intro s1 k h1
  dsimp only
  split
  · exact trivial
  · refine Yields.bind (lraReal_yields h1) ?_
    rintro ⟨x, y⟩ h2
    exact h2

@[simp] theorem dropTlb_pending (s : State) (q : TlbEntry → Bool) : (dropTlb s q).pending = s.pending := rfl

theorem execTlbi_leads {p : Nat} {f : FA} {s : State} (h : s.pending = pq) : Leads pq (execTlbi p f s) := by
  unfold execTlbi
  refine instr_leads h ?_
  intro s1 k h1
  dsimp only
  split
  · exact trivial
  · simpa using h1

theorem execTlbia_leads {p : Nat} {f : FA} {s : State} (h : s.pending = pq) : Leads pq (execTlbia p f s) := by
  unfold execTlbia
  refine instr_leads h ?_
  intro s1 k h1
  split
  · exact trivial
  · simpa using h1

theorem execUndefinedOpcode_leads {p : Nat} {op : Byte} {s : State} (h : s.pending = pq) : Leads pq (execUndefinedOpcode p op s) := by
  unfold execUndefinedOpcode
  split
  · exact h
  · refine instr_leads h ?_
    intro s1 k h1
    exact trivial

/-! ## Interruptions and dispatch -/

@[simp] theorem microTrap_pending (s : State) (p k : Nat) (m : MicroTrap) : (microTrap s p k m).pending = s.pending := by
  simp [microTrap]

theorem storeReal_yields {s : State} {p i r : Nat} {d : List Byte} (h : s.pending = pq) : Yields pq (·.pending = pq) (storeReal s p i r d) := by
  unfold storeReal
  dsimp only
  split
  · exact h
  · split
    · simpa using h
    · split
      · refine Yields.bind (leaveStream_yields (by simpa using h)) ?_
        intro s1 h1
        refine Yields.bind (makeDirty_yields h1) ?_
        intro s2 h2
        exact h2
      · refine Yields.bind (P := fun t : State => t.pending = pq) (by simpa using h) ?_
        intro s1 h1
        exact Yields.bind (makeDirty_yields h1) fun _ h2 => h2

@[simp] theorem notPresented_pending (s : State) (p k cls : Nat) : (notPresented s p k cls).pending = s.pending := by
  simp [notPresented]

@[simp] theorem withdrawArrival_pending (s : State) (k : Nat) : (withdrawArrival s k).pending = s.pending := rfl

@[simp] theorem takeIntr_pending (s : State) (p k : Nat) (t : Intr) : (takeIntr s p k t).pending = s.pending := by
  unfold takeIntr
  extract_lets i c iao waiting s1 s2 mcOk
  have h2 : s2.pending = s.pending := by simp [s2, s1]
  split
  · simp [h2]
  · split
    · simp [h2]
    · dsimp only
      split
      · simp
      · split
        · simp [h2]
        · split
          · simp
          · rfl
          next hx => simpa using (Yields.ok hx (Yields.foldlM (fun _ _ hs => storeReal_yields hs) _ h2) :)

@[simp] theorem setRp_pending (s : State) (k : Nat) : (setRp s k).pending = s.pending := rfl

theorem execInterruptionTake_leads {p : Nat} {mt : Option MicroTrap} {s : State} (h : s.pending = pq) : Leads pq (execInterruptionTake p mt s) := by
  unfold execInterruptionTake
  dsimp only
  (repeat' split) <;> simp [h]

theorem execClockComparator_leads {i v : Nat} {s : State} (h : s.pending = pq) : Leads pq (execClockComparator i v s) := by
  unfold execClockComparator
  dsimp only
  (repeat' split) <;> simp [h]

theorem execEngineTimer_leads {i v : Nat} {s : State} (h : s.pending = pq) : Leads pq (execEngineTimer i v s) := by
  unfold execEngineTimer
  dsimp only
  (repeat' split) <;> simp [h]

@[simp] theorem commitAt_pending (s : State) (p k : Nat) (mt : Option MicroTrap) (wait : Bool) : (commitAt s p k mt wait).pending = s.pending := by
  unfold commitAt
  split <;> simp

theorem execAutoCommit_leads {p : Nat} {mt : Option MicroTrap} {s : State} (h : s.pending = pq) : Leads pq (execAutoCommit p mt s) := by
  unfold execAutoCommit
  dsimp only
  (repeat' split) <;> simp [h]

theorem execCommitOnSteal_leads {p : Nat} {mt : Option MicroTrap} {s : State} (h : s.pending = pq) : Leads pq (execCommitOnSteal p mt s) := by
  unfold execCommitOnSteal
  dsimp only
  (repeat' split) <;> simp [h]

theorem execVeDispatch_leads {p i v : Nat} {s : State} (h : s.pending = pq) : Leads pq (execVeDispatch p i v s) := by
  unfold execVeDispatch
  dsimp only
  (repeat' split) <;> simp [h]

theorem execTimeSliceEnd_leads {p : Nat} {mt : Option MicroTrap} {s : State} (h : s.pending = pq) : Leads pq (execTimeSliceEnd p mt s) := by
  unfold execTimeSliceEnd
  dsimp only
  (repeat' split) <;> simp [h]

@[simp] theorem shareLine_pending (s : State) (l : Nat) : (shareLine s l).pending = s.pending := rfl

theorem install_pending {s u : State} {p line : Nat} {k : FillKind} (e : install s p line k = some u) : u.pending = s.pending := by
  unfold install at e
  split at e
  · cases e
    simp
  · split at e
    · cases e
      rfl
    · obtain ⟨v, hv, rfl⟩ := Option.map_eq_some_iff.mp e
      simp [l1Room_pending hv]

theorem execLineFillComplete_leads {p line : Nat} {s : State} (h : s.pending = pq) : Leads pq (execLineFillComplete p line s) := by
  unfold execLineFillComplete
  dsimp only
  split
  · exact h
  next f _ =>
    generalize hs : (if line < bulkLine then _ else s.quiet) = s1
    have h1 : s1.pending = pq := by
      subst hs
      simpa using h
    split
    · simpa using h1
    · split
      · simpa using h1
      · simpa using h1
      next hd =>
        split
        next hi => simpa [install_pending hi, domeHave_pending hd] using h1
        · simpa using h1

/-! ## Context slots -/

theorem execCommitPointComplete_leads {p : Nat} {s : State} (h : s.pending = pq) : Leads pq (execCommitPointComplete p s) := by
  unfold execCommitPointComplete
  dsimp only
  (repeat' split) <;> simp [h]

/-! ## Instances and their resources -/

theorem instCommand_leads {s : State} {seq : BitVec 32} {op : Nat} {early : State → Request → Option Nat}
    {body : State → Request → Nat → State} (h : s.pending = pq) (hb : ∀ s r i, s.pending = pq → (body s r i).pending = pq) :
    Leads pq (instCommand s seq op early body) := by
  unfold instCommand
  dsimp only
  split
  · exact h
  · split
    · simpa using h
    · split
      · exact hb _ _ _ h
      · simpa using h

theorem execCreate_leads {seq : BitVec 32} {s : State} (h : s.pending = pq) : Leads pq (execCreate seq s) := by
  unfold execCreate
  dsimp only
  (repeat' split) <;> simp [h]

@[simp] theorem releaseHeld_pending (s : State) (i : Nat) : (releaseHeld s i).pending = s.pending := by
  simp [releaseHeld]

theorem execResume_leads {seq : BitVec 32} {s : State} (h : s.pending = pq) : Leads pq (execResume seq s) := by
  unfold execResume
  refine instCommand_leads h ?_
  intro s1 r i h1
  dsimp only
  simpa using h1

@[simp] theorem holdSub_pending (s : State) (i n : Nat) : (holdSub s i n).pending = s.pending := by
  simp [holdSub]

@[simp] theorem commitOff_pending (s : State) (p k : Nat) : (commitOff s p k).pending = s.pending :=
  pending_of_outside (commitOff_outside s p k)

@[simp] theorem withdrawAll_pending (s : State) (i : Nat) : (withdrawAll s i).pending = s.pending := rfl

@[simp] theorem abortArrived_pending (s : State) (i : Nat) : (abortArrived s i).pending = s.pending := by
  simp [abortArrived]

theorem execQuiesce_leads {seq : BitVec 32} {s : State} (h : s.pending = pq) : Leads pq (execQuiesce seq s) := by
  unfold execQuiesce
  refine instCommand_leads h ?_
  intro s1 r i h1
  dsimp only
  simpa using h1

theorem execQuiesceComplete_leads {i : Nat} {s : State} (h : s.pending = pq) : Leads pq (execQuiesceComplete i s) := by
  unfold execQuiesceComplete
  dsimp only
  (repeat' split) <;> simp [h]

@[simp] theorem discardStatuses_pending (s : State) (i : Nat) : (discardStatuses s i).pending = s.pending :=
  pending_of_outside (discardStatuses_outside s i)

@[simp] theorem resetInst_pending (s : State) (i : Nat) : (resetInst s i).pending = s.pending := by
  simp [resetInst]

theorem afterOps_leads {s : State} {seq : BitVec 32} {op : Nat} {body : State → Request → Nat → State} (h : s.pending = pq)
    (hb : ∀ s r i, s.pending = pq → (body s r i).pending = pq) :
    Leads pq (afterOps s seq op body) := by
  unfold afterOps
  dsimp only
  split
  · exact h
  · split
    · exact h
    · exact instCommand_leads h hb

@[simp] theorem dropInstTlb_pending (s : State) (i : Nat) : (dropInstTlb s i).pending = s.pending := rfl
@[simp] theorem freeGranules_pending (s : State) (bulk : Bool) (l : List Granule) : (freeGranules s bulk l).pending = s.pending := rfl

@[simp] theorem freePages_pending (s : State) (l : List Nat) : (freePages s l).pending = s.pending :=
  pending_of_outside (freePages_outside s l)

@[simp] theorem freeWays_pending (s : State) (i t hd : Nat) : (freeWays s i t hd).pending = s.pending := rfl
@[simp] theorem freeRings_pending (s : State) (i k : Nat) : (freeRings s i k).pending = s.pending := rfl

@[simp] theorem logShrink_pending (s : State) (i pool seq : Nat) : (logShrink s i pool seq).pending = s.pending := by
  simp [logShrink]

theorem moveUnits_pending {s u : State} {i pool t g : Nat} (e : moveUnits s i pool t g = .ok u) : u.pending = s.pending := by
  unfold moveUnits at e
  dsimp only at e
  split at e
  iterate 2
    split at e
    · cases e
      simp
    · split at e
      · cases e
        rfl
      · split at e <;> cases e
  · split at e
    · cases e
      simp
    · cases e
      exact foldl_pending fun _ _ => rfl
  · cases e
    simp
  · split at e
    · cases e
      simp
    · split at e <;> cases e
      rfl
  · cases e
    rfl

@[simp] theorem regroup_pending (s : State) (i g : Nat) : (regroup s i g).pending = s.pending := rfl

@[simp] theorem partnerRefuses_pending (s : State) (i : Nat) (grows : Bool) : (partnerRefuses s i grows).2.pending = s.pending := by
  unfold partnerRefuses
  split <;> simp

@[simp] theorem applyShare_pending (s : State) (r : Request) (i pool t g c : Nat) : (applyShare s r i pool t g c).pending = s.pending := by
  simp [applyShare]

@[simp] theorem resize_pending (s : State) (r : Request) (i : Nat) : (resize s r i).pending = s.pending := by
  unfold resize
  dsimp only
  split
  · simp
  · split
    · simp
    · split
      · simp
      · split
        · simp
        · split
          next hm => simp [moveUnits_pending hm]
          · simp
          · simp

theorem execShrinkComplete_leads {i : Nat} {s : State} (h : s.pending = pq) : Leads pq (execShrinkComplete i s) := by
  unfold execShrinkComplete
  dsimp only
  (repeat' split) <;> simp [h]

@[simp] theorem passStatuses_pending (s : State) (i : Nat) (waited : Bool) : (passStatuses s i waited).pending = s.pending := by
  unfold passStatuses
  dsimp only
  (repeat' split) <;> simp

@[simp] theorem placeVe_pending (s : State) (t k : Nat) : (placeVe s t k).pending = s.pending := by
  simp [placeVe]

@[simp] theorem setEngines_pending (s : State) (r : Request) (i : Nat) : (setEngines s r i).pending = s.pending := by
  simp [setEngines]

theorem execSetWindow_leads {seq : BitVec 32} {s : State} (h : s.pending = pq) : Leads pq (execSetWindow seq s) := by
  unfold execSetWindow
  refine instCommand_leads h ?_
  intro s1 r i h1
  dsimp only
  simpa using h1

theorem execPoolQuery_leads {seq : BitVec 32} {s : State} (h : s.pending = pq) : Leads pq (execPoolQuery seq s) := by
  unfold execPoolQuery
  dsimp only
  (repeat' split) <;> simp [h]

@[simp] theorem destroyInst_pending (s : State) (i : Nat) : (destroyInst s i).pending = s.pending :=
  pending_of_outside (destroyInst_outside s i)

theorem execDestroy_leads {seq : BitVec 32} {s : State} (h : s.pending = pq) : Leads pq (execDestroy seq s) := by
  unfold execDestroy
  refine afterOps_leads h ?_
  intro s1 r i h1
  dsimp only
  simpa using h1

theorem execLogHarvest_leads {seq : BitVec 32} {s : State} (h : s.pending = pq) : Leads pq (execLogHarvest seq s) := by
  unfold execLogHarvest
  refine instCommand_leads h ?_
  intro s1 r i h1
  dsimp only
  split
  · exact h1
  · simpa using h1

theorem execLogRead_leads {seq : BitVec 32} {s : State} (h : s.pending = pq) : Leads pq (execLogRead seq s) := by
  unfold execLogRead
  dsimp only
  (repeat' split) <;> simp [h]

theorem execLogNotify_leads {seq : BitVec 32} {s : State} (h : s.pending = pq) : Leads pq (execLogNotify seq s) := by
  unfold execLogNotify
  dsimp only
  (repeat' split) <;> simp [h]

/-! ## Messaging requests -/

theorem execMsg_leads {fn : Nat} {seq : BitVec 32} {s : State} (h : s.pending = pq) : Leads pq (execMsg fn seq s) := by
  unfold execMsg
  dsimp only
  (repeat' split) <;> simp [h]

theorem execStoreWrite_leads {fn : Nat} {seq : BitVec 32} {s : State} (h : s.pending = pq) : Leads pq (execStoreWrite fn seq s) := by
  unfold execStoreWrite
  dsimp only
  (repeat' split) <;> simp [h]

theorem execStoreRead_leads {fn : Nat} {seq : BitVec 32} {s : State} (h : s.pending = pq) : Leads pq (execStoreRead fn seq s) := by
  unfold execStoreRead
  dsimp only
  (repeat' split) <;> simp [h]

theorem execRestart_leads {fn : Nat} {seq : BitVec 32} {s : State} (h : s.pending = pq) : Leads pq (execRestart fn seq s) := by
  unfold execRestart
  dsimp only
  (repeat' split) <;> simp [h]

@[simp] theorem endFault_pending (s : State) (r : Request) (f : JobFault) : (endFault s r f).pending = s.pending := by
  unfold endFault
  split <;> simp

theorem holdRange_pending {s u : State} {i a n : Nat} (e : holdRange s i a n = some u) : u.pending = s.pending := by
  unfold holdRange at e
  dsimp only at e
  split at e <;> cases e
  simp

@[simp] theorem storeWriteDone_pending (s : State) (r : Request) (data : List Byte) (fault : Option JobFault) :
    (storeWriteDone s r data fault).pending = s.pending := by
  unfold storeWriteDone
  dsimp only
  split
  next hh => simp [holdRange_pending hh]
  · (repeat' split) <;> simp

@[simp] theorem storeReadDone_pending (s : State) (r : Request) (fault : Option JobFault) : (storeReadDone s r fault).pending = s.pending := by
  unfold storeReadDone
  dsimp only
  split
  next hh => simp [holdRange_pending hh]
  · (repeat' split) <;> simp

@[simp] theorem keyWrapDone_pending (s : State) (r : Request) (fault : Option JobFault) : (keyWrapDone s r fault).pending = s.pending := by
  unfold keyWrapDone
  split <;> simp

@[simp] theorem harvestDone_pending (s : State) (r : Request) (fault : Option JobFault) : (harvestDone s r fault).pending = s.pending := by
  unfold harvestDone
  split <;> simp

/-! ## EXPORT and IMPORT -/

@[simp] theorem exportSegment_pending (s : State) (r : Request) (i : Nat) (x : Session) : (exportSegment s r i x).pending = s.pending := by
  simp [exportSegment]

theorem execExportInst_leads {seq : BitVec 32} {s : State} (h : s.pending = pq) : Leads pq (execExportInst seq s) := by
  unfold execExportInst
  refine instCommand_leads h ?_
  intro s1 r i h1
  dsimp only
  split
  · simpa using h1
  · split
    · simpa using h1
    · split
      · simpa using h1
      · split
        · simpa using h1
        · split
          · exact h1
          · simpa using h1

@[simp] theorem exportDone_pending (s : State) (r : Request) (fault : Option JobFault) : (exportDone s r fault).pending = s.pending := by
  unfold exportDone
  split <;> simp

@[simp] theorem importContexts_pending (s : State) (i : Nat) (d : List Byte) : (importContexts s i d).pending = s.pending :=
  foldl_keeps State.pending (fun _ _ => by simp) _ _

@[simp] theorem importOps_pending (s : State) (i : Nat) (d : List Byte) : (importOps s i d).pending = s.pending := by
  simp [importOps]

@[simp] theorem importKeys_pending (s : State) (i : Nat) (wrap d : List Byte) : (importKeys s i wrap d).pending = s.pending :=
  foldl_pending fun _ _ => foldl_pending fun _ _ => rfl

@[simp] theorem importRequest_pending (s : State) (i : Nat) (l : List Byte) : (importRequest s i l).pending = s.pending := rfl
@[simp] theorem importHeld_pending (s : State) (i : Nat) (l : List Byte) : (importHeld s i l).pending = s.pending := rfl
@[simp] theorem importSignal_pending (s : State) (i : Nat) (l : List Byte) : (importSignal s i l).pending = s.pending := rfl

@[simp] theorem importQueues_pending (s : State) (i n64 n32 n16 : Nat) (d : List Byte) : (importQueues s i n64 n32 n16 d).pending = s.pending :=
  (foldl_pending (f := fun s l => importSignal s i l) (by simp)).trans <|
    (foldl_pending (f := fun s l => importHeld s i l) (by simp)).trans <|
      foldl_pending (f := fun s l => importRequest s i l) (by simp)

@[simp] theorem importGranules_pending (s : State) (firsts : List Nat) (n : Nat) (d : List Byte) :
    (importGranules s firsts n d).pending = s.pending := by
  simp [importGranules]

@[simp] theorem importSeq_pending (s : State) (i : Nat) (d : List Byte) : (importSeq s i d).pending = s.pending :=
  pending_of_outside (importSeq_outside s i d)

@[simp] theorem reserveRings_pending (s : State) (i : Nat) : (reserveRings s i).pending = s.pending := by
  simp [reserveRings]

@[simp] theorem importWindows_pending (s : State) (i : Nat) (hd : List Byte) : (importWindows s i hd).pending = s.pending := by
  simp [importWindows]

@[simp] theorem unlockWays_pending (s : State) (i : Nat) : (unlockWays s i).pending = s.pending := rfl

@[simp] theorem applyStream_pending (s : State) (i : Nat) (wrap d : List Byte) : (applyStream s i wrap d).pending = s.pending := by
  unfold applyStream
  dsimp only
  rw [releaseHeld_pending, reserveRings_pending, State.updInst_pending]
  refine (foldl_pending fun s x => ?_).trans (by simp)
  split <;> simp

theorem execImportInst_leads {seq : BitVec 32} {s : State} (h : s.pending = pq) : Leads pq (execImportInst seq s) := by
  unfold execImportInst
  refine instCommand_leads h ?_
  intro s1 r i h1
  dsimp only
  split
  · simpa using h1
  · simpa using h1

@[simp] theorem importDone_pending (s : State) (r : Request) (data : List Byte) (fault : Option JobFault) :
    (importDone s r data fault).pending = s.pending := by
  unfold importDone
  dsimp only
  (repeat' split) <;> simp

theorem execHostTransferDone_leads {fn : Nat} {seq : BitVec 32} {data : List Byte} {fault : Option JobFault} {s : State}
    (h : s.pending = pq) :
    Leads pq (execHostTransferDone fn seq data fault s) := by
  unfold execHostTransferDone
  dsimp only
  (repeat' split) <;> simp [h]

/-! ## What a fault does -/

@[simp] theorem faultNow_pending (s : State) (i : Nat) : (faultNow s i).pending = s.pending :=
  pending_of_outside (faultNow_outside s i)

@[simp] theorem faultInst_pending (s : State) (i : Nat) (cause : LogEntry) : (faultInst s i cause).pending = s.pending := by
  simp [faultInst]

@[simp] theorem sendControl_pending (s : State) (kind : Nat) (fields : List Nat) : (sendControl s kind fields).pending = s.pending := rfl

@[simp] theorem surrender_pending (s : State) (i cls : Nat) : (surrender s i cls).pending = s.pending :=
  pending_of_outside (surrender_outside s i cls)

@[simp] theorem loseInst_pending (s : State) (i : Nat) (cause : LogEntry) : (loseInst s i cause).pending = s.pending := by
  simp [loseInst]

@[simp] theorem logged_pending (s : State) (e : LogEntry) : (logged s e).1.pending = s.pending := by
  simp [logged]

@[simp] theorem deviceFatal_pending (s : State) (detail source unit : Nat) : (deviceFatal s detail source unit).pending = s.pending :=
  pending_of_outside (deviceFatal_outside s detail source unit)

@[simp] theorem fenceUnit_pending (s : State) (u : UnitId) : (fenceUnit s u).pending = s.pending := rfl

@[simp] theorem unitFenced_pending (s : State) (cls source unit left : Nat) : (unitFenced s cls source unit left).1.pending = s.pending :=
  pending_of_outside (unitFenced_outside s cls source unit left)

@[simp] theorem raiseDeferred_pending (s : State) (i : Nat) (q : VE → Bool) (e : LogEntry) (left : Nat) :
    (raiseDeferred s i q e left).pending = s.pending :=
  pending_of_outside (raiseDeferred_outside s i q e left)

@[simp] theorem loseLine_pending (s : State) (l : Nat) (unit : Nat × Nat) : (loseLine s l unit).pending = s.pending := by
  unfold loseLine
  dsimp only
  (repeat' split) <;> simp

/-! ## The recovery ladder -/

@[simp] theorem answerTest_pending (s : State) (t : TestRun) (result : List Byte) : (answerTest s t result).pending = s.pending :=
  pending_of_outside (answerTest_outside s t result)

@[simp] theorem cutTest_pending (s : State) (t : TestRun) (cause got want : Nat) : (cutTest s t cause got want).pending = s.pending := by
  unfold cutTest
  split <;> simp

@[simp] theorem cutFree_pending (s : State) (t : TestRun) (cause : Nat) : (cutFree s t cause).pending = s.pending := by
  simp [cutFree]

@[simp] theorem scheduleFuse_pending (s : State) (u : UnitId) (kind : Nat) : (scheduleFuse s u kind).pending = s.pending := by
  simp [scheduleFuse]

@[simp] theorem noteSpares_pending (s : State) (t : Nat) : (noteSpares s t).pending = s.pending := by
  simp [noteSpares]

@[simp] theorem moveVe_pending (s : State) (p q : Nat) : (moveVe s p q).pending = s.pending :=
  pending_of_outside (moveVe_outside s p q)

@[simp] theorem takePlace_pending (s : State) (p q kind : Nat) (r : Recovery) : (takePlace s p q kind r).pending = s.pending := by
  simp [takePlace]

@[simp] theorem noSpare_pending (s : State) (p : Nat) (r : Recovery) : (noSpare s p r).pending = s.pending := by
  unfold noSpare
  split <;> simp

@[simp] theorem dropCommitGroup_pending (s : State) (p : Nat) : (dropCommitGroup s p).pending = s.pending := rfl

@[simp] theorem spareEngine_pending (s : State) (p : Nat) : (spareEngine s p).pending = s.pending := by
  unfold spareEngine
  dsimp only
  (repeat' split) <;> simp

@[simp] theorem loseSpare_pending (s : State) (p detail : Nat) : (loseSpare s p detail).pending = s.pending := by
  unfold loseSpare
  dsimp only
  (repeat' split) <;> simp

@[simp] theorem loseCheckpoint_pending (s : State) (t k : Nat) : (loseCheckpoint s t k).pending = s.pending := by
  simp [loseCheckpoint]

@[simp] theorem checkstop_pending (s : State) (p : Nat) (cause : EngineCause) : (checkstop s p cause).pending = s.pending := by
  unfold checkstop
  dsimp only
  (repeat' split) <;> simp

theorem execEngineFaultDetected_leads {p : Nat} {cause : EngineCause} {attempts : Nat} {s : State} (h : s.pending = pq) :
    Leads pq (execEngineFaultDetected p cause attempts s) := by
  unfold execEngineFaultDetected
  dsimp only
  (repeat' split) <;> simp [h]

theorem execEngineCheckstop_leads {p : Nat} {cause : EngineCause} {s : State} (h : s.pending = pq) : Leads pq (execEngineCheckstop p cause s) := by
  simp [execEngineCheckstop, h]

theorem execQuickCheckEnd_leads {p : Nat} {pass : Bool} {s : State} (h : s.pending = pq) : Leads pq (execQuickCheckEnd p pass s) := by
  unfold execQuickCheckEnd
  dsimp only
  (repeat' split) <;> simp [h]

theorem execFuseReserveUp_leads {t : Nat} {s : State} (h : s.pending = pq) : Leads pq (execFuseReserveUp t s) := by
  unfold execFuseReserveUp
  dsimp only
  (repeat' split) <;> simp [h]

@[simp] theorem logCache_pending (s : State) (source unit detail : Nat) : (logCache s source unit detail).pending = s.pending := by
  simp [logCache]

@[simp] theorem domeLost_pending (s : State) (t l : Nat) : (domeLost s t l).pending = s.pending := by
  unfold domeLost
  (repeat' split) <;> simp

@[simp] theorem domeError_pending (s : State) (t l : Nat) (e : LineError) : (domeError s t l e).pending = s.pending := by
  unfold domeError
  (repeat' split) <;> simp

theorem execDomeScrub_leads {t line : Nat} {err : LineError} {s : State} (h : s.pending = pq) : Leads pq (execDomeScrub t line err s) := by
  simp [execDomeScrub, h]

@[simp] theorem storeFail_pending (s : State) (l : Nat) : (storeFail s l).pending = s.pending := by
  unfold storeFail
  (repeat' split) <;> simp

@[simp] theorem tagFail_pending (s : State) (l : Nat) (good : Bool) : (tagFail s l good).pending = s.pending := by
  unfold tagFail
  split <;> simp

theorem execCacheError_leads {c : CacheFault} {s : State} (h : s.pending = pq) : Leads pq (execCacheError c s) := by
  unfold execCacheError
  dsimp only
  (repeat' split) <;> simp [h]

theorem execCheckpointScrub_leads {t slot : Nat} {err : LineError} {s : State} (h : s.pending = pq) :
    Leads pq (execCheckpointScrub t slot err s) := by
  unfold execCheckpointScrub
  dsimp only
  (repeat' split) <;> simp [h]

@[simp] theorem logPoisoned_pending (s : State) (l : Nat) : (logPoisoned s l).pending = s.pending := by
  simp [logPoisoned]

theorem execStoreScrub_leads {line : Nat} {err : LineError} {s : State} (h : s.pending = pq) : Leads pq (execStoreScrub line err s) := by
  unfold execStoreScrub
  dsimp only
  (repeat' split) <;> simp [h]

theorem execStoreReadError_leads {line : Nat} {s : State} (h : s.pending = pq) : Leads pq (execStoreReadError line s) := by
  unfold execStoreReadError
  dsimp only
  (repeat' split) <;> simp [h]

theorem execAddressParityError_leads {port line : Nat} {s : State} (h : s.pending = pq) : Leads pq (execAddressParityError port line s) := by
  unfold execAddressParityError
  dsimp only
  (repeat' split) <;> simp [h]

theorem execCheckLineWriteback_leads {stack block : Nat} {s : State} (h : s.pending = pq) : Leads pq (execCheckLineWriteback stack block s) := by
  unfold execCheckLineWriteback
  dsimp only
  (repeat' split) <;> simp [h]

@[simp] theorem zeroRange_pending (s : State) (a n : Nat) : (zeroRange s a n).pending = s.pending := rfl

theorem execGranuleZeroDone_leads {bulk : Bool} {gran : Nat} {s : State} (h : s.pending = pq) : Leads pq (execGranuleZeroDone bulk gran s) := by
  unfold execGranuleZeroDone
  dsimp only
  (repeat' split) <;> simp [h]

theorem execEventMergeFlush_leads {event source unit : Nat} {s : State} (h : s.pending = pq) :
    Leads pq (execEventMergeFlush event source unit s) := by
  unfold execEventMergeFlush
  dsimp only
  (repeat' split) <;> simp [h]

/-! ## Blocks that stop -/

theorem execD2dModuleFail_leads {cd m : Nat} {s : State} (h : s.pending = pq) : Leads pq (execD2dModuleFail cd m s) := by
  unfold execD2dModuleFail
  dsimp only
  (repeat' split) <;> simp [h]

@[simp] theorem stopTower_pending (s : State) (t source : Nat) : (stopTower s t source).pending = s.pending := by
  unfold stopTower
  split
  · rfl
  · rw [State.updDome_pending, foldl_pending fun _ _ => State.updEng_pending _ _ _]
    simp

theorem execDomeFail_leads {t : Nat} {w : TowerBlock} {s : State} (h : s.pending = pq) : Leads pq (execDomeFail t w s) := by
  unfold execDomeFail
  dsimp only
  (repeat' split) <;> simp [h]

theorem execMainStoreChannelFail_leads {c : Nat} {s : State} (h : s.pending = pq) : Leads pq (execMainStoreChannelFail c s) := by
  simp [execMainStoreChannelFail, h]

theorem execHbmStackFail_leads {st : Nat} {s : State} (h : s.pending = pq) : Leads pq (execHbmStackFail st s) := by
  unfold execHbmStackFail
  dsimp only
  (repeat' split) <;> simp [h]

theorem execHubBlockFail_leads {b : HubBlock} {s : State} (h : s.pending = pq) : Leads pq (execHubBlockFail b s) := by
  unfold execHubBlockFail
  dsimp only
  (repeat' split) <;> simp [h]

theorem execBelfryStop_leads {s : State} (h : s.pending = pq) : Leads pq (execBelfryStop s) := by
  unfold execBelfryStop
  dsimp only
  (repeat' split) <;> simp [h]

theorem execTimebaseCounterFail_leads {n : Nat} {s : State} (h : s.pending = pq) : Leads pq (execTimebaseCounterFail n s) := by
  simp [execTimebaseCounterFail, h]

@[simp] theorem moveOps_pending (s : State) (c : Nat) (others : List Nat) : (moveOps s c others).pending = s.pending := rfl

@[simp] theorem stopChe_pending (s : State) (c : Nat) : (stopChe s c).pending = s.pending :=
  pending_of_outside (stopChe_outside s c)

theorem execCheStop_leads {c : Nat} {s : State} (h : s.pending = pq) : Leads pq (execCheStop c s) := by
  unfold execCheStop
  dsimp only
  (repeat' split) <;> simp [h]

@[simp] theorem stopAccel_pending (s : State) (cz : Bool) (e : Nat) : (stopAccel s cz e).pending = s.pending :=
  pending_of_outside (stopAccel_outside s cz e)

theorem execCipherEngineStop_leads {e : Nat} {s : State} (h : s.pending = pq) : Leads pq (execCipherEngineStop e s) := by
  unfold execCipherEngineStop
  dsimp only
  (repeat' split) <;> simp [h]

theorem execCompressionEngineStop_leads {e : Nat} {s : State} (h : s.pending = pq) : Leads pq (execCompressionEngineStop e s) := by
  unfold execCompressionEngineStop
  dsimp only
  (repeat' split) <;> simp [h]

/-! ## The Spire -/

@[simp] theorem extendReg_pending (s : State) (n : Nat) (v : List Byte) : (extendReg s n v).pending = s.pending := rfl

@[simp] theorem spireEvent_pending (s : State) (e : LogEntry) (hd : List Byte) : (spireEvent s e hd).pending = s.pending := by
  simp [spireEvent]

theorem execSpireStop_leads {s : State} (h : s.pending = pq) : Leads pq (execSpireStop s) := by
  unfold execSpireStop
  dsimp only
  (repeat' split) <;> simp [h]

@[simp] theorem setRegion_pending (s : State) (k : Nat) (r : Region) : (setRegion s k r).pending = s.pending := rfl

theorem execImageQuery_leads {seq : BitVec 32} {s : State} (h : s.pending = pq) : Leads pq (execImageQuery seq s) := by
  unfold execImageQuery
  dsimp only
  (repeat' split) <;> simp [h]

@[simp] theorem rejectImage_pending (s : State) (r : Request) (k reason offset : Nat) : (rejectImage s r k reason offset).pending = s.pending := by
  simp [rejectImage]

@[simp] theorem writeRegion_pending (s : State) (r : Request) (k : Nat) (data : List Byte) : (writeRegion s r k data).pending = s.pending := rfl

theorem execImageWrite_leads {seq : BitVec 32} {data : List Byte} {s : State} (h : s.pending = pq) : Leads pq (execImageWrite seq data s) := by
  unfold execImageWrite
  dsimp only
  (repeat' split) <;> simp [h]

theorem execImagePush_leads {seq : BitVec 32} {data : List Byte} {s : State} (h : s.pending = pq) : Leads pq (execImagePush seq data s) := by
  unfold execImagePush
  dsimp only
  (repeat' split) <;> simp [h]

theorem execImageNorWriteDone_leads {seq : BitVec 32} {s : State} (h : s.pending = pq) : Leads pq (execImageNorWriteDone seq s) := by
  unfold execImageNorWriteDone
  dsimp only
  (repeat' split) <;> simp [h]

theorem execImageSelect_leads {seq : BitVec 32} {s : State} (h : s.pending = pq) : Leads pq (execImageSelect seq s) := by
  unfold execImageSelect
  dsimp only
  (repeat' split) <;> simp [h]

theorem execHeadSigned_leads {s : State} (h : s.pending = pq) : Leads pq (execHeadSigned s) := by
  unfold execHeadSigned
  dsimp only
  (repeat' split) <;> simp [h]

@[simp] theorem doeError_pending (s : State) : (doeError s).pending = s.pending := rfl

@[simp] theorem doeAnswer_pending (s : State) (st : Status) (detail retry : Nat) (body : List Byte) :
    (doeAnswer s st detail retry body).pending = s.pending := rfl

theorem execDoeDiscovery_leads {vendor ty : Nat} {body : List Byte} {s : State} (h : s.pending = pq) :
    Leads pq (execDoeDiscovery vendor ty body s) := by
  unfold execDoeDiscovery
  dsimp only
  (repeat' split) <;> simp [h]

theorem execBootHead_leads {body : List Byte} {s : State} (h : s.pending = pq) : Leads pq (execBootHead body s) := by
  unfold execBootHead
  dsimp only
  (repeat' split) <;> simp [h]

theorem execBootEntries_leads {body : List Byte} {s : State} (h : s.pending = pq) : Leads pq (execBootEntries body s) := by
  unfold execBootEntries
  dsimp only
  (repeat' split) <;> simp [h]

theorem execAttest_leads {body : List Byte} {s : State} (h : s.pending = pq) : Leads pq (execAttest body s) := by
  unfold execAttest
  dsimp only
  (repeat' split) <;> simp [h]

theorem execAttestSigned_leads {smbus : Bool} {s : State} (h : s.pending = pq) : Leads pq (execAttestSigned smbus s) := by
  unfold execAttestSigned
  dsimp only
  (repeat' split) <;> simp [h]

theorem execIdentityCert_leads {body : List Byte} {s : State} (h : s.pending = pq) : Leads pq (execIdentityCert body s) := by
  unfold execIdentityCert
  dsimp only
  (repeat' split) <;> simp [h]

theorem execMeasure_leads {body : List Byte} {s : State} (h : s.pending = pq) : Leads pq (execMeasure body s) := by
  unfold execMeasure
  dsimp only
  (repeat' split) <;> simp [h]

theorem smbusRead_leads {s : State} {data : State → List Byte} (h : s.pending = pq) : Leads pq (smbusRead s data) := by
  simp [smbusRead, h]

theorem smbusWrite_leads {s : State} {f : State → State} (h : s.pending = pq) (hf : ∀ s, s.pending = pq → (f s).pending = pq) :
    Leads pq (smbusWrite s f) := by
  unfold smbusWrite
  dsimp only
  split
  · exact hf _ h
  · simpa using h

theorem execObjStatus_leads {s : State} (h : s.pending = pq) : Leads pq (execObjStatus s) := by
  unfold execObjStatus
  dsimp only
  (repeat' split) <;> simp [h]

theorem execObjRead_leads {s : State} (h : s.pending = pq) : Leads pq (execObjRead s) := by
  unfold execObjRead
  dsimp only
  (repeat' split) <;> simp [h]

theorem execPkgCheckDone_leads {s : State} (h : s.pending = pq) : Leads pq (execPkgCheckDone s) := by
  unfold execPkgCheckDone
  dsimp only
  (repeat' split) <;> simp [h]

/-! ## Runtime self-tests -/

@[simp] theorem testFailed_pending (s : State) (u : UnitId) (cls : Nat) : (testFailed s u cls).pending = s.pending :=
  pending_of_outside (testFailed_outside s u cls)

@[simp] theorem evictLine_pending (s : State) (t l : Nat) : (evictLine s t l).pending = s.pending := by
  simp [evictLine]

theorem startTest_pending {s : State} {u : UnitId} {waiters : List Nat} :
    Started (·.pending = s.pending) (startTest s u waiters) := by
  unfold startTest
  dsimp only
  split
  · split
    · split <;> rfl
    · split
      · rfl
      · split
        · rfl
        · split
          · rfl
          next s2 hs =>
            have h2 : s2.pending = s.pending := by
              split at hs
              · cases hs
                simp
              · split at hs
                · cases hs
                · cases hs
                  simp
            exact h2
  · split
    · simp [Started]
    · simp [Started]
  · split <;> simp [Started]
  · split <;> simp [Started]
  · split <;> simp [Started]
  · rfl

theorem execRollingTestStart_leads {u : UnitId} {s : State} (h : s.pending = pq) : Leads pq (execRollingTestStart u s) := by
  unfold execRollingTestStart
  dsimp only
  split
  · exact h
  · have ht := startTest_pending (s := s.quiet) (u := u) (waiters := [])
    split
    next hs =>
      rw [hs] at ht
      simpa [Started, h] using ht
    next hs =>
      rw [hs] at ht
      simpa [Started, h] using ht

@[simp] theorem endStandIn_pending (s : State) (p q : Nat) : (endStandIn s p q).pending = s.pending :=
  pending_of_outside (endStandIn_outside s p q)

@[simp] theorem backInService_pending (s : State) (t : TestRun) : (backInService s t).pending = s.pending :=
  pending_of_outside (backInService_outside s t)

@[simp] theorem unfence_pending (s : State) (u : UnitId) : (unfence s u).pending = s.pending := by
  unfold unfence
  split <;> simp

@[simp] theorem repairUnit_pending (s : State) (t : TestRun) : (repairUnit s t).2.pending = s.pending := by
  unfold repairUnit
  dsimp only
  (repeat' split) <;> simp

@[simp] theorem patternsOf_pending (s : State) (u : UnitId) : (patternsOf s u).2.pending = s.pending := by
  unfold patternsOf
  split <;> simp

theorem execRollingTestEnd_leads {u : UnitId} {r : TestResult} {s : State} (h : s.pending = pq) : Leads pq (execRollingTestEnd u r s) := by
  unfold execRollingTestEnd
  dsimp only
  (repeat' split) <;> simp [h]

theorem execSelftestRun_leads {seq : BitVec 32} {s : State} (h : s.pending = pq) : Leads pq (execSelftestRun seq s) := by
  unfold execSelftestRun
  dsimp only
  split
  · exact h
  next r _ =>
    split
    · simpa using h
    · split
      · simpa using h
      · split
        · simpa using h
        · have ht := startTest_pending (s := wake s.quiet) (u := ⟨par r.entry 36, fieldBE r.entry 38 2, par r.entry 37⟩)
            (waiters := [r.seq])
          split
          next hs =>
            rw [hs] at ht
            simpa [Started, h] using ht
          next hs =>
            rw [hs] at ht
            simpa [Started, h] using ht

theorem execSelftestQuery_leads {seq : BitVec 32} {s : State} (h : s.pending = pq) : Leads pq (execSelftestQuery seq s) := by
  unfold execSelftestQuery
  dsimp only
  (repeat' split) <;> simp [h]

@[simp] theorem cutAll_pending (s : State) (cause : Nat) : (cutAll s cause).pending = s.pending :=
  foldl_keeps State.pending (fun _ _ => by split <;> simp) _ _

theorem execSelftestCtl_leads {seq : BitVec 32} {s : State} (h : s.pending = pq) : Leads pq (execSelftestCtl seq s) := by
  unfold execSelftestCtl
  dsimp only
  (repeat' split) <;> simp [h]

theorem execSelftestControllerStop_leads {s : State} (h : s.pending = pq) : Leads pq (execSelftestControllerStop s) := by
  unfold execSelftestControllerStop
  dsimp only
  (repeat' split) <;> simp [h]

theorem execRepairCtl_leads {seq : BitVec 32} {s : State} (h : s.pending = pq) : Leads pq (execRepairCtl seq s) := by
  unfold execRepairCtl
  dsimp only
  (repeat' split) <;> simp [h]

theorem execCalRead_leads {seq : BitVec 32} {s : State} (h : s.pending = pq) : Leads pq (execCalRead seq s) := by
  unfold execCalRead
  dsimp only
  (repeat' split) <;> simp [h]

theorem execCalWrite_leads {seq : BitVec 32} {data : List Byte} {s : State} (h : s.pending = pq) : Leads pq (execCalWrite seq data s) := by
  unfold execCalWrite
  dsimp only
  (repeat' split) <;> simp [h]

@[simp] theorem calWritten_pending (s : State) (detail : Nat) : (calWritten s detail).pending = s.pending := by
  simp [calWritten]

theorem execCalNorWriteDone_leads {s : State} (h : s.pending = pq) : Leads pq (execCalNorWriteDone s) := by
  unfold execCalNorWriteDone
  dsimp only
  (repeat' split) <;> simp [h]

theorem execRecal_leads {seq : BitVec 32} {s : State} (h : s.pending = pq) : Leads pq (execRecal seq s) := by
  unfold execRecal
  dsimp only
  (repeat' split) <;> simp [h]

/-! ## The twin -/

@[simp] theorem endTwinCommands_pending (s : State) : (endTwinCommands s).pending = s.pending :=
  foldl_keeps State.pending (fun _ _ => by simp) _ _

@[simp] theorem losePartnerPaths_pending (s : State) : (losePartnerPaths s).pending = s.pending :=
  pending_of_outside (losePartnerPaths_outside s)

@[simp] theorem linkDown_pending (s : State) (detail : Nat) : (linkDown s detail).pending = s.pending := by
  simp [linkDown]

theorem execJalarnLinkUp_leads {x4 : Bool} {lane : Nat} {s : State} (h : s.pending = pq) : Leads pq (execJalarnLinkUp x4 lane s) := by
  unfold execJalarnLinkUp
  dsimp only
  (repeat' split) <;> simp [h]

theorem execIdent_leads {m : IdentMsg} {s : State} (h : s.pending = pq) : Leads pq (execIdent m s) := by
  unfold execIdent
  dsimp only
  (repeat' split) <;> simp [h]

theorem execReceiverLockLost_leads {s : State} (h : s.pending = pq) : Leads pq (execReceiverLockLost s) := by
  unfold execReceiverLockLost
  dsimp only
  (repeat' split) <;> simp [h]

@[simp] theorem groupAct_pending (s : State) (g : Group) : (groupAct s g).pending = s.pending :=
  pending_of_outside (groupAct_outside s g)

@[simp] theorem tryHandover_pending (s : State) (i : Nat) : (tryHandover s i).pending = s.pending :=
  pending_of_outside (tryHandover_outside s i)

@[simp] theorem tryHandovers_pending (s : State) : (tryHandovers s).pending = s.pending := by
  simp [tryHandovers]

@[simp] theorem ackGroups_pending (s : State) (j : Nat) : (ackGroups s j).pending = s.pending := by
  simp [ackGroups]

@[simp] theorem takeAck_pending (s : State) (j : Nat) : (takeAck s j).pending = s.pending := by
  simp [takeAck]

theorem execMirrorAck_leads {jsn : BitVec 48} {s : State} (h : s.pending = pq) : Leads pq (execMirrorAck jsn s) := by
  unfold execMirrorAck
  dsimp only
  (repeat' split) <;> simp [h]

@[simp] theorem copyLines_pending (s : State) (i n : Nat) : (copyLines s i n).2.pending = s.pending := by
  simp [copyLines]

@[simp] theorem runCopies_pending (s : State) (n : Nat) : (runCopies s n).2.pending = s.pending := by
  simp [runCopies]

theorem execMirrorRefill_leads {s : State} (h : s.pending = pq) : Leads pq (execMirrorRefill s) := by
  unfold execMirrorRefill
  dsimp only
  (repeat' split) <;> simp [h]

@[simp] theorem putLine_pending (s : State) (m : MLine) : (putLine s m).pending = s.pending :=
  pending_of_outside (putLine_outside s m)

@[simp] theorem takeSlot_pending (s : State) (x : List Byte) : (takeSlot s x).pending = s.pending := by
  unfold takeSlot
  split <;> simp

theorem execJalarnFlitReceive_leads {flit : List Byte} {s : State} (h : s.pending = pq) : Leads pq (execJalarnFlitReceive flit s) := by
  unfold execJalarnFlitReceive
  dsimp only
  (repeat' split) <;> simp [h]

@[simp] theorem applyGroup_pending (s : State) (jsn i : Nat) (ls : List MLine) : (applyGroup s jsn i ls).pending = s.pending :=
  pending_of_outside (applyGroup_outside s jsn i ls)

@[simp] theorem applyFirst_pending (s : State) : (applyFirst s).pending = s.pending := by
  unfold applyFirst
  split <;> simp

theorem execStagingApply_leads {s : State} (h : s.pending = pq) : Leads pq (execStagingApply s) := by
  unfold execStagingApply
  dsimp only
  (repeat' split) <;> simp [h]

@[simp] theorem becomePaired_pending (s : State) (seq : Nat) : (becomePaired s seq).pending = s.pending := by
  unfold becomePaired
  split <;> simp

@[simp] theorem refuseTwin_pending (s : State) (r : Request) (i : Nat) : (refuseTwin s r i).pending = s.pending := by
  simp [refuseTwin]

theorem execTwinPair_leads {seq : BitVec 32} {s : State} (h : s.pending = pq) : Leads pq (execTwinPair seq s) := by
  unfold execTwinPair
  dsimp only
  (repeat' split) <;> simp [h]

theorem execPair_leads {modid : BitVec 22} {dkey0 : Bool} {s : State} (h : s.pending = pq) : Leads pq (execPair modid dkey0 s) := by
  unfold execPair
  dsimp only
  (repeat' split) <;> simp [h]

@[simp] theorem sendProtect_pending (s : State) (i : Nat) : (sendProtect s i).pending = s.pending := rfl

theorem execTwinProtect_leads {seq : BitVec 32} {s : State} (h : s.pending = pq) : Leads pq (execTwinProtect seq s) := by
  unfold execTwinProtect
  dsimp only
  (repeat' split) <;> simp [h]

theorem execCopyDone_leads {i : Nat} {ack : Bool} {s : State} (h : s.pending = pq) : Leads pq (execCopyDone i ack s) := by
  unfold execCopyDone
  dsimp only
  (repeat' split) <;> simp [h]

/-- A fold that may fail keeps the queue when each of its steps does. -/
theorem foldl_bind_pending {α : Type} {f : α → State → Option State} {l : List α} {x : Option State} {u : State}
    (hx : ∀ s ∈ x, s.pending = pq) (hf : ∀ a s t, s.pending = pq → f a s = some t → t.pending = pq)
    (e : l.foldl (fun x a => x.bind (f a)) x = some u) : u.pending = pq := by
  induction l generalizing x with
  | nil => exact hx u e
  | cons a l ih =>
    refine ih (fun t ht => ?_) e
    obtain ⟨s, hs, ht⟩ := Option.bind_eq_some_iff.mp ht
    exact hf a s t (hx s hs) ht

theorem execProtect_leads {m : ProtectMsg} {s : State} (h : s.pending = pq) : Leads pq (execProtect m s) := by
  unfold execProtect
  dsimp only
  split
  · exact h
  · generalize hx : List.foldl _ _ m.shares = x
    cases x with
    | none => exact h
    | some u =>
      refine foldl_bind_pending ?_ ?_ hx
      · rintro _ ⟨⟩
        simpa using h
      · intro e s t h ht
        split at ht
        · cases ht
        · split at ht
          next hm =>
            cases ht
            split at hm
            · cases hm
              simpa using h
            · simpa [moveUnits_pending hm] using h
          · cases ht

theorem execTwinHandover_leads {seq : BitVec 32} {s : State} (h : s.pending = pq) : Leads pq (execTwinHandover seq s) := by
  unfold execTwinHandover
  dsimp only
  (repeat' split) <;> simp [h]

@[simp] theorem allowTake_pending (s : State) (i : Nat) (byHandover : Bool) : (allowTake s i byHandover).pending = s.pending := by
  simp [allowTake]

theorem execSurrender_leads {i : Nat} {jsn : BitVec 48} {s : State} (h : s.pending = pq) : Leads pq (execSurrender i jsn s) := by
  unfold execSurrender
  dsimp only
  (repeat' split) <;> simp [h]

theorem execHandover_leads {i : Nat} {jsn : BitVec 48} {s : State} (h : s.pending = pq) : Leads pq (execHandover i jsn s) := by
  unfold execHandover
  dsimp only
  (repeat' split) <;> simp [h]

@[simp] theorem leavePair_pending (s : State) : (leavePair s).pending = s.pending := by
  simp [leavePair]

theorem execPartnerLostTimeout_leads {s : State} (h : s.pending = pq) : Leads pq (execPartnerLostTimeout s) := by
  unfold execPartnerLostTimeout
  dsimp only
  (repeat' split) <;> simp [h]

theorem execFenceAsk_leads {ackLow : Bool} {s : State} (h : s.pending = pq) : Leads pq (execFenceAsk ackLow s) := by
  unfold execFenceAsk
  dsimp only
  (repeat' split) <;> simp [h]

theorem execFenceUnanswered_leads {s : State} (h : s.pending = pq) : Leads pq (execFenceUnanswered s) := by
  unfold execFenceUnanswered
  dsimp only
  (repeat' split) <;> simp [h]

theorem execFenceLatchSet_leads {s : State} (h : s.pending = pq) : Leads pq (execFenceLatchSet s) := by
  unfold execFenceLatchSet
  dsimp only
  (repeat' split) <;> simp [h]

theorem execTwinQuery_leads {seq : BitVec 32} {s : State} (h : s.pending = pq) : Leads pq (execTwinQuery seq s) := by
  unfold execTwinQuery
  dsimp only
  (repeat' split) <;> simp [h]

/-! ## Takeover and replay -/

@[simp] theorem redoOp_pending (s : State) (i : Nat) (es : List JEntry) (e : JEntry) (since : Nat) :
    (redoOp s i es e since).pending = s.pending := by
  unfold redoOp
  dsimp only
  (repeat' split) <;> simp

@[simp] theorem endedOp_pending (s : State) (i : Nat) (es : List JEntry) (e : JEntry) : (endedOp s i es e).pending = s.pending := by
  simp [endedOp]

@[simp] theorem scanJournal_pending (s : State) (i since : Nat) : (scanJournal s i since).pending = s.pending :=
  foldl_keeps State.pending (fun _ _ => by (repeat' split) <;> simp) _ _

@[simp] theorem takeOps_pending (s : State) (i : Nat) (d : List Byte) : (takeOps s i d).pending = s.pending := by
  simp [takeOps]

@[simp] theorem takeContexts_pending (s : State) (i : Nat) : (takeContexts s i).pending = s.pending := by
  simp [takeContexts]

@[simp] theorem takeControl_pending (s : State) (i : Nat) : (takeControl s i).pending = s.pending := by
  unfold takeControl
  dsimp only
  rw [reserveRings_pending, foldl_pending fun _ _ => State.setRing_pending _ _ _ _]
  refine foldl_pending fun s x => ?_
  split <;> simp

@[simp] theorem rewriteCompletions_pending (s : State) (i : Nat) : (rewriteCompletions s i).pending = s.pending := by
  simp [rewriteCompletions]

@[simp] theorem allDirty_pending (s : State) (i : Nat) : (allDirty s i).pending = s.pending := by
  unfold allDirty
  split <;> simp

@[simp] theorem logTakeover_pending (s : State) (i : Nat) : (logTakeover s i).pending = s.pending := by
  simp [logTakeover]

@[simp] theorem endForce_pending (s : State) : (endForce s).pending = s.pending := by
  unfold endForce
  split <;> simp

@[simp] theorem takeInst_pending (s : State) (i since : Nat) : (takeInst s i since).pending = s.pending := by
  simp [takeInst]

theorem execTakeover_leads {i : Nat} {s : State} (h : s.pending = pq) : Leads pq (execTakeover i s) := by
  unfold execTakeover
  dsimp only
  (repeat' split) <;> simp [h]

theorem execTwinForce_leads {seq : BitVec 32} {s : State} (h : s.pending = pq) : Leads pq (execTwinForce seq s) := by
  unfold execTwinForce
  dsimp only
  (repeat' split) <;> simp [h]

/-! ## Resets and start-up -/

@[simp] theorem coldState_pending (s : State) (cause : Nat) : (coldState s cause).pending = s.pending := rfl
@[simp] theorem warmState_pending (s : State) : (warmState s).pending = s.pending := rfl
@[simp] theorem applyPending_pending (s : State) (sealLost : Bool) : (applyPending s sealLost).pending = s.pending := rfl
@[simp] theorem measureRom_pending (s : State) : (measureRom s).pending = s.pending := rfl
@[simp] theorem tryImage_pending (s : State) (k : Nat) (m : NorImage) : (tryImage s k m).2.pending = s.pending := rfl

@[simp] theorem tryImages_pending (s : State) (l : List (Nat × NorImage)) : (tryImages s l).2.pending = s.pending := by
  induction l generalizing s with
  | nil => rfl
  | cons x l ih =>
    obtain ⟨k, m⟩ := x
    unfold tryImages
    split
    next hx => simp [snd_pending hx]
    next hx => simp [ih, snd_pending hx]

@[simp] theorem selectImage_pending (s : State) (warm : Bool) : (selectImage s warm).2.pending = s.pending := by
  simp [selectImage]

@[simp] theorem putImage_pending (s : State) (k : Nat) (m : NorImage) : (putImage s k m).pending = s.pending := rfl
@[simp] theorem loadPackage_pending (s : State) (warm sealLost : Bool) : (loadPackage s warm sealLost).2.pending = s.pending := rfl
@[simp] theorem loadCal_pending (s : State) (warm calLost : Bool) : (loadCal s warm calLost).2.pending = s.pending := rfl
@[simp] theorem writeEntry_pending (s : State) (warm : Bool) (ms : Nat) : (writeEntry s warm ms).pending = s.pending := rfl
@[simp] theorem loadMicrocode_pending (s : State) : (loadMicrocode s).pending = s.pending := rfl

@[simp] theorem fenceStart_pending (s : State) (u : UnitId) : (fenceStart s u).2.pending = s.pending := by
  unfold fenceStart
  dsimp only
  (repeat' split) <;> simp

@[simp] theorem fenceAll_pending (s : State) (l : List UnitId) : (fenceAll s l).2.pending = s.pending := by
  simp [fenceAll]

@[simp] theorem retrain_pending (s : State) (l : List (Nat × List Byte)) : (retrain s l).2.pending = s.pending := by
  unfold retrain
  dsimp only
  (repeat' split) <;> simp

@[simp] theorem copyFatal_pending (s : State) (warm : Bool) : (copyFatal s warm).pending = s.pending := by
  unfold copyFatal
  split <;> simp

@[simp] theorem logLatches_pending (s : State) : (logLatches s).pending = s.pending := by
  simp [logLatches]

@[simp] theorem logHub_pending (s : State) : (logHub s).pending = s.pending := by
  unfold logHub
  split <;> simp

@[simp] theorem logHead_pending (s : State) (warm : Bool) : (logHead s warm).pending = s.pending := by
  simp [logHead]

@[simp] theorem releaseState_pending (s : State) (warm : Bool) (r : StartResult) : (releaseState s warm r).2.pending = s.pending := by
  simp [releaseState]

@[simp] theorem startRepair_pending (s : State) (u : UnitId) (kind : Nat) : (startRepair s u kind).pending = s.pending := by
  simp [startRepair]

@[simp] theorem logStart_pending (s : State) (warm : Bool) (r : StartResult) (repairs : List Repair) (fenced : List (UnitId × Nat))
    (keyLost calBad trained : Bool) :
    (logStart s warm r repairs fenced keyLost calBad trained).pending = s.pending := by
  simp [logStart]

@[simp] theorem stayDown_pending (s : State) : (stayDown s).pending = s.pending := rfl

@[simp] theorem startSteps_pending (s : State) (warm : Bool) (r : StartResult) : (startSteps s warm r).pending = s.pending := by
  unfold startSteps
  dsimp only
  (repeat' split) <;> simp

theorem execStartUpComplete_leads {r : StartResult} {s : State} (h : s.pending = pq) : Leads pq (execStartUpComplete r s) := by
  unfold execStartUpComplete
  dsimp only
  (repeat' split) <;> simp [h]

theorem execWarmResetEnd_leads {r : StartResult} {s : State} (h : s.pending = pq) : Leads pq (execWarmResetEnd r s) := by
  unfold execWarmResetEnd
  dsimp only
  (repeat' split) <;> simp [h]

theorem execPerstAssert_leads {rails : Bool} {s : State} (h : s.pending = pq) : Leads pq (execPerstAssert rails s) := by
  unfold execPerstAssert
  dsimp only
  (repeat' split) <;> simp [h]

theorem execPerstDeassert_leads {strap : BitVec 2} {s : State} (h : s.pending = pq) : Leads pq (execPerstDeassert strap s) := by
  unfold execPerstDeassert
  dsimp only
  (repeat' split) <;> simp [h]

theorem execVauxLoss_leads {s : State} (h : s.pending = pq) : Leads pq (execVauxLoss s) := by
  simp [execVauxLoss, h]

/-! ## Clocks and power -/

theorem execHeartbeatLapse_leads {s : State} (h : s.pending = pq) : Leads pq (execHeartbeatLapse s) := by
  unfold execHeartbeatLapse
  dsimp only
  (repeat' split) <;> simp [h]

theorem execRefclkLoss_leads {s : State} (h : s.pending = pq) : Leads pq (execRefclkLoss s) := by
  unfold execRefclkLoss
  dsimp only
  (repeat' split) <;> simp [h]

theorem execThermtrip_leads {sensor : Nat} {s : State} (h : s.pending = pq) : Leads pq (execThermtrip sensor s) := by
  unfold execThermtrip
  dsimp only
  (repeat' split) <;> simp [h]

@[simp] theorem setThrottle_pending (s : State) (n : Nat) : (setThrottle s n).pending = s.pending := by
  simp [setThrottle]

theorem execThermalSample_leads {sensor : Nat} {temp : BitVec 16} {s : State} (h : s.pending = pq) :
    Leads pq (execThermalSample sensor temp s) := by
  unfold execThermalSample
  dsimp only
  (repeat' split) <;> simp [h]

theorem execThrottleRelease_leads {s : State} (h : s.pending = pq) : Leads pq (execThrottleRelease s) := by
  unfold execThrottleRelease
  dsimp only
  (repeat' split) <;> simp [h]

theorem execSleepEntry_leads {s : State} (h : s.pending = pq) : Leads pq (execSleepEntry s) := by
  unfold execSleepEntry
  dsimp only
  (repeat' split) <;> simp [h]

theorem execDeepSleepEntry_leads {s : State} (h : s.pending = pq) : Leads pq (execDeepSleepEntry s) := by
  unfold execDeepSleepEntry
  dsimp only
  (repeat' split) <;> simp [h]

theorem execPowerWake_leads {s : State} (h : s.pending = pq) : Leads pq (execPowerWake s) := by
  unfold execPowerWake
  dsimp only
  (repeat' split) <;> simp [h]

/-! ## SMBus, pins and TAP -/

theorem execEventRead_leads {s : State} (h : s.pending = pq) : Leads pq (execEventRead s) := by
  unfold execEventRead
  dsimp only
  (repeat' split) <;> simp [h]

theorem execTapInstruction_leads {t : TapInsn} {s : State} (h : s.pending = pq) : Leads pq (execTapInstruction t s) := by
  unfold execTapInstruction
  dsimp only
  (repeat' split) <;> simp [h]

/-! ## One step -/

theorem exec_leads {c : Instr} {s : State} (h : s.pending = pq) : Leads pq (exec c s) := by
  unfold exec
  cases c with
  | reqRingDoorbell => exact execReqRingDoorbell_leads h
  | cplRingDoorbell => exact execCplRingDoorbell_leads h
  | ringBaseWrite => exact execRingBaseWrite_leads h
  | reqRingCtlWrite => exact execReqRingCtlWrite_leads h
  | cplRingCtlWrite => exact execCplRingCtlWrite_leads h
  | keyStagingWrite => exact execKeyStagingWrite_leads h
  | msixVectorUnmask => exact execMsixVectorUnmask_leads h
  | registerWrite => exact execRegisterWrite_leads h
  | pcieConfigRequest => exact execPcieConfigRequest_leads h
  | requestFetchStart => exact execRequestFetchStart_leads h
  | requestEntryArrive => exact execRequestEntryArrive_leads h
  | hostReadFailed => exact execHostReadFailed_leads h
  | coalTimerExpire => exact execCoalTimerExpire_leads h
  | vfFlr => exact execVfFlr_leads h
  | pfFlr => exact execPfFlr_leads h
  | flrComplete => exact h
  | busMasterEnableSet => exact execBusMasterEnableSet_leads h
  | vfEnableClear => exact execVfEnableClear_leads h
  | hostPortReset => exact execHostPortReset_leads h
  | pf0D3hotEnter => exact execPf0D3hotEnter_leads h
  | pf0D0Return => exact execPf0D0Return_leads h
  | doeDiscovery => exact execDoeDiscovery_leads h
  | bootHead => exact execBootHead_leads h
  | bootEntries => exact execBootEntries_leads h
  | attest => exact execAttest_leads h
  | attestSigned => exact execAttestSigned_leads h
  | identityCert => exact execIdentityCert_leads h
  | measure => exact execMeasure_leads h
  | doeAbort => exact execDoeAbort_leads h
  | create => exact execCreate_leads h
  | start | query | setEngines | resize | logEnable | logDisable => exact instCommand_leads h fun _ _ _ h1 => by simpa using h1
  | quiesce => exact execQuiesce_leads h
  | quiesceComplete => exact execQuiesceComplete_leads h
  | resume => exact execResume_leads h
  | reset => exact afterOps_leads h fun _ _ _ h1 => by simpa using h1
  | destroy => exact execDestroy_leads h
  | shrinkComplete => exact execShrinkComplete_leads h
  | setWindow => exact execSetWindow_leads h
  | poolQuery => exact execPoolQuery_leads h
  | exportInst => exact execExportInst_leads h
  | importInst => exact execImportInst_leads h
  | logHarvest => exact execLogHarvest_leads h
  | logRead => exact execLogRead_leads h
  | logNotify => exact execLogNotify_leads h
  | twinQuery => exact execTwinQuery_leads h
  | twinPair => exact execTwinPair_leads h
  | twinProtect => exact execTwinProtect_leads h
  | twinHandover => exact execTwinHandover_leads h
  | twinForce => exact execTwinForce_leads h
  | selftestRun => exact execSelftestRun_leads h
  | selftestQuery => exact execSelftestQuery_leads h
  | selftestCtl => exact execSelftestCtl_leads h
  | calRead => exact execCalRead_leads h
  | calWrite => exact execCalWrite_leads h
  | recal => exact execRecal_leads h
  | repairCtl => exact execRepairCtl_leads h
  | imageQuery => exact execImageQuery_leads h
  | imageWrite => exact execImageWrite_leads h
  | imagePush => exact execImagePush_leads h
  | imageSelect => exact execImageSelect_leads h
  | imageNorWriteDone => exact execImageNorWriteDone_leads h
  | msg => exact execMsg_leads h
  | storeWrite => exact execStoreWrite_leads h
  | storeRead => exact execStoreRead_leads h
  | restart => exact execRestart_leads h
  | gcmEncrypt | gcmDecrypt | gmacGenerate | gmacVerify | xtsEncrypt | xtsDecrypt | cmacGenerate | cmacVerify | hmacGenerate | hmacVerify
  | hash =>
    exact cipherRequest_leads h
  | keyLoad | keyWrap | keyRetire | keyLimit => exact keyRequest_leads h
  | compress | decompress => exact compressRequest_leads h
  | stagingSpaceFree => exact execStagingSpaceFree_leads h
  | cipherJobStart => exact execCipherJobStart_leads h
  | cipherJobDone => exact execCipherJobDone_leads h
  | compressionJobStart => exact execCompressionJobStart_leads h
  | compressionJobDone => exact execCompressionJobDone_leads h
  | nop | feat | tbr | getf | setf | add | addc | sub | subb | mul | mulwu | mulws | divu | divs | remu | rems | cmp | neg | sext | mov | csel
  | addi | cmpi | muli | la | lax | fcmp | fcvt | fmovg | gmovf | lfpc | sfpc | shrp | cvbp | cvpb | movp | bc | bal | br | balr | bct =>
    exact regInstr_leads h
  | commit => exact execCommit_leads h
  | signalComplete | signalVe | restartVe => exact signalInstr_leads h
  | sstart => exact execSstart_leads h
  | barrier => exact execBarrier_leads h
  | xcall | zcall => exact callInstr_leads h
  | pfetch => exact execPfetch_leads h
  | clnl => exact execClnl_leads h
  | invl => exact execInvl_leads h
  | flsl => exact execFlsl_leads h
  | iinvl => exact execIinvl_leads h
  | and | or | xor | andn | shl | shr | sar | rol => exact logicRR_leads h
  | clz | popc | bswap => exact unaryG_leads h
  | andi | ori | xori => exact logicRI_leads h
  | shli | shri | sari | roli => exact shiftRI_leads h
  | ldb | ldbs | ldh | ldhs | ldw | ldws | ldd => exact loadG_leads h
  | stb | sth | stw | std => exact storeG_leads h
  | ldq | ldp => exact loadInstr_leads h
  | stq | stp => exact storeInstr_leads h
  | cas | casx => exact casInstr_leads h
  | ldx => exact execLdx_leads h
  | stx => exact execStx_leads h
  | fldx => exact execFldx_leads h
  | fstx => exact execFstx_leads h
  | fadd | fsub | fmul | fdiv | fsqrt | fma | fms | fnma | fmin | fmax => exact fpInstr_leads h
  | fneg | fabs => exact signInstr_leads h
  | fldd | flds => exact loadF_leads h
  | fstd | fsts => exact storeF_leads h
  | addp | subp => exact addSubP_leads h
  | mulp | divp | cmpp => exact decInstr_leads h
  | editp => exact execEditp_leads h
  | movb => exact blockInstr_leads h fun _ _ _ h1 => movbElem_yields h1
  | fillb => exact blockInstr_leads h fun _ _ _ h1 => fillbElem_yields h1
  | cmpb => exact blockInstr_leads h fun _ _ _ h1 => cmpbElem_yields h1
  | scanb => exact blockInstr_leads h fun _ _ _ h1 => scanbElem_yields h1
  | translate => exact blockInstr_leads h fun _ _ _ h1 => translateElem_yields h1
  | trtb => exact blockInstr_leads h fun _ _ _ h1 => trtbElem_yields h1
  | crcb => exact blockInstr_leads h fun _ _ _ h1 => crcbElem_yields h1
  | mulmb => exact blockInstr_leads h fun _ _ _ h1 => mulmbElem_yields h1
  | mfk => exact execMfk_leads h
  | mtk => exact execMtk_leads h
  | wait => exact execWait_leads h
  | rfi => exact execRfi_leads h
  | lra => exact execLra_leads h
  | tlbi => exact execTlbi_leads h
  | tlbia => exact execTlbia_leads h
  | invr => exact execInvr_leads h
  | lockw => exact execLockw_leads h
  | unlkw => exact execUnlkw_leads h
  | undefinedOpcode => exact execUndefinedOpcode_leads h
  | interruptionTake => exact execInterruptionTake_leads h
  | clockComparator => exact execClockComparator_leads h
  | engineTimer => exact execEngineTimer_leads h
  | timeSliceEnd => exact execTimeSliceEnd_leads h
  | veDispatch => exact execVeDispatch_leads h
  | autoCommit => exact execAutoCommit_leads h
  | commitPointComplete => exact execCommitPointComplete_leads h
  | commitOnSteal => exact execCommitOnSteal_leads h
  | lineFillComplete => exact execLineFillComplete_leads h
  | domeScrub => exact execDomeScrub_leads h
  | checkpointScrub => exact execCheckpointScrub_leads h
  | storeScrub => exact execStoreScrub_leads h
  | cacheError => exact execCacheError_leads h
  | storeReadError => exact execStoreReadError_leads h
  | addressParityError => exact execAddressParityError_leads h
  | checkLineWriteback => exact execCheckLineWriteback_leads h
  | granuleZeroDone => exact execGranuleZeroDone_leads h
  | engineFaultDetected => exact execEngineFaultDetected_leads h
  | engineCheckstop => exact execEngineCheckstop_leads h
  | quickCheckEnd => exact execQuickCheckEnd_leads h
  | fuseReserveUp => exact execFuseReserveUp_leads h
  | d2dModuleFail => exact execD2dModuleFail_leads h
  | domeFail => exact execDomeFail_leads h
  | mainStoreChannelFail => exact execMainStoreChannelFail_leads h
  | hbmStackFail => exact execHbmStackFail_leads h
  | hubBlockFail => exact execHubBlockFail_leads h
  | cheStop => exact execCheStop_leads h
  | cipherEngineStop => exact execCipherEngineStop_leads h
  | compressionEngineStop => exact execCompressionEngineStop_leads h
  | spireStop => exact execSpireStop_leads h
  | belfryStop => exact execBelfryStop_leads h
  | selftestControllerStop => exact execSelftestControllerStop_leads h
  | timebaseCounterFail => exact execTimebaseCounterFail_leads h
  | heartbeatLapse => exact execHeartbeatLapse_leads h
  | refclkLoss => exact execRefclkLoss_leads h
  | thermtrip => exact execThermtrip_leads h
  | thermalSample => exact execThermalSample_leads h
  | throttleRelease => exact execThrottleRelease_leads h
  | sleepEntry => exact execSleepEntry_leads h
  | deepSleepEntry => exact execDeepSleepEntry_leads h
  | powerWake => exact execPowerWake_leads h
  | perstAssert => exact execPerstAssert_leads h
  | perstDeassert => exact execPerstDeassert_leads h
  | startUpComplete => exact execStartUpComplete_leads h
  | headSigned => exact execHeadSigned_leads h
  | vauxLoss => exact execVauxLoss_leads h
  | warmReset | select | alertAck | objSelect | attestStart | pkgWrite | pkgCommit => exact smbusWrite_leads h fun _ h => by simpa using h
  | warmResetEnd => exact execWarmResetEnd_leads h
  | clkStatus | gateRead | health | pkgStatus | bistStatus | calStatus => exact smbusRead_leads h
  | eventRead => exact execEventRead_leads h
  | objStatus => exact execObjStatus_leads h
  | objRead => exact execObjRead_leads h
  | eventMergeFlush => exact execEventMergeFlush_leads h
  | rollingTestStart => exact execRollingTestStart_leads h
  | rollingTestEnd => exact execRollingTestEnd_leads h
  | cheStartOperation => exact execCheStartOperation_leads h
  | deviceCompletion => exact execDeviceCompletion_leads h
  | commandTimeout => exact execCommandTimeout_leads h
  | pathLost => exact execPathLost_leads h
  | pathReissue => exact execPathReissue_leads h
  | pathWaitExpire => exact execPathWaitExpire_leads h
  | pathReturn => exact execPathReturn_leads h
  | endEntryCommit => exact execEndEntryCommit_leads h
  | adapterMsix => exact execAdapterMsix_leads h
  | waitintTimeout => exact execWaitintTimeout_leads h
  | adapterDma => exact execAdapterDma_leads h
  | jalarnLinkUp => exact execJalarnLinkUp_leads h
  | ident => exact execIdent_leads h
  | jalarnFlitReceive => exact execJalarnFlitReceive_leads h
  | pair => exact execPair_leads h
  | protect => exact execProtect_leads h
  | copyDone => exact execCopyDone_leads h
  | surrender _ jsn => exact execSurrender_leads (jsn := jsn) h
  | handover _ jsn => exact execHandover_leads (jsn := jsn) h
  | mirrorAck => exact execMirrorAck_leads h
  | stagingApply => exact execStagingApply_leads h
  | mirrorRefill => exact execMirrorRefill_leads h
  | partnerLostTimeout => exact execPartnerLostTimeout_leads h
  | fenceAsk => exact execFenceAsk_leads h
  | fenceLatchSet => exact execFenceLatchSet_leads h
  | fenceUnanswered => exact execFenceUnanswered_leads h
  | takeover => exact execTakeover_leads h
  | receiverLockLost => exact execReceiverLockLost_leads h
  | hostTransferDone => exact execHostTransferDone_leads h
  | calNorWriteDone => exact execCalNorWriteDone_leads h
  | pkgCheckDone => exact execPkgCheckDone_leads h
  | tapInstruction => exact execTapInstruction_leads h

end Sys2Proof.Machine

namespace Sys2Proof.Machine

open Sys2Proof

/-- Settles O2: every command leads to a state, and that state has the queue of the state before it. -/
theorem everyCommandHasANextState : Obligations.EveryCommandHasANextState := by
  unfold Obligations.EveryCommandHasANextState
  intro c s
  have h : Leads s.pending (exec c s) := exec_leads rfl
  cases e : exec c s with
  | next t =>
    rw [e] at h
    exact ⟨t, rfl, h⟩
  | _ =>
    rw [e] at h
    exact h.elim

end Sys2Proof.Machine
